-- ==== Sys2Proof/Word.lean ====
section
/-!
DEFINITION. The words the manual counts in (00_scope.md): bytes, 32-bit record words, 64-bit floats.
-/

namespace Sys2Proof

/-- A byte of any memory of the device. -/
abbrev Byte := BitVec 8

/-- One word of a record, a parameter block or an instruction (00_scope.md: "Their words are 32 bits each"). -/
abbrev W32 := BitVec 32

/-- A float of the float bank (R166). -/
abbrev W64 := BitVec 64

end Sys2Proof
end

