-- ==== Sys2Proof/Syntax.lean ====
section
/-!
DEFINITION. The commands of the block: one constructor for each row of spec/opcode_table.json, with its operands,
and the plain records that carry what a surrounding says to the device.
-/

namespace Sys2Proof

/-- The path of a dictionary access (Table 20.2): I3C, VDM on a port (0 A, 1 B), the dictionary window of a
function (with the T bit of an IDE stream or without, R509), or the fabric path. -/
inductive Path where
  | i3c
  | vdm (port : Nat)
  | window (sel : Nat) (tbit : Bool)
  | fabric
  deriving DecidableEq, Repr

/-- A received fabric packet after decryption (Table 15.2). `tagOk` is whether its GCM tag verified; `exact` whether
the requester's context is of exact mode; `newOwner` the device a HANDOFF names; `marks` the marked bytes of a BLOCK;
`reply` whether a COPY_DATA answers a COPY_REQ. -/
structure Packet where
  src      : Nat := 0
  srcFn    : Nat := 0
  dstFn    : Nat := 0
  sub      : Nat := 0
  seq      : Nat := 0
  ctx      : Nat := 0
  epoch    : Nat := 0
  len      : Nat := 0
  aop      : Nat := 0
  signed   : Bool := false
  status   : Nat := 0
  req      : Nat := 0
  addr     : Nat := 0
  exact    : Bool := false
  newOwner : Nat := 0
  rfAdd    : Nat := 0
  data     : List Byte := []
  marks    : List (Nat × Byte) := []
  reply    : Bool := false
  deriving DecidableEq, Repr

/-- A received U-plane frame holding one section (R302, R309). `stamp` is its receive stamp (R328) in units of 2^-16 ns;
`wellFormed` says that its Ethernet, eCPRI and O-RAN headers parse and stay inside Table 11.2. -/
structure UFrame where
  dmac       : Nat := 0
  vlan       : Nat := 0
  eaxc       : Nat := 0
  seqid      : Nat := 0
  ebit       : Bool := true
  subseq     : Nat := 0
  wellFormed : Bool := true
  frameId    : Nat := 0
  subframe   : Nat := 0
  slot       : Nat := 0
  symbol     : Nat := 0
  startPrb   : Nat := 0
  numPrb     : Nat := 0
  method     : Nat := 0
  width      : Nat := 0
  skew       : Int := 0                  -- how far its stamp is off, in 2^-16 ns, within 2 ns (R328)
  iq         : List Byte := []
  deriving DecidableEq, Repr

/-- A received PTP message (R324): 0 Sync, 1 Announce, 2 Delay_Resp, 3 Delay_Req, 4 any other. -/
structure PtpMsg where
  kind       : Nat := 0
  domain     : Nat := 0
  seq        : Nat := 0
  clockClass : Nat := 0
  utcOffset  : Nat := 0
  dataset    : List Nat := []            -- what the alternate BMCA compares (ITU-T G.8275.1)
  skew       : Int := 0                  -- as in UFrame
  deriving DecidableEq, Repr

/-- What a lane's receiver finds in one block (R407): a good block, a corrected one, or an uncorrectable one. -/
inductive BlockKind where
  | clean
  | corrected
  | uncorrectable
  deriving DecidableEq, Repr

/-- One packet of a block as the receiver sees it before it is applied: source, transmit counter, tag outcome, and its
64-byte slots (R407, R412). -/
structure BlockPacket where
  src   : Nat
  nctr  : Nat
  tagOk : Bool
  cls   : Nat
  slots : Nat
  deriving DecidableEq, Repr

/-- The master's records that a VIEW copies to the standby (R450): device and health score, device and firmware state, and the
spare count. -/
structure MasterCopy where
  health   : List (Nat × Nat) := []
  firmware : List (Nat × Nat) := []
  spares   : Nat := 0
  deriving DecidableEq, Repr

/-- What the tests of a priming find (R482-R489, R493): every outcome that the device's own hardware decides. -/
structure PrimeResult where
  imageCheck   : Nat := 0            -- Table 19.3 code of the first failing check other than 4, 0 where they pass
  imageSvn     : Nat := 0            -- SVN of the boot slot's image (Table 19.2)
  channelFail  : Bool := false       -- a GDDR7 channel failed training
  memoryFail   : Bool := false       -- a codeword failed the memory test
  cisternFail  : Bool := false
  spineFail    : Bool := false
  badCores     : List Nat := []      -- physical compute cores that failed a test
  badChans     : List Nat := []      -- physical channel cores that failed a test
  badUnits     : List Nat := []      -- calendar IDs of failed instances of the other classes
  kept         : List (Nat × Nat) := [] -- channel, codewords kept with one failing symbol
  lanesUp      : List Nat := []      -- fabric lanes that trained
  fhLanesUp    : List Nat := []      -- fronthaul lanes that trained
  idleEnergy   : Nat := 0            -- measured idle energy per window, tokens
  recordOk     : Bool := true        -- the harvest record in flash verifies and is the last one written
  firmwareSame : Bool := true
  trainingOk   : Bool := true
  rejected     : List Nat := []      -- indices of stored objects whose record was rejected (R504)
  durationMs   : Nat := 0
  deriving DecidableEq, Repr

/-- The unlock token of Table 19.9; `sigOk` is whether its signature verifies (R511). -/
structure UnlockToken where
  format : Nat
  scope  : Nat
  serial : Nat
  nonce  : Nat
  zero   : Bool
  sigOk  : Bool
  deriving DecidableEq, Repr

/-- The commands. Operands: `cid` is the number of a submitted command of the state, `cal` a calendar ID (R34),
`path` the path of a dictionary write, `fn` a function selector, `cc` a channel core, `relay` whether the receiver is to
pass a domain message on to the rest of its rack (R443), `header` the four words of Table 20.3 as one number. -/
inductive Instr where
  -- calendar (02)
  | frameTick (f seam : Nat) (temps : List Int)  -- frame that the tick carries, cycles of the seam when it acts, GDDR7 temperatures
  | seamTimeout
  | gutterStart (cal : Nat)
  | preludeStart (cal : Nat)
  | radioIntervalEnd (cal : Nat)
  | engineOffer (cal : Nat)
  | radioCommandStart (cid : Nat)
  | exactCommandStart (cid : Nat)
  | commandEnd (cid : Nat)
  | swapArmAtFrame (path : Path)
  | swapArmTakeover (path : Path)
  | swapDisarm (path : Path)
  | validationEnd
  | pageSwap
  | takeoverBoundary
  | cellEntersCalendar (cell : Nat)
  | cellLeavesCalendar (cell : Nat)
  | latenessReport (cal cause : Nat) (cids : List Nat)
  | calendarWaitRelease (cid : Nat)
  -- windows and contexts (07)
  | windowWordWrite (fn slot word : Nat) (value : W32) (enables : Nat) (tbit : Bool)
  | recordConsume (fn : Nat)
  | creditWrite (fn n enables : Nat) (tbit : Bool)
  | completionWrite (cid : Nat)
  | moderationDelayExpiry (fn : Nat)
  | contextOpen (path : Path) (fn request : Nat)
  | contextClose (path : Path) (fn ctx : Nat)
  | contextNumberFreed (ctx : Nat)
  -- matrix (03, 04, 07)
  | folios (cid : Nat)
  | combine (cid : Nat)
  -- vector (05)
  | vectorAdd (cid : Nat) | vectorSub (cid : Nat) | vectorMul (cid : Nat) | vectorFma (cid : Nat)
  | vectorMax (cid : Nat) | vectorMin (cid : Nat) | vectorAbs (cid : Nat) | vectorNeg (cid : Nat)
  | vectorCvt (cid : Nat) | vectorCmp (cid : Nat) | vectorSel (cid : Nat) | vectorLogic (cid : Nat)
  | vectorDiv (cid : Nat) | vectorSqrt (cid : Nat) | vectorRecip (cid : Nat) | vectorRsqrt (cid : Nat)
  | vectorExp (cid : Nat) | vectorLog (cid : Nat) | vectorSigmoid (cid : Nat) | vectorTanh (cid : Nat)
  | vectorSilu (cid : Nat) | vectorGelu (cid : Nat) | vectorSubexp (cid : Nat)
  | vectorRsum (cid : Nat) | vectorRprod (cid : Nat) | vectorRmax (cid : Nat) | vectorRmin (cid : Nat)
  | vectorArgmax (cid : Nat) | vectorArgmin (cid : Nat) | vectorCount (cid : Nat)
  | vectorPerm (cid : Nat) | vectorGather (cid : Nat) | vectorScatter (cid : Nat)
  | quant (cid : Nat)
  -- pumps, floats, fences (06, 07)
  | pumpCopy (cid : Nat)
  | pumpTranspose (cid : Nat)
  | floatWait (cid : Nat)
  | floatWaitMet (cid : Nat)
  | floatWaitTimeout (cid : Nat)
  | floatSignalAdd (cid : Nat)
  | floatSignalSet (cid : Nat)
  | fenceLocal (cid : Nat)
  | fenceFabric (cid : Nat)
  -- fabric records (15)
  | fabricLoad (cid : Nat)
  | fabricStore (cid : Nat)
  | atomicAdd (cid : Nat)
  | atomicMin (cid : Nat)
  | atomicMax (cid : Nat)
  | atomicSwap (cid : Nat)
  | atomicCompareSwap (cid : Nat)
  | copyIn (cid : Nat)
  | copyOut (cid : Nat)
  | fabricHandoff (cid : Nat)
  | fabricRelease (cid : Nat)
  | remoteProcedureTrigger (cid : Nat)
  | fabricStepIssue (cid : Nat)
  -- serving (08)
  | kvStep (cid : Nat)
  | sample (cid : Nat)
  | gatherRows (cid : Nat)
  | gatherRoute (cid : Nat)
  | scatterOverwrite (cid : Nat)
  | scatterAddFp32 (cid : Nat)
  | scatterAddBf16 (cid : Nat)
  -- radio engines (09, 10, 11)
  | ldpcDecode (cid : Nat)
  | ldpcEncode (cid : Nat)
  | turboEncode (cid : Nat)
  | polarDecode (cid : Nat)
  | reedMullerDecode (cid : Nat)
  | repetitionSimplexDecode (cid : Nat)
  | polarEncode (cid : Nat)
  | tbccEncode (cid : Nat)
  | viterbiDecode (cid : Nat)
  | turboDecode (cid : Nat)
  | prachDetect (cid : Nat)
  | pucchFormat0Detect (cid : Nat)
  | pucchFormat1Detect (cid : Nat)
  | srsMeasure (cid : Nat)
  | despread (cid : Nat)
  | demap (cid : Nat)
  | harqCombine (cid : Nat)
  | pilotTrack (cid : Nat)
  | radioSpinePumpJob (cid : Nat)
  | radioFabricPumpJob (cid : Nat)
  | deliver (cid : Nat)
  | uplaneTx (cid : Nat)
  | cplaneTx (cid : Nat)
  | rawTx (cid : Nat)
  | channelCoreRun (cid : Nat)
  | channelCoreFill (cid : Nat)
  | channelCoreDrain (cid : Nat)
  -- calendar markers
  | calendarWait (cid : Nat)
  | stamp (cid : Nat)
  | calendarRelease (cid : Nat)
  | calendarLoad (cid : Nat) (image : List Byte)   -- the bytes the host's memory returns
  -- memory events (06)
  | pieceLand (pid : Nat)
  | memoryReadArrival (rid : Nat) (bits : List (Nat × Nat)) -- read, bits disturbed on its way: pin, unit interval of the nine bursts
  | bucketPresent (rid : Nat)
  | cisternScrub
  | floatRangeWrite (path : Path) (fn sub value : Nat)
  | landingZoneSizeWrite (path : Path) (core z : Nat)
  -- channel-core instructions (10)
  | nop (cc : Nat) | halt (cc : Nat) | br (cc : Nat) | loop (cc : Nat) | loopx (cc : Nat) | brk (cc : Nat)
  | movi (cc : Nat) | mov (cc : Nat)
  | aluAdd (cc : Nat) | aluSub (cc : Nat) | aluAnd (cc : Nat) | aluOr (cc : Nat) | aluXor (cc : Nat)
  | aluShl (cc : Nat) | aluShrArithmetic (cc : Nat) | aluShrLogical (cc : Nat) | aluCmp (cc : Nat)
  | cadd (cc : Nat) | csub (cc : Nat) | conj (cc : Nat) | swapIq (cc : Nat) | cneg (cc : Nat)
  | ld (cc : Nat) | st (cc : Nat) | ldx (cc : Nat)
  | ldxDataArrival (cc thread : Nat)
  | stx (cc : Nat)
  | stxLanding (pid : Nat)
  | ldf (cc : Nat)
  | ldfReply (cc thread status : Nat) (data : List Byte)
  | ldfWaitExpiry (cc thread : Nat)
  | cmac (cc : Nat) | cmac4 (cc : Nat) | cmac4m (cc : Nat) | ftap (cc : Nat) | clra (cc : Nat)
  | sta (cc : Nat) | sta4 (cc : Nat) | rda (cc : Nat)
  -- cells (09, 16)
  | cellActivate (path : Path) (cell : Nat)
  | cellDeactivate (path : Path) (cell : Nat)
  | crbWrite (path : Path) (value : Nat)
  | cellRecordUpdate (cell : Nat)
  | standbyCellWrite (path : Path) (cell value : Nat)
  -- fronthaul and time (11)
  | groupModeWrite (path : Path) (group mode : Nat)
  | uplaneSectionReceive (lane : Nat) (frame : UFrame)
  | cplaneReceive (lane : Nat)
  | ecpriDelayRequestReceive (lane measurement : Nat) (skew : Int)
  | ecpriDelayResponseReceive (lane measurement t1 : Nat) (tcv1 : Int) (t2 : Nat) (tcv2 : Int)
  | ptpReceive (port : Nat) (msg : PtpMsg)
  | esmcReceive (lane quality : Nat)
  | stagingExpiry (lane : Nat)
  | frameDepart (lane : Nat) (skew : Int)
  | ppsEdge (tb0 tb2 : Nat)         -- the counts of TB0 and TB2 at the edge
  | syncTransmit (port : Nat)
  | ptmExchange (master roundTrip : Nat)
  | phaseMeasurement (base : Nat) (error : Int)
  | referenceLossTimeout (base : Nat)
  | servoRearm (path : Path) (base : Nat)
  | crossSnapshot (path : Path)
  -- tenancy (12)
  | grantCreate (path : Path) (fn : Nat)
  | grantDestroy (path : Path) (fn : Nat)
  | grantComponentWrite (path : Path) (fn sub value : Nat)
  | functionResetRequest (path : Path) (fn : Nat)
  | functionResetEnd (fn : Nat)
  | retireAckTimeout (fn : Nat)
  | radioOwnerWrite (path : Path) (value : Nat)
  | coreAcquire (cid : Nat)
  | coreRelease (path : Path) (fn core : Nat)
  | preemptRequest (path : Path) (fn : Nat)
  | claimPreemption (core : Nat)
  | saveStart (core : Nat)
  | saveDone (core : Nat)
  | restoreDone (core : Nat)
  -- energy (13)
  | energyWindowStart (junction : Int)
  | energyReport (window measured : Nat)
  | standingReserveRaise
  | standingReserveLower
  | powerLimitWrite (path : Path) (value : Nat)
  -- GDDR7 (14)
  | refreshRun (channel : Nat)
  | refreshOwedTick (channel : Nat)
  | gddr7Scrub (channel : Nat) (bits : List (Nat × Nat)) (intervened : Bool)
  -- fabric lanes and packets (15)
  | fabricLaneDown (lane : Nat)
  | fabricLaneTrained (lane : Nat) (identityOk : Bool)
  | laneBlockReceive (lane : Nat) (kind : BlockKind) (bseq back : Nat) (credits : List Nat) (packets : List BlockPacket)
  | laneRoleWrite (path : Path) (lane role : Nat)
  | sessionKeying (device : Nat) (peerOk : Bool)
  | loadReq (p : Packet)
  | loadData (p : Packet)
  | store (p : Packet)
  | atomic (p : Packet)
  | atomicResult (p : Packet)
  | atomicLineWriteBack (line : Nat)
  | copyReq (p : Packet)
  | copyData (p : Packet)
  | handoff (p : Packet)
  | ownerNotice (p : Packet)
  | trigger (p : Packet)
  | triggeredJobStart (proc : Nat)
  | triggerDone (p : Packet)
  | ack (p : Packet)
  | refuse (p : Packet)
  | retire (p : Packet)
  | block (p : Packet)
  | resendTimeout (fn device sub : Nat)
  | endpointControlWrite (path : Path) (fn value : Nat)
  | regionControlWrite (path : Path) (fn value : Nat)
  | procedureControlWrite (path : Path) (fn value : Nat)
  -- domain (16)
  | beatSend
  | joinResend
  | pbeatSend
  | timeReqSend
  | missedBeatsDeclare (device : Nat)
  | selfFence
  | standbyPromotion
  | masterListenExpiry
  | viewRepeat
  | partnerUnprotectedTimeout
  | shipmentStart
  | cellsStop
  | beat (device epoch score fwState : Nat)
  | beatAck (device epoch : Nat)
  | join (device number : Nat) (identityOk : Bool)
  | view (master standby epoch : Nat) (members : List Nat) (copy : MasterCopy) (rearm relay : Bool)
  | declare (device cause epoch : Nat) (relay : Bool)
  | fenceNotice (epoch : Nat)
  | timeReq (device t1 t2 : Nat)
  | timeResp (t1 t2 t3 t4 : Nat)
  | pbeat (state frame : Nat)
  | pstate (frame offset total : Nat) (data : List Byte)
  | relinquish (frame : Nat)
  | claim (frame : Nat)
  | chunk (index count version : Nat) (verified relay : Bool)
  | bitmap (device : Nat) (held : List Nat)
  | prepare (version : Nat) (relay : Bool)
  | vote (device : Nat) (yes : Bool)
  | commit (version : Nat)
  | abort (version : Nat)
  | commitTimeout
  | dictReq (header : Nat) (data : List Byte) (relay : Bool)
  | dictResp (device header : Nat) (data : List Byte)
  | handBackWrite (path : Path) (frame : Nat)
  | expel (path : Path) (device : Nat)
  | readmit (path : Path) (device : Nat)
  | configuredMasterWrite (path : Path) (value : Nat)
  | firmwareDistributionStart (path : Path) (length version : Nat)
  -- dictionary (20, 21)
  | dictRead (path : Path) (sel index sub offset length : Nat)
  | dictInfo (path : Path) (sel index sub : Nat)
  | objectWrite (path : Path) (sel index sub length value : Nat)
  | dictLatchExpiry (path : Path)
  | storedWriteCommit (flashOk : Bool)
  | remoteDictSubmit (path : Path) (header : Nat)
  | remoteDictRetry
  | remoteDictTimeout
  | mctpControlMessage (path : Path) (command value : Nat)
  | holderClaim (path : Path) (index sub sel : Nat)
  | holderRelease (path : Path) (index sub : Nat)
  | holderTakeAway (path : Path) (index sub value : Nat)
  | watchdogArm (path : Path) (timer setting : Nat)
  | watchdogKick (path : Path) (timer : Nat)
  | watchdogExpiry (timer : Nat)
  | gpioControlWrite (path : Path) (pin value : Nat)
  | ledgerRead (path : Path) (sel index sub : Nat)
  | healthScoreUpdate
  | unitFence (cal : Nat)
  -- host ports (22)
  | pcieLinkDown (port : Nat)
  | hotReset (port : Nat)
  | perstAssert (port : Nat)
  | vfFlr (fn : Nat)
  | pfFlr (port : Nat)
  | d3hotToD0 (fn : Nat)
  | vfEnableClear (port : Nat)
  | ptmEnableClear
  | msixUnmask (fn vector : Nat)
  | noticeClear (path : Path) (fn bits : Nat)
  | correctableLinkError (port : Nat)
  | poisonedWrite (fn target : Nat)
  | hostReadCompletionError (port : Nat) (firmware : Bool) (cid : Nat)
  | fatalLinkError (port : Nat)
  -- SPDM and security (19); transport 0 DOE A, 1 DOE B, 2 I3C, 3 VDM A, 4 VDM B
  | getVersion (transport : Nat)
  | getCapabilities (transport : Nat)
  | negotiateAlgorithms (transport : Nat) (supported : Bool)
  | getDigests (transport : Nat)
  | getCertificate (transport slot offset length : Nat)
  | challenge (transport slot : Nat)
  | getMeasurements (transport index : Nat) (signed : Bool)
  | keyExchange (transport : Nat)
  | finish (transport session : Nat) (macOk : Bool)
  | endSession (transport session : Nat)
  | heartbeat (transport session : Nat)
  | keyUpdate (transport session : Nat)
  | chunkSend (transport : Nat) (last : Bool) (bytes : Nat)
  | chunkGet (transport offset : Nat)
  | vendorDefinedRequest (transport session protocol op arg : Nat)
  | lockInterface (fn transport session stream : Nat)
  | svnCommit (path : Path)
  | unlockNonceRead (path : Path)
  | unlockTokenWrite (path : Path) (token : UnlockToken)
  | entropyFailure
  | timingModeWrite (path : Path) (value : Nat)
  | timingModeChange
  -- reset and power (18, 23)
  | pwrGoodRise
  | pwrGoodFall
  | sysResetNDeassert
  | resetRequestWarm (path : Path)
  | resetRequestCold (path : Path)
  | resetStart
  | coldPriming (result : PrimeResult)
  | warmPriming (result : PrimeResult)
  | railUndervoltage (rail : Nat)
  | serRefclkLoss
  | thermalTrip
  | fronthaulLaneDown (lane : Nat)
  | fronthaulLaneTrained (lane : Nat)
  | pcieLinkUp (port speed width : Nat)
  | perstDeassert (port : Nat)
  | sysResetNAssert
  | d3hotEntry (fn : Nat)
  | numvfsWrite (port num : Nat) (enable : Bool)
  | entropyTestPass
  | vddIo18InTolerance
  | vddAonLoss
  deriving DecidableEq, Repr

end Sys2Proof
end

