-- ==== Sys2Proof/Decode.lean ====
section
/-!
DEFINITION. Commands as table words. Every row of spec/opcode_table.json has an empty list of fields: a command reaches the
device as a register write, a message or an event, and no word spells one (log entry 25). The instruction words that the
block does have are decoded where they are fetched: command records in Machine/Commands.lean (Table 7.1), channel-core
instructions in Machine/ChanInstr.lean (Table 10.2).
-/

namespace Sys2Proof

/-- The command that a word of the table's bits spells: none, since no row gives bits. -/
def decodeTableWord (_nbits _w : Nat) : Option Instr := none

end Sys2Proof
end

