-- ==== Sys2Proof/Machine/Bits.lean ====
section
/-!
DEFINITION. Bit fields, sign extension and byte order (00_scope.md: little-endian, bit 0 least significant).
-/

namespace Sys2Proof

/-- Bits [lo + n - 1 : lo] of a number. -/
def fld (x lo n : Nat) : Nat := x / 2 ^ lo % 2 ^ n

/-- Bits [lo + n - 1 : lo] of a word. -/
def W32.fld (w : W32) (lo n : Nat) : Nat := Sys2Proof.fld w.toNat lo n

/-- One bit of a word. -/
def W32.bit (w : W32) (i : Nat) : Bool := Sys2Proof.fld w.toNat i 1 == 1

/-- A field replaced by a value. -/
def setFld (x lo n v : Nat) : Nat := x - fld x lo n * 2 ^ lo + v % 2 ^ n * 2 ^ lo

/-- The signed reading of an n-bit number. -/
def sgn (n x : Nat) : Int := if x % 2 ^ n < 2 ^ (n - 1) then (x % 2 ^ n : Nat) else (x % 2 ^ n : Nat) - (2 ^ n : Nat)

/-- The n-bit two's-complement code of an integer. -/
def unsgn (n : Nat) (x : Int) : Nat := (x % (2 ^ n : Nat)).toNat

/-- Smallest quotient not below a / b. -/
def cdiv (a b : Nat) : Nat := (a + b - 1) / b

/-- The number that little-endian bytes spell. -/
def leNat : List Byte → Nat
  | [] => 0
  | b :: bs => b.toNat + 256 * leNat bs

/-- The n little-endian bytes of a number. -/
def leBytes : Nat → Nat → List Byte
  | 0, _ => []
  | n + 1, x => BitVec.ofNat 8 x :: leBytes n (x / 256)

/-- The 32-bit words of a byte string, first word at the lowest address. -/
def bytesToWords : List Byte → List W32
  | a :: b :: c :: d :: bs => BitVec.ofNat 32 (leNat [a, b, c, d]) :: bytesToWords bs
  | _ => []

/-- The bytes of 32-bit words. -/
def wordsToBytes (ws : List W32) : List Byte := ws.flatMap (fun w => leBytes 4 w.toNat)

/-- Element i of a list of words, 0 beyond its end. -/
def wd (ws : List W32) (i : Nat) : W32 := ws.getD i 0

/-- Two words as one 64-bit number, low word first. -/
def wd64 (ws : List W32) (i : Nat) : Nat := (wd ws i).toNat + (wd ws (i + 1)).toNat * 2 ^ 32

/-- The numbers a, a + 1, … of a count. -/
def span (a n : Nat) : List Nat := (List.range n).map (· + a)

/-- A list cut into pieces of n (the last may be shorter). -/
def chunksOf {α : Type} (n : Nat) : Nat → List α → List (List α)
  | 0, _ => []
  | fuel + 1, l => if l.isEmpty then [] else l.take n :: chunksOf n fuel (l.drop n)

/-- CRC-32C (Castagnoli) of one byte, reflected, polynomial 0x82F63B78. -/
def crc32cByte (c : Nat) (b : Byte) : Nat :=
  (List.range 8).foldl (fun x _ => if x % 2 = 1 then (x / 2) ^^^ 0x82F63B78 else x / 2) (c ^^^ b.toNat)

/-- CRC-32C of a byte string (R38, R453). -/
def crc32c (bs : List Byte) : Nat := (bs.foldl crc32cByte 0xFFFFFFFF) ^^^ 0xFFFFFFFF

end Sys2Proof
end

