-- ==== Sys2Proof/Machine/Formats.lean ====
section
/-!
DEFINITION. Number formats and conversions (03): exact dyadic values, decoding and rounding of every float format of
Tables 3.1 and 5.1, stochastic rounding with Philox-4x32-10, and integers.
-/

namespace Sys2Proof.Machine

/-- A number that an engine reads or forms: NaN, a signed infinity, or plus or minus m times 2^e. -/
inductive Num where
  | nan
  | inf (neg : Bool)
  | fin (neg : Bool) (m : Nat) (e : Int)
  deriving DecidableEq, Repr

def Num.zero : Num := .fin false 0 0
/-- An integer as a number. -/
def Num.ofInt (x : Int) : Num := .fin (decide (x < 0)) x.natAbs 0
def Num.neg : Num → Num
  | .nan => .nan
  | .inf n => .inf !n
  | .fin n m e => .fin (!n) m e
def Num.isZero : Num → Bool
  | .fin _ m _ => m == 0
  | _ => false
def Num.isNan (x : Num) : Bool := x == .nan
def Num.isInf : Num → Bool
  | .inf _ => true
  | _ => false
def Num.isNeg : Num → Bool
  | .nan => false
  | .inf n => n
  | .fin n _ _ => n

/-- The signed numerator of a finite number at an exponent not above its own. -/
def Num.at (neg : Bool) (m : Nat) (e lo : Int) : Int :=
  let k : Int := (m * 2 ^ (e - lo).toNat : Nat)
  if neg then -k else k

/-- IEEE 754 addition, exact: a zero sum is +0 unless both are -0 (R82). -/
def Num.add : Num → Num → Num
  | .nan, _ => .nan
  | _, .nan => .nan
  | .inf a, .inf b => if a == b then .inf a else .nan
  | .inf a, _ => .inf a
  | _, .inf b => .inf b
  | .fin a m e, .fin b n f =>
    let lo := min e f
    let k := Num.at a m e lo + Num.at b n f lo
    if k = 0 then .fin (a && b) 0 0 else .fin (decide (k < 0)) k.natAbs lo
def Num.sub (x y : Num) : Num := x.add y.neg

/-- IEEE 754 multiplication, exact. -/
def Num.mul : Num → Num → Num
  | .nan, _ => .nan
  | _, .nan => .nan
  | .inf a, .inf b => .inf (a != b)
  | .inf a, .fin b m _ => if m = 0 then .nan else .inf (a != b)
  | .fin a m _, .inf b => if m = 0 then .nan else .inf (a != b)
  | .fin a m e, .fin b n f => .fin (a != b) (m * n) (e + f)

/-- Three-way comparison of numbers that are not NaN: less, equal, greater. -/
def Num.cmp : Num → Num → Ordering
  | .inf a, .inf b => if a == b then .eq else if a then .lt else .gt
  | .inf a, _ => if a then .lt else .gt
  | _, .inf b => if b then .gt else .lt
  | .fin a m e, .fin b n f => compare (Num.at a m e (min e f)) (Num.at b n f (min e f))
  | _, _ => .eq

/-- A quotient of finite numbers, truncated far below any rounding with a sticky last bit. -/
def Num.quot (a : Bool) (m : Nat) (e : Int) (b : Bool) (n : Nat) (f : Int) : Num :=
  let k := 160 + n.log2
  let q := m * 2 ^ k / n
  .fin (a != b) (2 * q + (if m * 2 ^ k % n = 0 then 0 else 1)) (e - f - k - 1)

/-- Division at its boundary values (R135, Table 5.3). -/
def Num.div : Num → Num → Num
  | .nan, _ => .nan
  | _, .nan => .nan
  | .inf _, .inf _ => .nan
  | .inf a, .fin b _ _ => .inf (a != b)
  | .fin a _ _, .inf b => .fin (a != b) 0 0
  | .fin a m e, .fin b n f =>
    if n = 0 then (if m = 0 then .nan else .inf (a != b))
    else if m = 0 then .fin (a != b) 0 0 else Num.quot a m e b n f

/-- The integer square root by bits, from bit `i - 1` down. -/
def isqrt (n : Nat) : Nat → Nat → Nat
  | 0, r => r
  | i + 1, r => let t := r + 2 ^ i; if t * t ≤ n then isqrt n i t else isqrt n i r

/-- The square root (Table 5.2), truncated with a sticky last bit. -/
def Num.sqrt : Num → Num
  | .nan => .nan
  | .inf n => if n then .nan else .inf false
  | .fin n m e =>
    if m = 0 then .fin n 0 0
    else if n then .nan
    else
      let odd := e % 2 ≠ 0
      let m := if odd then 2 * m else m
      let e := if odd then e - 1 else e
      let big := m * 2 ^ 240
      let r := isqrt big (big.log2 / 2 + 1) 0
      .fin false (2 * r + (if r * r = big then 0 else 1)) (e / 2 - 120 - 1)

/-! ### Formats (Table 3.1) -/

/-- A float format: exponent bits, mantissa bits, bias, and its specials: 0 as IEEE 754, 1 as E4M3 (no infinity, NaN
with all ones), 2 none. -/
structure FloatFmt where
  ebits : Nat
  mbits : Nat
  bias  : Nat
  spec  : Nat
  deriving DecidableEq, Repr

/-- The float formats by code; MX codes give their element format. -/
def floatFmt (code : Nat) : Option FloatFmt :=
  match code with
  | 0x00 => some ⟨8, 23, 127, 0⟩
  | 0x01 => some ⟨8, 7, 127, 0⟩
  | 0x02 => some ⟨5, 10, 15, 0⟩
  | 0x03 => some ⟨4, 3, 7, 1⟩
  | 0x04 => some ⟨5, 2, 15, 0⟩
  | 0x08 => some ⟨4, 3, 7, 1⟩
  | 0x09 => some ⟨5, 2, 15, 0⟩
  | 0x0A => some ⟨3, 2, 3, 2⟩
  | 0x0B => some ⟨2, 3, 1, 2⟩
  | 0x0C => some ⟨2, 1, 1, 2⟩
  | _ => none

/-- Bits per element of a format code. -/
def fmtBits (code : Nat) : Nat := [32, 16, 16, 8, 8, 8, 4, 32, 8, 8, 6, 6, 4, 8, 32, 64, 64].getD code 0
/-- Bytes of an output element. -/
def fmtBytes (code : Nat) : Nat := fmtBits code / 8
/-- An MX format. -/
def isMx (code : Nat) : Bool := decide (0x08 ≤ code) && decide (code ≤ 0x0D)
/-- A format of integer elements. -/
def isInt (code : Nat) : Bool := code == 0x05 || code == 0x06 || code == 0x07
/-- The element bound e (Table 3.1). -/
def elemBound (code : Nat) : Int := [0, 127, 15, 8, 15, 7, 3, 0, 8, 15, 4, 2, 2, 1].getD code 0

/-- The number that float bits spell. -/
def decodeFloat (f : FloatFmt) (bits : Nat) : Num :=
  let neg := fld bits (f.ebits + f.mbits) 1 == 1
  let ex := fld bits f.mbits f.ebits
  let ma := fld bits 0 f.mbits
  let top := 2 ^ f.ebits - 1
  if f.spec = 0 ∧ ex = top then (if ma = 0 then .inf neg else .nan)
  else if f.spec = 1 ∧ ex = top ∧ ma = 2 ^ f.mbits - 1 then .nan
  else if ex = 0 then .fin neg ma (1 - (f.bias : Int) - f.mbits)
  else .fin neg (2 ^ f.mbits + ma) ((ex : Int) - f.bias - f.mbits)

/-- The number that an element of a format spells: floats, MXINT8 (two's complement times 2^-6), integers. -/
def decodeElem (code bits : Nat) : Num :=
  match floatFmt code with
  | some f => decodeFloat f bits
  | none =>
    if code = 0x0D then
      let x := sgn 8 bits
      .fin (decide (x < 0)) x.natAbs (-6)
    else Num.ofInt (sgn (fmtBits code) bits)

/-- A magnitude m·2^e as a multiple of 2^u, rounded to nearest even, or stochastically with a 24-bit draw (R86). -/
def roundMag (draw : Option Nat) (m : Nat) (e u : Int) : Nat :=
  if u ≤ e then m * 2 ^ (e - u).toNat
  else
    let d := (u - e).toNat
    let q := m / 2 ^ d
    let r := m % 2 ^ d
    match draw with
    | none => if 2 * r > 2 ^ d ∨ (2 * r = 2 ^ d ∧ q % 2 = 1) then q + 1 else q
    | some x => if r ≠ 0 ∧ x < r * 2 ^ 24 / 2 ^ d then q + 1 else q

/-- The canonical NaN of a format (Table 3.1). -/
def nanBits (f : FloatFmt) : Nat :=
  if f.ebits = 4 ∨ f.mbits = 2 then 0x7F
  else (2 ^ f.ebits - 1) * 2 ^ f.mbits + 2 ^ (f.mbits - 1)

/-- The largest finite magnitude of a format as bits. -/
def maxBits (f : FloatFmt) : Nat :=
  if f.spec = 0 then (2 ^ f.ebits - 1) * 2 ^ f.mbits - 1
  else if f.spec = 1 then 2 ^ (f.ebits + f.mbits) - 2
  else 2 ^ (f.ebits + f.mbits) - 1

/-- What an overflow or an infinity becomes: the largest finite value where the conversion saturates (FP8 with SATF,
elements without infinity), else infinity, or NaN for E4M3 (R88, R89, R143). -/
def overflowBits (f : FloatFmt) (sat : Bool) : Nat :=
  if f.spec = 2 then maxBits f
  else if f.ebits + f.mbits = 7 ∧ sat then maxBits f
  else if f.spec = 1 then nanBits f
  else (2 ^ f.ebits - 1) * 2 ^ f.mbits

/-- Convert a number to a float format: one rounding, subnormals kept (R86, R88, R89). Above the largest finite value the
neighbour hi of stochastic rounding is the next step of the unbounded grid, and overflow applies to what was chosen (DESIGN
CHOICE, log entry 79). -/
def encodeFloat (f : FloatFmt) (sat : Bool) (draw : Option Nat) : Num → Nat
  | .nan => nanBits f
  | .inf n =>
    let b := overflowBits f sat
    if f.spec ≠ 2 ∧ b = nanBits f then b else b + n.toNat * 2 ^ (f.ebits + f.mbits)
  | .fin n m e =>
    let sign := n.toNat * 2 ^ (f.ebits + f.mbits)
    if m = 0 then sign
    else
      let low : Int := 1 - (f.bias : Int) - f.mbits
      let u := max ((m.log2 : Int) + e - f.mbits) low
      let k := roundMag draw m e u
      let u' := if k = 2 ^ (f.mbits + 1) then u + 1 else u
      let k := if k = 2 ^ (f.mbits + 1) then 2 ^ f.mbits else k
      let bits := if k < 2 ^ f.mbits then k else (u' - low + 1).toNat * 2 ^ f.mbits + (k - 2 ^ f.mbits)
      if maxBits f < bits then
        let b := overflowBits f sat
        if f.spec ≠ 2 ∧ b = nanBits f then b else b + sign
      else sign + bits

/-- FP32. -/
def fp32 : FloatFmt := ⟨8, 23, 127, 0⟩
/-- round32: conversion to FP32 (R82). -/
def round32 (draw : Option Nat) (x : Num) : Num := decodeFloat fp32 (encodeFloat fp32 false draw x)

/-- The integer that a finite number rounds to. -/
def roundInt (draw : Option Nat) (n : Bool) (m : Nat) (e : Int) : Int :=
  let k : Int := roundMag draw m e 0
  if n then -k else k

/-- Saturate to a two's-complement width. -/
def saturate (bits : Nat) (x : Int) : Int := max (-(2 ^ (bits - 1) : Nat)) (min x ((2 ^ (bits - 1) : Nat) - 1))

/-- A number converted to an integer of a width: saturating, NaN as 0 (R90, R133). -/
def numToInt (bits : Nat) (draw : Option Nat) : Num → Int
  | .nan => 0
  | .inf n => saturate bits (if n then -(2 ^ bits : Nat) else (2 ^ bits : Nat))
  | .fin n m e => saturate bits (roundInt draw n m e)

/-- A signed right shift with rounding to nearest even (R93). -/
def shiftRne (s : Nat) (x : Int) : Int := roundInt none (decide (x < 0)) x.natAbs (-(s : Int))

/-! ### Philox-4x32-10 (R87) -/

/-- One round on the four counter words. -/
def philoxRound (k0 k1 : Nat) (c : Nat × Nat × Nat × Nat) : Nat × Nat × Nat × Nat :=
  let p0 := 0xD2511F53 * c.1
  let p1 := 0xCD9E8D57 * c.2.2.1
  ((p1 / 2 ^ 32) ^^^ c.2.1 ^^^ k0, p1 % 2 ^ 32, (p0 / 2 ^ 32) ^^^ c.2.2.2 ^^^ k1, p0 % 2 ^ 32)

/-- Rounds with the bumped key. -/
def philoxRounds : Nat → Nat → Nat → Nat × Nat × Nat × Nat → Nat × Nat × Nat × Nat
  | 0, _, _, c => c
  | n + 1, k0, k1, c =>
    philoxRounds n ((k0 + 0x9E3779B9) % 2 ^ 32) ((k1 + 0xBB67AE85) % 2 ^ 32) (philoxRound k0 k1 c)

/-- The four output words for a seed and counter words. -/
def philox (seed c0 c1 c2 c3 : Nat) : Nat × Nat × Nat × Nat :=
  philoxRounds 10 (seed % 2 ^ 32) (seed / 2 ^ 32 % 2 ^ 32) (c0 % 2 ^ 32, c1 % 2 ^ 32, c2 % 2 ^ 32, c3 % 2 ^ 32)

/-- The 24-bit draw r: bits [31:8] of word 0 (R86); none under round to nearest even. -/
def srDraw (rm : Bool) (seed c0 c1 c2 c3 : Nat) : Option Nat :=
  if rm then some ((philox seed c0 c1 c2 c3).1 / 256) else none

/-- floor(log2) of a positive finite number's magnitude. -/
def numLog2 (m : Nat) (e : Int) : Int := (m.log2 : Int) + e

/-- The bound byte of a block: the tightest bound over its finite magnitudes (R71, R144). -/
def boundByte (xs : List Num) : Byte :=
  BitVec.ofNat 8 (xs.foldl (fun b x => match x with
    | .fin _ m e => if m = 0 then b else max b (numLog2 m e + 127).toNat
    | _ => b) 0)

end Sys2Proof.Machine
end

