-- ==== Sys2Proof/Config.lean ====
section
/-!
DEFINITION. What an implementation fixes and what the manual leaves open: constants without a body, so that no proof
can see a value. Each is named in a row of notes/assumptions.
-/

namespace Sys2Proof

/-- The stream of free values: the model applies it to State.freeCtr (log entry 9). -/
opaque Config.free : Nat → Nat

/-- What a byte of GDDR7 or the cistern reads after its page's key rotated and before it is written again: page, key
generation, offset in the page (R364, R393; log entry 2). -/
opaque Config.garble : Nat → Nat → Nat → Byte

/-- The sources of the fused and fixed values below: each takes its value modulo the range of its object (log entry 3). -/
opaque Config.fused : Nat → Nat
/-- The fused serial number (Table 19.1). -/
def Config.serial : Nat := Config.fused 0 % 2 ^ 64
/-- The fused security version number, 0 to 64 (Tables 19.1, 19.11). -/
def Config.fusedSvn : Nat := Config.fused 1 % 65
/-- The fused root key revocation bits (Tables 19.1, 19.11). -/
def Config.revocation : Nat := Config.fused 2 % 16
/-- The MAC address "from identity" of a port (Table 11.12). -/
def Config.portMac : Nat := Config.fused 3 % 2 ^ 48
/-- The fixed vendor identifier (Table 20.6). -/
def Config.vendorId : Nat := Config.fused 4 % 2 ^ 32
/-- The physical units that the fused factory map excludes: compute cores 0 to 103, and 256 plus a channel core's number
(R486, R487; log entry 3). -/
opaque Config.factoryBad : List Nat
/-- The length of the certificate chain in bytes, 1 to 8 KiB: it holds five certificates (R503, Table 19.11; log entry 10). -/
def Config.chainLength : Nat := 1 + Config.fused 5 % 8192
/-- The fused VDD_ARR setpoint in mV, 650 to 800 (Table 23.10). -/
def Config.vddArrSetpoint : Nat := 650 + Config.fused 6 % 151
/-- The image version of the firmware in the card's flash before any distribution (Table 19.2). -/
def Config.imageVersion : Nat := Config.fused 7 % 2 ^ 32
/-- SHA-512 of a harvest map, first 64 bits (Table 17.3): the map as the list of its physical numbers. -/
opaque Config.mapDigest : List Nat → Nat
/-- SHA-512 and Ed25519 outputs of the colophon and of SPDM, by purpose and byte (log entry 10). -/
opaque Config.digestByte : Nat → Nat → Byte

/-- Whether the signature of a 128-byte unlock token, as a number, verifies (R511; log entry 10). -/
opaque Config.tokenSigned : Nat → Bool

/-- The vector engine's FP32 results "within 1 ulp of the exact value, by an algorithm that is fixed in the silicon"
(R130): operation code of Table 5.2 and the FP32 operands' bits (log entry 7). -/
opaque Config.transcendental : Nat → W32 → W32 → W32

/-- Which function of AND, OR, XOR, SHL and SHR a LOGIC record selects: no field of Table 7.7 names it (Table 5.2; log
entry 14). The model takes the value modulo 5. -/
opaque Config.logicFunction : List W32 → Nat

/-- The scale byte of a block of an MX source of CVT: no field of Table 7.7 names its scale stream (Table 5.1; log
entry 15): the record's words, the row and the block, modulo 256. -/
opaque Config.cvtScale : List W32 → Nat → Nat → Nat

/-- Bits of an engine whose code is defined by a 3GPP document outside this manual: engine class, mode, the parameter
block's words, the input bytes, the output length in bytes (R252, R256, R260; log entry 8). -/
opaque Config.codec : Nat → Nat → List W32 → List Byte → Nat → List Byte

/-- The status word or measure number `n` that such an engine reports for a block (log entry 8). -/
opaque Config.codecStatus : Nat → Nat → List W32 → List Byte → Nat → Nat

/-- A base graph of TS 38.212 for a lifting size: its check rows, each as columns with their shifts (R250; log entry 8). -/
opaque Config.baseGraph : Nat → Nat → List (List (Nat × Nat))
/-- The parity bits that a base graph gives a block's information bits (R251; log entry 8). -/
opaque Config.ldpcParity : Nat → Nat → List Bool → List Bool
/-- The offset of the offset min-sum, and the largest magnitude of a bit's total (R250; log entry 8). -/
opaque Config.ldpcOffset : Nat
opaque Config.ldpcTotal : Nat
/-- What an engine takes where the soft values leave a bit or a path undecided (log entry 8). -/
opaque Config.undecided : Bool
/-- The internal interleaver of the LTE turbo code: block size and place (R251; log entry 8). -/
opaque Config.qpp : Nat → Nat → Nat
/-- The bits of a turbo code block after an iteration of max-log-MAP: the block's words, its LLRs, the iteration (R253; log entry
8). -/
opaque Config.turboBits : List W32 → List Byte → Nat → List Bool
/-- The surviving paths of the polar list decoder for a block, by path index: metric, where less is better, and bits (R252; log
entry 8). -/
opaque Config.polarPaths : List W32 → List Byte → List (Nat × List Bool)
/-- The register from which a CRC24C starts, by the parameter block: ones for a DCI, zeros for a PBCH (R252; log entry 8). -/
opaque Config.crc24cStart : List W32 → Nat
/-- Bit i of the codeword of a message: mode of class 9, payload bits (R252; log entry 8). -/
opaque Config.shortCode : Nat → Nat → Nat → Nat → Bool
/-- The least amplitude of a constellation along an axis, in units of the symbols' integers (R254; log entry 8). -/
opaque Config.pointUnit : Nat → Nat
/-- The value of a HARQ buffer's filler places (R255; log entry 8). -/
opaque Config.fillerLlr : Byte
/-- The power delay profile of a root over the antennas and the repetitions: the block's words, the input, root, sample (R258; log
entry 8). -/
opaque Config.prachPower : List W32 → List Byte → Nat → Nat → Nat
/-- The window of a preamble index: its root, its first sample and its length (R258; log entry 8). -/
opaque Config.prachWindow : List W32 → Nat → Nat × Nat × Nat
/-- Which of two neighbouring 1/256 dB a peak-to-noise ratio between them is reported as, and the timing advance of a delay
(R258; log entry 8). -/
opaque Config.prachRound : Nat → Bool
opaque Config.timingAdvance : List W32 → Nat → Nat

/-- The U-plane decompression of a PRB: method, width, its bytes (R306, O-RAN block floating point and μ-law; log entry
8). -/
opaque Config.decompress : Nat → Nat → List Byte → List W32
/-- The inverse of it for transmit. -/
opaque Config.compress : Nat → Nat → List W32 → List Byte
/-- A C-plane message with its section extension 1 weights compressed: method, width, message (R306, R312; log entry 8).
-/
opaque Config.cplaneBody : Nat → Nat → List Byte → List Byte
/-- The eAxC ID of a C-plane message that a job's input holds: no field of it is named (R312; log entry 8). -/
opaque Config.cplaneEaxc : List Byte → Nat
/-- The section ID of a section that UPLANE_TX sends, by eAxC ID, symbol and start PRB: no field of Table 11.4 names it (log
entry 17). -/
opaque Config.sectionId : Nat → Nat → Nat → Nat
/-- How many frames a lane's receive queue holds (R16, R17; log entry 17). -/
opaque Config.receiveDepth : Nat
/-- The alternate BMCA of ITU-T G.8275.1 takes the second data set for parent in place of the first (R324; log entry 18). -/
opaque Config.betterMaster : List Nat → List Nat → Bool
/-- The error of a time base's own oscillator in a second of TB2, and that of the core clock as number 4: R319 and the limits of
Package, power and electrical characteristics bound them (log entry 18). -/
opaque Config.oscillator : Nat → Nat → Nat
/-- The band sector and component carrier fields, as one number, of the eAxC IDs that belong to a cell: no object gives them
(R304; log entry 8). -/
opaque Config.eaxcCell : Nat → Nat
/-- The frame that a number exactly half a period away names: the later one or not (R333; log entry 8). -/
opaque Config.frameTie : Bool

/-- The initial grant of link credits per class when a lane joins, which is the size of the class's receive buffer (R409,
R551; log entry 16). -/
opaque Config.laneGrant : Nat → Nat

end Sys2Proof
end

