-- ==== Sys2Proof/Machine/Dict.lean ====
section
/-!
DEFINITION. The object dictionary's tables (R515, R540): every object with its selectors, type, size, rights, default,
persistence and the limits of its values.
-/

namespace Sys2Proof

/-- Whose selectors hold an object: the device-global one, every function, only virtual functions, only the managers,
or only the radio owner (R266). -/
inductive Owner where
  | g | fn | vf | mgr | radio
  deriving DecidableEq, Repr

/-- The values a Type column lets be written (R517). `fields` lists (low bit, width, least, greatest); bits outside
the fields are reserved. `address` is 0 or a device address in one of some spaces, a multiple of a step, with its reserved
bits 0 (Table 7.2). -/
inductive Limit where
  | any
  | range (lo hi : Nat)
  | zeroOr (lo hi : Nat)
  | orBelow (hi extra : Nat)
  | oneOf (l : List Nat)
  | steps (lo hi step : Nat)
  | fields (l : List (Nat × Nat × Nat × Nat))
  | address (spaces : List Nat) (step : Nat)
  deriving DecidableEq, Repr

/-- One row of an object table. `acc` is the rights word of an INFO access: M in [1:0], P in [3:2], V in [5:4],
D in [7:6], R the lower bit, W the upper (R529). -/
structure ObjRow where
  owner  : Owner
  index  : Nat
  count  : Nat
  stride : Nat
  lo     : Nat
  hi     : Nat
  type   : Nat
  size   : Nat
  acc    : Nat
  dflt   : Nat
  stored : Bool
  limit  : Limit
  deriving DecidableEq, Repr

/-- The values a limit allows. -/
def Limit.allows : Limit → Nat → Bool
  | .any, _ => true
  | .range lo hi, v => decide (lo ≤ v) && decide (v ≤ hi)
  | .zeroOr lo hi, v => v == 0 || (decide (lo ≤ v) && decide (v ≤ hi))
  | .orBelow hi extra, v => decide (v ≤ hi) || v == extra
  | .oneOf l, v => l.contains v
  | .steps lo hi step, v => decide (lo ≤ v) && decide (v ≤ hi) && v % step == 0
  | .address spaces step, v =>
    v == 0 || (spaces.contains (fld v 60 4) && v % step == 0 && (if fld v 60 4 = 3 then fld v 49 11 == 0 else fld v 48 12 == 0))
  | .fields l, v =>
    l.all (fun f => decide (f.2.2.1 ≤ fld v f.1 f.2.1) && decide (fld v f.1 f.2.1 ≤ f.2.2.2)) &&
      v == l.foldl (fun a f => a + fld v f.1 f.2.1 * 2 ^ f.1) 0

/-- The objects of Table 2.7. -/
def Dict.t2_7 : List ObjRow := [
  ⟨.g, 0x2400, 1, 1, 0x01, 0x01, 1, 1, 0x55, 0, false, .range 0 1⟩,
  ⟨.g, 0x2400, 1, 1, 0x02, 0x02, 4, 8, 0x55, 0, false, .any⟩,
  ⟨.g, 0x2400, 1, 1, 0x03, 0x03, 2, 2, 0x55, 0, false, .any⟩,
  ⟨.g, 0x2401, 1, 1, 0x01, 0x01, 4, 8, 0x4D, 0, false, .any⟩,
  ⟨.g, 0x2401, 1, 1, 0x02, 0x02, 1, 1, 0x4D, 0, false, .range 0 2⟩,
  ⟨.g, 0x2401, 1, 1, 0x03, 0x03, 1, 1, 0x45, 0, false, .range 0 5⟩,
  ⟨.g, 0x2401, 1, 1, 0x04, 0x04, 3, 4, 0x45, 0, false, .any⟩,
  ⟨.g, 0x2402, 1, 1, 0x01, 0x01, 1, 1, 0x45, 0, false, .any⟩,
  ⟨.g, 0x2402, 1, 1, 0x02, 0x02, 2, 2, 0x45, 0, false, .any⟩,
  ⟨.g, 0x2402, 1, 1, 0x03, 0x03, 2, 2, 0x45, 0, false, .any⟩,
  ⟨.g, 0x2402, 1, 1, 0x04, 0x04, 2, 2, 0x45, 0, false, .any⟩,
  ⟨.g, 0x2403, 1, 1, 0x01, 0x01, 3, 4, 0x45, 0, false, .any⟩,
  ⟨.g, 0x2403, 1, 1, 0x02, 0x02, 3, 4, 0x45, 0, false, .any⟩,
  ⟨.g, 0x2404, 1, 1, 0x01, 0x18, 3, 4, 0x55, 0, false, .any⟩,
  ⟨.g, 0x2405, 1, 1, 0x01, 0x18, 3, 4, 0x55, 0, false, .any⟩,
  ⟨.g, 0x2406, 1, 1, 0x01, 0x01, 3, 4, 0x45, 0, false, .any⟩,
  ⟨.g, 0x2406, 1, 1, 0x02, 0x02, 3, 4, 0x45, 0, false, .any⟩,
  ⟨.g, 0x2406, 1, 1, 0x03, 0x03, 2, 2, 0x45, 450, false, .any⟩,
  ⟨.g, 0x2407, 1, 1, 0x01, 0x01, 3, 4, 0x45, 0, false, .any⟩,
  ⟨.g, 0x2407, 1, 1, 0x02, 0x02, 4, 8, 0x45, 0, false, .any⟩,
  ⟨.g, 0x2407, 1, 1, 0x03, 0x03, 2, 2, 0x45, 0, false, .any⟩,
  ⟨.g, 0x2407, 1, 1, 0x04, 0x04, 1, 1, 0x45, 0, false, .any⟩,
  ⟨.g, 0x2407, 1, 1, 0x05, 0x05, 3, 4, 0x45, 0, false, .any⟩]

/-- The objects of Table 4.3. -/
def Dict.t4_3 : List ObjRow := [
  ⟨.g, 0x2050, 1, 1, 0x01, 0x01, 4, 8, 0x45, 0, false, .any⟩,
  ⟨.g, 0x2050, 1, 1, 0x02, 0x02, 4, 8, 0x45, 0, false, .any⟩,
  ⟨.g, 0x2050, 1, 1, 0x03, 0x03, 4, 8, 0x45, 0, false, .any⟩]

/-- The objects of Table 6.4. -/
def Dict.t6_4 : List ObjRow := [
  ⟨.g, 0x6100, 1, 1, 0x01, 0x01, 4, 8, 0x45, 0, false, .any⟩,
  ⟨.g, 0x6100, 1, 1, 0x02, 0x02, 3, 4, 0x45, 0, false, .any⟩,
  ⟨.g, 0x6101, 1, 1, 0x01, 0x60, 1, 1, 0x4D, 0, false, .range 0 16⟩,
  ⟨.g, 0xA010, 1, 1, 0x01, 0x60, 2, 2, 0x4D, 65535, false, .any⟩,
  ⟨.fn, 0x3040, 1, 1, 0x01, 0x01, 2, 2, 0x5D, 0, false, .any⟩,
  ⟨.fn, 0x3040, 1, 1, 0x02, 0x02, 3, 4, 0x5D, 0, false, .range 0 65536⟩]

/-- The objects of Table 7.18. -/
def Dict.t7_18 : List ObjRow := [
  ⟨.fn, 0x3010, 1, 1, 0x01, 0x01, 2, 2, 0x55, 0, false, .range 64 1024⟩,
  ⟨.fn, 0x3010, 1, 1, 0x02, 0x02, 4, 8, 0x7D, 0, false, .any⟩,
  ⟨.fn, 0x3010, 1, 1, 0x03, 0x03, 1, 1, 0x7D, 0, false, .any⟩,
  ⟨.fn, 0x3010, 1, 1, 0x04, 0x04, 2, 2, 0x7D, 1, false, .range 0 1024⟩,
  ⟨.fn, 0x3010, 1, 1, 0x05, 0x05, 2, 2, 0x7D, 0, false, .range 0 1000⟩,
  ⟨.fn, 0x3010, 1, 1, 0x06, 0x06, 4, 8, 0x55, 0, false, .any⟩,
  ⟨.fn, 0x3010, 1, 1, 0x07, 0x07, 4, 8, 0x55, 0, false, .any⟩,
  ⟨.fn, 0x3010, 1, 1, 0x08, 0x08, 4, 8, 0x55, 0, false, .any⟩,
  ⟨.fn, 0x3010, 1, 1, 0x09, 0x09, 4, 8, 0x55, 0, false, .any⟩,
  ⟨.fn, 0x3010, 1, 1, 0x0A, 0x0A, 3, 4, 0x55, 0, false, .any⟩,
  ⟨.fn, 0x3010, 1, 1, 0x0B, 0x0B, 3, 4, 0x55, 0, false, .any⟩,
  ⟨.fn, 0x3010, 1, 1, 0x0C, 0x0C, 2, 2, 0x55, 0, false, .any⟩,
  ⟨.fn, 0x3010, 1, 1, 0x0D, 0x0D, 2, 2, 0x55, 0, false, .any⟩,
  ⟨.fn, 0x3050, 1, 1, 0x01, 0x01, 3, 4, 0x28, 0, false, .any⟩,
  ⟨.fn, 0x3050, 1, 1, 0x02, 0x02, 2, 2, 0x55, 65535, false, .any⟩,
  ⟨.fn, 0x3050, 1, 1, 0x03, 0x03, 2, 2, 0x55, 0, false, .any⟩,
  ⟨.fn, 0x3050, 1, 1, 0x04, 0x04, 2, 2, 0x28, 0, false, .any⟩,
  ⟨.fn, 0x3050, 1, 1, 0x05, 0x05, 2, 2, 0x55, 0, false, .any⟩,
  ⟨.fn, 0x3050, 1, 1, 0x06, 0x06, 4, 8, 0x7C, 0, false, .any⟩]

/-- The objects of Table 8.5. -/
def Dict.t8_5 : List ObjRow := [
  ⟨.g, 0x3800, 1, 1, 0x01, 0x01, 1, 1, 0x4F, 0, true, .range 0 1⟩,
  ⟨.g, 0x3800, 1, 1, 0x02, 0x02, 3, 4, 0x45, 16777216, false, .any⟩,
  ⟨.fn, 0x3800, 1, 1, 0x01, 0x01, 3, 4, 0x55, 0, false, .range 0 16777216⟩,
  ⟨.fn, 0x3800, 1, 1, 0x02, 0x02, 2, 2, 0x7D, 16, false, .oneOf [16, 32, 64, 128, 256]⟩,
  ⟨.fn, 0x3800, 1, 1, 0x03, 0x03, 3, 4, 0x7D, 0, false, .steps 0 16777216 256⟩,
  ⟨.fn, 0x3800, 1, 1, 0x04, 0x04, 4, 8, 0x7D, 0, false, .address [1, 2] 1⟩,
  ⟨.fn, 0x3800, 1, 1, 0x05, 0x05, 3, 4, 0x7D, 0, false, .range 0 65536⟩,
  ⟨.fn, 0x3800, 1, 1, 0x06, 0x06, 2, 2, 0x7D, 1, false, .range 1 16384⟩,
  ⟨.fn, 0x3800, 1, 1, 0x07, 0x07, 4, 8, 0x7D, 0, false, .any⟩,
  ⟨.fn, 0x3800, 1, 1, 0x08, 0x08, 4, 8, 0x7D, 0, false, .any⟩,
  ⟨.fn, 0x3800, 1, 1, 0x09, 0x09, 3, 4, 0x55, 0, false, .any⟩,
  ⟨.fn, 0x3800, 1, 1, 0x0A, 0x0A, 3, 4, 0x55, 0, false, .any⟩,
  ⟨.fn, 0x3800, 1, 1, 0x0B, 0x0B, 4, 8, 0x55, 0, false, .any⟩,
  ⟨.fn, 0x3800, 1, 1, 0x0C, 0x0C, 4, 8, 0x55, 0, false, .any⟩,
  ⟨.fn, 0x3800, 1, 1, 0x0D, 0x0D, 4, 8, 0x55, 0, false, .any⟩]

/-- The objects of Table 9.8. -/
def Dict.t9_8 : List ObjRow := [
  ⟨.radio, 0x4000, 1, 1, 0x01, 0x01, 4, 8, 0x7D, 0, false, .any⟩,
  ⟨.radio, 0x4000, 1, 1, 0x02, 0x02, 2, 2, 0x55, 0, false, .any⟩,
  ⟨.radio, 0x4000, 1, 1, 0x03, 0x03, 3, 4, 0x55, 0, false, .any⟩,
  ⟨.radio, 0x4400, 1024, 1, 0x01, 0x01, 1, 1, 0x7D, 0, false, .range 0 1⟩,
  ⟨.radio, 0x4400, 1024, 1, 0x02, 0x02, 1, 1, 0x7D, 0, false, .range 0 2⟩,
  ⟨.radio, 0x4400, 1024, 1, 0x03, 0x03, 1, 1, 0x7D, 1, false, .range 0 3⟩,
  ⟨.radio, 0x4400, 1024, 1, 0x04, 0x04, 2, 2, 0x7D, 273, false, .range 6 273⟩,
  ⟨.radio, 0x4400, 1024, 1, 0x05, 0x05, 1, 1, 0x7D, 4, false, .range 1 64⟩,
  ⟨.radio, 0x4400, 1024, 1, 0x06, 0x06, 9, 2, 0x7D, 1028, false, .fields [(0, 8, 1, 16), (8, 8, 1, 16)]⟩,
  ⟨.radio, 0x4400, 1024, 1, 0x07, 0x07, 1, 1, 0x7D, 1, false, .range 0 1⟩,
  ⟨.radio, 0x4400, 1024, 1, 0x08, 0x08, 1, 1, 0x7D, 8, false, .range 1 25⟩,
  ⟨.radio, 0x4400, 1024, 1, 0x09, 0x09, 2, 2, 0x7D, 0, false, .range 0 1007⟩,
  ⟨.radio, 0x4400, 1024, 1, 0x0A, 0x0A, 9, 2, 0x7D, 260, false, .fields [(0, 8, 1, 64), (8, 8, 1, 12)]⟩,
  ⟨.radio, 0x4400, 1024, 1, 0x0B, 0x0B, 1, 1, 0x55, 0, false, .range 1 12⟩,
  ⟨.radio, 0x4400, 1024, 1, 0x0C, 0x0C, 3, 4, 0x55, 0, false, .any⟩,
  ⟨.radio, 0x4400, 1024, 1, 0x10, 0x10, 2, 2, 0x55, 0, false, .any⟩,
  ⟨.radio, 0x4400, 1024, 1, 0x11, 0x11, 2, 2, 0x7D, 0, false, .zeroOr 256 6400⟩,
  ⟨.radio, 0x4400, 1024, 1, 0x12, 0x12, 1, 1, 0x7D, 3, false, .range 3 8⟩,
  ⟨.radio, 0x4400, 1024, 1, 0x13, 0x13, 1, 1, 0x7D, 64, false, .range 1 64⟩,
  ⟨.radio, 0x4400, 1024, 1, 0x14, 0x14, 1, 1, 0x7D, 2, false, .range 0 2⟩,
  ⟨.radio, 0x4400, 1024, 1, 0x15, 0x15, 9, 3, 0x7D, 917516, false, .fields [(0, 16, 1, 273), (16, 8, 1, 14)]⟩,
  ⟨.radio, 0x4400, 1024, 1, 0x16, 0x16, 2, 2, 0x7D, 5120, false, .range 0 10240⟩,
  ⟨.radio, 0x4400, 1024, 1, 0x17, 0x17, 2, 2, 0x7D, 2560, false, .range 0 6400⟩,
  ⟨.radio, 0x4400, 1024, 1, 0x18, 0x18, 3, 4, 0x55, 0, false, .any⟩]

/-- The objects of Table 10.6. -/
def Dict.t10_6 : List ObjRow := [
  ⟨.g, 0x4100, 1, 1, 0x01, 0x20, 4, 8, 0x45, 0, false, .any⟩,
  ⟨.g, 0x4101, 1, 1, 0x01, 0x20, 4, 8, 0x45, 0, false, .any⟩,
  ⟨.g, 0x4102, 1, 1, 0x01, 0x20, 4, 8, 0x45, 0, false, .any⟩,
  ⟨.g, 0x4103, 1, 1, 0x01, 0x20, 3, 4, 0x45, 0, false, .any⟩,
  ⟨.g, 0x4104, 1, 1, 0x01, 0x20, 3, 4, 0x45, 0, false, .any⟩]

/-- The objects of Table 11.11. -/
def Dict.t11_11 : List ObjRow := [
  ⟨.radio, 0x4400, 1024, 1, 0x20, 0x20, 4, 8, 0x7D, 0, false, .fields [(0, 52, 0, 4503599627370495)]⟩,
  ⟨.radio, 0x4400, 1024, 1, 0x21, 0x21, 2, 2, 0x7D, 0, false, .fields [(0, 15, 0, 32767)]⟩,
  ⟨.radio, 0x4400, 1024, 1, 0x22, 0x22, 2, 2, 0x7D, 17476, false, .any⟩,
  ⟨.radio, 0x4400, 1024, 1, 0x23, 0x23, 9, 8, 0x7D, 1288490188825000, false, .any⟩,
  ⟨.radio, 0x4400, 1024, 1, 0x24, 0x24, 9, 8, 0x7D, 1503238553725000, false, .any⟩,
  ⟨.radio, 0x4400, 1024, 1, 0x25, 0x25, 9, 8, 0x7D, 2018634629370000, false, .any⟩,
  ⟨.radio, 0x4400, 1024, 1, 0x26, 0x26, 3, 4, 0x7D, 37265, false, .fields [(0, 2, 0, 3), (4, 4, 0, 15), (8, 2, 0, 3), (12, 4, 0, 15), (16, 1, 0, 1)]⟩,
  ⟨.radio, 0x4400, 1024, 1, 0x28, 0x28, 4, 8, 0x55, 0, false, .any⟩,
  ⟨.radio, 0x4400, 1024, 1, 0x29, 0x29, 3, 4, 0x55, 0, false, .any⟩,
  ⟨.radio, 0x4400, 1024, 1, 0x2A, 0x2A, 3, 4, 0x55, 0, false, .any⟩,
  ⟨.radio, 0x4400, 1024, 1, 0x2B, 0x2B, 3, 4, 0x55, 0, false, .any⟩,
  ⟨.radio, 0x4400, 1024, 1, 0x2C, 0x2C, 3, 4, 0x55, 0, false, .any⟩]

/-- The objects of Table 11.12. -/
def Dict.t11_12 : List ObjRow := [
  ⟨.g, 0x4200, 1, 1, 0x01, 0x04, 1, 1, 0x4D, 3, true, .range 0 4⟩,
  ⟨.g, 0x4201, 1, 1, 0x01, 0x10, 4, 8, 0x4D, Config.portMac, true, .range 0 281474976710655⟩,
  ⟨.g, 0x4202, 1, 1, 0x01, 0x10, 1, 1, 0x55, 0, false, .range 0 2⟩,
  ⟨.g, 0x4203, 1, 1, 0x01, 0x10, 6, 4, 0x4D, 0, true, .any⟩,
  ⟨.g, 0x4204, 1, 1, 0x01, 0x10, 6, 4, 0x4D, 0, true, .any⟩,
  ⟨.g, 0x4210, 1, 1, 0x01, 0x10, 4, 8, 0x45, 0, false, .any⟩,
  ⟨.g, 0x4211, 1, 1, 0x01, 0x10, 4, 8, 0x45, 0, false, .any⟩,
  ⟨.g, 0x4212, 1, 1, 0x01, 0x10, 3, 4, 0x45, 0, false, .any⟩,
  ⟨.g, 0x4213, 1, 1, 0x01, 0x10, 3, 4, 0x45, 0, false, .any⟩,
  ⟨.g, 0x4214, 1, 1, 0x01, 0x10, 3, 4, 0x45, 0, false, .any⟩,
  ⟨.g, 0x4215, 1, 1, 0x01, 0x10, 3, 4, 0x45, 0, false, .any⟩,
  ⟨.g, 0x4216, 1, 1, 0x01, 0x10, 3, 4, 0x45, 0, false, .any⟩,
  ⟨.g, 0x4217, 1, 1, 0x01, 0x10, 3, 4, 0x45, 0, false, .any⟩,
  ⟨.g, 0x4220, 1, 1, 0x01, 0x10, 4, 8, 0x55, 0, false, .any⟩]

/-- The objects of Table 11.13. -/
def Dict.t11_13 : List ObjRow := [
  ⟨.g, 0x4800, 4, 1, 0x01, 0x01, 8, 12, 0x55, 0, false, .any⟩,
  ⟨.g, 0x4800, 4, 1, 0x02, 0x02, 1, 1, 0x55, 0, false, .any⟩,
  ⟨.g, 0x4800, 1, 1, 0x03, 0x03, 1, 1, 0x4D, 0, true, .range 0 4⟩,
  ⟨.g, 0x4803, 1, 1, 0x03, 0x03, 1, 1, 0x4D, 1, true, .range 0 1⟩,
  ⟨.g, 0x4800, 4, 1, 0x04, 0x04, 3, 4, 0x4D, 1000, true, .range 100 100000⟩,
  ⟨.g, 0x4800, 4, 1, 0x05, 0x05, 1, 1, 0x08, 0, false, .range 1 1⟩,
  ⟨.g, 0x4800, 4, 1, 0x06, 0x06, 7, 8, 0x55, 0, false, .any⟩,
  ⟨.g, 0x4800, 4, 1, 0x07, 0x07, 6, 4, 0x55, 0, false, .any⟩,
  ⟨.g, 0x4800, 4, 1, 0x08, 0x08, 3, 4, 0x45, 0, false, .any⟩,
  ⟨.g, 0x4800, 4, 1, 0x09, 0x09, 3, 4, 0x45, 0, false, .any⟩,
  ⟨.g, 0x4804, 1, 1, 0x01, 0x01, 1, 1, 0x2A, 0, false, .range 1 1⟩,
  ⟨.g, 0x4804, 1, 1, 0x02, 0x05, 8, 12, 0x55, 0, false, .any⟩,
  ⟨.g, 0x4805, 1, 1, 0x01, 0x01, 1, 1, 0x4D, 0, true, .range 0 15⟩,
  ⟨.g, 0x4805, 1, 1, 0x02, 0x02, 1, 1, 0x4D, 24, true, .range 24 43⟩,
  ⟨.g, 0x4805, 1, 1, 0x03, 0x03, 1, 1, 0x55, 248, false, .any⟩,
  ⟨.g, 0x4805, 1, 1, 0x04, 0x04, 5, 2, 0x55, 0, false, .any⟩,
  ⟨.g, 0x4806, 1, 1, 0x01, 0x01, 1, 1, 0x4D, 0, true, .range 0 15⟩,
  ⟨.g, 0x4806, 1, 1, 0x02, 0x02, 1, 1, 0x45, 15, false, .any⟩,
  ⟨.g, 0x4807, 1, 1, 0x01, 0x01, 4, 8, 0x4D, 0, false, .range 0 281474976710655⟩,
  ⟨.g, 0x4807, 1, 1, 0x02, 0x02, 6, 4, 0x4D, 0, true, .any⟩,
  ⟨.g, 0x4808, 1, 1, 0x01, 0x01, 3, 4, 0x4D, 0, true, .any⟩,
  ⟨.g, 0x4808, 1, 1, 0x02, 0x02, 9, 6, 0x55, 0, false, .any⟩,
  ⟨.g, 0xA001, 1, 1, 0x01, 0x01, 2, 2, 0x4D, 65535, false, .any⟩,
  ⟨.g, 0xA001, 1, 1, 0x02, 0x02, 1, 1, 0x4D, 0, false, .range 0 2⟩,
  ⟨.g, 0xA002, 1, 1, 0x01, 0x10, 2, 2, 0x7D, 65535, false, .any⟩,
  ⟨.g, 0xA003, 1, 1, 0x01, 0x10, 2, 2, 0x7D, 65535, false, .any⟩,
  ⟨.g, 0xA004, 1, 1, 0x01, 0x01, 2, 2, 0x4D, 512, true, .oneOf [512, 513]⟩]

/-- The objects of Table 12.3. -/
def Dict.t12_3 : List ObjRow := [
  ⟨.vf, 0x3020, 1, 1, 0x01, 0x01, 3, 4, 0x5D, 0, false, .range 0 931043⟩,
  ⟨.vf, 0x3020, 1, 1, 0x02, 0x02, 2, 2, 0x5D, 0, false, .range 0 4096⟩,
  ⟨.vf, 0x3020, 1, 1, 0x03, 0x03, 1, 1, 0x5D, 0, false, .range 0 15⟩,
  ⟨.vf, 0x3020, 1, 1, 0x04, 0x04, 2, 2, 0x5D, 1, false, .range 1 65535⟩,
  ⟨.vf, 0x3020, 1, 1, 0x05, 0x05, 3, 4, 0x5D, 0, false, .range 0 65536⟩,
  ⟨.vf, 0x3020, 1, 1, 0x06, 0x06, 2, 2, 0x5D, 0, false, .range 0 32768⟩,
  ⟨.vf, 0x3020, 1, 1, 0x07, 0x07, 3, 4, 0x5D, 0, false, .range 0 65536⟩,
  ⟨.vf, 0x3020, 1, 1, 0x08, 0x08, 2, 2, 0x5D, 0, false, .range 0 4096⟩,
  ⟨.vf, 0x3020, 1, 1, 0x09, 0x09, 3, 4, 0x5D, 0, false, .range 0 16777216⟩,
  ⟨.vf, 0x3020, 1, 1, 0x0A, 0x0A, 2, 2, 0x5D, 64, false, .steps 64 1024 64⟩,
  ⟨.vf, 0x3020, 1, 1, 0x0B, 0x0B, 1, 1, 0x5D, 0, false, .range 0 96⟩,
  ⟨.mgr, 0x3020, 1, 1, 0x01, 0x01, 3, 4, 0x47, 0, true, .range 0 931043⟩,
  ⟨.mgr, 0x3020, 1, 1, 0x02, 0x02, 2, 2, 0x47, 0, true, .range 0 4096⟩,
  ⟨.mgr, 0x3020, 1, 1, 0x03, 0x03, 1, 1, 0x47, 0, true, .range 0 15⟩,
  ⟨.mgr, 0x3020, 1, 1, 0x04, 0x04, 2, 2, 0x47, 1, true, .range 1 65535⟩,
  ⟨.mgr, 0x3020, 1, 1, 0x05, 0x05, 3, 4, 0x47, 0, true, .range 0 65536⟩,
  ⟨.mgr, 0x3020, 1, 1, 0x06, 0x06, 2, 2, 0x47, 0, true, .range 0 32768⟩,
  ⟨.mgr, 0x3020, 1, 1, 0x07, 0x07, 3, 4, 0x47, 0, true, .range 0 65536⟩,
  ⟨.mgr, 0x3020, 1, 1, 0x08, 0x08, 2, 2, 0x47, 0, true, .range 0 4096⟩,
  ⟨.mgr, 0x3020, 1, 1, 0x09, 0x09, 3, 4, 0x47, 0, true, .range 0 16777216⟩,
  ⟨.mgr, 0x3020, 1, 1, 0x0A, 0x0A, 2, 2, 0x47, 64, true, .steps 64 1024 64⟩,
  ⟨.mgr, 0x3020, 1, 1, 0x0B, 0x0B, 1, 1, 0x47, 0, true, .range 0 96⟩]

/-- The objects of Table 12.7. -/
def Dict.t12_7 : List ObjRow := [
  ⟨.fn, 0x3000, 1, 1, 0x01, 0x01, 1, 1, 0x5D, 0, false, .range 0 1⟩,
  ⟨.fn, 0x3000, 1, 1, 0x02, 0x02, 1, 1, 0x4D, 0, false, .any⟩,
  ⟨.fn, 0x3000, 1, 1, 0x03, 0x03, 1, 1, 0x08, 0, false, .range 1 1⟩,
  ⟨.fn, 0x3000, 1, 1, 0x04, 0x04, 1, 1, 0x55, 0, false, .any⟩,
  ⟨.fn, 0x3000, 1, 1, 0x05, 0x05, 1, 1, 0x28, 0, false, .any⟩,
  ⟨.fn, 0x3000, 1, 1, 0x06, 0x06, 1, 1, 0x55, 0, false, .any⟩,
  ⟨.fn, 0x3030, 1, 1, 0x01, 0x01, 4, 8, 0x55, 0, false, .any⟩,
  ⟨.fn, 0x3030, 1, 1, 0x02, 0x02, 4, 8, 0x55, 0, false, .any⟩,
  ⟨.fn, 0x3030, 1, 1, 0x03, 0x03, 4, 8, 0x55, 0, false, .any⟩,
  ⟨.fn, 0x3030, 1, 1, 0x04, 0x04, 4, 8, 0x55, 0, false, .any⟩,
  ⟨.g, 0x3001, 1, 1, 0x01, 0x01, 3, 4, 0x45, 0, false, .any⟩,
  ⟨.g, 0x3001, 1, 1, 0x02, 0x02, 3, 4, 0x45, 0, false, .any⟩,
  ⟨.g, 0x3001, 1, 1, 0x03, 0x03, 2, 2, 0x45, 0, false, .any⟩,
  ⟨.g, 0x3001, 1, 1, 0x04, 0x04, 2, 2, 0x45, 0, false, .any⟩,
  ⟨.g, 0x3001, 1, 1, 0x05, 0x05, 2, 2, 0x45, 4096, false, .any⟩,
  ⟨.g, 0x3001, 1, 1, 0x06, 0x06, 2, 2, 0x45, 32768, false, .any⟩,
  ⟨.g, 0x3001, 1, 1, 0x07, 0x07, 3, 4, 0x45, 65536, false, .any⟩,
  ⟨.g, 0x3001, 1, 1, 0x08, 0x08, 3, 4, 0x45, 65536, false, .any⟩,
  ⟨.g, 0x3001, 1, 1, 0x09, 0x09, 3, 4, 0x45, 65536, false, .any⟩,
  ⟨.g, 0x3002, 1, 1, 0x01, 0x01, 2, 2, 0x4D, 20, true, .range 1 1000⟩,
  ⟨.g, 0x3060, 1, 1, 0x01, 0x60, 2, 2, 0x45, 65535, false, .any⟩,
  ⟨.g, 0x3061, 1, 1, 0x01, 0x01, 4, 8, 0x45, 0, false, .any⟩,
  ⟨.g, 0x3061, 1, 1, 0x02, 0x02, 4, 8, 0x45, 0, false, .any⟩,
  ⟨.g, 0x3061, 1, 1, 0x03, 0x03, 4, 8, 0x45, 0, false, .any⟩,
  ⟨.g, 0x3070, 4, 1, 0x01, 0x10, 7, 8, 0x45, 0, false, .any⟩,
  ⟨.g, 0x3074, 4, 1, 0x01, 0x10, 4, 8, 0x45, 0, false, .any⟩,
  ⟨.g, 0x3078, 1, 1, 0x01, 0x04, 4, 8, 0x45, 0, false, .any⟩,
  ⟨.g, 0x3079, 1, 1, 0x01, 0x04, 4, 8, 0x45, 0, false, .any⟩,
  ⟨.g, 0xA005, 1, 1, 0x01, 0x01, 2, 2, 0x5D, 65535, false, .any⟩]

/-- The objects of Table 13.2. -/
def Dict.t13_2 : List ObjRow := [
  ⟨.g, 0x2000, 1, 1, 0x01, 0x01, 2, 2, 0x4F, 1450, true, .range 600 1450⟩,
  ⟨.g, 0x2000, 1, 1, 0x02, 0x02, 3, 4, 0x55, 145000, false, .any⟩,
  ⟨.g, 0x2000, 1, 1, 0x03, 0x03, 3, 4, 0x55, 0, false, .any⟩,
  ⟨.g, 0x2001, 1, 1, 0x01, 0x01, 3, 4, 0x45, 0, false, .any⟩,
  ⟨.g, 0x2001, 1, 1, 0x02, 0x02, 3, 4, 0x45, 0, false, .any⟩,
  ⟨.g, 0x2001, 1, 1, 0x03, 0x03, 3, 4, 0x55, 0, false, .any⟩,
  ⟨.g, 0x2001, 1, 1, 0x04, 0x04, 3, 4, 0x45, 0, false, .any⟩,
  ⟨.g, 0x2001, 1, 1, 0x05, 0x05, 3, 4, 0x45, 0, false, .any⟩,
  ⟨.g, 0x2001, 1, 1, 0x06, 0x06, 4, 8, 0x45, 0, false, .any⟩,
  ⟨.g, 0x2001, 1, 1, 0x07, 0x07, 3, 4, 0x45, 0, false, .any⟩,
  ⟨.g, 0x2002, 1, 1, 0x01, 0x01, 4, 8, 0x45, 0, false, .any⟩,
  ⟨.g, 0x2002, 1, 1, 0x02, 0x02, 4, 8, 0x45, 0, false, .any⟩,
  ⟨.g, 0x2002, 1, 1, 0x03, 0x03, 4, 8, 0x45, 0, false, .any⟩,
  ⟨.g, 0x2002, 1, 1, 0x04, 0x04, 4, 8, 0x45, 0, false, .any⟩,
  ⟨.g, 0x2002, 1, 1, 0x05, 0x05, 4, 8, 0x45, 0, false, .any⟩,
  ⟨.g, 0x2002, 1, 1, 0x06, 0x06, 4, 8, 0x45, 0, false, .any⟩,
  ⟨.g, 0x2003, 1, 1, 0x01, 0x01, 5, 2, 0x45, 0, false, .any⟩,
  ⟨.g, 0x2003, 1, 1, 0x02, 0x02, 5, 2, 0x4D, 25600, true, .range 17920 26880⟩,
  ⟨.g, 0x2003, 1, 1, 0x03, 0x03, 5, 2, 0x41, 28160, true, .range 23040 29440⟩,
  ⟨.g, 0x2003, 1, 1, 0x04, 0x04, 1, 1, 0x45, 8, false, .range 0 8⟩,
  ⟨.fn, 0x2010, 1, 1, 0x01, 0x01, 3, 4, 0x7C, 0, false, .any⟩,
  ⟨.fn, 0x2010, 1, 1, 0x02, 0x02, 3, 4, 0x55, 0, false, .any⟩,
  ⟨.fn, 0x2010, 1, 1, 0x03, 0x03, 4, 8, 0x55, 0, false, .any⟩,
  ⟨.fn, 0x2010, 1, 1, 0x04, 0x04, 4, 8, 0x55, 0, false, .any⟩]

/-- The objects of Table 14.5. -/
def Dict.t14_5 : List ObjRow := [
  ⟨.g, 0x6000, 1, 1, 0x01, 0x40, 4, 8, 0x45, 0, false, .any⟩,
  ⟨.g, 0x6001, 1, 1, 0x01, 0x40, 3, 4, 0x45, 0, false, .any⟩,
  ⟨.g, 0x6002, 1, 1, 0x01, 0x40, 3, 4, 0x45, 0, false, .any⟩,
  ⟨.g, 0x6003, 1, 1, 0x01, 0x01, 2, 2, 0x4D, 4, true, .range 1 1000⟩,
  ⟨.g, 0x6003, 1, 1, 0x02, 0x02, 3, 4, 0x4D, 64, true, .any⟩,
  ⟨.g, 0x6003, 1, 1, 0x03, 0x03, 1, 1, 0x4D, 0, true, .range 0 4⟩,
  ⟨.g, 0x6004, 1, 1, 0x01, 0x01, 4, 8, 0x45, 0, false, .any⟩,
  ⟨.g, 0x6004, 1, 1, 0x02, 0x02, 1, 1, 0x45, 0, false, .range 0 3⟩,
  ⟨.g, 0x6005, 1, 1, 0x01, 0x10, 5, 2, 0x45, 0, false, .any⟩,
  ⟨.g, 0x6006, 1, 1, 0x01, 0x40, 1, 1, 0x45, 0, false, .range 0 2⟩,
  ⟨.g, 0x6007, 1, 1, 0x01, 0x40, 4, 8, 0x45, 0, false, .any⟩,
  ⟨.g, 0x6009, 1, 1, 0x01, 0x40, 3, 4, 0x45, 0, false, .any⟩]

/-- The objects of Table 15.5. -/
def Dict.t15_5 : List ObjRow := [
  ⟨.g, 0x5000, 1, 1, 0x01, 0x01, 2, 2, 0x55, 65535, false, .range 0 8191⟩,
  ⟨.g, 0x5001, 1, 1, 0x01, 0x40, 1, 1, 0x4D, 1, true, .range 0 2⟩,
  ⟨.g, 0x5002, 1, 1, 0x01, 0x40, 1, 1, 0x55, 0, false, .range 0 4⟩,
  ⟨.g, 0x5003, 1, 1, 0x01, 0x40, 4, 8, 0x45, 0, false, .any⟩,
  ⟨.g, 0x5004, 1, 1, 0x01, 0x40, 3, 4, 0x45, 0, false, .any⟩,
  ⟨.g, 0x5005, 1, 1, 0x01, 0x01, 2, 2, 0x4D, 20, true, .range 2 1000⟩,
  ⟨.g, 0x5005, 1, 1, 0x02, 0x02, 4, 8, 0x45, 0, false, .any⟩,
  ⟨.g, 0x5005, 1, 1, 0x03, 0x03, 4, 8, 0x45, 0, false, .any⟩,
  ⟨.g, 0x5005, 1, 1, 0x04, 0x04, 4, 8, 0x45, 0, false, .any⟩,
  ⟨.g, 0x5005, 1, 1, 0x05, 0x05, 4, 8, 0x45, 0, false, .any⟩,
  ⟨.g, 0x5005, 1, 1, 0x06, 0x06, 3, 4, 0x45, 0, false, .any⟩,
  ⟨.g, 0x5005, 1, 1, 0x07, 0x07, 3, 4, 0x45, 0, false, .any⟩,
  ⟨.g, 0xA007, 1, 1, 0x01, 0x40, 2, 2, 0x45, 65535, false, .any⟩,
  ⟨.fn, 0x5020, 1, 1, 0x01, 0x01, 2, 2, 0x7D, 0, false, .any⟩,
  ⟨.fn, 0x5020, 1, 1, 0x02, 0x02, 3, 4, 0x7D, 0, false, .fields [(0, 13, 0, 8191), (16, 10, 0, 1023)]⟩,
  ⟨.fn, 0x5020, 1, 1, 0x03, 0x03, 3, 4, 0x7D, 0, false, .fields [(0, 17, 0, 131071)]⟩,
  ⟨.fn, 0x5020, 1, 1, 0x04, 0x04, 4, 8, 0x7D, 0, false, .any⟩,
  ⟨.fn, 0x5020, 1, 1, 0x05, 0x05, 1, 1, 0x28, 0, false, .range 0 1⟩,
  ⟨.fn, 0x5020, 1, 1, 0x06, 0x06, 3, 4, 0x55, 0, false, .any⟩,
  ⟨.fn, 0x5030, 1, 1, 0x01, 0x01, 2, 2, 0x7D, 0, false, .any⟩,
  ⟨.fn, 0x5030, 1, 1, 0x02, 0x02, 2, 2, 0x55, 0, false, .any⟩,
  ⟨.fn, 0x5030, 1, 1, 0x03, 0x03, 4, 8, 0x7D, 0, false, .any⟩,
  ⟨.fn, 0x5030, 1, 1, 0x04, 0x04, 1, 1, 0x7D, 0, false, .range 0 7⟩,
  ⟨.fn, 0x5030, 1, 1, 0x05, 0x05, 3, 4, 0x55, 0, false, .any⟩,
  ⟨.fn, 0x5030, 1, 1, 0x06, 0x06, 1, 1, 0x28, 0, false, .range 0 1⟩,
  ⟨.fn, 0x5040, 8, 1, 0x01, 0x01, 4, 8, 0x7D, 0, false, .address [3] 2097152⟩,
  ⟨.fn, 0x5040, 8, 1, 0x02, 0x02, 2, 2, 0x7D, 0, false, .range 0 32768⟩,
  ⟨.fn, 0x5040, 8, 1, 0x03, 0x03, 4, 8, 0x7D, 0, false, .address [1, 2] 4096⟩,
  ⟨.fn, 0x5040, 8, 1, 0x04, 0x04, 2, 2, 0x7D, 0, false, .range 0 4096⟩,
  ⟨.fn, 0x5040, 8, 1, 0x05, 0x05, 2, 2, 0x55, 0, false, .any⟩,
  ⟨.fn, 0x5050, 1, 1, 0x01, 0x01, 2, 2, 0x7D, 0, false, .any⟩,
  ⟨.fn, 0x5050, 1, 1, 0x02, 0x02, 2, 2, 0x7D, 0, false, .any⟩,
  ⟨.fn, 0x5050, 1, 1, 0x03, 0x03, 4, 8, 0x7D, 0, false, .any⟩,
  ⟨.fn, 0x5050, 1, 1, 0x04, 0x04, 2, 2, 0x7D, 1, false, .range 1 1024⟩,
  ⟨.fn, 0x5050, 1, 1, 0x05, 0x05, 4, 8, 0x7D, 0, false, .any⟩,
  ⟨.fn, 0x5050, 1, 1, 0x06, 0x06, 1, 1, 0x7D, 1, false, .range 1 64⟩,
  ⟨.fn, 0x5050, 1, 1, 0x07, 0x07, 1, 1, 0x28, 0, false, .range 0 1⟩,
  ⟨.fn, 0x5050, 1, 1, 0x08, 0x08, 1, 1, 0x55, 0, false, .any⟩,
  ⟨.fn, 0x5050, 1, 1, 0x09, 0x09, 4, 8, 0x55, 0, false, .any⟩]

/-- The objects of Table 16.3. -/
def Dict.t16_3 : List ObjRow := [
  ⟨.g, 0x5010, 1, 1, 0x01, 0x01, 2, 2, 0x4F, 65535, true, .any⟩,
  ⟨.g, 0x5010, 1, 1, 0x02, 0x02, 2, 2, 0x4F, 65535, true, .any⟩,
  ⟨.g, 0x5010, 1, 1, 0x03, 0x03, 2, 2, 0x4F, 65535, true, .range 0 8191⟩,
  ⟨.g, 0x5010, 1, 1, 0x04, 0x04, 1, 1, 0x55, 0, false, .range 0 4⟩,
  ⟨.g, 0x5010, 1, 1, 0x05, 0x05, 3, 4, 0x55, 0, false, .any⟩,
  ⟨.g, 0x5010, 1, 1, 0x06, 0x06, 2, 2, 0x55, 65535, false, .any⟩,
  ⟨.g, 0x5010, 1, 1, 0x07, 0x07, 2, 2, 0x45, 0, false, .any⟩,
  ⟨.g, 0x5011, 1, 1, 0x01, 0x01, 2, 2, 0x4D, 100, true, .range 20 1000⟩,
  ⟨.g, 0x5011, 1, 1, 0x02, 0x02, 1, 1, 0x4D, 4, true, .range 2 16⟩,
  ⟨.g, 0x5011, 1, 1, 0x03, 0x03, 2, 2, 0x4D, 300, true, .any⟩,
  ⟨.g, 0x5011, 1, 1, 0x04, 0x04, 2, 2, 0x4D, 2000, true, .range 500 60000⟩,
  ⟨.g, 0x5011, 1, 1, 0x05, 0x05, 3, 4, 0x45, 0, false, .any⟩,
  ⟨.g, 0x5011, 1, 1, 0x06, 0x06, 3, 4, 0x45, 0, false, .any⟩,
  ⟨.g, 0x5012, 1, 1, 0x01, 0x01, 1, 1, 0x4D, 0, true, .range 0 1⟩,
  ⟨.g, 0x5012, 1, 1, 0x02, 0x02, 1, 1, 0x55, 0, false, .range 0 4⟩,
  ⟨.g, 0x5012, 1, 1, 0x03, 0x03, 4, 8, 0x7D, 0, false, .address [1, 2] 1⟩,
  ⟨.g, 0x5012, 1, 1, 0x04, 0x04, 3, 4, 0x7D, 0, false, .steps 0 8388608 4096⟩,
  ⟨.g, 0x5012, 1, 1, 0x05, 0x05, 4, 8, 0x7D, 0, false, .address [1, 2] 1⟩,
  ⟨.g, 0x5012, 1, 1, 0x06, 0x06, 3, 4, 0x7D, 0, false, .range 0 8388608⟩,
  ⟨.g, 0x5012, 1, 1, 0x07, 0x07, 4, 8, 0x55, 0, false, .any⟩,
  ⟨.g, 0x5012, 1, 1, 0x08, 0x08, 4, 8, 0x55, 0, false, .any⟩,
  ⟨.g, 0x5012, 1, 1, 0x09, 0x09, 1, 1, 0x4D, 1, true, .range 0 1⟩,
  ⟨.g, 0x5012, 1, 1, 0x0A, 0x0A, 4, 8, 0x08, 0, false, .any⟩,
  ⟨.g, 0x5012, 1, 1, 0x0B, 0x0B, 3, 4, 0x55, 0, false, .any⟩,
  ⟨.g, 0x5012, 1, 1, 0x0C, 0x0C, 3, 4, 0x45, 0, false, .any⟩,
  ⟨.g, 0x5012, 1, 1, 0x0D, 0x0D, 4, 8, 0x55, 0, false, .any⟩,
  ⟨.g, 0x5013, 1, 1, 0x01, 0x01, 2, 2, 0x4D, 300, true, .range 0 1000⟩,
  ⟨.g, 0x5013, 1, 1, 0x02, 0x02, 2, 2, 0x4F, 0, false, .any⟩,
  ⟨.g, 0x5013, 1, 1, 0x03, 0x03, 2, 2, 0x45, 0, false, .any⟩,
  ⟨.g, 0x5013, 1, 1, 0x04, 0x04, 2, 2, 0x08, 0, false, .any⟩,
  ⟨.g, 0x5013, 1, 1, 0x05, 0x05, 2, 2, 0x08, 0, false, .any⟩,
  ⟨.g, 0x5100, 32, 1, 0x01, 0x80, 3, 4, 0x45, 0, false, .any⟩,
  ⟨.g, 0x5018, 1, 1, 0x01, 0x01, 1, 1, 0x45, 0, false, .range 0 5⟩,
  ⟨.g, 0x5018, 1, 1, 0x02, 0x02, 3, 4, 0x45, 0, false, .any⟩,
  ⟨.g, 0x5018, 1, 1, 0x03, 0x03, 2, 2, 0x45, 0, false, .range 0 1024⟩,
  ⟨.g, 0x5018, 1, 1, 0x06, 0x06, 4, 8, 0x0C, 0, false, .any⟩,
  ⟨.g, 0x5018, 1, 1, 0x07, 0x07, 3, 4, 0x0C, 0, false, .range 0 67108864⟩,
  ⟨.g, 0x5120, 32, 1, 0x01, 0x80, 1, 1, 0x45, 0, false, .range 0 4⟩,
  ⟨.radio, 0x4400, 1024, 1, 0x30, 0x30, 1, 1, 0x7D, 0, false, .range 0 1⟩,
  ⟨.radio, 0x4400, 1024, 1, 0x31, 0x31, 2, 2, 0x7D, 0, false, .range 0 1023⟩]

/-- The objects of Table 17.3. -/
def Dict.t17_3 : List ObjRow := [
  ⟨.g, 0x7800, 1, 1, 0x01, 0x01, 1, 1, 0x4D, 0, true, .range 0 1⟩,
  ⟨.g, 0x7800, 1, 1, 0x02, 0x02, 1, 1, 0x55, 0, false, .any⟩,
  ⟨.g, 0x7800, 1, 1, 0x03, 0x03, 4, 8, 0x55, 0, false, .any⟩,
  ⟨.g, 0x7800, 1, 1, 0x04, 0x04, 3, 4, 0x45, 0, false, .any⟩,
  ⟨.g, 0x7801, 1, 1, 0x01, 0x01, 2, 2, 0x55, 0, false, .any⟩,
  ⟨.g, 0x7801, 1, 1, 0x02, 0x02, 4, 8, 0x55, 0, false, .any⟩,
  ⟨.g, 0x7801, 1, 1, 0x03, 0x03, 3, 4, 0x55, 0, false, .any⟩,
  ⟨.g, 0x7801, 1, 1, 0x04, 0x04, 3, 4, 0x55, 0, false, .any⟩]

/-- The objects of Table 18.6. -/
def Dict.t18_6 : List ObjRow := [
  ⟨.g, 0x7000, 1, 1, 0x01, 0x01, 1, 1, 0x55, 0, false, .range 0 7⟩,
  ⟨.g, 0x7000, 1, 1, 0x02, 0x02, 1, 1, 0x0A, 0, false, .range 1 2⟩,
  ⟨.g, 0x7000, 1, 1, 0x03, 0x03, 1, 1, 0x45, 0, false, .range 0 1⟩,
  ⟨.g, 0x7000, 1, 1, 0x04, 0x04, 1, 1, 0x45, 0, false, .range 0 4⟩,
  ⟨.g, 0x7000, 1, 1, 0x05, 0x05, 1, 1, 0x45, 0, false, .range 0 2⟩,
  ⟨.g, 0x7000, 1, 1, 0x06, 0x06, 3, 4, 0x45, 0, false, .any⟩,
  ⟨.g, 0x7000, 1, 1, 0x07, 0x07, 3, 4, 0x45, 0, true, .any⟩,
  ⟨.g, 0x7000, 1, 1, 0x08, 0x08, 3, 4, 0x45, 0, true, .any⟩,
  ⟨.g, 0x7000, 1, 1, 0x09, 0x09, 1, 1, 0x45, 0, false, .range 0 5⟩,
  ⟨.g, 0x7010, 1, 1, 0x01, 0x60, 1, 1, 0x45, 0, false, .range 0 103⟩,
  ⟨.g, 0x7011, 1, 1, 0x01, 0x20, 1, 1, 0x45, 0, false, .range 0 35⟩,
  ⟨.g, 0x7012, 1, 1, 0x01, 0x03, 1, 1, 0x45, 0, false, .any⟩,
  ⟨.g, 0x7013, 1, 1, 0x01, 0x01, 2, 2, 0x55, 0, false, .any⟩,
  ⟨.g, 0x7013, 1, 1, 0x02, 0xFF, 3, 4, 0x55, 0, false, .any⟩,
  ⟨.g, 0x7014, 1, 1, 0x01, 0x40, 3, 4, 0x45, 0, true, .any⟩,
  ⟨.g, 0x7015, 1, 1, 0x01, 0x01, 1, 1, 0x45, 0, false, .any⟩]

/-- The objects of Table 19.11. -/
def Dict.t19_11 : List ObjRow := [
  ⟨.g, 0x1000, 1, 1, 0x01, 0x01, 3, 4, 0x55, 11638336, false, .any⟩,
  ⟨.g, 0x1000, 1, 1, 0x02, 0x02, 4, 8, 0x55, Config.serial, false, .any⟩,
  ⟨.g, 0x1000, 1, 1, 0x03, 0x03, 10, 1600, 0x55, 0, false, .any⟩,
  ⟨.g, 0x1000, 1, 1, 0x04, 0x04, 4, 8, 0x55, 0, true, .any⟩,
  ⟨.g, 0x1001, 1, 1, 0x01, 0x01, 11, 8192, 0x55, 0, true, .any⟩,
  ⟨.g, 0x9001, 1, 1, 0x01, 0x01, 1, 1, 0x55, Config.fusedSvn, false, .range 0 64⟩,
  ⟨.g, 0x9001, 1, 1, 0x02, 0x02, 1, 1, 0x55, 0, false, .any⟩,
  ⟨.g, 0x9001, 1, 1, 0x03, 0x03, 1, 1, 0x08, 0, false, .range 1 1⟩,
  ⟨.g, 0x9002, 1, 1, 0x01, 0x01, 1, 1, 0x45, 0, true, .range 0 1⟩,
  ⟨.g, 0x9002, 1, 1, 0x02, 0x02, 1, 1, 0x45, Config.revocation, false, .any⟩,
  ⟨.g, 0x9002, 1, 1, 0x03, 0x03, 1, 1, 0x45, 0, false, .any⟩,
  ⟨.g, 0x9010, 1, 1, 0x01, 0x02, 1, 1, 0x45, 0, false, .range 0 4⟩,
  ⟨.g, 0x9020, 1, 1, 0x01, 0x01, 10, 32, 0x4F, 0, true, .any⟩,
  ⟨.g, 0x9021, 1, 1, 0x01, 0x01, 4, 8, 0x4F, 0, true, .any⟩,
  ⟨.vf, 0x9011, 1, 1, 0x01, 0x01, 1, 1, 0x55, 0, false, .range 0 3⟩,
  ⟨.vf, 0x9011, 1, 1, 0x02, 0x02, 3, 4, 0x55, 0, false, .any⟩,
  ⟨.g, 0xF000, 1, 1, 0x01, 0x01, 1, 1, 0x55, 0, false, .range 0 2⟩,
  ⟨.g, 0xF000, 1, 1, 0x02, 0x02, 10, 16, 0x05, 0, false, .any⟩,
  ⟨.g, 0xF000, 1, 1, 0x03, 0x03, 10, 128, 0x0A, 0, false, .any⟩,
  ⟨.g, 0xF000, 1, 1, 0x04, 0x04, 3, 4, 0x45, 0, false, .any⟩,
  ⟨.g, 0xF000, 1, 1, 0x05, 0x05, 3, 4, 0x45, 0, false, .any⟩]

/-- The objects of Table 20.6. -/
def Dict.t20_6 : List ObjRow := [
  ⟨.g, 0x1100, 1, 1, 0x01, 0x01, 1, 1, 0x45, 0, false, .any⟩,
  ⟨.g, 0x1100, 1, 1, 0x02, 0x02, 1, 1, 0x47, 0, true, .range 0 1⟩,
  ⟨.g, 0x1100, 1, 1, 0x03, 0x03, 1, 1, 0x47, 0, true, .range 0 1⟩,
  ⟨.g, 0x1100, 1, 1, 0x04, 0x04, 3, 4, 0x55, Config.vendorId, false, .any⟩,
  ⟨.g, 0x1101, 1, 1, 0x01, 0x04, 4, 8, 0x45, 0, false, .any⟩,
  ⟨.g, 0x1101, 1, 1, 0x05, 0x05, 4, 8, 0x45, 0, false, .any⟩,
  ⟨.g, 0x1101, 1, 1, 0x06, 0x06, 3, 4, 0x45, 0, false, .any⟩,
  ⟨.g, 0x1102, 1, 1, 0x01, 0x01, 2, 2, 0x45, 0, false, .any⟩,
  ⟨.g, 0x1102, 1, 1, 0x02, 0x02, 3, 4, 0x45, 0, false, .any⟩,
  ⟨.g, 0x1102, 1, 1, 0x03, 0x03, 1, 1, 0x47, 0, true, .range 0 1⟩,
  ⟨.g, 0x1104, 1, 1, 0x01, 0x01, 2, 2, 0x0C, 65535, false, .orBelow 8191 8192⟩,
  ⟨.g, 0x1104, 1, 1, 0x02, 0x02, 10, 16, 0x08, 0, false, .any⟩,
  ⟨.g, 0x1104, 1, 1, 0x03, 0x03, 10, 128, 0x0C, 0, false, .any⟩,
  ⟨.g, 0x1104, 1, 1, 0x05, 0x05, 10, 16, 0x04, 0, false, .any⟩,
  ⟨.g, 0x1104, 1, 1, 0x06, 0x06, 11, 2048, 0x04, 0, false, .any⟩,
  ⟨.g, 0x1104, 1, 1, 0x07, 0x07, 2, 2, 0x04, 0, false, .any⟩,
  ⟨.g, 0x1104, 1, 1, 0x08, 0x08, 2, 2, 0x04, 65535, false, .any⟩,
  ⟨.fn, 0x1110, 1, 1, 0x01, 0x01, 4, 8, 0x55, 0, false, .any⟩,
  ⟨.fn, 0x1110, 1, 1, 0x02, 0x02, 3, 4, 0x55, 0, false, .any⟩,
  ⟨.g, 0xA006, 1, 1, 0x01, 0x01, 2, 2, 0x4D, 65535, false, .oneOf [512, 513, 65535]⟩,
  ⟨.g, 0xA008, 1, 1, 0x01, 0x08, 2, 2, 0x4D, 65535, false, .any⟩,
  ⟨.g, 0xA009, 1, 1, 0x01, 0x04, 2, 2, 0x7D, 65535, false, .any⟩,
  ⟨.g, 0xA00A, 1, 1, 0x01, 0x04, 3, 4, 0x7D, 0, false, .fields [(0, 16, 0, 60000), (16, 2, 0, 2)]⟩,
  ⟨.g, 0xA00B, 1, 1, 0x01, 0x04, 1, 1, 0x28, 0, false, .range 1 1⟩,
  ⟨.g, 0xA00C, 1, 1, 0x01, 0x08, 1, 1, 0x4D, 0, false, .range 0 3⟩,
  ⟨.g, 0xA00D, 1, 1, 0x01, 0x04, 3, 4, 0x55, 0, false, .any⟩]

/-- The objects of Table 21.7. -/
def Dict.t21_7 : List ObjRow := [
  ⟨.g, 0x8000, 1, 1, 0x01, 0x01, 2, 2, 0x55, 1000, false, .range 0 1000⟩,
  ⟨.g, 0x8000, 1, 1, 0x02, 0x02, 1, 1, 0x55, 0, false, .range 0 3⟩,
  ⟨.g, 0x8000, 1, 1, 0x03, 0x03, 4, 8, 0x45, 0, false, .any⟩,
  ⟨.g, 0x8000, 1, 1, 0x04, 0x04, 4, 8, 0x45, 0, false, .any⟩,
  ⟨.g, 0x8000, 1, 1, 0x05, 0x05, 3, 4, 0x45, 0, false, .any⟩,
  ⟨.g, 0x8000, 1, 1, 0x06, 0x06, 3, 4, 0x45, 0, false, .any⟩,
  ⟨.g, 0x8000, 1, 1, 0x07, 0x07, 1, 1, 0x45, 0, false, .range 0 63⟩,
  ⟨.g, 0x8001, 1, 1, 0x01, 0x08, 2, 2, 0x45, 0, false, .any⟩,
  ⟨.g, 0x8011, 1, 1, 0x01, 0x40, 10, 32, 0x45, 0, false, .any⟩,
  ⟨.g, 0x8120, 1, 1, 0x01, 0x01, 11, 272, 0x45, 0, false, .any⟩]

/-- The objects of Table 22.7. -/
def Dict.t22_7 : List ObjRow := [
  ⟨.g, 0x1130, 1, 1, 0x01, 0x02, 2, 2, 0x45, 0, false, .any⟩,
  ⟨.g, 0x1131, 1, 1, 0x01, 0x02, 4, 8, 0x45, 0, false, .any⟩,
  ⟨.g, 0x1132, 1, 1, 0x01, 0x02, 3, 4, 0x45, 0, false, .any⟩,
  ⟨.g, 0x1133, 1, 1, 0x01, 0x02, 4, 8, 0x45, 0, false, .any⟩,
  ⟨.fn, 0x1120, 1, 1, 0x01, 0x01, 3, 4, 0x7D, 0, false, .any⟩]

/-- The objects of Table 23.10. -/
def Dict.t23_10 : List ObjRow := [
  ⟨.g, 0x2004, 1, 1, 0x01, 0x01, 2, 2, 0x45, Config.vddArrSetpoint, false, .range 650 800⟩,
  ⟨.g, 0x2004, 1, 1, 0x02, 0x02, 2, 2, 0x45, 0, false, .any⟩,
  ⟨.g, 0x2004, 1, 1, 0x03, 0x03, 1, 1, 0x45, 0, false, .range 0 3⟩]

/-- The objects of Table 21.6. -/
def Dict.t21_6 : List ObjRow := [
  ⟨.g, 0x8103, 1, 1, 0x01, 0x01, 11, 272, 0x45, 0, false, .any⟩,
  ⟨.g, 0x8104, 1, 1, 0x01, 0x09, 11, 272, 0x45, 0, false, .any⟩,
  ⟨.g, 0x8105, 1, 1, 0x01, 0x04, 11, 272, 0x45, 0, false, .any⟩,
  ⟨.g, 0x8106, 1, 1, 0x01, 0x02, 11, 272, 0x45, 0, false, .any⟩,
  ⟨.g, 0x8107, 1, 1, 0x01, 0x02, 11, 272, 0x45, 0, false, .any⟩,
  ⟨.g, 0x8110, 8, 1, 0x01, 0x40, 11, 272, 0x45, 0, false, .any⟩,
  ⟨.fn, 0x8180, 1, 1, 0x01, 0x03, 11, 272, 0x55, 0, false, .any⟩,
  ⟨.fn, 0x8181, 1, 1, 0x01, 0x01, 11, 272, 0x55, 0, false, .any⟩,
  ⟨.fn, 0x8182, 1, 1, 0x01, 0x02, 11, 272, 0x55, 0, false, .any⟩]

/-- The tables (Table 20.7), each with the upper bytes of the indices that it defines. -/
def Dict.tables : List (List Nat × List ObjRow) := [
  ([0x24], Dict.t2_7),
  ([0x20], Dict.t4_3),
  ([0x30, 0x61, 0xA0], Dict.t6_4),
  ([0x30], Dict.t7_18),
  ([0x38], Dict.t8_5),
  ([0x40, 0x44, 0x45, 0x46, 0x47], Dict.t9_8),
  ([0x41], Dict.t10_6),
  ([0x44, 0x45, 0x46, 0x47], Dict.t11_11),
  ([0x42], Dict.t11_12),
  ([0x48, 0xA0], Dict.t11_13),
  ([0x30], Dict.t12_3),
  ([0x30, 0xA0], Dict.t12_7),
  ([0x20], Dict.t13_2),
  ([0x60], Dict.t14_5),
  ([0x50, 0xA0], Dict.t15_5),
  ([0x44, 0x45, 0x46, 0x47, 0x50, 0x51], Dict.t16_3),
  ([0x78], Dict.t17_3),
  ([0x70], Dict.t18_6),
  ([0x10, 0x90, 0xF0], Dict.t19_11),
  ([0x11, 0xA0], Dict.t20_6),
  ([0x80, 0x81], Dict.t21_7),
  ([0x11], Dict.t22_7),
  ([0x20], Dict.t23_10),
  ([0x81], Dict.t21_6)]

/-- Every object of the manual, in the order of its tables. -/
def Dict.rows : List ObjRow := Dict.tables.flatMap (·.2)

/-- The rows of the tables that define objects near an index. -/
def Dict.rowsAt (index : Nat) : List ObjRow :=
  (Dict.tables.filter (fun t => t.1.contains (index / 256))).flatMap (·.2)

/-- Whether a row stands under a selector: 0 to 511 virtual functions, 512 and 513 managers, 1023 device-global (R5). -/
def Owner.holds : Owner → Nat → Bool
  | .g, s => s == 1023
  | .fn, s => decide (s < 514)
  | .vf, s => decide (s < 512)
  | .mgr, s => s == 512 || s == 513
  | .radio, s => decide (s < 512)

/-- Whether a row covers an index and subindex. -/
def ObjRow.covers (r : ObjRow) (index sub : Nat) : Bool :=
  decide (r.lo ≤ sub) && decide (sub ≤ r.hi) && decide (r.index ≤ index) &&
    decide ((index - r.index) / r.stride < r.count) && (index - r.index) % r.stride == 0

/-- The row of an object, if a table defines it (R515). -/
def Dict.find (sel index sub : Nat) : Option ObjRow :=
  (Dict.rowsAt index).find? (fun r => r.owner.holds sel && r.covers index sub)

/-- The highest subindex under an index, which subindex 0 reads (R515). -/
def Dict.maxSub (sel index : Nat) : Nat :=
  (Dict.rowsAt index).foldl (fun m r => if r.owner.holds sel && r.covers index r.lo && decide (m < r.hi) then r.hi else m) 0

/-- The key of an object in the object store. -/
def objKey (sel index sub : Nat) : Nat := sel * 2 ^ 24 + index * 2 ^ 8 + sub

/-- The default of a key (R525); 0 where no table defines an object. -/
def objDflt (key : Nat) : Nat :=
  match Dict.find (key / 2 ^ 24) (key / 2 ^ 8 % 2 ^ 16) (key % 2 ^ 8) with
  | some r => r.dflt
  | none => 0

/-- The number of values of an object's size: counters wrap modulo it. -/
def objMod (sel index sub : Nat) : Nat :=
  match Dict.find sel index sub with
  | some r => 256 ^ r.size
  | none => 2 ^ 64

end Sys2Proof
end

