-- ==== Sys2Proof/Machine/SMap.lean ====
section
/-!
DEFINITION. Sparse maps in one canonical form: keys strictly rising, no entry equal to what an unlisted key reads as.
Memory, the objects of the dictionary, the floats and every table of numbered units are such maps.
-/

namespace Sys2Proof

/-- A sparse map from numbers. -/
abbrev SMap (α : Type) := List (Nat × α)

/-- The value at a key, `d` of the key where nothing is listed. -/
def SMap.get {α : Type} (d : Nat → α) : SMap α → Nat → α
  | [], k => d k
  | (j, v) :: m, k => if j = k then v else SMap.get d m k

/-- Insert or replace, keeping the keys rising. -/
def SMap.put {α : Type} (k : Nat) (v : α) : SMap α → SMap α
  | [] => [(k, v)]
  | (j, w) :: m =>
    if k < j then (k, v) :: (j, w) :: m
    else if k = j then (k, v) :: m
    else (j, w) :: SMap.put k v m

/-- Remove a key. -/
def SMap.del {α : Type} (k : Nat) : SMap α → SMap α
  | [] => []
  | (j, w) :: m => if j = k then SMap.del k m else (j, w) :: SMap.del k m

/-- Write a value: the default removes the entry, so that equal maps are equal lists. -/
def SMap.set {α : Type} [DecidableEq α] (d : Nat → α) (m : SMap α) (k : Nat) (v : α) : SMap α :=
  if v = d k then SMap.del k m else SMap.put k v m

/-- The keys of a map are strictly rising. -/
def SMap.rising {α : Type} : SMap α → Bool
  | [] => true
  | (j, _) :: m => m.all (fun e => decide (j < e.1)) && SMap.rising m

/-- The canonical form: rising keys, no entry equal to its default. -/
def SMap.wf {α : Type} [DecidableEq α] (d : Nat → α) (m : SMap α) : Bool :=
  SMap.rising m && m.all (fun e => decide (e.2 ≠ d e.1))

end Sys2Proof
end

