-- ==== Sys2Proof/Machine/State.lean ====
section
/-!
DEFINITION. The state of the device as plain data, the reasons a command can stop, and the state right after reset.
The registers of the object dictionary are the sparse map `obj`; everything else the manual names has a field here.
-/

namespace Sys2Proof.Machine

/-- A calendar page image (Table 2.3) as loaded: header words, the sparse map from calendar position to pattern, the
pattern directory and the entries (Table 2.4). -/
structure PageImg where
  loaded   : Bool := false              -- an image was loaded; else the page as priming leaves it (R37)
  version  : Nat := 1
  length   : Nat := 0
  patterns : Nat := 1
  entryCnt : Nat := 0
  crc      : Nat := 0
  crcCalc  : Nat := 0
  zeroOk   : Bool := true
  loadLen  : Nat := 0
  map      : SMap Nat := []
  dir      : List W32 := [0]
  entries  : List (W32 × W32) := []
  deriving DecidableEq, Repr

/-- One calendar entry (Table 2.4): `kind` 1 radio, 2 exact, 3 gutter. -/
structure CalEntry where
  start : Nat
  len   : Nat
  kind  : Nat
  ctx   : Nat := 0
  epoch : Nat := 0
  rel   : Bool := false
  deriving DecidableEq, Repr

/-- The calendar machinery (02). -/
structure Cal where
  active     : PageImg := {}
  shadow     : PageImg := {}
  released   : List (Nat × Nat) := []      -- calendar and first granule, for the current frame (R33, R402)
  validating : Nat := 0                    -- 0 none, 1 for F_s, 2 takeover
  takeoverAt : Option Nat := none          -- boundary of an accepted takeover (R455)
  charged    : SMap Nat := []              -- class × 8 + radio period, 1/64 engine-granules of this frame (R61)
  freeRun    : Bool := false
  stepSeam   : Bool := false               -- a TB0 step waits for its seam (R28)
  stepNext   : Bool := false               -- a step taken inside a seam waits for the next one
  lastTick   : Nat := 0                    -- frame number of the last TB0 tick that acted or was discarded (R23, R25)
  zones      : SMap (Nat × Nat) := []      -- landing zone in force per core: Z units, holder (R153)
  deriving DecidableEq, Repr

/-- The states of a context (R176). -/
inductive CtxState where
  | free | idle | running | preempted | faulted
  deriving DecidableEq, Repr

/-- A job in progress: its number in its context, whether its JE record was consumed, and the DYN and NOIL bits that
govern it (R179, R181). -/
structure Job where
  num    : Nat
  closed : Bool := false
  dyn    : Bool := false
  noil   : Bool := false
  deriving DecidableEq, Repr

/-- A context (R176). `mode` 0 fill, 1 exact, 2 radio; `jobs` are its jobs in progress, oldest first; `closed` while
its old epoch drains; `rate` the exact energy reservation in tokens (R375). -/
structure Ctx where
  fn      : Nat := 0
  mode    : Nat := 0
  seed    : Nat := 0
  epoch   : Nat := 0
  home    : Nat := 0
  st      : CtxState := .free
  rate    : Nat := 0
  nextJob : Nat := 0
  jobs    : List Job := []
  closed  : Bool := false
  deriving DecidableEq, Repr

/-- The states of a window slot (R185). -/
inductive SlotState where
  | free | filled | held
  deriving DecidableEq, Repr

/-- A window slot: the words written since it last became free (R185). -/
structure Slot where
  st    : SlotState := .free
  words : SMap W32 := []
  deriving DecidableEq, Repr

/-- Where a command stands: submitted, started, or over with its completion still to be written. -/
inductive Phase where
  | queued | running | ended
  deriving DecidableEq, Repr

/-- A step that a fabric record has still to issue (R424): packet type, kind of its answer (Await), sub-stream, target
address, length, and offset of its data in LOCAL. -/
structure FabStep where
  type : Nat
  kind : Nat
  sub  : Nat
  addr : Nat
  len  : Nat
  off  : Nat := 0
  deriving DecidableEq, Repr

/-- A submitted command that has not retired (07). -/
structure Cmd where
  id      : Nat
  fn      : Nat
  slot    : Option Nat := none       -- none for a triggered record (R433)
  ctx     : Nat := 0
  epoch   : Nat := 0
  job     : Nat := 0
  jobbed  : Bool := true             -- it belongs to a job
  js      : Bool := false
  je      : Bool := false
  words   : List W32 := []
  phase   : Phase := .queued
  did     : Bool := false            -- its own effect has been performed
  status  : Nat := 0
  engines : List Nat := []           -- calendars it occupies
  started : Nat := 0                 -- core cycle of the frame
  detail  : List Nat := []
  bound   : Bool := false            -- BOUND_EXCEEDED
  passed  : Bool := false            -- was passed over for energy (R377)
  metered : Bool := true             -- it is admitted radio work (R61)
  steps   : List FabStep := []       -- steps of a fabric record not issued yet
  cuts    : List (Nat × Nat) := []   -- a FABRIC fence's streams and sequences (R434)
  trig    : Option Nat := none       -- the procedure that a triggered record belongs to
  since   : Nat := 0                 -- TB2 at which a float wait began
  paid    : Bool := false            -- its energy was debited at an earlier start (R356)
  cut     : Nat := 0                 -- told to stop at its next boundary: 1 before its effect, 2 after it (R178, R183)
  asked   : Option Nat := none       -- core clock at which the inputs of a radio-engine job are presented (R18, R173)
  part    : Nat := 0                 -- folios, vector groups, pieces or 32-byte pieces done before a boundary (R122, R146, R163)
  deriving DecidableEq, Repr

/-- What an engine holds (R31, R45, R351, R352). -/
structure Engine where
  busy   : Option Nat := none        -- command
  ready  : Option Nat := none        -- command whose descriptors the prelude loaded
  last   : SMap Nat := []            -- per share class, one plus the function served last
  hold   : Option (Nat × Nat) := none -- context and job of a NOIL hold
  freeAt : Nat := 0                   -- core cycle at which it last became free
  deriving DecidableEq, Repr

/-- A transfer piece between its issue and its landing (R161). -/
structure Piece where
  id    : Nat
  cid   : Nat
  fn    : Nat
  ctx   : Nat := 0
  epoch : Nat := 0
  dst   : Nat
  data  : List Byte
  addr  : Nat := 0                   -- the destination as a device address (Table 7.2)
  bad   : Option Nat := none         -- device address of an uncorrectable word that its source read met (R157)
  float : Option Nat := none         -- absolute float index
  sump  : Bool := false
  stx   : Bool := false              -- a channel-core store
  idx   : Nat := 0                   -- its number within its command
  due   : Nat := 0                   -- core clock at which it lands in a radio or exact interval, 0 for no fixed time (R162, R173)
  deriving DecidableEq, Repr

/-- A read of one 64-byte GDDR7 block, an entry of its channel's bucket where `bucket` is set (R172). Times are of the core
clock. `piece` is the piece that it brings bytes to: `bytes` lists their numbers in the piece and their places in the block;
a read without one is for a radio engine, or for a channel-core thread. -/
structure ReadReq where
  id      : Nat
  cid     : Nat
  fn      : Nat
  ctx     : Nat := 0
  chan    : Nat := 0
  issue   : Nat := 0
  lmax    : Nat := 0
  bucket  : Bool := false
  arrived : Bool := false
  shown   : Bool := false            -- presented, its data not taken yet
  bad     : Bool := false
  mode    : Nat := 0                 -- correction mode at its issue (R395)
  src     : Nat := 0                 -- GDDR7 payload address of the block
  addr    : Nat := 0                 -- device address of the first byte wanted
  piece   : Option Nat := none
  bytes   : List (Nat × Nat) := []
  thread  : Option (Nat × Nat) := none
  wrong   : Option (List Byte) := none -- the block as a miscorrection gives it (R395)
  deriving DecidableEq, Repr

/-- The saved state of a preempted core (Table 12.5). -/
structure Saved where
  fn      : Nat
  z       : Nat
  well    : List (Nat × Byte)
  threads : List (Option Nat)
  acc     : SMap (BitVec 96)
  flags   : SMap (BitVec 3)
  deriving DecidableEq, Repr

/-- A compute core apart from its memories (R344, R355). `threads` are the contexts holding its four threads. -/
structure Core where
  since    : Nat := 0                     -- TB2 in 2^-16 ns when its holder took or restored it (R355)
  threads  : List (Option Nat) := [none, none, none, none]
  saved    : List Saved := []
  preempt  : Option (Nat × Nat) := none   -- function leaving, selector to be given the core (0xFFFF none)
  saving   : Bool := false
  restore  : Option Nat := none
  acc      : SMap (BitVec 96) := []
  flags    : SMap (BitVec 3) := []
  act      : SMap Nat := []              -- activation registers: (array × 2 + register) × 4096 + cell to element bits (R105)
  actSel   : SMap Nat := []              -- per array the register that is active
  deriving DecidableEq, Repr

/-- A region slot of a function (R419, R420). -/
structure Region where
  number : Nat := 0
  base   : Nat := 0
  flags  : Nat := 0
  dev    : Nat := 0
  owner  : Nat := 0
  deriving DecidableEq, Repr

/-- An endpoint entry (R421). Floats are indices of the function, with their enables. -/
structure Endpoint where
  dev     : Nat
  fn      : Nat
  arrival : Option Nat := none
  notice  : Option Nat := none
  area    : Nat := 0
  deriving DecidableEq, Repr

/-- A standpipe landing page (R431): its block, whether it was fetched, and the offsets the function stored. -/
structure LandPage where
  block   : Nat
  fetched : Bool := false
  marks   : List Nat := []
  deriving DecidableEq, Repr

/-- One sequence slot of a KV pool (R216): its position and pages. -/
structure KvSeq where
  pos   : Nat
  pages : List Nat
  deriving DecidableEq, Repr

/-- A function's resources and its window (07, 08, 12, 15, 22). -/
structure Fn where
  slots     : SMap Slot := []
  nWrite    : Nat := 0
  nConsume  : Nat := 0
  nCompl    : Nat := 0
  unret     : List Nat := []          -- slots of unreturned completions, oldest first
  unsig     : Nat := 0                -- completions since the last signal
  oldest    : Nat := 0                -- TB2 of the oldest unsignalled completion
  gpages    : List Nat := []
  cpages    : List Nat := []
  saves     : List Nat := []
  shareCls  : Nat := 0                -- the share class in force (R340)
  granted   : List Nat := []          -- the eleven components the grant took (Table 12.3), [] without one
  floatTake : Nat := 0
  regions   : List Region := []
  endpoints : SMap Endpoint := []
  pipes     : SMap (SMap LandPage) := []
  kv        : SMap KvSeq := []
  d3hot     : Bool := false
  acksLeft  : List Nat := []          -- peers whose RETIRE acknowledgement is awaited
  owned     : List (Nat × Nat) := []  -- remote regions it owns: home device and region number (R428)
  resetStop : Bool := false           -- the reset's stops and waits are over
  msixOff   : Bool := false
  msixMask  : List Nat := [0, 1, 2, 3]   -- vectors start masked (log entry 19)
  msixPend  : List Nat := []
  busy      : Bool := false           -- DONE is 0 on its dictionary window
  deriving DecidableEq, Repr

/-- A block repeat in progress (R278). -/
structure LoopFrame where
  first : Nat
  last  : Nat
  count : Nat
  deriving DecidableEq, Repr

/-- Where a channel-core thread stands: `running` is the one that issues, until it switches out (R274). -/
inductive ThreadState where
  | idle | ready | running | waiting | halted
  deriving DecidableEq, Repr

/-- A channel-core thread (Table 10.1). -/
structure Thread where
  st    : ThreadState := .idle
  x     : List W32 := List.replicate 16 0
  a     : List (BitVec 18) := List.replicate 16 0
  m     : List (BitVec 18) := List.replicate 8 0
  cbb   : List (BitVec 18) := List.replicate 8 0
  cbl   : List (BitVec 19) := List.replicate 8 0
  amode : W32 := 0
  flags : BitVec 2 := 0
  pc    : BitVec 18 := 0
  loops : List LoopFrame := []
  xd    : Nat := 0                    -- destination of the load it waits for
  size  : Nat := 0
  addr  : Nat := 0                    -- device address of the load (R285)
  due   : Nat := 0                    -- core clock at which its data reaches the registers (R286)
  far   : Bool := false               -- it waits for an LDF (R287)
  deriving DecidableEq, Repr

/-- A channel core (R268, Table 10.1). `cur` is the thread that issued last; `satc` counts store saturations of the job. -/
structure ChanCore where
  cid     : Option Nat := none
  threads : List Thread := []
  cur     : Nat := 0
  acc     : List (BitVec 40 × BitVec 40) := List.replicate 8 (0, 0)
  satc    : Nat := 0
  aov     : Bool := false
  misses  : Nat := 0
  ext     : List Nat := [0, 0, 0, 0]
  fwait   : Nat := 0
  deriving DecidableEq, Repr

/-- A PRB filed in receive staging of an engine (R309, R310). `slotNo` is (radio frame × 16 + subframe) × 64 + slot;
`closes` is the window's end in 2^-16 ns of TB0. -/
structure Filed where
  cell   : Nat
  eaxc   : Nat
  slotNo : Nat
  symbol : Nat
  prb    : Nat
  closes : Nat
  res    : List W32
  moved  : Bool := false               -- a DELIVER moved it (R310)
  deriving DecidableEq, Repr

/-- A frame in a transmit queue (R311, R312). Times in 2^-16 ns of TB0; `window` is absent for RAW_TX. -/
structure TxFrame where
  cid    : Nat
  cell   : Nat
  insert : Nat                         -- 0 none, 1 PTP one-step, 2 eCPRI one-step
  window : Option (Nat × Nat)
  bytes  : List Byte
  metered  : Bool := true
  deriving DecidableEq, Repr

/-- A servo (R318-R320). Phase errors in 2^-16 ns, newest first. `seen` is when the last Sync, PPS edge or PTM response came and
`heard` the last Announce: counts of TB2, but of TB0 for a PPS edge; `missed` counts the TIME exchanges begun since the last
answer; `steered` is TB2 at the last change of the rate; `frac` the part of a unit of 2^-16 ns that the count has gone. -/
structure Servo where
  errs    : List Int := []
  outside : Nat := 0
  seen    : Nat := 0
  heard   : Nat := 0
  missed  : Nat := 0
  steered : Nat := 0
  frac    : Nat := 0
  deriving DecidableEq, Repr

/-- What the device sends to its surroundings. -/
inductive Out where
  | msix (fn vector : Nat)
  | inBand                                             -- I3C in-band interrupt (R543)
  | packet (dst type : Nat) (p : Packet)
  | domain (dst kind a b : Nat) (data : List Byte)
  | frame (lane : Nat) (bytes : List Byte) (stamp : Nat)
  | ptp (port kind seq clockClass ns frac : Nat)         -- 0 Sync, 1 Announce, 2 Delay_Resp; its stamp in ns and 2^-16 ns
  | ecpri (lane measurement stamp : Nat) (comp : Int)    -- a delay Response
  | dict (path : Path) (status detail : Nat) (data : List Byte)
  | mctp (path : Path) (command value : Nat)
  | spdm (transport code : Nat) (data : List Nat)
  | aer (port fn severity : Nat)                       -- 0 correctable, 1 non-fatal, 2 fatal
  | ptm
  deriving DecidableEq, Repr

/-- A fabric lane (R407-R409, R548). The four lists are per credit class. -/
structure Lane where
  expect   : Nat := 0
  back     : Nat := 0
  replays  : Nat := 0
  held     : List Nat := [0, 0, 0, 0]     -- credits this sender holds
  received : List Nat := [0, 0, 0, 0]     -- credits received from the peer
  sent     : List Nat := [0, 0, 0, 0]     -- slots sent
  peer     : List Nat := [0, 0, 0, 0]     -- credits the peer holds
  occupied : List Nat := [0, 0, 0, 0]
  owed     : List Nat := [0, 0, 0, 0]     -- credits awaiting return
  buffer   : List Nat := [0, 0, 0, 0]     -- buffer slots
  bad      : Bool := false                -- waits for a replay of `expect`
  wait     : List (Nat × Nat × Out) := [] -- class, slots and packet waiting for credits, oldest first
  deriving DecidableEq, Repr

/-- A fabric session with a peer device (R412). -/
structure Session where
  tx   : Nat := 1
  hi   : Nat := 0
  seen : List Nat := []
  deriving DecidableEq, Repr

/-- A sub-stream with a peer (R414). -/
structure Stream where
  next    : Nat := 1
  acked   : Nat := 0
  unacked : List (Nat × Nat × Nat × Packet) := []   -- SEQ, tag, type and packet
  expect  : Nat := 1
  kept    : List (Nat × Nat × Packet) := []         -- SEQ, type and packet of kept replies (R415)
  cut     : Nat := 0
  cutFrom : Nat := 0                                -- `expect` when the cut came (R436)
  holds   : List Nat := []                          -- SEQs of hand-offs not acknowledged yet (R428)
  sentAt  : Nat := 0                                -- TB2 in us of the last send or progress
  deriving DecidableEq, Repr

/-- A request of this device that waits for its reply or acknowledgement (R424). `kind` is its packet type, 0x11 a
standpipe fetch, 0x12 a channel-core LDF; `loc` the device address where its answer lands; `back` the hand-off that an
OWNER_NOTICE belongs to, or the core and thread of an LDF. -/
structure Await where
  id    : Nat
  cid   : Nat
  fn    : Nat
  ctx   : Nat := 0
  epoch : Nat := 0
  dev   : Nat
  kind  : Nat
  addr  : Nat := 0
  len   : Nat := 0
  loc   : Nat := 0
  float : Option Nat := none
  back  : Option (Nat × Nat) := none
  deriving DecidableEq, Repr

/-- A reply that a home function still has to send: a step of it, with its length in core cycles (R425). -/
structure HomeStep where
  id     : Nat
  fn     : Nat
  dev    : Nat
  type   : Nat
  len    : Nat
  packet : Packet
  deriving DecidableEq, Repr

/-- An accepted trigger: where its TRIGGER_DONE goes, and its arguments (R433). -/
structure TrigReq where
  dev  : Nat
  fn   : Nat
  sub  : Nat
  seq  : Nat
  req  : Nat
  args : List Byte
  deriving DecidableEq, Repr

/-- A registered procedure (R432, R433). -/
structure Proc where
  fn     : Nat
  ctx    : Nat
  list   : Nat
  count  : Nat
  arg    : Nat
  depth  : Nat
  queue  : List TrigReq := []
  active : Option TrigReq := none
  live   : Bool := true
  deriving DecidableEq, Repr

/-- The domain machinery (16). -/
structure Domain where
  members    : List Nat := []
  beats      : SMap Nat := []           -- last BEAT of a member: its score + 1
  fwStates   : SMap Nat := []
  expelled   : List Nat := []
  declared   : List Nat := []           -- devices declared failed and not admitted again (R438, R447)
  recommend  : List Nat := []           -- members recommended for expulsion (R462)
  suspect    : List Nat := []           -- members marked suspect, keep
  clock      : SMap Nat := []           -- TB2 in us of the last event of a kind (Domain rows)
  partnerUp  : Bool := false
  stopAt     : Option Nat := none       -- boundary at which the cells stop (R457)
  handBack   : Option Nat := none
  rxFrame    : Nat := 0
  rxBytes    : List (Nat × List Byte) := []
  rxTotal    : Nat := 0
  lastCells  : List Nat := []           -- cells of the last complete shipment
  lastTracks : SMap (Nat × Nat) := []
  holding    : List Nat := []           -- cells taken over
  fwCount    : Nat := 0
  fwVersion  : Nat := 0
  fwHeld     : List Nat := []
  fwRounds   : SMap Nat := []           -- resend rounds per member (R460)
  fwDone     : List Nat := []           -- members whose bitmap is complete or that are missed
  fwPrepared : Bool := false            -- PREPARE was sent (R461)
  relay      : Nat := 0
  remote     : Option (Nat × Nat) := none -- target and request header of the access outstanding (R533)
  remoteSent : Nat := 0                 -- TB2 in us of the first sending
  remoteTry  : Bool := false            -- it was sent a second time
  answers    : List (Nat × Nat) := []   -- device and status of a broadcast
  applying   : Option Nat := none       -- header of the request from the master that is being applied
  kept       : Option (Nat × List Byte) := none -- header and data of the kept response
  deriving DecidableEq, Repr

/-- An SPDM connection on one transport (R507). Sessions: identifier and whether FINISH completed. -/
structure Spdm where
  version    : Bool := false
  caps       : Bool := false
  negotiated : Bool := false
  sessions   : List (Nat × Bool) := []
  nextId     : Nat := 1
  chunkIn    : Nat := 0
  chunkOut   : Nat := 0
  deriving DecidableEq, Repr

/-- The security block and the flash (19). -/
structure Sec where
  spdm       : SMap Spdm := []
  delta      : Bool := false            -- the debug byte δ
  entropyOk  : Bool := true
  nonceLive  : Bool := false
  unlocking  : Bool := false
  keyCount   : Nat := 0                 -- keys the DRBG has drawn
  sessKeys   : Bool := true             -- identity keys are present (not zeroized)
  images     : SMap Nat := []           -- slot to one plus the version committed to it, 0 for Config.imageVersion (R461)
  running    : Nat := 0                 -- the image that runs, likewise
  imageSvn   : Nat := 0                 -- its SVN, as the last priming read it (Table 19.2)
  svnRaised  : Bool := false
  ide        : SMap (List Nat) := []    -- active IDE streams of each port (R508)
  tdiBound   : SMap Nat := []           -- function to one plus the IDE stream its lock bound (R509)
  unlockScope : Nat := 0                -- scope of the token whose unlock runs
  flash      : SMap Nat := []           -- stored objects by key
  flashQ     : List (Path × Nat × Nat) := []   -- stored writes not yet committed: path, object, value
  restore    : Bool := false            -- R527
  deriving DecidableEq, Repr

/-- A host port (22). -/
structure Port where
  vfEnable : Bool := false
  numVfs   : Nat := 0
  perst    : Bool := true
  ptm      : Bool := false
  deriving DecidableEq, Repr

/-- Power, clocks and the reset that is waiting (18, 23). -/
structure Power where
  aon     : Bool := true
  io18    : Bool := true
  good    : Bool := true
  sysrst  : Bool := false
  stopped : Bool := false
  trip    : Bool := false
  spiHigh : Bool := false
  request : Option (Nat × Nat × Nat) := none   -- kind 1 warm 2 cold, source, frame of the request
  warm    : Bool := false                      -- the priming under way is a warm one
  deriving DecidableEq, Repr

/-- The energy machinery that no object holds (13). -/
structure Energy where
  common   : Nat := 0
  budgets  : SMap Nat := []         -- E_win of windows whose M(w) is not yet reported
  overs    : List Nat := []         -- consecutive over-spends, newest first
  calm     : Nat := 0
  pending  : Option Nat := none     -- P_lim not yet in force
  critical : Bool := false          -- THERMAL_CRITICAL latched
  stdNext  : Option Nat := none     -- E_std from the next window start on (R372)
  radioUse : Nat := 0               -- tokens × 256 charged to E_radio in this window
  exactUse : SMap Nat := []         -- the same per exact context
  ending   : List (Nat × Nat) := [] -- exact reservations that end at the next window
  began    : Option Nat := none     -- core clock at which the window's start acted
  fill     : SMap Nat := []         -- per group, core cycles in fill intervals this window (R350)
  demand   : List (Nat × Nat) := [] -- classes and groups with fill work this window
  deriving DecidableEq, Repr

/-- Why a command stops the block. -/
inductive Fault where
  /-- Raised by every meaning whose operand numbers a unit, port, lane, timer or function that the device does not have
  (Table 1.3): no such command can reach the hardware, so it is safe (log entry 6). -/
  | noSuchUnit
  deriving DecidableEq, Repr

/-- Why the model gives a command no meaning. -/
inductive Refusal where
  /-- Raised by the arms of exec whose command has no meaning yet; safe, since nothing can be proved of it. -/
  | notModelled (mnemonic : String)
  deriving DecidableEq, Repr

/-- The state of the device. -/
structure State where
  obj      : SMap Nat := []                 -- the object dictionary's registers, by objKey
  mem      : SMap Byte := []                -- wells, cistern, GDDR7 payload, channel-core memories (Ops: Mem)
  garbled  : SMap Nat := []                 -- pages whose key rotated: page number to one plus its key generation
  ecc      : SMap Nat := []                 -- errors present in stored words, by address
  floats   : SMap W64 := []
  fAdds    : SMap Nat := []                 -- what was added to a float in this core cycle (R166)
  fSets    : SMap Nat := []                 -- one plus the highest requester that set a float in this core cycle
  cycle    : Nat := 0                       -- core cycles since the frame started
  clock    : Nat := 0                       -- core cycles since the last reset
  tb       : List Nat := [0, 0, 0, 0]       -- TB0 to TB3 in 2^-16 ns (R314)
  servo    : List Servo := [{}, {}, {}, {}]
  tb0Ready : Bool := false                  -- TB0 stepped since priming (R322)
  cal      : Cal := {}
  ctxs     : SMap Ctx := []
  fns      : SMap Fn := []
  cmds     : List Cmd := []                 -- in submission order
  nextId   : Nat := 0
  retired  : List Nat := []                 -- commands that have retired and whose completion is still to be written, oldest first (R206)
  engines  : SMap Engine := []
  pieces   : List Piece := []
  reads    : List ReadReq := []
  cores    : SMap Core := []
  chans    : SMap ChanCore := []
  cellsAt  : SMap Nat := []                 -- cell to the frame at which its change takes effect (R59)
  recs     : List (Nat × Nat × Nat × Nat) := [] -- cell, word (16 for all), frame and value of a record update (R257)
  inCal    : List Nat := []                 -- cells whose demand is in the calendar (R59, R373)
  standby  : List Nat := []
  tracks   : SMap (Nat × Nat) := []         -- tracker × 512 + track to offset and phase (R256)
  failedTb : List (Nat × Nat) := []         -- cell and TB_ID reported failed (R63)
  staging  : SMap (List Filed) := []
  txq      : SMap (List TxFrame) := []
  seqRx    : SMap Nat := []                 -- eAxC × 2 + direction to one plus the last accepted sequence
  seqTx    : SMap Nat := []
  ptpSeq   : SMap Nat := []
  parent   : Option (List Nat) := none      -- data set of the PTP parent at the slave port (R324)
  rxHeld   : SMap Nat := []                 -- frames in the receive queue of a lane whose engine is fenced (R17)
  delaySent : SMap Int := []                -- port × 256 + measurement ID to t1 + tCV1 of the device's own Request (R330)
  energy   : Energy := {}
  modeAt   : Option Nat := none             -- frame at which the requested timing mode takes effect (R467)
  eccMode  : Nat := 0                       -- correction mode in force in this frame (R395)
  owed     : SMap Nat := []                 -- REFab owed per channel (R402)
  scrub    : SMap (Nat × Nat) := []         -- per channel next pair and corrected count of the pass (R397)
  cscrub   : Nat := 0                       -- cistern scrub cycles done (R157)
  lanes    : SMap Lane := []
  sessions : SMap Session := []
  streams  : SMap Stream := []
  awaits   : List Await := []
  answers  : List HomeStep := []            -- replies that are still to be sent, oldest first
  atomics  : List (Nat × Packet) := []      -- the atomic unit: flat address and operation, in arrival order (R426)
  procs    : SMap Proc := []
  triggers : SMap (Nat × Nat × Nat) := []   -- request tag of a trigger to its function, RFLOAT and RF_ADD (R433)
  domain   : Domain := {}
  sec      : Sec := {}
  latches  : List (Path × Nat × Nat × List Byte) := [] -- requester, object, TB2 in us when taken, snapshot (R528)
  vdmEid   : SMap Nat := []                 -- MCTP endpoint ID on the VDM of each port
  healthAt : Nat := 0                       -- TB2 in us of the last health computation (R545)
  wdog     : SMap Nat := []                 -- timer to TB2 of its window's start
  hourly   : List Nat := []                 -- hardware errors, newest bucket first (R545)
  minutely : List Nat := []                 -- health events
  logNext  : Nat := 0
  debits   : SMap Nat := []                 -- ledger terms that no object holds, by Ops.Term
  harvest  : List Nat := []                 -- physical units in force: 96 cores, then 32 channel cores as 256 plus their number
  badPhys  : List Nat := []                 -- physical units in the harvest map as failed, numbered likewise
  fenced   : List (Nat × Nat) := []         -- calendar ID and cause (G:0x7013)
  ports    : SMap Port := []
  host     : SMap Byte := []                -- bytes written to host memory: port × 2^64 + address
  power    : Power := {}
  out      : List Out := []                 -- oldest first
  pending  : List Instr := []
  freeCtr  : Nat := 0
  deriving DecidableEq, Repr

/-- The machine right after reset: power is good, every object at its default, every memory unlisted, and cold
priming about to begin (Table 18.1, R525; log entry 3). -/
def State.reset : State where
  pending := []

end Sys2Proof.Machine
end

