-- ==== Sys2Proof/Machine/Flags.lean ====
section
/-!
DEFINITION. Status codes of completions and accesses (R208, Table 7.16), the words of a completion record (Table 7.17),
and the error codes of the log (Table 21.2).
-/

namespace Sys2Proof.Machine

def Status.ok                    : Nat := 0x00
def Status.cancelled             : Nat := 0x01
def Status.contextFaulted        : Nat := 0x02
def Status.epochStale            : Nat := 0x03
def Status.contextInvalid        : Nat := 0x04
def Status.peerFenced            : Nat := 0x05
def Status.radioLate             : Nat := 0x06
def Status.classInvalid          : Nat := 0x10
def Status.reservedNonzero       : Nat := 0x11
def Status.accessDenied          : Nat := 0x12
def Status.engineInvalid         : Nat := 0x13
def Status.jobInvalid            : Nat := 0x14
def Status.formatUnsupported     : Nat := 0x15
def Status.shapeInvalid          : Nat := 0x16
def Status.operationUnsupported  : Nat := 0x17
def Status.addressInvalid        : Nat := 0x18
def Status.floatInvalid          : Nat := 0x19
def Status.noGapFits             : Nat := 0x20
def Status.unboundedOnShared     : Nat := 0x21
def Status.overrun               : Nat := 0x22
def Status.waitTimeout           : Nat := 0x23
def Status.pathLate              : Nat := 0x24
def Status.engineFenced          : Nat := 0x25
def Status.eccUncorrectable      : Nat := 0x26
def Status.hardwareError         : Nat := 0x27
def Status.ownershipFault        : Nat := 0x30
def Status.triggerUnregistered   : Nat := 0x31
def Status.multiWriterRejected   : Nat := 0x32
def Status.resourceHeld          : Nat := 0x40
def Status.radioBudgetExceeded   : Nat := 0x41
def Status.quotaExhausted        : Nat := 0x42

/-- Whether a status faults the context (the column "Faults" of Table 7.16); `radio` for a radio-mode context. -/
def Status.faults (code : Nat) (radio : Bool) : Bool :=
  if code = Status.overrun ∨ code = Status.eccUncorrectable then !radio
  else (decide (0x10 ≤ code) && decide (code ≤ 0x1F)) || (decide (0x20 ≤ code) && decide (code ≤ 0x27)) ||
    (decide (0x30 ≤ code) && decide (code ≤ 0x32)) || code == Status.resourceHeld

/-- The status and DETAIL words that a failed check gives. -/
structure Refused where
  status : Nat
  detail : Nat := 0
  deriving DecidableEq, Repr

/-- A check: nothing, or the refusal that the first failing condition gives. -/
def ensure (cond : Bool) (status : Nat) (detail : Nat := 0) : Except Refused Unit :=
  if cond then .ok () else .error ⟨status, detail⟩

/-- Word 1 of a completion: status, PHASE, JOB_END, BOUND_EXCEEDED and slot (Table 7.17). -/
def completionW1 (status : Nat) (phase jobEnd bound : Bool) (slot : Nat) : W32 :=
  BitVec.ofNat 32 (status % 256 + phase.toNat * 2 ^ 8 + jobEnd.toNat * 2 ^ 9 + bound.toNat * 2 ^ 10 + slot % 1024 * 2 ^ 16)

/-- The error codes of Table 21.2. -/
def ErrCode.holdover           : Nat := 0x01
def ErrCode.budgetShort        : Nat := 0x02
def ErrCode.scrubThreshold     : Nat := 0x03
def ErrCode.gddr7Warm          : Nat := 0x04
def ErrCode.partnerUnprotected : Nat := 0x05
def ErrCode.takeoverRefused    : Nat := 0x06
def ErrCode.watchdog           : Nat := 0x07
def ErrCode.radioLate          : Nat := 0x40
def ErrCode.uncorrectable      : Nat := 0x41
def ErrCode.thermalCritical    : Nat := 0x42
def ErrCode.gddr7Hot           : Nat := 0x43
def ErrCode.tagFailure         : Nat := 0x44
def ErrCode.recordRejected     : Nat := 0x45
def ErrCode.entropy            : Nat := 0x46
def ErrCode.receiveOverflow    : Nat := 0x47
def ErrCode.unitFenced         : Nat := 0x48
def ErrCode.ledgerImbalance    : Nat := 0x49
def ErrCode.other              : Nat := 0x4F

/-- KIND of an error log entry: 1 for a health event, 2 for a hardware error (Table 21.3). -/
def ErrCode.kind (code : Nat) : Nat := if code < 0x40 then 1 else 2

/-- No engine, no function, no holder. -/
def none16 : Nat := 0xFFFF

end Sys2Proof.Machine
end

