-- ==== Sys2Proof/Machine/Ops.lean ====
section
/-!
DEFINITION. The named operations over the state: objects, units, memory and floats, time, and what the device raises
and sends. Every meaning is written over these.
-/

namespace Sys2Proof.Machine

/-! ### Objects -/

/-- The value of a stored object. -/
def State.o (s : State) (sel index sub : Nat) : Nat := SMap.get objDflt s.obj (objKey sel index sub)

/-- Store an object's value, modulo its width. -/
def State.setO (s : State) (sel index sub v : Nat) : State :=
  { s with obj := SMap.set objDflt s.obj (objKey sel index sub) (v % objMod sel index sub) }

/-- Step a counter by n; counters wrap modulo their width. -/
def State.addO (s : State) (sel index sub n : Nat) : State := s.setO sel index sub (s.o sel index sub + n)

/-- A device-global object. -/
def State.g (s : State) (index sub : Nat) : Nat := s.o 1023 index sub
def State.setG (s : State) (index sub v : Nat) : State := s.setO 1023 index sub v
def State.addG (s : State) (index sub n : Nat) : State := s.addO 1023 index sub n

/-- The signed value of an object of a number of bytes. -/
def State.oInt (s : State) (sel index sub size : Nat) : Int := sgn (8 * size) (s.o sel index sub)

/-! ### Units and functions -/

/-- The managers' selectors (R4, R5). -/
def isMgr (f : Nat) : Bool := f == 512 || f == 513
/-- The 514 functions (R335). -/
def isFn (f : Nat) : Bool := decide (f < 514)
/-- The port of a function: 0 for A, 1 for B (R4). -/
def portOf (f : Nat) : Nat := if f < 256 ∨ f = 512 then 0 else 1
/-- The manager of a function's port (R335). -/
def mgrOf (f : Nat) : Nat := 512 + portOf f
/-- Every selector of a port: its virtual functions and its manager. -/
def portFns (p : Nat) : List Nat := span (256 * p) 256 ++ [512 + p]

def State.fn (s : State) (f : Nat) : Fn := SMap.get (fun _ => {}) s.fns f
def State.setFn (s : State) (f : Nat) (x : Fn) : State := { s with fns := SMap.set (fun _ => {}) s.fns f x }
def State.modFn (s : State) (f : Nat) (k : Fn → Fn) : State := s.setFn f (k (s.fn f))

def State.ctx (s : State) (c : Nat) : Ctx := SMap.get (fun _ => {}) s.ctxs c
def State.setCtx (s : State) (c : Nat) (x : Ctx) : State := { s with ctxs := SMap.set (fun _ => {}) s.ctxs c x }
def State.modCtx (s : State) (c : Nat) (k : Ctx → Ctx) : State := s.setCtx c (k (s.ctx c))

def State.engine (s : State) (e : Nat) : Engine := SMap.get (fun _ => {}) s.engines e
def State.setEngine (s : State) (e : Nat) (x : Engine) : State :=
  { s with engines := SMap.set (fun _ => {}) s.engines e x }
def State.modEngine (s : State) (e : Nat) (k : Engine → Engine) : State := s.setEngine e (k (s.engine e))

def State.core (s : State) (c : Nat) : Core := SMap.get (fun _ => {}) s.cores c
def State.setCore (s : State) (c : Nat) (x : Core) : State := { s with cores := SMap.set (fun _ => {}) s.cores c x }
def State.modCore (s : State) (c : Nat) (k : Core → Core) : State := s.setCore c (k (s.core c))

def State.chan (s : State) (c : Nat) : ChanCore := SMap.get (fun _ => {}) s.chans c
def State.setChan (s : State) (c : Nat) (x : ChanCore) : State := { s with chans := SMap.set (fun _ => {}) s.chans c x }

def State.lane (s : State) (l : Nat) : Lane := SMap.get (fun _ => {}) s.lanes l
def State.setLane (s : State) (l : Nat) (x : Lane) : State := { s with lanes := SMap.set (fun _ => {}) s.lanes l x }

def State.port (s : State) (p : Nat) : Port := SMap.get (fun _ => {}) s.ports p
def State.setPort (s : State) (p : Nat) (x : Port) : State := { s with ports := SMap.set (fun _ => {}) s.ports p x }

/-- The state of a function: the managers are always live (R336, R337). -/
def State.fnState (s : State) (f : Nat) : Nat := if isMgr f then 1 else s.o f 0x3000 1
/-- A function that holds a grant (live, resetting or destroying). -/
def State.present (s : State) (f : Nat) : Bool := s.fnState f != 0
/-- A function in reset (R364). -/
def State.resetting (s : State) (f : Nat) : Bool :=
  if isMgr f then s.o f 0x3000 2 == 1 else s.fnState f == 2 || s.fnState f == 3
/-- The functions that are not absent, in ascending selector order. -/
def State.presentFns (s : State) : List Nat :=
  ((s.fns.map (·.1)).filter (fun f => decide (f < 512) && s.present f)) ++ [512, 513]

/-- The radio owner's selector, 0xFFFF none (R338). -/
def State.radioOwner (s : State) : Nat := s.g 0xA005 1

/-- Priming has ended and the device runs (R482, R577). -/
def State.up (s : State) : Bool :=
  s.power.good && !s.power.stopped && !s.power.sysrst && (s.g 0x7000 1 == 5 || s.g 0x7000 1 == 6)

/-- The device is powered and out of reset, primed or not. -/
def State.powered (s : State) : Bool := s.power.good && !s.power.stopped && !s.power.sysrst

/-! ### Time -/

/-- A time base's count in 2^-16 ns (R314). -/
def State.time (s : State) (n : Nat) : Nat := s.tb.getD n 0
/-- The 96-bit layout of a count (Table 11.5). -/
def timeWord (t : Nat) : Nat := t % 2 ^ 16 + t / 2 ^ 16 % 1000000000 * 2 ^ 16 + t / 2 ^ 16 / 1000000000 * 2 ^ 48
/-- Nanoseconds as a count. -/
def nanos (n : Nat) : Nat := n * 2 ^ 16
/-- Microseconds of TB2. -/
def State.tb2us (s : State) : Nat := s.time 2 / 2 ^ 16 / 1000
/-- The frame number of the TB0 count: seconds × 1,000 plus nanoseconds / 1,000,000 (R23). -/
def State.tickFrame (s : State) : Nat := s.time 0 / 2 ^ 16 / 1000000
/-- TB0 has passed the start of a frame whose tick has not acted yet (R19, R23). -/
def State.tickDue (s : State) : Bool := s.tickFrame != s.cal.lastTick
/-- The current frame number F (R23). -/
def State.frame (s : State) : Nat := s.g 0x2400 2
/-- The current granule (R24, R25). -/
def State.granule (s : State) : Nat := min 3999 (s.cycle / 450)
/-- Core cycles at which the seam starts (R25). -/
def seamStart : Nat := 1799550

/-- Take a fresh free value (log entry 9). -/
def State.fresh (s : State) : Nat × State := (Config.free s.freeCtr, { s with freeCtr := s.freeCtr + 1 })

/-! ### Memory -/

/-- Regions of the flat memory: GDDR7 payload, the cistern, the wells, the channel-core memories. -/
def Mem.gddr : Nat := 0
def Mem.cistern : Nat := 2 ^ 40
def Mem.well (core : Nat) : Nat := 2 ^ 41 + core * 2 ^ 21
def Mem.chan (cc : Nat) : Nat := 2 ^ 42 + cc * 2 ^ 18
def Mem.page : Nat := 65536
def Mem.wellSize : Nat := 2 ^ 21

/-- What an unlisted byte reads as: 0, or the old ciphertext under the new key where the page's key rotated since
(R364, R393; log entries 1 and 2). -/
def memDflt (garbled : SMap Nat) (a : Nat) : Byte :=
  let gen := SMap.get (fun _ => 0) garbled (a / Mem.page)
  if gen = 0 then 0 else Config.garble (a / Mem.page) (gen - 1) (a % Mem.page)

/-- One byte of memory. -/
def State.rd (s : State) (a : Nat) : Byte := SMap.get (memDflt s.garbled) s.mem a
/-- Write one byte. -/
def State.wr (s : State) (a : Nat) (b : Byte) : State :=
  { s with mem := SMap.set (memDflt s.garbled) s.mem a b }
/-- n bytes from an address. -/
def State.rdN (s : State) (a n : Nat) : List Byte := (List.range n).map (fun i => s.rd (a + i))
/-- Write bytes at an address. -/
def State.wrN (s : State) (a : Nat) : List Byte → State
  | [] => s
  | b :: bs => (s.wr a b).wrN (a + 1) bs
/-- A little-endian number of n bytes. -/
def State.rdNat (s : State) (a n : Nat) : Nat := leNat (s.rdN a n)
/-- The 32-bit words at an address. -/
def State.rdWords (s : State) (a n : Nat) : List W32 := (List.range n).map (fun i => BitVec.ofNat 32 (s.rdNat (a + 4 * i) 4))

/-- Zero a range of a well or a channel-core memory: it lists nothing there any more. -/
def State.zeroMem (s : State) (lo n : Nat) : State :=
  { s with mem := s.mem.filter (fun e => !(decide (lo ≤ e.1) && decide (e.1 < lo + n))) }

/-- The pages of a function's key rotate: they list nothing, and read as the old ciphertext under the new key (R364,
R393). -/
def State.rotatePages (s : State) (pages : List Nat) : State :=
  let gen := s.sec.keyCount
  { s with
    mem := s.mem.filter (fun e => !pages.contains (e.1 / Mem.page))
    garbled := pages.foldl (fun m p => SMap.set (fun _ => 0) m p (gen + 1)) s.garbled
    sec := { s.sec with keyCount := gen + 1 } }

/-- The canonical form of the memory. -/
def Memory.wf (s : State) : Bool := SMap.wf (memDflt s.garbled) s.mem

/-! ### Floats (R166-R168) -/

def State.float (s : State) (f : Nat) : W64 := SMap.get (fun _ => 0) s.floats f
def State.setFloat (s : State) (f : Nat) (v : W64) : State := { s with floats := SMap.set (fun _ => 0) s.floats f v }
/-- An addition wraps modulo 2^64 (R168). -/
def State.addFloat (s : State) (f n : Nat) : State :=
  { s.setFloat f (s.float f + BitVec.ofNat 64 n) with
    fAdds := SMap.set (fun _ => 0) s.fAdds f (SMap.get (fun _ => 0) s.fAdds f + n) }
/-- A requester sets a float. Of the updates of one core cycle SET comes before ADD, and of two SETs the higher requester's comes
last (R166). -/
def State.putFloat (s : State) (requester f v : Nat) : State :=
  if requester + 1 < SMap.get (fun _ => 0) s.fSets f then s
  else
    { s.setFloat f (BitVec.ofNat 64 (v + SMap.get (fun _ => 0) s.fAdds f)) with
      fSets := SMap.set (fun _ => 0) s.fSets f (requester + 1) }
/-- The float that an index of a function names, none at or beyond its count (R167). -/
def State.floatOf (s : State) (fn i : Nat) : Option Nat :=
  if i < s.o fn 0x3040 2 then some (s.o fn 0x3040 1 + i) else none
/-- Zero a range of floats. -/
def State.zeroFloats (s : State) (lo n : Nat) : State :=
  { s with floats := s.floats.filter (fun e => !(decide (lo ≤ e.1) && decide (e.1 < lo + n))) }

/-! ### Ledger terms that no object holds (R548, R550) -/

/-- Terms of the float ledger: bytes issued, landed with a float, landed without one, sumped, and float increments from
landings. -/
def Term.issued : Nat := 1
def Term.landed : Nat := 2
def Term.floatless : Nat := 3
def Term.sumped : Nat := 4
def Term.increments : Nat := 5
/-- An equation that failed an evaluation, by its ledger object. -/
def Term.failed (sel index sub : Nat) : Nat := 2 ^ 40 + objKey sel index sub

def State.term (s : State) (t : Nat) : Nat := SMap.get (fun _ => 0) s.debits t
def State.setTerm (s : State) (t v : Nat) : State := { s with debits := SMap.set (fun _ => 0) s.debits t v }
def State.addTerm (s : State) (t n : Nat) : State := s.setTerm t (s.term t + n)

/-! ### Messages -/

def State.send (s : State) (m : Out) : State := { s with out := s.out ++ [m] }

/-- A port's link is up, so its egress queue does not discard (R565). -/
def State.linkUp (s : State) (p : Nat) : Bool := fld (s.g 0x1130 (p + 1)) 0 4 != 0

/-- A virtual function is visible while VF Enable is set and its number is below NumVFs (R558). -/
def State.visible (s : State) (f : Nat) : Bool :=
  isMgr f || ((s.port (portOf f)).vfEnable && decide (f % 256 < (s.port (portOf f)).numVfs))

/-- Whether the host egress of a function takes writes, rather than discarding and counting them (R558, R565). -/
def State.egress (s : State) (f : Nat) : Bool := s.linkUp (portOf f) && s.visible f

/-- Raise an MSI-X vector: pending where it is masked or MSI-X is off, else one message (R561, R562). -/
def State.msix (s : State) (f v : Nat) : State :=
  if (s.fn f).msixOff || (s.fn f).msixMask.contains v then
    if (s.fn f).msixPend.contains v then s else s.modFn f (fun x => { x with msixPend := x.msixPend ++ [v] })
  else if s.egress f then s.send (.msix f v)
  else s.addG 0x1133 (portOf f + 1) 1

/-- Set a notice bit; a bit already set raises no new message (R563). -/
def State.notice (s : State) (f bit : Nat) : State :=
  if fld (s.o f 0x1120 1) bit 1 = 1 then s
  else
    let t := s.setO f 0x1120 1 (s.o f 0x1120 1 + 2 ^ bit)
    t.msix f (if isMgr f then (if bit < 4 then 2 else 3) else 1)

/-- The notice of a bit to both managers. -/
def State.noticeMgrs (s : State) (bit : Nat) : State := (s.notice 512 bit).notice 513 bit

/-- A takeover or relinquish notice: the radio owner and both managers (Table 22.5). -/
def State.noticeAll (s : State) (bit : Nat) : State :=
  (if s.radioOwner < 512 then s.notice s.radioOwner bit else s).noticeMgrs bit

/-- Set the swap state, with its notice (Table 22.5, bit 4). -/
def State.swapState (s : State) (v : Nat) : State :=
  if s.g 0x2401 3 = v then s else (s.setG 0x2401 3 v).noticeMgrs 4

/-- Change a virtual function's state, with the notice to its manager (Table 22.5, bit 5). -/
def State.setFnState (s : State) (f v : Nat) : State := (s.setO f 0x3000 1 v).notice (mgrOf f) 5

/-! ### The error log (R542, R543) -/

/-- The 32-byte entry of Table 21.3 as a number. -/
def logEntry (s : State) (code source func detail : Nat) : Nat :=
  code + ErrCode.kind code * 2 ^ 8 + source % 2 ^ 16 * 2 ^ 16 + func % 2 ^ 16 * 2 ^ 32 + 1 * 2 ^ 48 +
    s.frame % 2 ^ 64 * 2 ^ 64 + timeWord (s.time 2) % 2 ^ 96 * 2 ^ 128 + detail % 2 ^ 32 * 2 ^ 224

/-- The log entry with the same CODE and SOURCE in the same frame, by its subindex (R542). -/
def State.logMatch (s : State) (code source : Nat) : Option Nat :=
  (span 1 (min 64 s.logNext)).find? (fun k =>
    let e := s.g 0x8011 k
    fld e 0 8 == code && fld e 16 16 == source % 2 ^ 16 && fld e 64 64 == s.frame % 2 ^ 64)

/-- Add one to the newest bucket. -/
def bump : List Nat → List Nat
  | [] => [1]
  | n :: l => (n + 1) :: l

/-- Count an occurrence of an error for the health score and the counters (R545). -/
def State.countError (s : State) (code : Nat) : State :=
  if ErrCode.kind code = 1 then ({ s with minutely := bump s.minutely }).addG 0x8000 4 1
  else ({ s with hourly := bump s.hourly }).addG 0x8000 3 1

/-- A health event or hardware error: one new entry with its signals, or one more in the entry of the same frame
(R542, R543). -/
def State.raise (s : State) (code source func detail : Nat) : State :=
  let t := s.countError code
  match t.logMatch code source with
  | some k => t.setG 0x8011 k (setFld (t.g 0x8011 k) 48 16 (min 65535 (fld (t.g 0x8011 k) 48 16 + 1)))
  | none =>
    let n := t.logNext % 64
    let t := if 64 ≤ t.logNext then t.addG 0x8000 5 1 else t
    let t := ((t.setG 0x8011 (n + 1) (logEntry t code source func detail)).setG 0x8000 7 n)
    let t := { t with logNext := t.logNext + 1 }
    ((t.send .inBand).msix 512 1).msix 513 1

/-! ### Commands -/

/-- The submitted command of a number. -/
def State.cmd? (s : State) (cid : Nat) : Option Cmd := s.cmds.find? (fun c => c.id == cid)
/-- Change a submitted command. -/
def State.modCmd (s : State) (cid : Nat) (k : Cmd → Cmd) : State :=
  { s with cmds := s.cmds.map (fun c => if c.id = cid then k c else c) }
/-- Remove a command. -/
def State.dropCmd (s : State) (cid : Nat) : State := { s with cmds := s.cmds.filter (fun c => c.id != cid) }

def State.mapCmds (s : State) (k : Cmd → Cmd) : State := { s with cmds := s.cmds.map k }
/-- Pieces in flight that satisfy a test will go to the sump (R171). -/
def State.sumpWhere (s : State) (test : Piece → Bool) : State :=
  { s with pieces := s.pieces.map (fun (p : Piece) => if test p then { p with sump := true } else p) }

/-- Word i of a record. -/
def Cmd.w (c : Cmd) (i : Nat) : W32 := wd c.words i
/-- Header fields (Table 7.1). -/
def Cmd.cls (c : Cmd) : Nat := (c.w 0).fld 0 4
def Cmd.form (c : Cmd) : Nat := (c.w 0).fld 4 4
def Cmd.cq (c : Cmd) : Bool := (c.w 0).bit 22
def Cmd.irq (c : Cmd) : Bool := (c.w 0).bit 23
def Cmd.rm (c : Cmd) : Bool := (c.w 0).bit 24
def Cmd.satf (c : Cmd) : Bool := (c.w 0).bit 25
def Cmd.engine (c : Cmd) : Nat := (c.w 1).fld 0 16
/-- The engine that a command runs on, or names. -/
def Cmd.onEngine (c : Cmd) : Nat := c.engines.headD c.engine
/-- The cell and the transport block that a radio-engine record names (Table 7.14). -/
def Cmd.cell (c : Cmd) : Nat := (c.w 10).fld 0 16
def Cmd.tbId (c : Cmd) : Nat := (c.w 11).toNat
/-- DETAIL of class 17 (R295). -/
def ChanCore.detail (x : ChanCore) (c : Cmd) : List Nat :=
  [c.tbId, x.satc + x.aov.toNat * 2 ^ 16, min 65535 x.misses]
/-- DETAIL of a radio-engine job that fails: TB_ID, and the counts of a channel core that runs it (Table 7.17, R295). -/
def State.radioDetail (s : State) (c : Cmd) : List Nat :=
  match (s.chans.find? (fun e => e.2.cid == some c.id)) with
  | some e => e.2.detail c
  | none => if c.cls = 9 then [c.tbId, 0, 0] else [0, 0, 0]
/-- The length W that the record declares (R45). -/
def Cmd.wLen (c : Cmd) : Nat := (c.w 2).toNat
def Cmd.energy (c : Cmd) : Nat := (c.w 3).toNat

/-- The mode of the context a command belongs to. -/
def State.modeOf (s : State) (c : Cmd) : Nat := (s.ctx c.ctx).mode
/-- Transfers of radio work keep the times of Table 6.3 in both timing modes, exact ones in exact timing (R172, R468). -/
def State.fixedTimes (s : State) (c : Cmd) : Bool := s.modeOf c == 2 || (s.modeOf c == 1 && s.g 0x7800 2 == 0)
/-- The context that a command names is still the one that it was submitted to: its own function's, open, of its epoch. -/
def State.ownCtx (s : State) (c : Cmd) : Bool :=
  let x := s.ctx c.ctx
  x.fn == c.fn && x.epoch == c.epoch && x.st != .free && !x.closed
/-- The job of a command that belongs to one. -/
def State.jobOf (s : State) (c : Cmd) : Option Job :=
  if c.jobbed && (s.ctx c.ctx).fn == c.fn then (s.ctx c.ctx).jobs.find? (fun j => j.num == c.job) else none

/-- Change the submitted, completed, faulted or cancelled count of a function (R182, R354). -/
def State.countJob (s : State) (fn sub : Nat) (n : Nat := 1) : State := s.addO fn 0x3030 sub n

/-- End a command with a status; its own effect takes no further part (07). -/
def State.finish (s : State) (cid status : Nat) (detail : List Nat := []) : State :=
  s.modCmd cid (fun c => { c with phase := .ended, did := true, status := status,
                                  detail := if detail.isEmpty then c.detail else detail })

/-- Give a running command its status: its engine still works until COMMAND_END. -/
def State.did (s : State) (cid status : Nat) (detail : List Nat := []) : State :=
  s.modCmd cid (fun c => { c with did := true, status := status,
                                  detail := if detail.isEmpty then c.detail else detail })

/-- Bytes of a command that have not landed: pieces and reads in flight. -/
def State.inFlight (s : State) (cid : Nat) : Bool :=
  s.pieces.any (fun p => p.cid == cid) || s.reads.any (fun r => r.cid == cid && !r.shown)

/-- Nothing is left of a command's job in the state but the command itself. -/
def State.lastOfJob (s : State) (c : Cmd) : Bool :=
  s.cmds.all (fun d => d.id == c.id || d.ctx != c.ctx || d.job != c.job || !d.jobbed || d.fn != c.fn)

/-- Free the threads of a context (R180, R362). -/
def State.freeThreads (s : State) (ctx : Nat) : State :=
  { s with cores := s.cores.map (fun e => (e.1, { e.2 with threads := e.2.threads.map (fun t => if t = some ctx then none else t) }))
                    |>.filter (fun e => decide (e.2 ≠ ({} : Core))) }

/-- The core and thread that a context holds. -/
def State.threadOf (s : State) (ctx : Nat) : Option Nat :=
  ((s.core (s.ctx ctx).home).threads.idxOf? (some ctx))

/-! ### Shares (R349, R350) -/

/-- The share group of an engine class (Table 12.4); none where no fill work runs. -/
def shareGroup (k : Nat) : Option Nat :=
  if k = 0 then some 0 else if k = 1 then some 1
  else if k = 2 ∨ k = 3 ∨ k = 18 ∨ k = 19 then some 2
  else if k = 4 ∨ k = 5 ∨ k = 6 then some 3 else none

/-- The share class of a function. -/
def State.shareClass (s : State) (f : Nat) : Nat := (s.fn f).shareCls
/-- B(c, g). -/
def State.balance (s : State) (c g : Nat) : Int := s.oInt 1023 (0x3070 + g) (c + 1) 8
def State.setBalance (s : State) (c g : Nat) (v : Int) : State := s.setG (0x3070 + g) (c + 1) (unsgn 64 v)

/-- Debit a function's class for core cycles of an engine class (R350). -/
def State.debit (s : State) (f k n : Nat) : State :=
  match shareGroup k with
  | some g =>
    let c := s.shareClass f
    (s.setBalance c g (s.balance c g - n)).addG (0x3074 + g) (c + 1) n
  | none => s

/-- The NOIL hold of an engine ends: idle time that a fill job held it is debited to the job's class; radio and exact work
debits nothing (R350, R352). -/
def State.endHold (s : State) (e : Nat) : State :=
  let x := s.engine e
  match x.hold with
  | some h =>
    let t := if x.busy.isNone && (s.ctx h.1).mode == 0 then s.debit (s.ctx h.1).fn (e / 1024) (s.cycle - x.freeAt) else s
    t.setEngine e { x with hold := none }
  | none => s
/-- The holds of some jobs of a context end. -/
def State.endHoldList (s : State) : List Nat → State
  | [] => s
  | e :: es => (s.endHold e).endHoldList es
def State.endHolds (s : State) (ctx : Nat) (job : Nat → Bool) : State :=
  s.endHoldList ((s.engines.filter (fun e => e.2.hold.any (fun h => h.1 == ctx && job h.2))).map (·.1))

/-- A job of a context ends: it leaves the jobs in progress and its thread is freed when none is left, or, in a radio
context, after each job (R180, R345). -/
def State.endJob (s : State) (ctx job : Nat) : State :=
  let t := (s.endHolds ctx (· == job)).modCtx ctx (fun x =>
    let js := x.jobs.filter (fun j => j.num != job)
    { x with jobs := js, st := if js.isEmpty && x.st = .running then .idle else x.st })
  if (t.ctx ctx).jobs.isEmpty || (t.ctx ctx).mode = 2 then t.freeThreads ctx else t

/-- A slot of a function's window. -/
def State.slot (s : State) (f k : Nat) : Slot := SMap.get (fun _ => {}) (s.fn f).slots k
def State.setSlot (s : State) (f k : Nat) (x : Slot) : State :=
  s.modFn f (fun y => { y with slots := SMap.set (fun _ => {}) y.slots k x })
/-- Window depth D (R184). -/
def State.depth (s : State) (f : Nat) : Nat := s.o f 0x3020 10
def State.slotsIn (s : State) (f : Nat) (st : SlotState) : Nat := ((s.fn f).slots.filter (fun e => decide (e.2.st = st))).length
/-- The free slots, which CREDIT reads (R189). -/
def State.credit (s : State) (f : Nat) : Nat := s.depth f - s.slotsIn f .filled - s.slotsIn f .held

/-- A held slot becomes free (R188). -/
def State.freeSlot (s : State) (f k : Nat) : State := s.setSlot f k {}

end Sys2Proof.Machine
end

