-- ==== Sys2Proof/Machine/Engines.lean ====
section
/-!
DEFINITION. Engine classes and calendars: Table 2.2, the patterns of a page, the interval an engine is in, gaps,
reservations, radio cores and pins (R29-R40, R46-R51, R57, R345, R348, R400).
-/

namespace Sys2Proof.Machine

/-- Instances of each class (Table 2.2). -/
def classCounts : List Nat :=
  [384, 96, 96, 8, 8, 8, 1, 32, 8, 8, 4, 4, 8, 16, 8, 16, 16, 32, 32, 8, 32, 64, 16, 64]
/-- Start-up cost S of each class in core cycles (Table 2.2). -/
def startups : List Nat :=
  [36, 8, 16, 20, 24, 40, 64, 48, 24, 32, 16, 24, 20, 12, 16, 12, 16, 10, 16, 24, 0, 0, 0, 0]

def classCount (k : Nat) : Nat := classCounts.getD k 0
def startup (k : Nat) : Nat := startups.getD k 0
/-- Classes that may hold radio intervals (Table 2.2). -/
def radioClass (k : Nat) : Bool := decide (k ≤ 2) || (decide (7 ≤ k) && decide (k ≤ 21))

/-- A calendar ID: class code in [15:10], instance number in [9:0] (R34). -/
def calId (k i : Nat) : Nat := k * 1024 + i
def calClass (id : Nat) : Nat := id / 1024
def calInst (id : Nat) : Nat := id % 1024
/-- A calendar ID that names a unit of Table 2.2. -/
def calOk (id : Nat) : Bool := decide (calInst id < classCount (calClass id))
/-- The calendar IDs of a class. -/
def classCals (k : Nat) : List Nat := (List.range (classCount k)).map (calId k)
/-- Position of a calendar in the map of a page: class order, then instance order (Table 2.3). -/
def mapPos (id : Nat) : Nat := (classCounts.take (calClass id)).sum + calInst id
/-- Every calendar of classes 0 to 21. -/
def mapCals : List Nat := (List.range 22).flatMap classCals

/-- The core of an engine of classes 0, 1 and 2. -/
def coreOf (id : Nat) : Option Nat :=
  if calClass id = 0 then some (calInst id / 4)
  else if calClass id = 1 ∨ calClass id = 2 then some (calInst id) else none

/-- The engines of a core: four arrays, the vector engine, the core pump. -/
def coreEngines (c : Nat) : List Nat := span (calId 0 (4 * c)) 4 ++ [calId 1 c, calId 2 c]

/-- An entry as the two words of Table 2.4 hold it. -/
def entryOf (e : W32 × W32) : CalEntry :=
  { start := e.1.fld 0 12, len := e.1.fld 16 12, kind := e.1.fld 28 2,
    ctx := e.2.fld 0 12, epoch := e.2.fld 12 16, rel := e.2.bit 31 }

/-- Pattern 0: one gutter at granule 3,999 (R37). -/
def seamEntry : CalEntry := { start := 3999, len := 1, kind := 3 }

/-- The entries of a pattern. -/
def patternEntries (p : PageImg) (k : Nat) : List CalEntry :=
  if k = 0 then [seamEntry]
  else
    let d := p.dir.getD k 0
    ((p.entries.drop (d.fld 0 16)).take (d.fld 16 9)).map entryOf

/-- The pattern that a page assigns to a calendar. -/
def patternOf (p : PageImg) (id : Nat) : Nat := SMap.get (fun _ => 0) p.map (mapPos id)

/-- The refresh runs of a channel calendar: 32 runs of 8 granules (R400). -/
def refreshRuns : List CalEntry := (List.range 32).map (fun k => { start := 125 * k + 116, len := 8, kind := 3 })

/-- The entries that a page holds for a calendar; a channel's refresh granules are gutters (R400). -/
def ownEntries (p : PageImg) (id : Nat) : List CalEntry :=
  patternEntries p (patternOf p id) ++ (if calClass id = 21 then refreshRuns else [])

def CalEntry.stop (e : CalEntry) : Nat := e.start + e.len
def CalEntry.covers (e : CalEntry) (g : Nat) : Bool := decide (e.start ≤ g) && decide (g < e.stop)

/-- The granules that two lists of gutters have in common. -/
def commonGutters (a b : List CalEntry) : List CalEntry :=
  a.flatMap (fun x => b.filterMap (fun y =>
    if max x.start y.start < min x.stop y.stop then
      some { start := max x.start y.start, len := min x.stop y.stop - max x.start y.start, kind := 3 }
    else none))

/-- The calendar that follows from several others: radio where one of them is radio, else exact where one is exact, else a
gutter where all are; fill else (DESIGN CHOICE: R35 names the sources and no rule; log entry 78). -/
def derivedEntries (ls : List (List CalEntry)) : List CalEntry :=
  ls.flatten.filter (·.kind == 1) ++ ls.flatten.filter (·.kind == 2) ++
    (match ls.map (·.filter (·.kind == 3)) with
      | [] => []
      | a :: r => r.foldl commonGutters a)

/-- The four channels of a GDDR7 controller (R35). -/
def controllerCals (i : Nat) : List Nat := span (calId 21 (4 * i)) 4

/-- The entries of a calendar in a page; a memory crypto engine's follow from its controller's channels (R35). -/
def calEntries (p : PageImg) (id : Nat) : List CalEntry :=
  if calClass id = 22 then derivedEntries ((controllerCals (calInst id)).map (ownEntries p)) else ownEntries p id

/-- An entry cut where it was released for the current frame (R33, R402). -/
def State.cut (s : State) (id : Nat) (e : CalEntry) : CalEntry :=
  match s.cal.released.find? (fun r => r.1 == id && e.covers r.2) with
  | some r => if e.kind = 1 ∨ calClass id = 21 then { e with len := r.2 - e.start } else e
  | none => e

/-- The kind of the traffic that waits on a fabric lane: radio, exact or fill work by the context of its packets (R35; log
entry 78). -/
def State.laneKind (s : State) (l : Nat) : Nat :=
  let waits := (s.lane l).wait.filterMap (fun w => match w.2.2 with
    | .packet _ _ p => some p
    | _ => none)
  if waits.any (fun p => !p.reply && (s.ctx p.ctx).fn == p.srcFn && (s.ctx p.ctx).mode == 2) then 1
  else if waits.any (·.exact) then 2 else 0
/-- A link crypto engine follows the traffic of its lane in the granule that it is in (R35). -/
def State.linkEntries (s : State) (l : Nat) : List CalEntry :=
  if s.laneKind l = 0 then [seamEntry] else [{ start := s.granule, len := 1, kind := s.laneKind l }, seamEntry]

/-- The entries a calendar follows now. -/
def State.liveEntries (s : State) (id : Nat) : List CalEntry :=
  if calClass id = 22 then derivedEntries ((controllerCals (calInst id)).map (fun k => (ownEntries s.cal.active k).map (s.cut k)))
  else if calClass id = 23 then s.linkEntries (calInst id)
  else (calEntries s.cal.active id).map (s.cut id)

/-- The interval a calendar is in at a granule; none in a fill interval. -/
def State.entryAt (s : State) (id g : Nat) : Option CalEntry := (s.liveEntries id).find? (fun e => e.covers g)
/-- The first core cycle of the interval that a calendar is in. -/
def State.atStart (s : State) (id : Nat) : Bool := (s.entryAt id s.granule).any (fun e => e.start * 450 == s.cycle)
/-- The command whose descriptors a prelude loaded for this very cycle: its first input cycle is the first core cycle of
the interval (R31). -/
def State.loadedFor (s : State) (id : Nat) : Option Nat := if s.atStart id then (s.engine id).ready else none
/-- The kind of interval a calendar is in now: 0 fill, 1 radio, 2 exact, 3 gutter (Table 2.1). -/
def State.kindNow (s : State) (id : Nat) : Nat :=
  match s.entryAt id s.granule with
  | some e => e.kind
  | none => 0

/-- The first core cycle of the next gutter of a calendar (R46); the seam is always one (R26). -/
def State.nextGutter (s : State) (id : Nat) : Nat :=
  ((s.liveEntries id).filter (fun e => e.kind == 3 && decide (s.granule < e.start))).foldl
    (fun m e => min m (e.start * 450)) seamStart

/-- Insert by start. -/
def insertEntry (e : CalEntry) : List CalEntry → List CalEntry
  | [] => [e]
  | f :: l => if e.start ≤ f.start then e :: f :: l else f :: insertEntry e l

/-- The longest fill gap of entries, in granules. -/
def longestGap (es : List CalEntry) : Nat :=
  let r := (es.foldr insertEntry []).foldl (fun (a : Nat × Nat) e => (max a.1 e.stop, max a.2 (e.start - a.1))) (0, 0)
  max r.2 (4000 - r.1)

/-- Whether a fenced unit is among the fenced ones (R476, R495). -/
def State.isFenced (s : State) (id : Nat) : Bool := s.fenced.any (fun e => e.1 == id)

/-- A swap is armed. -/
def State.armed (s : State) : Bool := s.g 0x2401 3 == 3 || s.g 0x2401 3 == 4
/-- The pages in force or armed. -/
def State.pagesSeen (s : State) : List PageImg := if s.armed then [s.cal.active, s.cal.shadow] else [s.cal.active]

/-- An engine whose calendar holds a radio or exact interval in a page seen (R51). -/
def State.radioShared (s : State) (id : Nat) : Bool :=
  s.pagesSeen.any (fun p => (calEntries p id).any (fun e => e.kind == 1 || e.kind == 2))

/-- A core on which an engine of classes 0, 1 or 2 holds radio intervals in a page seen (R345). -/
def State.radioCore (s : State) (c : Nat) : Bool :=
  s.pagesSeen.any (fun p => (coreEngines c).any (fun id => (calEntries p id).any (fun e => e.kind == 1)))
def State.radioCores (s : State) : List Nat := (List.range 96).filter s.radioCore

/-- The functions to which a page pins a core (R348). -/
def State.pinsOf (s : State) (p : PageImg) (c : Nat) : List Nat :=
  (coreEngines c).flatMap (fun id => (calEntries p id).filterMap (fun e =>
    if e.kind = 2 ∧ (s.ctx e.ctx).st ≠ .free ∧ (s.ctx e.ctx).epoch = e.epoch ∧ (s.ctx e.ctx).mode = 1 then
      some (s.ctx e.ctx).fn else none))
/-- The function to which a core is pinned: an armed page's pin governs (R348). -/
def State.pinned (s : State) (c : Nat) : Option Nat :=
  (if s.armed then (s.pinsOf s.cal.shadow c).head? else none).orElse (fun _ => (s.pinsOf s.cal.active c).head?)

/-- Radio granules of one entry inside radio period q (R57). -/
def radioGranules (e : CalEntry) (q : Nat) : Nat :=
  if e.kind = 1 then min e.stop (500 * q + 500) - max e.start (500 * q) else 0

/-- Radio engine-granules of a class in a period of a page; fenced units do not count (R57, R492). -/
def State.periodRadio (s : State) (p : PageImg) (k q : Nat) : Nat :=
  (((classCals k).filter (fun id => !s.isFenced id)).map
    (fun id => ((calEntries p id).map (fun e => radioGranules e q)).sum)).sum

/-- The radio reservation Rsv_k of a page in 1/64 engine-granule (R57, Table 2.7). -/
def State.reservation (s : State) (p : PageImg) (k : Nat) : Nat :=
  if radioClass k then 64 * s.periodRadio p k 0 else 0

end Sys2Proof.Machine
end

