-- ==== Sys2Proof/Machine/Operands.lean ====
section
/-!
DEFINITION. Operand forms: device addresses (R193, Table 7.2), the ranges a function may address (R152, R193), the words
a record of each class may use (R190, Tables 7.4-7.15), and the engines a form may name (Table 7.3).
-/

namespace Sys2Proof.Machine

/-- A device address (Table 7.2). -/
structure DevAddr where
  space : Nat
  core  : Nat
  off   : Nat
  bad   : Bool
  deriving DecidableEq, Repr

/-- The fields of a 64-bit device address; `bad` where the space is reserved, [51:48] is not 0, or CORE is not allowed.
-/
def devAddr (w : Nat) : DevAddr :=
  let space := fld w 60 4
  let core := fld w 52 8
  let wells := space == 0 || space == 4
  { space := space, core := core, off := fld w 0 48,
    bad := !(space ≤ 4 || space == 15) || (space != 3 && (fld w 48 4 != 0 || (if wells then decide (96 ≤ core) else core != 0))) }

/-- Landing zone of a core in force: size in bytes and holder (R152, R153). -/
def State.zone (s : State) (c : Nat) : Nat × Nat :=
  let z := SMap.get (fun _ => (0, none16)) s.cal.zones c
  (z.1 * 65536, z.2)

/-- The holder of a core (R344). -/
def State.coreHolder (s : State) (c : Nat) : Nat := s.g 0x3060 (c + 1)

/-- Whether a function may address n bytes of a core's well from an address: the context range of a core it holds, the
landing zone that it holds (R152, R344). -/
def State.wellOk (s : State) (f c a n : Nat) : Bool :=
  let lim := Mem.wellSize - (s.zone c).1
  let inner := s.coreHolder c == f
  let zone := (s.zone c).2 == f
  (inner && decide (a + n ≤ lim)) || (zone && decide (lim ≤ a) && decide (a + n ≤ Mem.wellSize)) ||
    (inner && zone && decide (a + n ≤ Mem.wellSize))

/-- Whether n bytes at an address lie in the range of a function (R193). -/
def State.addrOk (s : State) (f : Nat) (a : DevAddr) (n : Nat) : Bool :=
  !a.bad &&
  match a.space with
  | 0 => s.wellOk f a.core a.off n
  | 1 => decide (a.off + n ≤ (s.fn f).cpages.length * Mem.page)
  | 2 => decide (a.off + n ≤ (s.fn f).gpages.length * Mem.page)
  | 4 => (s.zone a.core).2 == f && decide (a.off + n ≤ (s.zone a.core).1)
  | 15 => true
  | _ => false

/-- The flat address of byte i of an address of a function; the grant's pages appear in the order received (R193). -/
def State.flat (s : State) (f : Nat) (a : DevAddr) (i : Nat) : Nat :=
  let o := a.off + i
  match a.space with
  | 0 => Mem.well a.core + o
  | 1 => Mem.cistern + (s.fn f).cpages.getD (o / Mem.page) 0 * Mem.page + o % Mem.page
  | 2 => Mem.gddr + (s.fn f).gpages.getD (o / Mem.page) 0 * Mem.page + o % Mem.page
  | _ => Mem.well a.core + (Mem.wellSize - (s.zone a.core).1) + o

/-- Bytes read at an address of a function. -/
def State.readAt (s : State) (f : Nat) (a : DevAddr) (n : Nat) : List Byte := (List.range n).map (fun i => s.rd (s.flat f a i))
def State.natAt (s : State) (f : Nat) (a : DevAddr) (n : Nat) : Nat := leNat (s.readAt f a n)
def State.wordsAt (s : State) (f : Nat) (a : DevAddr) (n : Nat) : List W32 := bytesToWords (s.readAt f a (4 * n))
/-- An address advanced by a byte count. -/
def DevAddr.plus (a : DevAddr) (n : Nat) : DevAddr := { a with off := a.off + n }

/-- Two ranges of a space that share a byte. -/
def DevAddr.overlaps (a : DevAddr) (n : Nat) (b : DevAddr) (m : Nat) : Bool :=
  a.space == b.space && a.core == b.core && decide (0 < n) && decide (0 < m) && decide (a.off < b.off + m) && decide (b.off < a.off + n)

/-- Address fields of a record: words i and i + 1. -/
def Cmd.addr (c : Cmd) (i : Nat) : DevAddr := devAddr (wd64 c.words i)

/-! ### Record layout -/

/-- Forms of each class (Table 7.3). -/
def formCount (cls : Nat) : Nat := [2, 1, 2, 1, 1, 2, 7, 1, 4, 1, 4].getD cls 0

/-- Engine classes that a form may name; none for a class with no engine (Table 7.3). -/
def engineClasses (cls form : Nat) : List Nat :=
  match cls with
  | 0 => [0]
  | 1 => [1]
  | 2 => if form = 0 then [2, 18, 19] else [3]
  | 6 => [19]
  | 7 => [19]
  | 8 => if form = 0 then [6] else if form = 1 then [5] else [4]
  | 9 => span 7 13
  | _ => []

/-- The bits of W4 to W15 that a form uses; all others are reserved (R190, R199, Tables 7.4-7.15). -/
def usedBits (cls form : Nat) : List Nat :=
  let a := 0xFFFFFFFF
  let w := 0x1FFFFF
  match cls with
  | 0 => if form = 0 then [a, w, w, w, w, w, w, 0xFF, 0, 0, 0, 0]
         else [0x3FFFFFFF, a, 0x7FFFFFF, a, 0x3FFFFFFF, 0x3FFFFFFF, 0x3FFFFFFF, 0x3FFFFFFF, 0x3FFFFFFF, 0x3FFFFFFF, 0x3FFFFFFF, 0x3FFFFFFF]
  | 1 => [0x7FFFFFFF, 0x1FFFF, 0x1FFFF, a, a, a, a, 0x3FFFFFF, a, a, a, a]
  | 2 => if form = 0 then [a, a, a, a, a, 0x1FFFF, 0, 0, 0, 0, 0, 0]
         else [a, a, a, a, 0, 0x1FFFF, 0xFFFFF, a, a, 0, 0, 0]
  | 3 => [0xFFFF, a, a, a, 0, 0, 0, 0, 0, 0, 0, 0]
  | 4 => [0x3FFFF, a, a, 0, 0, 0, 0, 0, 0, 0, 0, 0]
  | 5 => if form = 0 then [0, 0, 0, 0, 0, 0, 0, 0, 0, 0, 0, 0] else [0x3FFF, 0, 0, 0, 0, 0, 0, 0, 0, 0, 0, 0]
  | 6 => [a, a, a, a, a, 0x1FFFFF, a, a, a, a, 0x1FFF, 0]
  | 7 => [0xFFFF1FFF, a, a, a, a, a, a, a, a, 0x1FFFF, a, 0]
  | 8 => [a, a, a, a, 0xFFFFFF, 0x1FFFF, 0, 0, 0, 0, 0, 0]
  | 9 => [a, a, a, a, a, a, 0xFFFF, a, 0x1FFFF, 0, 0, 0]
  | 10 => [a, a, 0xFFF, 0xFFFF, a, a, a, 0, 0, 0, 0, 0]
  | _ => []

/-- Words in which a mask leaves no reserved bit set. -/
def bitsInside : List W32 → List Nat → Bool
  | w :: ws, m :: ms => w.toNat &&& m == w.toNat && bitsInside ws ms
  | _, _ => true

/-- The words at which the device addresses of a record begin (Tables 7.8, 7.12, 7.14). -/
def addrWords (cls : Nat) : List Nat :=
  if cls = 2 ∨ cls = 6 ∨ cls = 8 then [4, 6] else if cls = 9 then [4, 6, 8] else []
/-- The reserved bits [51:48] of a device address; a domain address has none there (Table 7.2). -/
def addrReserved (w : Nat) : Bool := fld w 60 4 != 3 && fld w 48 4 != 0

/-- No reserved field of a record is set (R190): W0 [31:28], RM and SATF outside classes 0 and 1, W where no engine is
named, the payload's reserved bits, those of its device addresses, and COMBINE source words beyond NSRC. -/
def Cmd.reservedOk (c : Cmd) : Bool :=
  (c.w 0).fld 28 4 == 0 && (decide (c.cls ≤ 1) || (!c.rm && !c.satf)) &&
    (!(engineClasses c.cls c.form).isEmpty || c.wLen == 0) &&
    bitsInside (c.words.drop 4) (usedBits c.cls c.form) &&
    (addrWords c.cls).all (fun i => !addrReserved (wd64 c.words i)) &&
    (c.cls != 0 || c.form != 1 || ((span 8 8).all (fun i => decide (i ≤ 8 + (c.w 4).fld 11 3) || c.w i == 0)))

/-- ENGINE names a class the form allows and a unit that exists; 0 for a form with no engine (R191 check 7). -/
def Cmd.engineOk (c : Cmd) : Bool :=
  let ks := engineClasses c.cls c.form
  if ks.isEmpty then c.engine == 0 else ks.contains (calClass c.engine) && calOk c.engine

/-- The float that a record names: none, some of the absolute index, or a bad index (R167). -/
def State.floatArg (s : State) (c : Cmd) (enabled : Bool) (i : Nat) : Except Refused (Option Nat) :=
  if enabled then
    match s.floatOf c.fn i with
    | some f => .ok (some f)
    | none => .error ⟨Status.floatInvalid, 0⟩
  else .ok none

end Sys2Proof.Machine
end

