-- ==== Sys2Proof/Machine/Lanes.lean ====
section
/-!
DEFINITION. What travels on the fabric lanes: sessions, streams, link credits, the lane of a sub-stream, packets and
domain messages on their way out, endpoints and regions (R406-R422, R442).
-/

namespace Sys2Proof.Machine

/-- The device's own number; 0xFFFF none (G:0x5000.01). -/
def State.self (s : State) : Nat := s.g 0x5000 1

/-! ### Sessions and streams -/

def State.hasSession (s : State) (dev : Nat) : Bool := s.sessions.any (fun e => e.1 == dev)
def State.session (s : State) (dev : Nat) : Session := SMap.get (fun _ => {}) s.sessions dev
/-- Sessions are listed while they are keyed, whatever their counters. -/
def State.setSession (s : State) (dev : Nat) (x : Session) : State := { s with sessions := SMap.put dev x s.sessions }

/-- A sub-stream between a local function and a peer function. -/
def streamKey (f dev fn sub : Nat) : Nat := ((f * 8192 + dev) * 1024 + fn) * 8 + sub
def streamFn (k : Nat) : Nat := k / 2 ^ 26
def streamDev (k : Nat) : Nat := k / 2 ^ 13 % 8192
def streamPeer (k : Nat) : Nat := k / 8 % 1024
def streamSub (k : Nat) : Nat := k % 8

def State.stream (s : State) (k : Nat) : Stream := SMap.get (fun _ => {}) s.streams k
def State.setStream (s : State) (k : Nat) (x : Stream) : State :=
  { s with streams := SMap.set (fun _ => {}) s.streams k x }
def State.modStream (s : State) (k : Nat) (f : Stream → Stream) : State := s.setStream k (f (s.stream k))

/-! ### Lanes -/

/-- The up plane lanes, ascending (R416). -/
def State.upPlanes (s : State) : List Nat :=
  (List.range 64).filter (fun l => s.g 0x5001 (l + 1) == 1 && s.g 0x5002 (l + 1) == 3)
/-- The up partner lanes. -/
def State.upPartners (s : State) : List Nat :=
  (List.range 64).filter (fun l => s.g 0x5001 (l + 1) == 2 && s.g 0x5002 (l + 1) == 3)
/-- The lane of a sub-stream (R416); none while no plane lane is up. -/
def State.laneFor (s : State) (dst fn sub : Nat) : Option Nat :=
  let u := s.upPlanes
  u[(dst + fn + sub) % u.length]?

/-- One class of a credit list changed. -/
def tweak (l : List Nat) (k : Nat) (f : Nat → Nat) : List Nat := l.set k (f (l.getD k 0))

/-- Credit class of a packet type (R409): 0 requests, 1 replies, 2 atomics, 3 control; COPY_DATA is a request toward its
home and a reply toward its requester. -/
def creditClass (type : Nat) (reply : Bool) : Nat :=
  if type = 0x04 then 2
  else if type = 0x02 ∨ type = 0x05 ∨ type = 0x0B then 1
  else if type = 0x07 then (if reply then 1 else 0)
  else if type = 0x01 ∨ type = 0x03 ∨ type = 0x06 ∨ type = 0x08 ∨ type = 0x0A ∨ type = 0x0F then 0
  else 3

/-- Slots of a packet: its header and its data (R413); a BLOCK carries a whole page. -/
def packetSlots (type : Nat) (p : Packet) : Nat := 1 + (if type = 0x0F then 64 else cdiv p.data.length 64)

/-- Slots go out on a lane under the session of their destination: credits are spent and the transmit counter steps
(R409, R412). -/
def State.spend (s : State) (l cls n dst : Nat) (m : Out) : State :=
  let x := s.lane l
  let t := s.setLane l { x with held := tweak x.held cls (· - n), sent := tweak x.sent cls (· + n) }
  (t.setSession dst { t.session dst with tx := (t.session dst).tx + 1 }).send m

/-- Whether a lane has the credits, and its destination the session, for slots to go out now. -/
def State.canSend (s : State) (l cls n dst : Nat) : Bool :=
  s.hasSession dst && decide (n ≤ (s.lane l).held.getD cls 0)

/-- Slots go out on a lane, or wait there for credits or for the session. -/
def State.transmit (s : State) (l cls n dst : Nat) (m : Out) : State :=
  if s.canSend l cls n dst then s.spend l cls n dst m
  else s.setLane l { s.lane l with wait := (s.lane l).wait ++ [(cls, n, m)] }

/-- The destination of what waits on a lane. -/
def Out.dst : Out → Nat
  | .packet d _ _ => d
  | .domain d _ _ _ _ => d
  | _ => 0

/-- What waited on a lane goes out as far as credits and sessions allow. -/
def State.flushList (s : State) (l : Nat) : List (Nat × Nat × Out) → State
  | [] => s
  | w :: ws => (s.transmit l w.1 w.2.1 w.2.2.dst w.2.2).flushList l ws
def State.flushLane (s : State) (l : Nat) : State :=
  let ws := (s.lane l).wait
  (s.setLane l { s.lane l with wait := [] }).flushList l ws

/-- A packet leaves toward a device on the lane of its sub-stream; with no up lane it is lost, and resending recovers it
(R408, R416). -/
def State.emit (s : State) (dst type : Nat) (reply : Bool) (p : Packet) : State :=
  match s.laneFor dst p.dstFn p.sub with
  | some l => s.transmit l (creditClass type reply) (packetSlots type p) dst (.packet dst type p)
  | none => s

/-- A domain message goes through the planes, to the partner also on its own lanes (R442, Table 16.1). -/
def State.domainOn (s : State) (l dst kind a b : Nat) (data : List Byte) : State :=
  s.transmit l 3 (1 + cdiv data.length 64) dst (.domain dst kind a b data)
def State.domainMsg (s : State) (dst kind a b : Nat) (data : List Byte) : State :=
  match s.laneFor dst 0 0 with
  | some l => s.domainOn l dst kind a b data
  | none => s
/-- A message on every up partner lane. -/
def State.onPartnerLanes (s : State) (kind a b : Nat) (data : List Byte) : List Nat → State
  | [] => s
  | l :: ls => (s.domainOn l (s.self ^^^ 4096) kind a b data).onPartnerLanes kind a b data ls
/-- RELINQUISH and CLAIM: on every up partner lane and through the planes (Table 16.1). -/
def State.toPartner (s : State) (kind a : Nat) : State :=
  (s.onPartnerLanes kind a 0 [] s.upPartners).domainMsg (s.self ^^^ 4096) kind a 0 []
/-- The same message to several devices. -/
def State.domainEach (s : State) (kind a b : Nat) (data : List Byte) : List Nat → State
  | [] => s
  | d :: ds => (s.domainMsg d kind a b data).domainEach kind a b data ds

/-! ### Endpoints and regions -/

/-- The entry that a function holds for a peer function (R421). -/
def State.endpointOf (s : State) (f dev fn : Nat) : Option Endpoint :=
  ((s.fn f).endpoints.find? (fun e => e.2.dev == dev && e.2.fn == fn)).map (·.2)
/-- The entry that a function holds for a peer device. -/
def State.endpointDev (s : State) (f dev : Nat) : Option Endpoint :=
  ((s.fn f).endpoints.find? (fun e => e.2.dev == dev)).map (·.2)

/-- Fields of a domain address (Table 15.3). -/
def domOff (a : Nat) : Nat := fld a 0 21
def domRegion (a : Nat) : Nat := fld a 21 15
def domDev (a : Nat) : Nat := fld a 36 13
/-- Reserved bits of a domain address. -/
def domReserved (a : Nat) : Bool := fld a 49 11 != 0
/-- A domain address from its parts. -/
def domAddr (dev region off : Nat) : Nat := off + region * 2 ^ 21 + dev * 2 ^ 36

/-- EXPORTED, SHARED_READ and ATOMIC (Table 15.5). -/
def Region.exported (r : Region) : Bool := fld r.flags 0 1 == 1
def Region.shared (r : Region) : Bool := fld r.flags 1 1 == 1
def Region.atomic (r : Region) : Bool := fld r.flags 2 1 == 1

/-- The region slot of a function that has a number (R419). -/
def State.regionOf (s : State) (f number : Nat) : Option Region := (s.fn f).regions.find? (fun r => r.number == number)
/-- Change a region slot. -/
def State.setRegion (s : State) (f : Nat) (r : Region) : State :=
  s.modFn f (fun x => { x with regions := x.regions.map (fun q => if q.number = r.number then r else q) })

/-- The memory of a region: a device address of its home function. -/
def Region.at (r : Region) (off : Nat) : DevAddr := (devAddr r.base).plus off

/-- A local write of a function into an exported region that another device or function owns (R420). -/
def State.ownedElsewhere (s : State) (f : Nat) (a : DevAddr) (n : Nat) : Bool :=
  (s.fn f).regions.any (fun r => r.exported && !(r.dev == s.self && r.owner == f) &&
    (r.at 0).overlaps (2 ^ 21) a n)

/-! ### Requests and replies -/

/-- Send the next request packet of a sub-stream under a tag, kept until it is acknowledged (R414, R416). -/
def State.request (s : State) (f dev tag type : Nat) (p : Packet) : State :=
  let k := streamKey f dev p.dstFn p.sub
  let q : Packet := { p with src := s.self, srcFn := f, seq := (s.stream k).next, req := tag }
  let t := s.modStream k (fun (x : Stream) => { x with next := x.next + 1, unacked := x.unacked ++ [(q.seq, tag, type, q)],
                                                       sentAt := if x.unacked.isEmpty then s.tb2us else x.sentAt })
  t.emit dev type false q

/-- A request whose answer is awaited; its tag is new. -/
def State.ask (s : State) (a : Await) (type : Nat) (p : Packet) : State :=
  let tag := s.nextId
  let t : State := { s with awaits := s.awaits ++ [{ a with id := tag }], nextId := s.nextId + 1 }
  t.request a.fn a.dev tag type p

/-- A reply becomes a step of its home function: 16 core cycles, and for its data those of R424, with the L_max of the read
that brought them (R425). -/
def State.queueAnswer (s : State) (f dev type lmax : Nat) (p : Packet) : State :=
  { s with answers := s.answers ++ [{ id := s.nextId, fn := f, dev := dev, type := type, packet := p,
                                      len := if p.data.isEmpty then 16 else 16 + cdiv p.data.length 256 + lmax }]
           nextId := s.nextId + 1 }
/-- Answer a request and keep the answer until an ACK covers the request (R415). The answer echoes the request's SEQ. -/
def State.reply (s : State) (f dev type seq : Nat) (p : Packet) (lmax : Nat := 0) : State :=
  let q : Packet := { p with src := s.self, srcFn := f, seq := seq, reply := true }
  let t := s.modStream (streamKey f dev p.dstFn p.sub) (fun (x : Stream) => { x with kept := x.kept ++ [(seq, type, q)] })
  t.queueAnswer f dev type lmax q

/-- The SEQ that a sub-stream may acknowledge: all applied, short of a hand-off not yet done (R414, R428). -/
def Stream.ackable (x : Stream) : Nat := x.holds.foldl (fun m h => min m (h - 1)) (x.expect - 1)

/-- Acknowledge a sub-stream cumulatively (R414). -/
def State.acknowledge (s : State) (f dev fn sub : Nat) : State :=
  s.emit dev 0x0C false
    { src := s.self, srcFn := f, dstFn := fn, sub := sub, seq := (s.stream (streamKey f dev fn sub)).ackable }

/-- An answer is acknowledged by an ACK with REQ 1, the end of a RETIRE by one with REQ 2. -/
def State.acknowledgeReply (s : State) (f : Nat) (p : Packet) : State :=
  s.emit p.src 0x0C false { src := s.self, srcFn := f, dstFn := p.srcFn, sub := p.sub, seq := p.seq, req := 1 }

/-- The packets of a record that are still unanswered. -/
def State.awaited (s : State) (cid : Nat) : Bool := s.awaits.any (fun a => a.cid == cid)
/-- A record waits for no answer: all came, or it ended with another status (R424, R437). -/
def State.answered (s : State) (c : Cmd) : Bool := c.status != Status.ok || !s.awaited c.id

end Sys2Proof.Machine
end

