-- ==== Sys2Proof/Machine/Access.lean ====
section
/-!
DEFINITION. Dictionary accesses as all objects share them: which selectors a path reaches, which role it carries, the
order of the checks, and the response (R515-R529, R483, R509, R577).
-/

namespace Sys2Proof.Machine

/-- Bit positions in a rights word of the roles that a path carries (Table 20.2, R520). -/
def State.roles (s : State) : Path → List Nat
  | .i3c => if s.g 0xF000 1 = 1 ∧ fld (s.g 0xF000 4) 2 1 = 1 then [0, 6] else [0]
  | .vdm _ => [0]
  | .window f _ => if isMgr f then [2] else [4]
  | .fabric => [2]

/-- The row that subindex 0 of an index reads as (R515): a U8 readable by every role. -/
def countRow (index : Nat) : ObjRow := ⟨.g, index, 1, 1, 0, 0, 1, 1, 0x55, 0, false, .any⟩

/-- The indices of the radio objects (R266, R334). -/
def radioIndex (index : Nat) : Bool := index == 0x4000 || (decide (0x4400 ≤ index) && decide (index < 0x4800))
/-- The object that an access names, where the path reaches its selector and the object exists in the function's
present state (R516, R336, R266, R519). An absent function keeps its state, its grant and its float range (R167;
log entry 12). -/
def State.reach (s : State) (path : Path) (sel index sub : Nat) : Option ObjRow :=
  let seen := match path with
    | .window f _ => isMgr f || sel == f || sel == 1023
    | .fabric => sel == 1023
    | _ => true
  let alive := decide (512 ≤ sel) || s.present sel || index == 0x3000 || index == 0x3020 || index == 0x3040
  if seen && alive then
    if sub = 0 then (if Dict.maxSub sel index = 0 || (radioIndex index && sel != s.radioOwner) then none else some (countRow index))
    else
      match Dict.find sel index sub with
      | some r => if r.owner = .radio && sel != s.radioOwner then none else some r
      | none => none
  else none

/-- Whether the roles of a path have a right: bit 0 for a read, bit 1 for a write (R518). -/
def State.hasRight (s : State) (path : Path) (r : ObjRow) (bit : Nat) : Bool :=
  (s.roles path).any (fun k => fld r.acc (k + bit) 1 == 1)

/-- Whether a path may write an object of a selector (R335, R367, R518, R519): managers write only device-global
objects, their own, and those of their port; the function objects of the managers belong to the management controller.
-/
def State.mayWrite (s : State) (path : Path) (r : ObjRow) (sel index : Nat) : Bool :=
  let own := match path with
    | .window f _ => !isMgr f || sel == 1023 || sel == f || (decide (sel < 512) && mgrOf sel == f)
    | _ => true
  let mgrObj := index == 0x3000 && isMgr sel
  if mgrObj then (s.roles path).contains 0 else own && s.hasRight path r 1

/-- What is answered while priming runs (R483; log entry 13): reads of the ranges 0x6000 and 0x7000, and a cold reset
request by the management controller or a manager. -/
def primingRead (index : Nat) : Bool := (decide (0x6000 ≤ index) && decide (index < 0x7000)) || (decide (0x7000 ≤ index) && decide (index < 0x7800))

/-- The checks of a write before those of its object's chapter, in order (R522, R483, R363, R509). -/
def State.checkWrite (s : State) (path : Path) (sel index sub : Nat) (length : Option Nat) (value : Nat) :
    Except Refused ObjRow := do
  ensure (s.up || (sel == 1023 && index == 0x7000 && sub == 2 && value == 2 && path != .fabric)) Status.accessDenied
  match s.reach path sel index sub with
  | none => .error ⟨Status.addressInvalid, 0⟩
  | some r =>
    ensure (s.mayWrite path r sel index) Status.accessDenied
    ensure (length.all (fun n => n == r.size)) Status.shapeInvalid
    ensure (r.limit.allows value && decide (value < 256 ^ r.size)) Status.shapeInvalid
    ensure (!(isFn sel && s.resetting sel) || (index == 0x3000 && ((sub == 1 && value == 0) || sub == 2))) Status.accessDenied
    ensure (!(decide (sel < 512) && (index == 0x3000 || index == 0x3020) && (s.o sel 0x9011 1 == 1 || s.o sel 0x9011 1 == 2) &&
        (match path with | .window f _ => isMgr f | _ => false)) ||
      (index == 0x3000 && ((sub == 1 && value == 0) || sub == 2))) Status.accessDenied
    .ok r

/-- Which counter of G:0x1101 an access of a path steps (Table 20.6). -/
def pathCounter : Path → Nat
  | .i3c => 1
  | .vdm _ => 2
  | .window _ _ => 3
  | .fabric => 4

/-- A response header (Table 20.3): W0 and W1 of its request, status and length, detail. DONE is of the window path. -/
def responseHeader (request status detail length : Nat) : Nat :=
  request % 2 ^ 64 + status % 256 * 2 ^ 64 + length % 4096 * 2 ^ 80 + detail % 2 ^ 32 * 2 ^ 96

/-- The response of an access, with the counts of Table 20.6 and the error of Table 21.2; one over the fabric goes back as
DICT_RESP and is kept; the master's own answer to its broadcast is noted (R533). -/
def State.respond (s : State) (path : Path) (status detail : Nat) (data : List Byte) : State :=
  let t := if status = Status.ok then s.addG 0x1101 (pathCounter path) 1 else s.addG 0x1101 5 1
  let t := match path with
    | .window f _ => t.addO f 0x1110 1 1
    | _ => t
  let t := if status = Status.hardwareError then t.raise ErrCode.other none16 none16 0 else t
  match path with
  | .fabric =>
    let h := responseHeader (t.domain.applying.getD 0) status detail data.length
    let u : State := { t with domain := { t.domain with applying := none, kept := some (h, data) } }
    if t.g 0x5010 4 = 4 then { u with domain := { u.domain with answers := u.domain.answers ++ [(t.self, status)] } }
    else u.domainMsg (t.g 0x5010 6) 0x14 h 0 data
  | _ => t.send (.dict path status detail data)

/-- An access that never reaches the dictionary: a VDM path that is closed, the window of a function that is not visible,
a window that is busy, a TDI in RUN without the T bit (R509, R531, R532, R558, R560). -/
def State.gate (s : State) (path : Path) : Option State :=
  match path with
  | .vdm p => if 2 ≤ p then some s else if s.g 0x1100 (p + 2) = 1 then none else some (s.addG 0x1101 6 1)
  | .window f t =>
    if !isFn f || !s.visible f then some s
    else if decide (f < 512) && s.o f 0x9011 1 == 2 && !t then some (s.addO f 0x9011 2 1)
    else if (s.fn f).busy then some (s.addO f 0x1110 2 1) else none
  | _ => none

/-- A stored, signed object is not written yet: its new value waits for the flash, and the window stays busy (R526). -/
def State.queueStored (s : State) (path : Path) (sel index sub value : Nat) : State :=
  let u := { s with sec := { s.sec with flashQ := s.sec.flashQ ++ [(path, objKey sel index sub, value)] } }
  let u := u.addG 0x1102 1 1
  match path with
  | .window f _ => u.modFn f (fun x => { x with busy := true })
  | _ => u

/-- A write: gate, checks, the rule of the object's chapter, and the response. -/
def State.access (s : State) (path : Path) (sel index sub : Nat) (length : Option Nat) (value : Nat)
    (rule : ObjRow → State → Except Refused State) : State :=
  if !s.powered then s
  else
    match s.gate path with
    | some t => t
    | none =>
      match (s.checkWrite path sel index sub length value >>= fun r => (rule r s).map (fun t => (r, t))) with
      | .error e => s.respond path e.status e.detail []
      | .ok (r, t) => if r.stored then s.queueStored path sel index sub value else t.respond path Status.ok 0 []

/-- The rule of an object whose chapter gives none: the value is stored. -/
def storeRule (sel index sub value : Nat) (_ : ObjRow) (s : State) : Except Refused State :=
  .ok (s.setO sel index sub value)

/-! ### Holder objects (R534, Table 20.5) -/

/-- Subindices of the holder objects of the 0xA000 range, whose index is given under selector 1023. -/
def holderSubs (index : Nat) : Nat :=
  match index with
  | 0xA001 => 1
  | 0xA002 => 16
  | 0xA003 => 16
  | 0xA004 => 1
  | 0xA005 => 1
  | 0xA006 => 1
  | 0xA008 => 8
  | 0xA009 => 4
  | 0xA010 => 96
  | _ => 0
/-- A key's upper part, selector and index, and its subindex name a holder object. -/
def isHolder (place sub : Nat) : Bool :=
  decide (place / 2 ^ 16 = 1023) && decide (1 ≤ sub) && decide (sub ≤ holderSubs (place % 2 ^ 16))

/-- A holder object takes a new value: a pin whose holder changes stops driving, a timer stops (Table 20.5). -/
def State.putHolder (s : State) (index sub v : Nat) : State :=
  let t := s.setG index sub v
  if v = s.g index sub then s
  else if index = 0xA008 then t.setG 0xA00C sub (setFld (t.g 0xA00C sub) 0 1 0)
  else if index = 0xA009 then t.setG 0xA00A sub (setFld (t.g 0xA00A sub) 0 16 0)
  else t

/-- The function that a path's writer is, for the holder rules of R534; none for the management controller. -/
def pathWriter : Path → Option Nat
  | .window f _ => some f
  | _ => none

end Sys2Proof.Machine
end

