-- ==== Sys2Proof/Machine/Ulp.lean ====
section
/-!
DEFINITION. The bound of R130: enclosures of the exact values of RECIP, RSQRT, EXP, LOG, SIGMOID, TANH, SILU, GELU and
SUBEXP in fixed point, and the FP32 results that lie within 1 ulp of them (log entry 7).
-/

namespace Sys2Proof.Machine

/-- Values are integers in units of 2^-640; an enclosure is a lower and an upper bound. -/
abbrev Encl := Int × Int

namespace Fix

def one : Int := 2 ^ 640
/-- The quotient of integers rounded down, and up; the divisor is positive. -/
def down (a b : Int) : Int := a / b
def up (a b : Int) : Int := -((-a) / b)

/-- A finite number, exact down to 2^-640. -/
def ofNum : Num → Int
  | .fin n m e =>
    let k : Int := if 0 ≤ e + 640 then (m * 2 ^ (e + 640).toNat : Nat) else (m / 2 ^ (-(e + 640)).toNat : Nat)
    if n then -k else k
  | _ => 0

def exact (x : Int) : Encl := (x, x)
def neg (x : Encl) : Encl := (-x.2, -x.1)
def add (x y : Encl) : Encl := (x.1 + y.1, x.2 + y.2)
def mul (x y : Encl) : Encl :=
  let ps := [x.1 * y.1, x.1 * y.2, x.2 * y.1, x.2 * y.2]
  (down (ps.foldl min (x.1 * y.1)) one, up (ps.foldl max (x.1 * y.1)) one)
/-- The reciprocal of an enclosure of positive values. -/
def inv (x : Encl) : Encl := (down (one * one) (max 1 x.2), up (one * one) (max 1 x.1))
def half (x : Encl) : Encl := (down x.1 2, up x.2 2)

/-- The terms of the exponential series from the k-th on, each rounded down: at most 2 units low. -/
def expTerms (r : Int) : Nat → Nat → Int → Int → Int
  | 0, _, _, acc => acc
  | fuel + 1, k, t, acc => let t := t * r / (one * (k + 1 : Nat)); expTerms r fuel (k + 1) t (acc + t)
/-- e to an r from 0 to 1: 200 terms, the rest below one unit. -/
def expUnit (r : Int) : Encl := let v := expTerms r 200 0 one one; (v, v + 1000)
/-- The n-th power. -/
def powN (x : Encl) : Nat → Encl
  | 0 => exact one
  | n + 1 => mul x (powN x n)
/-- e to a value of at least 0; beyond 300 only a lower bound is of use. -/
def expPos (x : Int) : Encl :=
  let x := min x (300 * one)
  mul (powN (expUnit one) (x / one).toNat) (expUnit (x % one))
def exp (x : Int) : Encl :=
  if 0 ≤ x then (if 300 * one < x then ((expPos x).1, one * one) else expPos x)
  else if x < -300 * one then (0, (inv (expPos (300 * one))).2) else inv (expPos (-x))
/-- e to an enclosed value. -/
def expE (x : Encl) : Encl := ((exp x.1).1, (exp x.2).2)

/-- The odd series of twice the inverse hyperbolic tangent of z, z at most 1/3: 210 terms. -/
def atanhTerms (z2 : Int) : Nat → Nat → Int → Int → Int
  | 0, _, _, acc => acc
  | fuel + 1, k, t, acc => atanhTerms z2 fuel (k + 2) (t * z2 / one) (acc + t / (k : Int))
def atanh2 (z : Int) : Encl := let v := atanhTerms (z * z / one) 210 1 z 0; (2 * v, 2 * v + 2000)
/-- ln of a positive value m times 2^e: of its fraction in [1, 2), and its exponent times ln 2. -/
def ln (m : Nat) (e : Int) : Encl :=
  let f : Int := (m : Int) * one / (2 ^ m.log2 : Nat)
  let k : Int := e + m.log2
  let l2 := atanh2 (one / 3)
  let z := (f - one) * one / (f + one)
  add (let v := atanh2 z; (v.1, v.2 + 4)) (if 0 ≤ k then (k * l2.1, k * (l2.2 + 4)) else (k * (l2.2 + 4), k * l2.1))

/-- 1 / (1 + e^-x). -/
def sigmoid (x : Int) : Encl := inv (add (exact one) (exp (-x)))
/-- tanh of an enclosed value as 1 - 2 / (e^(2x) + 1), and for a negative value as its mirror image. -/
def tanhPos (x : Int) : Encl := add (exact one) (neg (mul (exact (2 * one)) (inv (add (exact one) (exp (2 * x))))))
def tanh (x : Encl) : Encl :=
  let lo := if 0 ≤ x.1 then (tanhPos x.1).1 else -(tanhPos (-x.1)).2
  let hi := if 0 ≤ x.2 then (tanhPos x.2).2 else -(tanhPos (-x.2)).1
  (lo, hi)

/-- 100 decimal digits of pi. -/
def piDigits : Nat := 31415926535897932384626433832795028841971693993751058209749445923078164062862089986280348253421170679
/-- The square root of a value, enclosed. -/
def sqrt (x : Encl) : Encl :=
  let r (v : Int) : Int := let n := (v * one).toNat; isqrt n (n.log2 / 2 + 1) 0
  (r x.1, r x.2 + 1)
/-- sqrt(2 / pi), enclosed through the digits of pi. -/
def gelu0 : Encl := sqrt (2 * one * 10 ^ 100 / (piDigits + 1), 2 * one * 10 ^ 100 / piDigits + 1)
/-- The tanh form of GELU: x (1 + tanh(sqrt(2 / pi) (x + 0.044715 x^3))) / 2 (PRESUMED constants, log entry 7). For negative
x, 1 + tanh(u) is 2 / (1 + e^(-2u)). -/
def gelu (x : Int) : Encl :=
  let x3 := mul (exact x) (mul (exact x) (exact x))
  let u := mul gelu0 (add (exact x) (down (44715 * x3.1) 1000000, up (44715 * x3.2) 1000000))
  mul (exact x) (inv (add (exact one) (expE (neg (add u u)))))

/-- The exact value of an operation that is neither special nor exact, on finite operands. -/
def value (op : Nat) (a b : Num) : Encl :=
  let x := ofNum a
  match op, a with
  | 0x18, .fin n m e => let v := inv (let k := ofNum (.fin false m e); (k, k)); if n then neg v else v
  | 0x19, .fin _ m e => inv (sqrt (exact (ofNum (.fin false m e))))
  | 0x1A, _ => exp x
  | 0x1B, .fin _ m e => ln m e
  | 0x1C, _ => sigmoid x
  | 0x1D, _ => tanh (exact x)
  | 0x1E, _ => mul (exact x) (sigmoid x)
  | 0x1F, _ => gelu x
  | 0x20, _ => exp (ofNum (a.sub b))
  | _, _ => exact 0

/-- An ulp of FP32 at a magnitude, subnormals with that of the smallest normal value. -/
def ulp (v : Int) : Int := if v = 0 then 2 ^ (640 - 149) else (2 : Int) ^ (max (v.natAbs.log2 : Int) (640 - 126) - 23).toNat
/-- An FP32 result that may lie within 1 ulp of the exact value: an infinity where the value comes within an ulp of what lies
beyond the largest finite value (R131). -/
def near (w : Encl) : Num → Bool
  | .nan => false
  | .inf n => if n then decide (w.1 - ulp w.1 ≤ -(2 ^ 128 * one)) else decide (2 ^ 128 * one ≤ w.2 + ulp w.2)
  | .fin n m e =>
    let x := ofNum (.fin n m e)
    let u := max (ulp w.1) (ulp w.2)
    decide (w.1 - u ≤ x) && decide (x ≤ w.2 + u)

end Fix

end Sys2Proof.Machine
end

