-- ==== Sys2Proof/Machine/Codes.lean ====
section
/-!
DEFINITION. What the radio engines compute by this manual and by the 3GPP documents that it names (R239, R250-R259): bit
streams and CRCs, Gold sequences, rate matching, the LDPC and turbo codes, trellis decoding, constellations and the PRACH
threshold. What stands here of TS 38.211, TS 38.212 and TS 36.212 is PRESUMED (log entry 8).
-/

namespace Sys2Proof.Machine

/-! ### Bit streams and CRCs (R242) -/

/-- The first n bits of a packed stream, first bit in bit 7 of byte 0. -/
def unpackBits (n : Nat) (l : List Byte) : List Bool := (List.range n).map (fun i => (l.getD (i / 8) 0).getLsbD (7 - i % 8))
/-- A stream packed; the unused low bits of its last byte are 0. -/
def packBits (l : List Bool) : List Byte :=
  (List.range (cdiv l.length 8)).map (fun k => BitVec.ofNat 8 ((List.range 8).foldl (fun v j => 2 * v + (l.getD (8 * k + j) false).toNat) 0))
/-- A number as bits, most significant first. -/
def numBits (n v : Nat) : List Bool := (List.range n).map (fun i => v.testBit (n - 1 - i))
def bitsNum (l : List Bool) : Nat := l.foldl (fun v b => 2 * v + b.toNat) 0

/-- A CRC: its length and its polynomial without the highest term (TS 38.212 5.1). -/
structure Crc where
  len  : Nat
  poly : Nat
  deriving DecidableEq, Repr

def crc24A : Crc := ⟨24, 0x864CFB⟩
def crc24B : Crc := ⟨24, 0x800063⟩
def crc24C : Crc := ⟨24, 0xB2B117⟩
def crc16 : Crc := ⟨16, 0x1021⟩
def crc11 : Crc := ⟨11, 0x621⟩
def crc6 : Crc := ⟨6, 0x21⟩

/-- The parity of a message, from an initial register. -/
def Crc.of (c : Crc) (init : Nat) (l : List Bool) : Nat :=
  l.foldl (fun r b => let t := 2 * r % 2 ^ c.len; if r.testBit (c.len - 1) != b then t ^^^ c.poly else t) init
/-- A message with its parity behind it. -/
def Crc.attach (c : Crc) (l : List Bool) : List Bool := l ++ numBits c.len (c.of 0 l)
/-- A message that ends in its parity, masked by an exclusive or. -/
def Crc.passes (c : Crc) (l : List Bool) (init : Nat := 0) (mask : Nat := 0) : Bool :=
  bitsNum (l.drop (l.length - c.len)) == c.of init (l.take (l.length - c.len)) ^^^ mask % 2 ^ c.len

/-- n bits of the Gold sequence of two 31-bit registers (TS 38.211 5.2.1). -/
def goldBits : Nat → Nat → Nat → List Bool
  | 0, _, _ => []
  | n + 1, x, y =>
    (x.testBit 0 != y.testBit 0) ::
      goldBits n (x / 2 + (x.testBit 3 != x.testBit 0).toNat * 2 ^ 30)
        (y / 2 + (((y.testBit 3 != y.testBit 2) != y.testBit 1) != y.testBit 0).toNat * 2 ^ 30)
/-- The scrambling sequence of an initialisation. -/
def gold (init n : Nat) : List Bool := (goldBits (1600 + n) 1 init).drop 1600

/-- Bits exclusive-or a sequence. -/
def scramble (seq bits : List Bool) : List Bool := List.zipWith (· != ·) bits seq

/-! ### LDPC rate matching (TS 38.212 5.4.2) -/

/-- Columns of a base graph: systematic ones, and those that reach the circular buffer. -/
def sysCols (bg : Nat) : Nat := if bg = 0 then 22 else 10
def bufCols (bg : Nat) : Nat := if bg = 0 then 66 else 50
/-- The start of a redundancy version in a circular buffer of ncb bits. -/
def startOf (bg rv zc ncb : Nat) : Nat :=
  ((if bg = 0 then [0, 17, 33, 56] else [0, 13, 25, 43]).getD rv 0) * ncb / (bufCols bg * zc) * zc
/-- The places that the bits of a codeword take in a circular buffer, one round of it: from k0 on, without the filler. -/
def roundOf (k0 ncb : Nat) (filler : Nat → Bool) : List Nat :=
  ((List.range ncb).map (fun i => (k0 + i) % ncb)).filter (fun p => !filler p)
/-- The filler bits of a codeword in its circular buffer: the f places before the end of its systematic bits. -/
def fillerAt (bg zc f p : Nat) : Bool := decide ((sysCols bg - 2) * zc ≤ p + f) && decide (p < (sysCols bg - 2) * zc)
/-- e bits that rate matching selects: round and round through the places. -/
def selectBits (e : Nat) (places : List Nat) (d : List Bool) : List Bool :=
  (List.range e).map (fun i => d.getD (places.getD (i % max 1 places.length) 0) false)
/-- Interleaving by the modulation order: rows of e / qm bits, read by columns. -/
def interleave (qm : Nat) (l : List Bool) : List Bool :=
  (List.range l.length).map (fun k => l.getD (k % max 1 qm * (l.length / max 1 qm) + k / max 1 qm) false)
/-- The bits of code block r of c, of g bits in all, in units of a symbol of every layer. -/
def blockBits (g unit c r : Nat) : Nat :=
  let q := g / max 1 unit
  unit * (if r + q % max 1 c < c then q / max 1 c else cdiv q (max 1 c))

/-! ### LDPC code (R250, R251) -/

/-- The transport block with its CRC (TS 38.212 7.2.1). -/
def withTbCrc (tb : List Bool) : List Bool := (if 3824 < tb.length then crc24A else crc16).attach tb
/-- The code blocks of a transport block: c of them, each with a CRC24B where there is more than one. -/
def codeBlocks (c : Nat) (l : List Bool) : List (List Bool) :=
  if c ≤ 1 then [l] else (chunksOf (cdiv (l.length + 24 * c) c - 24) c l).map crc24B.attach
/-- The circular buffer of a code block: without the first two columns, with its parity (the base graphs of TS 38.212 are
constants without a body; log entry 8). -/
def ldpcBuffer (bg zc : Nat) (block : List Bool) : List Bool :=
  let k := sysCols bg * zc
  let info := (List.range k).map (fun i => block.getD i false)
  let parity := Config.ldpcParity bg zc info
  info.drop (2 * zc) ++ (List.range ((bufCols bg + 2) * zc - k)).map (fun i => parity.getD i false)
/-- The rate-matched bits of a codeword in LDPC, before scrambling. -/
def ldpcEncode (bg zc c qm rv nl nref g : Nat) (tb : List Bool) : List Bool :=
  let n := bufCols bg * zc
  let ncb := if nref = 0 then n else min n nref
  let blocks := codeBlocks c (withTbCrc tb)
  blocks.zipIdx.flatMap (fun e =>
    let places := roundOf (startOf bg rv zc ncb) ncb (fillerAt bg zc (sysCols bg * zc - e.1.length))
    interleave qm (selectBits (blockBits g (nl * qm) c e.2) places (ldpcBuffer bg zc e.1)))

/-- A soft bit decides for 1 where it is negative, for 0 where it is positive (R243). -/
def hard (x : Int) : Bool := if x = 0 then Config.undecided else decide (x < 0)
/-- A message of 8 bits. -/
def sat8 (x : Int) : Int := max (-127) (min 127 x)

/-- Offset min-sum at a check: each edge takes the product of the signs and the least magnitude of the others, less the
offset. -/
def checkNode (qs : List Int) : List Int :=
  (List.range qs.length).map (fun e =>
    let others := qs.eraseIdx e
    let m : Int := ((others.foldl (fun a x => min a x.natAbs) 127) - Config.ldpcOffset : Nat)
    if (others.filter (fun x => decide (x < 0))).length % 2 = 1 then -m else m)

/-- The variables that check j of a row joins. -/
def checkVars (zc : Nat) (row : List (Nat × Nat)) (j : Nat) : List Nat := row.map (fun e => e.1 * zc + (j + e.2) % zc)

/-- One layer: a check row of the base graph over the totals and its messages of the last iteration. -/
def ldpcLayer (zc : Nat) (row : List (Nat × Nat)) (total : List Int) (old : List (List Int)) : List Int × List (List Int) :=
  (List.range zc).foldl (fun st j =>
    let vs := checkVars zc row j
    let qs := vs.zipIdx.map (fun e => sat8 (st.1.getD e.1 0 - (old.getD j []).getD e.2 0))
    let new := checkNode qs
    ((vs.zip (List.zipWith (· + ·) qs new)).foldl (fun t e => t.set e.1 (max (-(Config.ldpcTotal : Int)) (min Config.ldpcTotal e.2))) st.1,
     st.2 ++ [new])) (total, [])

/-- One iteration over the rows. -/
def ldpcSweep (zc : Nat) : List (List (Nat × Nat)) → List Int → List (List (List Int)) → List Int × List (List (List Int))
  | [], total, _ => (total, [])
  | row :: rows, total, old =>
    let a := ldpcLayer zc row total (old.headD [])
    let r := ldpcSweep zc rows a.1 old.tail
    (r.1, a.2 :: r.2)

/-- Every parity check of the rows holds. -/
def parityHolds (zc : Nat) (rows : List (List (Nat × Nat))) (bits : List Bool) : Bool :=
  rows.all (fun row => (List.range zc).all (fun j => ((checkVars zc row j).filter (fun v => bits.getD v false)).length % 2 == 0))

/-- What decoding a codeword gives: its bits, the iterations used, whether it stopped early. -/
structure Decoded where
  bits  : List Bool
  iters : Nat
  early : Bool
  deriving DecidableEq, Repr

/-- Layered offset min-sum for up to `fuel` more iterations; with early stop it ends after the first one in which every
parity check holds and the CRC24B of the first kp bits passes (R250). -/
def ldpcRun (zc kp : Nat) (stop : Bool) (rows : List (List (Nat × Nat))) : Nat → Nat → List Int → List (List (List Int)) → Decoded
  | 0, done, total, _ => ⟨total.map hard, done, false⟩
  | fuel + 1, done, total, old =>
    let r := ldpcSweep zc rows total old
    let bits := r.1.map hard
    if stop && parityHolds zc rows bits && crc24B.passes (bits.take kp) then ⟨bits, done + 1, true⟩
    else ldpcRun zc kp stop rows fuel (done + 1) r.1 r.2
/-- A codeword of LLRs decoded over its first nu check rows. -/
def ldpcDecode (bg zc nu kp limit : Nat) (stop : Bool) (llrs : List Int) : Decoded :=
  ldpcRun zc kp stop ((Config.baseGraph bg zc).take nu) limit 0 (List.replicate (2 * zc) 0 ++ llrs) []

/-! ### LTE turbo code (R251, TS 36.212 5.1) -/

/-- The 188 block sizes. -/
def turboSizes : List Nat :=
  (List.range 60).map (fun i => 40 + 8 * i) ++ (List.range 32).map (fun i => 528 + 16 * i) ++
    (List.range 32).map (fun i => 1056 + 32 * i) ++ (List.range 64).map (fun i => 2112 + 64 * i)
/-- The larger block size of c code blocks that hold n bits, and the next smaller one. -/
def turboUp (c n : Nat) : Nat := (turboSizes.find? (fun k => decide (n ≤ c * k))).getD 6144
def turboDown (k : Nat) : Nat := (turboSizes.filter (fun j => decide (j < k))).getLastD 0
/-- Bits to segment: the transport block, its CRC24A, and a CRC24B for each of several blocks. -/
def turboTotal (c tbs : Nat) : Nat := tbs + 24 + (if c ≤ 1 then 0 else 24 * c)
/-- The code blocks with the filler of the first one in front, and how much filler that is. -/
def turboBlocks (c : Nat) (tb : List Bool) : Nat × List (List Bool) :=
  let l := crc24A.attach tb
  let total := turboTotal c tb.length
  let up := turboUp c total
  let down := turboDown up
  let few := if c ≤ 1 then 0 else (c * up - total) / (up - down)
  let filler := few * down + (c - few) * up - total
  let crcLen := if c ≤ 1 then 0 else 24
  let cut := (List.range c).foldl (fun (st : List Bool × List (List Bool)) r =>
    let n := (if r < few then down else up) - crcLen
    (st.1.drop n, st.2 ++ [st.1.take n])) (List.replicate filler false ++ l, [])
  (filler, cut.2.map (fun b => if c ≤ 1 then b else crc24B.attach b))

/-- A constituent encoder: its three bits of state, with its systematic and parity bits; `term` feeds it back to 0. -/
def turboStep (s : Nat) (x : Bool) : Nat × Bool :=
  let a := x != (s.testBit 1 != s.testBit 2)
  (2 * s % 8 + a.toNat, (a != s.testBit 0) != s.testBit 2)
def turboParity (l : List Bool) : Nat × List Bool :=
  l.foldl (fun (st : Nat × List Bool) x => let r := turboStep st.1 x; (r.1, st.2 ++ [r.2])) (0, [])
/-- The tail: three systematic and three parity bits. -/
def turboTail (s : Nat) : List (Bool × Bool) :=
  ((List.range 3).foldl (fun (st : Nat × List (Bool × Bool)) _ =>
    let x := st.1.testBit 1 != st.1.testBit 2
    let r := turboStep st.1 x
    (r.1, st.2 ++ [(x, r.2)])) (s, [])).2

/-- The three streams of a code block. -/
def turboStreams (l : List Bool) : List (List Bool) :=
  let k := l.length
  let il := (List.range k).map (fun i => l.getD (Config.qpp k i % max 1 k) false)
  let p := turboParity l
  let q := turboParity il
  let t := turboTail p.1
  let u := turboTail q.1
  let x (i : Nat) : Bool := (t.getD i (false, false)).1
  let z (i : Nat) : Bool := (t.getD i (false, false)).2
  let x' (i : Nat) : Bool := (u.getD i (false, false)).1
  let z' (i : Nat) : Bool := (u.getD i (false, false)).2
  [l ++ [x 0, z 1, x' 0, z' 1], p.2 ++ [z 0, x 2, z' 0, x' 2], q.2 ++ [x 1, z 2, x' 1, z' 2]]

/-- The column permutation of the sub-block interleaver. -/
def turboCols : List Nat :=
  [0, 16, 8, 24, 4, 20, 12, 28, 2, 18, 10, 26, 6, 22, 14, 30, 1, 17, 9, 25, 5, 21, 13, 29, 3, 19, 11, 27, 7, 23, 15, 31]
/-- A stream interleaved, with none where there is no bit: dummies in front, and the filler of streams 0 and 1. -/
def turboInterleave (third : Bool) (filler : Nat) (d : List Bool) : List (Option Bool) :=
  let r := cdiv d.length 32
  let dummies := 32 * r - d.length
  let at_ (i : Nat) : Option Bool := if i < dummies ∨ (i < dummies + filler ∧ third = false) then none else some (d.getD (i - dummies) false)
  (List.range (32 * r)).map (fun k =>
    let i := turboCols.getD (k / r) 0 + 32 * (k % r)
    at_ (if third then (i + 1) % (32 * r) else i))
/-- The rate-matched bits of a codeword in turbo coding: the circular buffer of each block read from its start. -/
def turboEncode (c qm rv nl nref g : Nat) (tb : List Bool) : List Bool :=
  let bs := turboBlocks c tb
  bs.2.zipIdx.flatMap (fun e =>
    let filler := if e.2 = 0 then bs.1 else 0
    let ds := turboStreams e.1
    let v := (List.range 3).map (fun i => turboInterleave (i == 2) filler (ds.getD i []))
    let w := v.getD 0 [] ++ (List.zipWith (fun a b => [a, b]) (v.getD 1 []) (v.getD 2 [])).flatten
    let ncb := if nref = 0 then w.length else min w.length nref
    let r := w.length / 96
    let k0 := r * (2 * cdiv ncb (8 * max 1 r) * rv + 2)
    let kept := ((List.range ncb).map (fun i => w.getD ((k0 + i) % ncb) none)).filterMap id
    (List.range (blockBits g (nl * qm) c e.2)).map (fun i => kept.getD (i % max 1 kept.length) false))

/-! ### Trellis decoding (R253) -/

/-- The coded bits of a step: generator bit cl - 1 is the tap of the newest bit (PRESUMED). -/
def codedBits (cl : Nat) (gens : List Nat) (state : Nat) (x : Bool) : List Bool :=
  let reg := x.toNat * 2 ^ (cl - 1) + state
  gens.map (fun g => ((List.range cl).filter (fun i => g.testBit i && reg.testBit i)).length % 2 == 1)
/-- The correlation of coded bits with their LLRs: a positive one favours 0. -/
def agreement (llrs : List Int) (bits : List Bool) : Int := (List.zipWith (fun x b => if b then -x else x) llrs bits).sum

/-- A path: whether there is one, its metric, its bits with the last one first. -/
abbrev TrellisPath := Bool × Int × List Bool
def betterPath (a b : TrellisPath) : TrellisPath :=
  if !b.1 then a else if !a.1 then b else if a.2.1 = b.2.1 then (if Config.undecided then b else a) else if a.2.1 < b.2.1 then b else a
/-- One step of the Viterbi algorithm over all states. -/
def viterbiStep (cl : Nat) (gens : List Nat) (paths : List TrellisPath) (llrs : List Int) : List TrellisPath :=
  (List.range (2 ^ (cl - 1))).map (fun t =>
    let x := t.testBit (cl - 2)
    let go (low : Nat) : TrellisPath :=
      let from_ := 2 * t % 2 ^ (cl - 1) + low
      let p := paths.getD from_ (false, 0, [])
      (p.1, p.2.1 + agreement llrs (codedBits cl gens from_ x), x :: p.2.2)
    betterPath (go 0) (go 1))
/-- One pass along the trellis. -/
def viterbiPass (cl : Nat) (gens : List Nat) (start : List TrellisPath) (steps : List (List Int)) : List TrellisPath :=
  steps.foldl (viterbiStep cl gens) start
/-- The bits of a block: a tail-biting code in two passes around the trellis, a terminated one in a pass from state 0 to
state 0. -/
def viterbi (cl k : Nat) (gens : List Nat) (tailBiting : Bool) (steps : List (List Int)) : List Bool :=
  if tailBiting then
    let first := viterbiPass cl gens (List.replicate (2 ^ (cl - 1)) (true, 0, [])) steps
    let last := viterbiPass cl gens (first.map (fun p => (p.1, p.2.1, []))) steps
    (last.foldl betterPath (false, 0, [])).2.2.reverse.take k
  else
    let last := viterbiPass cl gens ((true, 0, []) :: List.replicate (2 ^ (cl - 1) - 1) (false, 0, [])) steps
    (last.headD (false, 0, [])).2.2.reverse.take k

/-! ### Constellations (R254, TS 38.211 5.1) -/

/-- The amplitude along one axis of bits b0, b2, ..., in units of the least one. -/
def pamOf : List Bool → Int
  | [] => 1
  | b :: bs => (if b then -1 else 1) * (if bs.isEmpty then 1 else 2 ^ bs.length - pamOf bs)
/-- The point of qm bits in the device's units; symbol i of pi/2-BPSK is turned by i quarter turns. -/
def pointOf (qm : Nat) (turned : Bool) (i : Nat) (bits : List Bool) : Int × Int :=
  let u : Int := Config.pointUnit qm
  if qm = 1 then
    let v := u * pamOf bits
    if turned && i % 2 == 1 then (-v, v) else (v, v)
  else
    let axis (k : Nat) : List Bool := (List.range (qm / 2)).map (fun j => bits.getD (2 * j + k) false)
    (u * pamOf (axis 0), u * pamOf (axis 1))
/-- The smallest squared distance from a symbol to a point with bit k at a value. -/
def leastDistance (qm : Nat) (turned : Bool) (i : Nat) (y : Int × Int) (k : Nat) (v : Bool) : Int :=
  let ds := (((List.range (2 ^ qm)).map (numBits qm)).filter (fun b => b.getD k false == v)).map (fun b =>
    let p := pointOf qm turned i b
    (y.1 - p.1) * (y.1 - p.1) + (y.2 - p.2) * (y.2 - p.2))
  ds.foldl min (ds.headD 0)
/-- x / 2^n to the nearest integer, ties to even (the manual says only "round"; log entry 8). -/
def roundShift (x : Int) (n : Nat) : Int :=
  let q := x / 2 ^ n
  let r := 2 * (x % 2 ^ n)
  if r < 2 ^ n ∨ (r = 2 ^ n ∧ q % 2 = 0) then q else q + 1
/-- The max-log LLR of bit k of a symbol. -/
def llrOf (qm : Nat) (turned : Bool) (lsh g i : Nat) (y : Int × Int) (k : Nat) : Int :=
  sat8 (roundShift (g * (leastDistance qm turned i y k true - leastDistance qm turned i y k false)) (12 + lsh))

/-! ### PRACH (R258, R259) -/

/-- a / b is at least 10^(t / 2560), which is t in 1/256 dB. -/
def atLeastDb (t a b : Nat) : Bool := decide (10 ^ t * b ^ 2560 ≤ a ^ 2560)
/-- Whether noise alone stays, in all of 64 windows, at most at t in 1/256 dB, but for a probability of 10^-x: noise of a
Gamma distribution of shape k and unit mean exceeds T with probability e^(-kT) times the sum of (kT)^j / j! for j below k. The
windows count as independent (DEDUCED, log entry 8). -/
def quiet (k x t : Nat) : Bool :=
  let ln10 := (Fix.ln 10 0).1
  let lin := (Fix.exp (t * ln10 / 2560)).1
  let y := k * lin
  let sum := ((List.range (k - 1)).foldl (fun (st : Int × Int) j =>
    let term := st.1 * y / (Fix.one * (j + 1 : Nat)); (term, st.2 + term)) (Fix.one, Fix.one)).2
  let tail := sum * Fix.one / (Fix.powN (Fix.exp lin) k).1
  decide (((10 : Int) ^ x - 1) * Fix.one ≤ 10 ^ x * (Fix.powN (Fix.exact (Fix.one - tail)) 64).1)
/-- The least t above lo that satisfies a monotone test, known to hold at lo + 2^n. -/
def leastFrom (test : Nat → Bool) : Nat → Nat → Nat
  | 0, lo => lo + 1
  | n + 1, lo => if test (lo + 2 ^ n) then leastFrom test n lo else leastFrom test n (lo + 2 ^ n)
/-- The threshold in 1/256 dB that the device derives for A times NREP and the exponent x (R259); 16 dB is above every one. -/
def derivedThreshold (k x : Nat) : Nat := if quiet k x 0 then 0 else leastFrom (quiet k x) 12 0

/-! ### Nominal channel bandwidth (R264) -/

/-- Channel bandwidths in MHz, ascending, with their maximum numbers of resource blocks: TS 36.101 at 15 kHz (1.4 MHz counts
as 2), TS 38.101-1 at 15, 30 and 60 kHz, TS 38.101-2 at 60 and 120 kHz (PRESUMED; log entry 8). -/
def bandwidths (tech num : Nat) : List (Nat × Nat) :=
  if tech = 2 then [(2, 6), (3, 15), (5, 25), (10, 50), (15, 75), (20, 100)]
  else if tech = 1 then
    (if num = 2 then [(50, 66), (100, 132), (200, 264)] else [(50, 32), (100, 66), (200, 132), (400, 264)])
  else if num = 0 then
    [(5, 25), (10, 52), (15, 79), (20, 106), (25, 133), (30, 160), (35, 188), (40, 216), (45, 242), (50, 270)]
  else if num = 1 then
    [(5, 11), (10, 24), (15, 38), (20, 51), (25, 65), (30, 78), (35, 92), (40, 106), (45, 119), (50, 133), (60, 162), (70, 189),
     (80, 217), (90, 245), (100, 273)]
  else
    [(10, 11), (15, 18), (20, 24), (25, 31), (30, 38), (35, 44), (40, 51), (45, 58), (50, 65), (60, 79), (70, 93), (80, 107),
     (90, 121), (100, 135)]
/-- The smallest channel bandwidth that holds a number of resource blocks; 0 where none does. -/
def nominalBandwidth (tech num rbs : Nat) : Nat := ((bandwidths tech num).find? (fun e => decide (rbs ≤ e.2))).elim 0 (·.1)

end Sys2Proof.Machine
end

