-- ==== Sys2Proof/Machine/Cells.lean ====
section
/-!
DEFINITION. Cells as several chapters share them: states, cost and demand (R57-R61, R263-R265, R373), the stop of the
cells and the relinquish (R457, R479), and the report of radio lateness (R62, R63).
-/

namespace Sys2Proof.Machine

/-- An object of a cell; the radio objects exist only under the radio owner's selector (R266). -/
def State.cellO (s : State) (c sub : Nat) : Nat :=
  if s.radioOwner < 512 then s.o s.radioOwner (0x4400 + c) sub else 0
def State.setCellO (s : State) (c sub v : Nat) : State :=
  if s.radioOwner < 512 then s.setO s.radioOwner (0x4400 + c) sub v else s
def State.addCellO (s : State) (c sub n : Nat) : State := s.setCellO c sub (s.cellO c sub + n)

/-- A cell's state: 0 inactive, 1 pending, 2 active, 3 deactivating (Table 9.8). -/
def State.cellState (s : State) (c : Nat) : Nat := s.cellO c 1

/-- The cells whose state satisfies a test, ascending; an inactive cell is never listed. -/
def State.cellsIn (s : State) (test : Nat → Bool) : List Nat :=
  s.obj.filterMap (fun e =>
    let index := e.1 / 2 ^ 8 % 2 ^ 16
    if e.1 / 2 ^ 24 = s.radioOwner ∧ s.radioOwner < 512 ∧ e.1 % 2 ^ 8 = 1 ∧ 0x4400 ≤ index ∧ index < 0x4800 ∧ e.2 ≠ 0 ∧ test e.2
    then some (index - 0x4400) else none)
/-- Cells that are not inactive. -/
def State.liveCells (s : State) : List Nat := s.cellsIn (fun _ => true)
def State.activeCells (s : State) : List Nat := s.cellsIn (· == 2)

/-- Table 9.6: technology, bandwidth in MHz, ports, layers DL and UL, u in 1/64 carrier unit. -/
def costRows : List (Nat × Nat × Nat × Nat × Nat × Nat) :=
  [(0, 10, 4, 4, 4, 8), (0, 20, 4, 4, 4, 16), (0, 40, 4, 4, 4, 32), (0, 100, 4, 4, 4, 64), (0, 100, 8, 8, 4, 128),
   (0, 100, 32, 16, 8, 320), (0, 100, 64, 16, 16, 512), (1, 100, 2, 2, 2, 24), (1, 200, 2, 2, 2, 48),
   (1, 400, 2, 2, 2, 96), (2, 10, 4, 4, 2, 8), (2, 20, 4, 4, 4, 16)]

/-- The numerologies that R239 allows for a technology and range. -/
def numerologyOk (tech num : Nat) : Bool :=
  if tech = 0 then decide (num ≤ 2) else if tech = 1 then num == 2 || num == 3 else true

/-- A cell's cost row, 0 for none (R264). -/
def State.costRow (s : State) (c : Nat) : Nat :=
  let tech := s.cellO c 2
  let bw := nominalBandwidth tech (if tech = 2 then 0 else s.cellO c 3) (s.cellO c 4)
  if !numerologyOk tech (s.cellO c 3) || bw = 0 then 0
  else
    match costRows.findIdx? (fun r => r.1 == tech && decide (bw ≤ r.2.1) && decide (s.cellO c 5 ≤ r.2.2.1) &&
        decide (fld (s.cellO c 6) 0 8 ≤ r.2.2.2.1) && decide (fld (s.cellO c 6) 8 8 ≤ r.2.2.2.2.1)) with
    | some k => k + 1
    | none => 0

/-- A cell's cost u in 1/64 carrier unit; an iteration limit above 8 scales it (R264). -/
def State.costU (s : State) (c : Nat) : Nat :=
  let k := s.costRow c
  if k = 0 then 0
  else
    let u := (costRows.getD (k - 1) (0, 0, 0, 0, 0, 0)).2.2.2.2.2
    if 8 < s.cellO c 8 then cdiv (u * s.cellO c 8) 8 else u

/-- d_k in quarters of an engine-granule per radio period, for NR and for LTE (Table 9.7). -/
def demandNR : List Nat := [420, 160, 120, 0, 0, 0, 0, 75, 18, 12, 6, 0, 16, 32, 16, 20, 36, 72, 48, 12, 56, 96]
def demandLTE : List Nat := [420, 160, 120, 0, 0, 0, 0, 0, 18, 0, 6, 532, 16, 32, 16, 20, 36, 72, 48, 12, 56, 96]

/-- One cell's term of D_k in 1/64 engine-granule, rounded up (R58). -/
def State.demandTerm (s : State) (k c : Nat) : Nat :=
  cdiv (s.costU c * (if s.cellO c 2 = 2 then demandLTE else demandNR).getD k 0) 4
/-- D_k of a list of cells. -/
def State.demand (s : State) (cells : List Nat) (k : Nat) : Nat := (cells.map (s.demandTerm k)).sum
/-- Sum of the costs of cells, in 1/64 unit. -/
def State.unitSum (s : State) (cells : List Nat) : Nat := (cells.map s.costU).sum

/-- Tokens per window of a cost sum: 80 per carrier unit (R373). -/
def radioTokens (u : Nat) : Nat := cdiv (5 * u) 4
/-- The admitted radio energy E_adm (R373). -/
def State.eAdm (s : State) (more : Nat := 0) : Nat := radioTokens (s.unitSum s.liveCells + more)
/-- The lower of the window budget in force and a pending one (R374). -/
def State.eWinLow (s : State) : Nat :=
  match s.energy.pending with
  | some p => min (s.g 0x2000 2) (100 * p)
  | none => s.g 0x2000 2

/-- The classes whose budget R58 checks. -/
def radioClasses : List Nat := (List.range 22).filter radioClass

/-- R58 for a list of cells on one page. -/
def State.budgetHolds (s : State) (p : PageImg) (cells : List Nat) : Bool :=
  radioClasses.all (fun k => decide (s.demand cells k ≤ s.reservation p k))

/-- E_radio follows the cells whose demand is in the calendar (R373). -/
def State.updateRadioReserve (s : State) : State := s.setG 0x2001 3 (radioTokens (s.unitSum s.inCal))

/-- A cell becomes active and its demand enters the calendar (R59). -/
def State.enterCell (s : State) (c : Nat) : State :=
  let t := { s.setCellO c 1 2 with inCal := if s.inCal.contains c then s.inCal else s.inCal ++ [c]
                                   cellsAt := SMap.del c s.cellsAt }
  t.updateRadioReserve

/-- A cell becomes inactive and its demand leaves the calendar (R59); one that was taken over is held no more. -/
def State.leaveCell (s : State) (c : Nat) : State :=
  let t := { s.setCellO c 1 0 with inCal := s.inCal.filter (· != c), cellsAt := SMap.del c s.cellsAt
                                   domain := { s.domain with holding := s.domain.holding.filter (· != c) } }
  t.updateRadioReserve

/-- A cell becomes deactivating, its end at the second frame after this one (R59, R263). -/
def State.deactivateCell (s : State) (c : Nat) : State :=
  { s.setCellO c 1 3 with cellsAt := SMap.put c (s.frame + 2) s.cellsAt }

/-- Cells are deactivated one after another. -/
def State.deactivateCells (s : State) : List Nat → State
  | [] => s
  | c :: cs => (s.deactivateCell c).deactivateCells cs
def State.leaveCells (s : State) : List Nat → State
  | [] => s
  | c :: cs => (s.leaveCell c).leaveCells cs

/-- The partner state, with its notice (Table 22.5, bit 2). -/
def State.setPartner (s : State) (v : Nat) : State :=
  if s.g 0x5012 2 = v then s else (s.setG 0x5012 2 v).noticeMgrs 2

/-- Partner protection is on: the setting and a lane of role 2 (R452). -/
def State.protection (s : State) : Bool :=
  s.g 0x5012 1 == 1 && (span 1 64).any (fun l => s.g 0x5001 l == 2)
/-- The partner's device number (R440). -/
def State.partner (s : State) : Nat := s.g 0x5000 1 ^^^ 4096

/-- The first frame boundary at least one granule away (R44, R457, R479). -/
def State.nextBoundary (s : State) : Nat := if s.cycle + 450 ≤ 1800000 then s.frame + 1 else s.frame + 2

/-- The cells stop at a boundary, or at an earlier one at which they stop already (R457). -/
def State.stopBy (s : State) (b : Nat) : State :=
  { s with domain := { s.domain with stopAt := some (s.domain.stopAt.elim b (min b)) } }

/-- Send RELINQUISH naming a boundary; the cells stop there (R455, R457). -/
def State.relinquish (s : State) (b : Nat) : State := (s.toPartner 0x0B b).stopBy b

/-- Cells are inactive at once: no frame of theirs is sent, and radio work dropped is no admitted work; the device has
relinquished (R457). -/
def State.dropCells (s : State) (cells : List Nat) : State :=
  let t := s.leaveCells cells
  let t := { t with
    txq := (t.txq.map (fun (q : Nat × List TxFrame) => (q.1, q.2.filter (fun (f : TxFrame) => f.window.isNone || !cells.contains f.cell)))).filter (fun q => !q.2.isEmpty)
    cmds := t.cmds.map (fun (c : Cmd) => if c.cls = 9 && cells.contains ((c.w 10).fld 0 16) then { c with metered := false } else c) }
  (t.setPartner 3).noticeAll 1
/-- The stop of every cell of the device (R457); a hand-back that waits has nothing left to stop. -/
def State.stopCells (s : State) : State :=
  ({ s with domain := { s.domain with stopAt := none, handBack := none } } : State).dropCells s.liveCells
/-- The stop of the cells that were taken over, at the frame of a hand-back (R458). -/
def State.stopHeld (s : State) : State :=
  ({ s with domain := { s.domain with handBack := none } } : State).dropCells s.domain.holding

/-- A shipment of which pieces are missing when its frame ends is discarded and counted (R453). -/
def State.closeShipment (s : State) : State :=
  if s.domain.rxTotal = 0 then s
  else ({ s with domain := { s.domain with rxTotal := 0, rxBytes := [] } } : State).addG 0x5012 0x0C 1

/-! ### Lateness (R62, R63) -/

/-- Commands of radio-mode contexts among some numbers. -/
def State.radioCmds (s : State) (cids : List Nat) : List Cmd :=
  s.cmds.filter (fun c => cids.contains c.id && (s.ctx c.ctx).mode == 2)

/-- The uplink jobs that carry a transport block: those of the demapper, the HARQ combiner, the LDPC and trellis decoders
and the channel cores (log entry 84). -/
def uplinkClasses : List Nat := [7, 11, 13, 14, 17]
/-- The transport block of an uplink job is reported failed, so that HARQ recovers it (R63, R398). -/
def State.failTb (s : State) (c : Cmd) : State :=
  if c.cls = 9 ∧ uplinkClasses.contains (calClass c.onEngine) = true then { s with failedTb := s.failedTb ++ [(c.cell, c.tbId)] } else s
def State.failTbs (s : State) : List Cmd → State
  | [] => s
  | c :: l => (s.failTb c).failTbs l

/-- The status that a lateness of a calendar gives a radio command: OVERRUN where cause 1 found it running there,
ENGINE_FENCED for an unadmitted one of cause 5, RADIO_LATE for the others (R61, R63, R476, Table 7.16). -/
def lateStatus (cal cause : Nat) (c : Cmd) : Nat :=
  if cause = 1 ∧ c.phase = .running ∧ c.engines.contains cal = true then Status.overrun
  else if !c.metered && cause = 5 then Status.engineFenced else Status.radioLate

/-- A radio command made late ends, or stops where it runs: its outputs are not delivered. -/
def State.lateCmd (s : State) (cal cause : Nat) (c : Cmd) : Cmd :=
  let d := { c with did := true, status := lateStatus cal cause c, detail := s.radioDetail c }
  if c.phase = .running then d else { d with phase := .ended }

/-- The report itself: G:0x2407, the hardware error, and RELINQUISH where it is set (R62, R63, R457). -/
def State.noteLate (s : State) (cal cause : Nat) : State :=
  let t := ((((s.addG 0x2407 1 1).setG 0x2407 2 s.frame).setG 0x2407 3 cal).setG 0x2407 4 cause)
  let t := t.raise ErrCode.radioLate cal t.radioOwner cause
  if t.g 0x5012 9 = 1 then t.relinquish t.nextBoundary else t

/-- The report of radio lateness for the commands it affects: G:0x2407, the hardware error, RADIO_LATE completions, the
failed transport blocks, and RELINQUISH where it is set; unadmitted commands are only counted (R61-R63, R457). -/
def State.lateness (s : State) (cal cause : Nat) (cids : List Nat) : State :=
  let hit := s.radioCmds cids
  let unad := (hit.filter (fun c => !c.metered)).length
  let adm := hit.filter (·.metered)
  let ids := hit.map Cmd.id
  let t := s.mapCmds (fun c => if ids.contains c.id then s.lateCmd cal cause c else c)
  let t := t.sumpWhere (fun p => ids.contains p.cid && !p.stx)
  let t := t.addG 0x2407 5 unad
  if adm.isEmpty && !(hit.isEmpty && (cause = 3 || cause = 2 || cause = 5)) then t
  else (t.failTbs adm).noteLate cal cause

end Sys2Proof.Machine
end

