-- ==== Sys2Proof/Machine/Jobs.lean ====
section
/-!
DEFINITION. How commands and jobs end: retirement without a completion, the end of a job, triggered jobs, the fault of a
context (R179-R188, R206, R362, R433).
-/

namespace Sys2Proof.Machine

def State.proc (s : State) (n : Nat) : Option Proc := (s.procs.find? (fun e => e.1 == n)).map (·.2)
/-- Registrations are listed while they live or still have triggers to run (R432, R433). -/
def State.setProc (s : State) (n : Nat) (p : Proc) : State :=
  if !p.live && p.queue.isEmpty && p.active.isNone then { s with procs := SMap.del n s.procs }
  else { s with procs := SMap.put n p s.procs }

/-- A triggered job is over: on completion TRIGGER_DONE goes to the sender; the status stays in Vnnn:0x5050.08 (R433). -/
def State.endTrigger (s : State) (n status : Nat) : State :=
  match s.proc n with
  | some p =>
    let t := (s.setProc n { p with active := none }).setO p.fn 0x5050 8 status
    match p.active with
    | some a =>
      if status = Status.ok then
        t.reply p.fn a.dev 0x0B a.seq { dstFn := a.fn, sub := a.sub, req := a.req, status := status }
      else t
    | none => t
  | none => s

/-- A job's own commands are all over and it ended well: it is counted completed (R182). -/
def State.closeJob (s : State) (c : Cmd) : State :=
  match s.jobOf c with
  | some j =>
    if j.closed && s.lastOfJob c then
      let t := (s.countJob c.fn 2).endJob c.ctx c.job
      match c.trig with
      | some n => t.endTrigger n Status.ok
      | none => t
    else s
  | none => s

/-- Retire a command without a completion (R188); a triggered record holds no slot. -/
def State.retireSilently (s : State) (c : Cmd) : State :=
  let t := (s.closeJob c).dropCmd c.id
  match c.slot with
  | some k => (t.freeSlot c.fn k).addO c.fn 0x3010 8 1
  | none => t

/-- Whether a command that is over retires without a completion: CQ = 0, OK, and it closed no job (R188). -/
def Cmd.silent (c : Cmd) : Bool := !c.cq && c.status == Status.ok && !(c.je && c.jobbed)

/-! ### Faults of contexts (R183, R362) -/

/-- A command is told to stop at its next boundary. -/
def Cmd.toCut (c : Cmd) : Cmd := { c with did := true, cut := if c.cut = 0 then (if c.did then 2 else 1) else c.cut }
/-- A context's other commands after a fault or a close: the queued ones end, the running ones are told to stop. -/
def stopWith (status ctx : Nat) (but : Nat) (c : Cmd) : Cmd :=
  if c.ctx = ctx ∧ c.id ≠ but ∧ c.jobbed then
    match c.phase with
    | .queued => { c with phase := .ended, did := true, status := status }
    | .running =>
      if c.engines.isEmpty then { c with phase := .ended, did := true, status := status }
      else { c.toCut with status := status }
    | .ended => c
  else c

/-- A command completed with a faulting status: the context is faulted, its job counted faulted and its other jobs
cancelled, its thread freed, its other commands ended or stopped; an uncorrectable error moves the function's TDI to ERROR
(R182, R183, R362, R509; log entry 11). A context that has been closed since is not affected. -/
def State.faultContext (s : State) (c : Cmd) : State :=
  if !s.ownCtx c then s else
  let x := s.ctx c.ctx
  let own := c.jobbed && x.jobs.any (fun j => j.num == c.job)
  let others := (x.jobs.filter (fun j => !(c.jobbed && j.num == c.job))).length
  let t := if own then s.countJob c.fn 3 else s
  let t := t.countJob c.fn 4 others
  let tdi := t.o c.fn 0x9011 1
  let t := if c.status = Status.eccUncorrectable ∧ (tdi = 1 ∨ tdi = 2) then t.setO c.fn 0x9011 1 3 else t
  let t := ((t.endHolds c.ctx (fun _ => true)).modCtx c.ctx (fun y => { y with st := .faulted, jobs := [] })).freeThreads c.ctx
  let t : State := { t with cmds := t.cmds.map (stopWith Status.contextFaulted c.ctx c.id) }
  match (s.cmds.find? (fun d => d.ctx == c.ctx && d.trig.isSome)).bind (·.trig) with
  | some n => t.endTrigger n c.status
  | none => t

/-- A triggered record that is over: it writes no completion, and its fault faults its context (R433). -/
def State.retireTriggered (s : State) (c : Cmd) : State :=
  if Status.faults c.status (s.modeOf c == 2) then (s.faultContext c).dropCmd c.id else s.retireSilently c

/-- A command whose writes have landed, whose packets are answered and that needs no completion retires (R188, R206,
R424). -/
def State.settle (s : State) (cid : Nat) : State :=
  match s.cmd? cid with
  | some c =>
    if c.phase = .ended && !s.inFlight cid && s.answered c && !s.resetting c.fn then
      if c.slot.isNone then s.retireTriggered c
      else if c.silent then s.retireSilently c else s
    else s
  | none => s

/-- Settle every command that can. -/
def State.settleAll (s : State) : List Nat → State
  | [] => s
  | c :: cs => (s.settle c).settleAll cs

/-- A command is over: it ends with a status and settles. -/
def State.conclude (s : State) (cid status : Nat) (detail : List Nat := []) : State :=
  (s.finish cid status detail).settle cid

end Sys2Proof.Machine
end

