-- ==== Sys2Proof/Machine/Transfers.lean ====
section
/-!
DEFINITION. Transfers as every engine uses them: pieces and reads in flight, the tracks and channels of a transfer, what
a landing does, and the errors of stored words (R157-R163, R171-R174, R391-R399).
-/

namespace Sys2Proof.Machine

/-! ### Pieces -/

/-- Offsets and lengths of the pieces of n bytes that begin at an address: cut at every 4 KiB boundary (R161). -/
def pieceCuts : Nat → Nat → Nat → Nat → List (Nat × Nat)
  | 0, _, _, _ => []
  | fuel + 1, a, i, n =>
    if n = 0 then []
    else
      let k := min n (4096 - a % 4096)
      (i, k) :: pieceCuts fuel (a + k) (i + k) (n - k)
def cutsOf (a n : Nat) : List (Nat × Nat) := pieceCuts (n / 4096 + 2) a 0 n

/-- The word of a device address (Table 7.2). -/
def DevAddr.word (a : DevAddr) : Nat := a.off + a.core * 2 ^ 52 + a.space * 2 ^ 60

/-- A piece of a command that is about to be issued: the device address and the flat address it goes to, its bytes, the
addresses they come from where that is GDDR7, and else the first uncorrectable source byte. -/
structure Part where
  dst  : Nat
  flat : Nat
  data : List Byte
  srcs : List DevAddr := []
  bad  : Option Nat := none
  deriving DecidableEq, Repr

/-- Data for a destination as pieces. -/
def State.piecesFor (s : State) (f : Nat) (dst : DevAddr) (data : List Byte) : List Part :=
  (cutsOf dst.off data.length).map (fun (c : Nat × Nat) =>
    { dst := (dst.plus c.1).word, flat := s.flat f dst c.1, data := (data.drop c.1).take c.2 })

/-- A piece of a command. -/
def Cmd.piece (c : Cmd) (id : Nat) (p : Part) (float : Option Nat) : Piece :=
  { id := id, cid := c.id, fn := c.fn, ctx := c.ctx, epoch := c.epoch, dst := p.flat, data := p.data, addr := p.dst,
    bad := p.bad, float := float }

/-- Bytes that go to the sump (R171). -/
def State.sumpBytes (s : State) (n : Nat) : State := (s.addG 0x6100 1 n).addTerm Term.sumped n
/-- Bytes that are issued to the sump. -/
def State.issueSump (s : State) (n : Nat) : State := (s.addTerm Term.issued n).sumpBytes n
/-- Where the pieces of a command that names the sump go: no memory lies there (R164). -/
def Mem.sump : Nat := 2 ^ 43

/-! ### Channels and tracks -/

/-- The channel of a GDDR7 payload address (R391). -/
def channelOf (a : Nat) : Nat :=
  let page := a / Mem.page
  let pair := a % Mem.page / 128
  if page < 932064 then 8 * (page % 8) + pair % 8 else pair % 64

/-- The channels that n bytes at an address use. -/
def State.channelsOf (s : State) (f : Nat) (a : DevAddr) (n : Nat) : List Nat :=
  if a.space = 2 ∧ n ≠ 0 then
    ((span (a.off / 128) ((a.off + n - 1) / 128 - a.off / 128 + 1)).map
      (fun p => channelOf (s.flat f { a with off := p * 128 } 0))).eraseDups
  else []

/-- The spine tracks of the 256-byte lines of n bytes at an offset: bits [12:8] (R156, R159). -/
def lineTracks (off n : Nat) : List Nat :=
  if n = 0 then [] else ((span (off / 256) (min 32 ((off + n - 1) / 256 - off / 256 + 1))).map (· % 32)).eraseDups

/-- The spine-track and channel calendars of n bytes at an address of a function. -/
def State.landCals (s : State) (f : Nat) (a : DevAddr) (n : Nat) : List Nat :=
  (if a.space = 1 ∨ a.space = 2 then lineTracks a.off n else []).map (calId 20) ++ (s.channelsOf f a n).map (calId 21)

/-! ### Errors of stored words (R157, R392, R395) -/

/-- Where an error of the map lies: the pair of a GDDR7 block, or the 32-byte word of the cistern. -/
def eccUnit (k : Nat) : Nat × Nat := if k < 2 ^ 35 then (k / 2 * 128, 128) else (k * 32, 32)
/-- The word of the error map that a byte lies in: 64-byte GDDR7 blocks, 32-byte cistern words. -/
def eccKey (a : Nat) : Option Nat :=
  if a < Mem.cistern then some (a / 64) else if a < 2 ^ 41 then some (a / 32) else none
/-- An error that the code reports and cannot correct. -/
def State.eccBad (s : State) (e : Nat × Nat) : Bool :=
  if e.1 < 2 ^ 35 then decide (4 - s.eccMode < e.2) else decide (2 ≤ e.2)

/-- A read of n bytes at an address of a function meets an uncorrectable error; the first such byte. -/
def State.readBad (s : State) (f : Nat) (a : DevAddr) (n : Nat) : Option Nat :=
  let bad := (s.ecc.filter s.eccBad).map (·.1)
  if bad.isEmpty || a.space == 15 || a.space == 3 then none
  else (List.range n).find? (fun i => (eccKey (s.flat f a i)).any bad.contains)

/-- An error whose unit n bytes at a flat address touch. -/
def eccTouches (a n : Nat) (e : Nat × Nat) : Bool :=
  let u := eccUnit e.1
  decide (a < u.1 + u.2) && decide (u.1 < a + n)
/-- A write that covers only part of a unit holding an uncorrectable error. -/
def State.partialBad (s : State) (a n : Nat) : Bool :=
  s.ecc.any (fun e => s.eccBad e && eccTouches a n e &&
    !(decide (a ≤ (eccUnit e.1).1) && decide ((eccUnit e.1).1 + (eccUnit e.1).2 ≤ a + n)))
/-- Write bytes at a flat address: the units written are encoded afresh. -/
def State.store (s : State) (a : Nat) (data : List Byte) : State :=
  let t := s.wrN a data
  { t with ecc := t.ecc.filter (fun e => !eccTouches a data.length e) }

/-- An uncorrectable GDDR7 codeword met by a read or write: counted, with its address and source (Table 14.5). -/
def State.countUncorrectable (s : State) (a source : Nat) : State :=
  if a < Mem.cistern then ((s.addG 0x6001 (channelOf a + 1) 1).setG 0x6004 1 a).setG 0x6004 2 source else s

/-- The core of the engine that a command runs on. -/
def Cmd.onCore (c : Cmd) : Nat := (coreOf c.onEngine).getD 0

/-! ### What goes wrong with a piece -/

/-- A piece of a command fails: a radio command delivers nothing and its transport block is failed; of any other
command this piece and the later ones go to the sump (Table 14.4, R162). -/
def State.failPiece (s : State) (p : Piece) (status : Nat) (addr : Nat) : State :=
  match s.cmd? p.cid with
  | none => s
  | some c =>
    let radio := s.modeOf c == 2
    let t := s.sumpWhere (fun q => q.cid == p.cid && (radio || decide (p.id ≤ q.id)) && !q.stx)
    let detail := if radio && c.cls = 9 then s.radioDetail c else [addr % 2 ^ 32, addr / 2 ^ 32 % 2 ^ 32, 0]
    let t := t.modCmd p.cid (fun (d : Cmd) => { d with did := true, status := status, detail := detail })
    if radio then t.failTb c else t

/-- A piece leaves the state: landed or sumped; its command settles. -/
def State.dropPiece (s : State) (p : Piece) : State :=
  ({ s with pieces := s.pieces.filter (fun q => q.id != p.id) }).settle p.cid

/-- A landed piece counts into its float, and into the float ledger (R161, R550). -/
def State.countLanding (s : State) (float : Option Nat) (n : Nat) : State :=
  match float with
  | some f => ((s.addFloat f n).addTerm Term.landed n).addTerm Term.increments n
  | none => s.addTerm Term.floatless n

/-- Bytes that share a pair with a line in the atomic unit wait for its write-back (R426). -/
def State.lineBusy (s : State) (a n : Nat) : Bool :=
  s.atomics.any (fun e => decide (e.1 / 128 * 128 < a + n) && decide (a < e.1 / 128 * 128 + 128))

/-- An uncorrectable cistern word met by a command is a hardware error of its engine (R157, Table 21.2). -/
def State.raiseCistern (s : State) (p : Piece) (addr : Nat) : State :=
  match s.cmd? p.cid with
  | some c => s.raise ErrCode.uncorrectable c.onEngine p.fn addr
  | none => s

/-- What the landing of a piece does (R157, R161, R164, R171, R392). -/
def State.landPiece (s : State) (p : Piece) : State :=
  let n := p.data.length
  if p.sump || (s.ctx p.ctx).epoch != p.epoch then (s.sumpBytes n).dropPiece p
  else
    match p.bad with
    | some a => (((s.raiseCistern p a).failPiece p Status.eccUncorrectable a).sumpBytes n).dropPiece p
    | none =>
      if Mem.sump ≤ p.dst then (s.sumpBytes n).dropPiece p
      else if s.partialBad p.dst n then
        let t := if p.dst < Mem.cistern then s.countUncorrectable p.dst 1 else s.raiseCistern p p.addr
        ((t.failPiece p Status.eccUncorrectable p.addr).sumpBytes n).dropPiece p
      else ((s.store p.dst p.data).countLanding p.float n).dropPiece p

/-! ### Reads -/

/-- A block that a transfer reads: its flat address, the device address of the first byte wanted, and the bytes wanted: their
numbers in what is read, and their places in the block. -/
structure Block where
  flat  : Nat
  addr  : DevAddr
  bytes : List (Nat × Nat)
  deriving DecidableEq, Repr
/-- The 64-byte blocks that some source addresses of a function lie in, in the order in which they are met (R172). -/
def State.blocksAt (s : State) (f : Nat) (srcs : List DevAddr) : List Block :=
  let l := srcs.zipIdx.map (fun (e : DevAddr × Nat) => (s.flat f e.1 0, e))
  ((l.map (fun e => e.1 / 64)).eraseDups).filterMap (fun b =>
    let mine := l.filter (fun e => e.1 / 64 == b)
    mine.head?.map (fun e => { flat := 64 * b, addr := e.2.1, bytes := mine.map (fun x => (x.2.2, x.1 % 64)) }))

/-- A block holds an error that the code cannot correct. -/
def State.blockBad (s : State) (flat : Nat) : Bool := s.ecc.any (fun e => s.eccBad e && e.1 == flat / 64)

/-- How a transfer is timed: L_max of its reads and of its landing in core cycles, bytes that it moves in a core cycle, and
whether Table 6.3 has its requester (Tables 6.2 and 6.3). -/
structure Pace where
  read  : Nat := 0
  land  : Nat := 0
  rate  : Nat := 256
  timed : Bool := true
  deriving DecidableEq, Repr

/-- Issue reads of blocks after a request that says what they share: each at the core cycle in which the transfer reaches it,
those that reserve a bucket entry at most one in every two core cycles of a channel (R172). `slots` holds the next such
cycle of each channel. Also the time of the last issue. -/
def State.askBlocks (s : State) (q : ReadReq) (rate : Nat) (slots : SMap Nat) (last : Nat) : List Block → State × SMap Nat × Nat
  | [] => (s, slots, last)
  | b :: l =>
    let ch := channelOf b.flat
    let want := q.issue + (b.bytes.map (·.1)).headD 0 / rate
    let at' := if q.bucket then max want (SMap.get (fun _ => 0) slots ch) else want
    let r : ReadReq := { q with id := s.nextId, chan := ch, issue := at', src := b.flat, addr := b.addr.word,
                                bytes := b.bytes, bad := s.blockBad b.flat, mode := s.eccMode }
    ({ s with reads := s.reads ++ [r], nextId := s.nextId + 1 } : State).askBlocks q rate
      (SMap.set (fun _ => 0) slots ch (at' + 2)) (max last at') l

/-- The request that the reads of a command share. -/
def State.readOf (s : State) (c : Cmd) (lmax : Nat) : ReadReq :=
  { id := 0, cid := c.id, fn := c.fn, ctx := c.ctx, issue := s.clock, lmax := lmax, bucket := s.fixedTimes c }

/-- Issue the pieces of a command, the first of them `off` bytes and `idx` pieces into it, with the reads of those that come
from GDDR7; the bytes count as issued (R161, R172, R550). In a radio or exact interval each piece lands at a fixed time: that
of its last read or byte, and its latencies (R162, R173). -/
def State.issueFrom (s : State) (c : Cmd) (pace : Pace) (float : Option Nat) (slots : SMap Nat) (off idx : Nat) : List Part → State
  | [] => s
  | p :: l =>
    let id := s.nextId
    let q : ReadReq := { s.readOf c pace.read with piece := some id, issue := s.clock + off / pace.rate }
    let r := ({ s with nextId := s.nextId + 1 } : State).askBlocks q pace.rate slots
      (s.clock + cdiv (off + p.data.length) pace.rate - 1) (s.blocksAt c.fn p.srcs)
    let due := if s.fixedTimes c && pace.timed then r.2.2 + pace.read + pace.land else 0
    let t : State := { r.1 with pieces := r.1.pieces ++ [{ c.piece id p float with idx := idx, due := due }] }
    (t.addTerm Term.issued p.data.length).issueFrom c pace float r.2.1 (off + p.data.length) (idx + 1) l

/-- Latency from issue to landing of a write by a spine-die requester or a core pump (Table 6.3). -/
def landLatency (core : Bool) (space : Nat) : Nat :=
  if space = 2 then (if core then 212 else 200) else if space = 1 then (if core then 36 else 24) else 0

/-- Write data to a destination of a command as pieces. A radio engine's lands at the times of Table 6.3. -/
def State.emitData (s : State) (c : Cmd) (float : Option Nat) (dst : DevAddr) (data : List Byte) : State :=
  s.issueFrom c { land := landLatency false dst.space, timed := c.cls == 9 } float [] 0 0 (s.piecesFor c.fn dst data)

/-- A read leaves the state; its command settles. -/
def State.dropRead (s : State) (r : ReadReq) : State :=
  ({ s with reads := s.reads.filter (fun q => q.id != r.id) }).settle r.cid
/-- Bytes of a piece replaced by those of a miscorrected block. -/
def patchBytes (block : List Byte) : List (Nat × Nat) → List Byte → List Byte
  | [], data => data
  | e :: l, data => patchBytes block l (data.set e.1 (block.getD e.2 0))
/-- A read is presented to its requester: it leaves its bytes in its piece, or waits there until its requester takes its
data; to a command that is over nothing is presented. -/
def State.presentRead (s : State) (r : ReadReq) : State :=
  match r.piece with
  | some id =>
    let t : State := { s with reads := s.reads.filter (fun q => q.id != r.id) }
    match r.wrong with
    | some b => { t with pieces := t.pieces.map (fun (p : Piece) => if p.id = id then { p with data := patchBytes b r.bytes p.data } else p) }
    | none => t
  | none =>
    if (s.cmd? r.cid).any (fun c => c.phase == Phase.running) then
      { s with reads := s.reads.map (fun (q : ReadReq) => if q.id = r.id then { q with shown := true, wrong := r.wrong } else q) }
    else s.dropRead r

/-- The presented reads of a command, or of a channel-core thread. -/
def State.shownOf (s : State) (cid : Nat) (thread : Option (Nat × Nat)) : List ReadReq :=
  s.reads.filter (fun r => r.cid == cid && r.piece.isNone && r.shown && r.thread == thread)
/-- Blocks in place of what memory holds. -/
def State.overlay (s : State) : List ReadReq → State
  | [] => s
  | r :: l => ((r.wrong.elim s (s.wrN r.src)).overlay l)
/-- Memory as the presented reads of a requester brought it: a miscorrected block in the place of its block, and no error in
any. -/
def State.asSeen (s : State) (cid : Nat) (thread : Option (Nat × Nat)) : State :=
  let l := s.shownOf cid thread
  let t := s.overlay l
  { t with ecc := t.ecc.filter (fun e => !l.any (fun r => r.src / 64 == e.1)) }
/-- Its data taken, a read is gone. -/
def State.takeReads (s : State) (cid : Nat) (thread : Option (Nat × Nat)) : State :=
  { s with reads := s.reads.filter (fun r => !(r.cid == cid && r.piece.isNone && r.shown && r.thread == thread)) }
/-- Reads of a command without a piece that have still to be presented. -/
def State.reading (s : State) (cid : Nat) (thread : Option (Nat × Nat)) : Bool :=
  s.reads.any (fun r => r.cid == cid && r.piece.isNone && !r.shown && r.thread == thread)

/-- Pieces that were never issued after all, with their reads (R163). -/
def State.unissue (s : State) (gone : List Piece) : State :=
  let ids := gone.map (·.id)
  let t : State := { s with pieces := s.pieces.filter (fun p => !ids.contains p.id)
                            reads := s.reads.filter (fun r => !r.piece.any ids.contains) }
  t.setTerm Term.issued (t.term Term.issued - (gone.map (fun p => p.data.length)).sum)
/-- A pump command is stopped at a piece boundary: of its pieces in flight a free number were issued, which land, or go to
the sump; the others never were (R163, R362; log entry 83). -/
def State.cutPieces (s : State) (cid : Nat) (sump : Bool) : State :=
  let ps := s.pieces.filter (fun p => p.cid == cid && !p.stx && (sump || !p.sump))
  if ps.isEmpty then s
  else
    let t := s.fresh.2.unissue (ps.drop (s.fresh.1 % (ps.length + 1)))
    if sump then t.sumpWhere (fun p => p.cid == cid && !p.stx) else t

/-- The data of a miscorrected codeword: free bytes. -/
def freeBytes (seed n : Nat) : List Byte := (List.range n).map (fun i => BitVec.ofNat 8 (Config.free (seed + i)))

/-! ### The float that a record names -/

/-- The float of W9 of a pump, serving or fabric record (Tables 7.8, 7.12, 7.14). -/
def State.float9 (s : State) (c : Cmd) : Except Refused (Option Nat) := s.floatArg c ((c.w 9).bit 16) ((c.w 9).fld 0 16)
/-- The float of W12 of a radio record (Table 7.14). -/
def State.float12 (s : State) (c : Cmd) : Except Refused (Option Nat) := s.floatArg c ((c.w 12).bit 16) ((c.w 12).fld 0 16)

/-- An address of a record that must lie in its function's range. -/
def State.needAddr (s : State) (c : Cmd) (i : Nat) (a : DevAddr) (n : Nat) : Except Refused Unit :=
  ensure (s.addrOk c.fn a n) Status.addressInvalid (wd64 c.words i)

/-! ### The own effect of a command -/

/-- What reading an uncorrectable word at a device address of a command's function counts and raises (R157, R398). -/
def State.noteBad (s : State) (c : Cmd) (e : Refused) : State :=
  let a := devAddr e.detail
  if e.status ≠ Status.eccUncorrectable then s
  else if a.space = 2 then s.countUncorrectable (s.flat c.fn a 0) 0
  else s.raise ErrCode.uncorrectable c.onEngine c.fn e.detail

/-- DETAIL of a command that fails a check: TB_ID of a radio-engine job, else the failing device address (Table 7.17). -/
def State.failDetail (s : State) (c : Cmd) (e : Refused) : List Nat :=
  if c.cls = 9 then s.radioDetail c else [e.detail % 2 ^ 32, e.detail / 2 ^ 32 % 2 ^ 32, 0]

/-- Perform the own effect of a running command, once: its status and DETAIL come from the effect, a failed check
changes nothing else (R191). Not due for any other command (log entry 5). -/
def State.perform (s : State) (cid : Nat) (is : Cmd → Bool)
    (k : Cmd → State → Except Refused (State × List Nat)) : State :=
  match s.cmd? cid with
  | some c =>
    if s.up && c.phase == .running && !c.did && is c then
      match k c s with
      | .ok (t, d) => t.did cid Status.ok d
      | .error e => (s.noteBad c e).did cid e.status (s.failDetail c e)
    else s
  | none => s

/-- n bytes of a command's function at an address, which no uncorrectable error spoils (R398). -/
def State.needGood (s : State) (c : Cmd) (a : DevAddr) (n : Nat) : Except Refused Unit :=
  match s.readBad c.fn a n with
  | some i => .error ⟨Status.eccUncorrectable, (a.plus i).word⟩
  | none => .ok ()

end Sys2Proof.Machine
end

