-- ==== Sys2Proof/Machine/Matrix.lean ====
section
/-!
DEFINITION. The matrix commands FOLIOS and COMBINE: their checks in the order of R196 and R197, the exact pass (R73-R84,
R92), conversion of results (R82-R93), masks, bound bytes and the activity counters (03, 04, 07).
-/

namespace Sys2Proof.Machine

/-- A failing device address of space 0 as the DETAIL words carry it. -/
def wellAddr (core a : Nat) : Nat := a + core * 2 ^ 52

/-- Bytes of a core's well that a command must be able to address (R152). -/
def State.needWell (s : State) (c : Cmd) (core a n : Nat) : Except Refused Unit :=
  ensure (n == 0 || s.wellOk c.fn core a n) Status.addressInvalid (wellAddr core a)

/-! ### Payload fields (Table 7.4) -/

/-- Member arrays of an arrangement (Table 4.2); 0 for a reserved code. -/
def gangSize (gang : Nat) : Nat := [1, 2, 4, 2, 4].getD gang 0
/-- A W-gang splits rows. -/
def gangRows (gang : Nat) : Bool := gang == 1 || gang == 2

/-- The calendars of the arrays that a matrix command on an engine occupies; none for a member set outside Table 4.2
(R99, R110). -/
def gangMembers (c : Cmd) (id : Nat) : Option (List Nat) :=
  if c.cls = 0 ∧ c.form = 0 then
    let g := gangSize ((c.w 4).fld 0 3)
    if g = 0 ∨ calInst id % g ≠ 0 then none else some (span id g)
  else some [id]

/-- The engines that a command occupies. -/
def membersOf (c : Cmd) (id : Nat) : List Nat := (gangMembers c id).getD [id]

/-- One folio table entry (Table 7.5). -/
structure Folio where
  m : Nat
  n : Nat
  kt : Nat
  kp : Nat
  pidx : Nat
  aAddr : Nat
  bAddr : Nat
  aScale : Nat
  bScale : Nat
  out : Nat
  row0 : Nat
  col0 : Nat
  bias : Nat
  bound : Nat
  reservedOk : Bool
  deriving DecidableEq, Repr

/-- The entry that twelve words spell. -/
def folioOf (w : List W32) : Folio :=
  { m := (wd w 0).fld 0 9, n := (wd w 0).fld 9 9, kt := (wd w 1).fld 0 24, kp := (wd w 2).fld 0 17,
    pidx := (wd w 2).fld 17 15, aAddr := (wd w 3).fld 0 21, bAddr := (wd w 4).fld 0 21,
    aScale := (wd w 5).fld 0 21, bScale := (wd w 6).fld 0 21, out := (wd w 7).fld 0 21,
    row0 := (wd w 8).toNat, col0 := (wd w 9).toNat, bias := (wd w 10).fld 0 21, bound := (wd w 11).fld 0 21,
    reservedOk := bitsInside w [0x3FFFF, 0xFFFFFF, 0xFFFFFFFF, 0x1FFFFF, 0x1FFFFF, 0x1FFFFF, 0x1FFFFF, 0x1FFFFF,
      0xFFFFFFFF, 0xFFFFFFFF, 0x1FFFFF, 0x1FFFFF] }

/-- The pairing class of two formats (Tables 3.2 and 4.1): 0 4-bit, 1 8-bit, 2 16-bit, 3 complex. -/
def pairing (a b : Nat) : Option Nat :=
  let eight (x : Nat) : Bool := x == 3 || x == 4 || isMx x
  if a = 0x0E ∧ b = 0x0E then some 3
  else if (a = 1 ∨ a = 2) ∧ (b = 1 ∨ b = 2) then some 2
  else if (a = 0x0C ∧ b = 0x0C) ∨ (a = 6 ∧ b = 6) then some 0
  else if eight a ∧ eight b then some 1
  else if (a = 5 ∧ (b = 5 ∨ b = 6)) ∨ (a = 6 ∧ b = 5) then some 1
  else none

/-- Both operands are unscaled integers (R69). -/
def integerPass (a b : Nat) : Bool := isInt a && isInt b

/-- The output formats of a pairing (Table 3.1, R69, R93). -/
def outputOk (a b out : Nat) : Bool :=
  if a = 0x0E then out == 0x0E || out == 0x0F || out == 0x10
  else decide (out ≤ 4) || (out == 7 && integerPass a b)

/-- An operand that carries a scale or bound stream. -/
def scaledOp (fmt : Nat) (bnd : Bool) : Bool := isMx fmt || bnd

/-- The rows and columns of one member (R100). -/
def memberShape (gang m n : Nat) : Nat × Nat :=
  if gangSize gang ≤ 1 then (m, n)
  else if gangRows gang then (cdiv m (gangSize gang), n) else (m, cdiv n (gangSize gang))

/-- The folio limits of Table 4.2. -/
def folioLimits (gang df m n : Nat) : Bool :=
  let g := gangSize gang
  if df = 0 then
    if gangRows gang then decide (m ≤ 64 * g) && decide (n ≤ 64) else decide (m ≤ 64) && decide (n ≤ 64 * g)
  else
    let p := memberShape gang m n
    decide (p.1 ≤ 64) && decide (p.1 * p.2 ≤ 4096)

/-- The passes of a folio: first K element and length (Table 7.5, R116). -/
def passesOf (f : Folio) : List (Nat × Nat) :=
  if f.kt = 0 ∨ f.m = 0 ∨ f.n = 0 then [(0, 0)]
  else (List.range (cdiv f.kt f.kp)).map (fun q => (q * f.kp, min f.kp (f.kt - q * f.kp)))

/-- Bytes of k packed elements. -/
def packed (fmt k : Nat) : Nat := cdiv (k * fmtBits fmt) 8

/-- The checks of one folio table entry (R196 step 5). -/
def State.checkFolio (s : State) (c : Cmd) (core : Nat) (f : Folio) : Except Refused Unit := do
  let fa := (c.w 4).fld 12 5
  let fb := (c.w 4).fld 17 5
  let out := (c.w 4).fld 22 5
  let sa := scaledOp fa ((c.w 11).bit 6)
  let sb := scaledOp fb ((c.w 11).bit 7)
  let most := if fa = 0x0E then 32768 else 65536
  ensure f.reservedOk Status.reservedNonzero
  ensure (decide (f.m ≤ 256) && decide (f.n ≤ 256) && decide (1 ≤ f.kp) && decide (f.kp ≤ 65536) &&
    (!(sa || sb) || f.kp % 32 == 0) && decide (min f.kp f.kt ≤ most)) Status.shapeInvalid
  ensure (folioLimits ((c.w 4).fld 0 3) ((c.w 4).fld 3 1) f.m f.n) Status.shapeInvalid
  if f.m ≠ 0 ∧ f.n ≠ 0 then
    let blocks := cdiv f.kt 32
    if f.kt ≠ 0 then
      s.needWell c core f.aAddr ((f.m - 1) * (c.w 8).fld 0 21 + packed fa f.kt)
      s.needWell c core f.bAddr ((f.n - 1) * (c.w 9).fld 0 21 + packed fb f.kt)
    s.needWell c core f.aScale (if sa then f.m * blocks else 0)
    s.needWell c core f.bScale (if sb then f.n * blocks else 0)
    s.needWell c core f.out ((f.m - 1) * (c.w 10).fld 0 21 + f.n * fmtBytes out)
    s.needWell c core f.bias (if (c.w 4).bit 29 then 4 * f.n else 0)
    s.needWell c core f.bound (if (c.w 4).bit 28 then f.m * cdiv f.n 32 else 0)

/-- The folio table of a command. -/
def State.folioTable (s : State) (c : Cmd) (core : Nat) : List Folio :=
  (List.range ((c.w 4).fld 4 8 + 1)).map (fun i => folioOf (s.rdWords (Mem.well core + (c.w 5).fld 0 21 + 48 * i) 12))

/-- Every check of a FOLIOS command before its first pass, in the order of R196. -/
def State.checkFolios (s : State) (c : Cmd) (id : Nat) : Except Refused (List Folio) := do
  let core := (coreOf id).getD 0
  let fa := (c.w 4).fld 12 5
  let fb := (c.w 4).fld 17 5
  let out := (c.w 4).fld 22 5
  let half (x : Nat) : Bool := x == 1 || x == 2
  ensure (gangMembers c id).isSome Status.shapeInvalid
  ensure ((pairing fa fb).isSome && outputOk fa fb out) Status.formatUnsupported
  ensure ((!(c.w 11).bit 6 || half fa) && (!(c.w 11).bit 7 || half fb) && (!(c.w 4).bit 28 || half out)) Status.formatUnsupported
  ensure (!(out == 0x0E || out == 0x0F) || decide ((c.w 11).fld 0 6 ≤ 47)) Status.shapeInvalid
  ensure ((c.w 5).fld 0 21 % 16 == 0) Status.shapeInvalid
  let nf := (c.w 4).fld 4 8 + 1
  s.needWell c core ((c.w 5).fld 0 21) (48 * nf)
  s.needWell c core ((c.w 6).fld 0 21) (if (c.w 4).bit 30 then 32 * nf else 0)
  s.needWell c core ((c.w 7).fld 0 21) (if (c.w 4).bit 31 then 32 * nf else 0)
  let fs := s.folioTable c core
  fs.forM (s.checkFolio c core)
  .ok fs

/-! ### The exact pass -/

/-- One operand vector over the whole reduction: its elements, the block exponents (R74), and whether an element
exceeded its bound (R72). -/
structure OperandVec where
  elems : List Num
  exps : List Int
  exceeds : Bool
  deriving DecidableEq, Repr

/-- Element k of a packed row: its bits start at bit k × width of the lowest byte (R70). -/
def State.packedAt (s : State) (base fmt k : Nat) : Nat :=
  let b := fmtBits fmt
  fld (s.rdNat (base + k * b / 8) (cdiv (k * b % 8 + b) 8)) (k * b % 8) b

/-- An element under its block's scale or bound byte (R70-R72). -/
def operandElem (fmt : Nat) (bnd : Bool) (scale : Nat) (bits : Nat) : Num × Bool :=
  let x := decodeElem fmt bits
  if isMx fmt then
    if scale = 0xFF then (.nan, false)
    else match x with
      | .fin n m e => (.fin n m (e + scale - 127), false)
      | y => (y, false)
  else if fmt = 1 ∨ fmt = 2 then
    let b : Int := if bnd ∧ scale ≠ 0xFF then (scale : Int) - 127 else elemBound fmt
    match x with
    | .fin n m e => if m ≠ 0 ∧ b < numLog2 m e then (.nan, true) else (.fin n m e, false)
    | y => (y, false)
  else (x, false)

/-- The block exponent e(β) of a scale or bound byte (R74). -/
def blockExp (fmt : Nat) (bnd : Bool) (scale : Nat) : Int :=
  if isMx fmt then (scale : Int) - 127 + elemBound fmt
  else if bnd ∧ scale ≠ 0xFF then (scale : Int) - 127 else elemBound fmt

/-- Read one row of A or column of B. -/
def State.operandVec (s : State) (well base scale fmt kt : Nat) (bnd : Bool) : OperandVec :=
  let has := scaledOp fmt bnd
  let sb (blk : Nat) : Nat := if has then (s.rd (well + scale + blk)).toNat else 0xFF
  let es := (List.range kt).map (fun k => operandElem fmt bnd (sb (k / 32)) (s.packedAt (well + base) fmt k))
  { elems := es.map (·.1), exps := (List.range (cdiv kt 32)).map (fun b => blockExp fmt bnd (sb b)),
    exceeds := es.any (·.2) }

/-- An accumulator with its three sticky flags NAN, PINF and NINF (R77, R79). -/
structure Accum where
  sum  : Int := 0
  nan  : Bool := false
  pinf : Bool := false
  ninf : Bool := false
  deriving DecidableEq, Repr

/-- One product into the accumulator, rounded to the grid step 2^u (R76, Table 3.4). -/
def Accum.step (u : Int) (acc : Accum) (x y : Num) : Accum :=
  match x.mul y with
  | .nan => { acc with nan := true }
  | .inf n => if n then { acc with ninf := true } else { acc with pinf := true }
  | .fin n m e => let k : Int := roundMag none m e u
                  { acc with sum := acc.sum + (if n then -k else k) }

/-- The products of a pass. -/
def Accum.run (u : Int) : Accum → List Num → List Num → Accum
  | acc, x :: xs, y :: ys => (acc.step u x y).run u xs ys
  | acc, _, _ => acc

/-- The pass value (R80). -/
def Accum.value (u : Int) (a : Accum) : Num :=
  if a.nan || (a.pinf && a.ninf) then .nan
  else if a.pinf then .inf false
  else if a.ninf then .inf true
  else .fin (decide (a.sum < 0)) a.sum.natAbs u

/-- The largest of block exponents. -/
def maxExp : List Int → Int
  | [] => 0
  | e :: es => es.foldl max e

/-- The slice of a vector that a pass reads. -/
def passSlice {α : Type} (p : Nat × Nat) (l : List α) : List α := (l.drop p.1).take p.2

/-- The grid step's exponent A - 63 of a pass (R74, R76). -/
def passStep (a b : OperandVec) (p : Nat × Nat) : Int :=
  let blocks (v : OperandVec) : Int := maxExp ((v.exps.drop (p.1 / 32)).take (cdiv (p.1 + p.2) 32 - p.1 / 32))
  blocks a + blocks b + 1 - 63

/-- The accumulator of one output over one real pass. -/
def realPass (a b : OperandVec) (p : Nat × Nat) : Accum :=
  ({} : Accum).run (passStep a b p) (passSlice p a.elems) (passSlice p b.elems)

/-- The integer that a number without fraction holds. -/
def Num.toInt : Num → Int
  | .fin n m e => roundInt none n m e
  | _ => 0

/-! ### Results (R82-R93) -/

/-- Combine pass values in collation order after the first (R82): `ds` are the draws of round32 and of the addition. -/
def combineFrom (r : Num) : List (Num × Option Nat × Option Nat) → Num
  | [] => r
  | (v, d0, d1) :: l => combineFrom (round32 d1 (r.add (round32 d0 v))) l

/-- The float result of a reduction (R82): draws are functions of the position and the purpose. -/
def floatResult (fmt : Nat) (sat : Bool) (vs : List Num) (bias : Num) (draw : Nat → Nat → Option Nat) (lastPos : Nat) : Nat :=
  match floatFmt fmt, vs with
  | some f, [v] => encodeFloat f sat (draw lastPos 2) (v.add bias)
  | some f, v :: rest =>
    let tail := rest.zipIdx.map (fun (e : Num × Nat) => (e.1, draw (e.2 + 1) 0, draw (e.2 + 1) 1))
    encodeFloat f sat (draw lastPos 2) ((combineFrom (round32 (draw 0 0) v) tail).add bias)
  | _, _ => 0

/-- A saturating sum of 32-bit partials in collation order (R90, R93). -/
def satSum : List Int → Int
  | [] => 0
  | v :: l => l.foldl (fun r x => saturate 32 (r + x)) (saturate 32 v)

/-- INT32 conversion of a reduction (R90). -/
def intResult (vs : List Int) (bias : Option Num) (draw : Option Nat) : Nat :=
  let r := satSum vs
  match bias with
  | none => unsgn 32 r
  | some b => unsgn 32 (numToInt 32 draw ((Num.ofInt r).add b))

/-- One component of a cint16 reduction to cint16 or cint32: of two passes or more each value is held as a 32-bit partial
first (R93). -/
def cintResult (width shift : Nat) (vs : List Int) : Nat :=
  match vs with
  | [v] => unsgn width (saturate width (shiftRne shift v))
  | _ => unsgn width (saturate width (shiftRne shift (satSum (vs.map (saturate 32)))))

/-- I and Q of a cint16 word (R91). -/
def cintI (w : Nat) : Int := sgn 16 w
def cintQ (w : Nat) : Int := sgn 16 (w / 2 ^ 16)

/-- The exact complex sums of a cint16 pass (R92). -/
def cintPass (conj : Bool) (xs ys : List Nat) : Int × Int :=
  (xs.zip ys).foldl (fun (acc : Int × Int) e =>
    let bi := cintI e.2
    let bq := if conj then -cintQ e.2 else cintQ e.2
    (acc.1 + cintI e.1 * bi - cintQ e.1 * bq, acc.2 + cintI e.1 * bq + cintQ e.1 * bi)) (0, 0)

/-- The output bits of a complex reduction. A bias adds nothing to a complex output, and cFP32 rounds every step to nearest
even whatever RM says (R93; DESIGN CHOICE, log entry 79). -/
def complexResult (fmt shift : Nat) (vs : List (Int × Int)) (draw : Nat → Nat → Option Nat) (lastPos : Nat) : Nat :=
  let i := vs.map (·.1)
  let q := vs.map (·.2)
  if fmt = 0x0E then cintResult 16 shift i + cintResult 16 shift q * 2 ^ 16
  else if fmt = 0x0F then cintResult 32 shift i + cintResult 32 shift q * 2 ^ 32
  else floatResult 0 false (i.map Num.ofInt) Num.zero draw lastPos +
    floatResult 0 false (q.map Num.ofInt) Num.zero draw lastPos * 2 ^ 32

/-! ### FOLIOS -/

/-- Bit i of a mask of a folio (R113): bit i mod 8 of byte i / 8, the order of R125 (DESIGN CHOICE, log entry 79). -/
def State.maskBit (s : State) (on : Bool) (well base i : Nat) : Bool :=
  on && fld (s.rd (well + base + i / 8)).toNat (i % 8) 1 == 1

/-- One output of a folio; RM draws for real passes only (log entry 79). -/
def folioOutput (c : Cmd) (seed : Nat) (f : Folio) (i j : Nat) (a b : OperandVec) (ca cb : List Nat) (bias : Option Num) : Nat :=
  let fa := (c.w 4).fld 12 5
  let fb := (c.w 4).fld 17 5
  let out := (c.w 4).fld 22 5
  let ps := passesOf f
  let lastPos := ps.length - 1
  let draw (pos purpose : Nat) : Option Nat := srDraw c.rm seed (f.row0 + i) (f.col0 + j) (f.pidx + pos) purpose
  if fa = 0x0E then
    complexResult out ((c.w 11).fld 0 6)
      (ps.map (fun p => cintPass (c.w 4 |>.bit 27) (passSlice p ca) (passSlice p cb)))
      (fun _ _ => none) lastPos
  else
    let vs := ps.map (fun p => (realPass a b p).value (passStep a b p))
    if integerPass fa fb ∧ out = 7 then
      intResult (vs.map Num.toInt) bias (if c.rm then draw lastPos 2 else none)
    else floatResult out c.satf vs (bias.getD Num.zero) draw lastPos

/-- Write the outputs of a folio, row by row; masked outputs keep their contents (R113). -/
def State.writeOutputs (s : State) (base width : Nat) : List (Nat × Option Nat) → State
  | [] => s
  | (off, some v) :: l => (s.wrN (base + off) (leBytes width v)).writeOutputs base width l
  | (_, none) :: l => s.writeOutputs base width l

/-- Bound bytes of every output row (R71). -/
def State.writeBounds (s : State) (well fmt out pitch n bound : Nat) : List Nat → State
  | [] => s
  | i :: l =>
    let row (blk : Nat) : List Num := (span (32 * blk) (min 32 (n - 32 * blk))).map
      (fun j => decodeElem fmt (s.rdNat (well + out + i * pitch + j * 2) 2))
    let bs := (List.range (cdiv n 32)).map (fun blk => boundByte (row blk))
    (s.wrN (well + bound + i * cdiv n 32) bs).writeBounds well fmt out pitch n bound l

/-- Product cell-steps of a folio and all its cell-steps (R117). -/
def cellSteps (c : Cmd) (f : Folio) (rows cols : Nat) : Nat × Nat :=
  let cls := (pairing ((c.w 4).fld 12 5) ((c.w 4).fld 17 5)).getD 1
  let per := if cls = 0 then 2 else 1
  let span := if cls = 0 then 128 else 64
  let gang := (c.w 4).fld 0 3
  let na := (memberShape gang f.m f.n).2
  (passesOf f).foldl (fun (acc : Nat × Nat) p =>
    let steps := cdiv p.2 per
    (acc.1 + rows * cols * steps,
     acc.2 + gangSize gang * 4096 * (if (c.w 4).fld 3 1 = 0 then steps else na * cdiv p.2 span))) (0, 0)

/-- The accumulator entry of an output: member array and entry 64 × r + s, or N_a × i + j (R103, R106). -/
def accEntry (c : Cmd) (f : Folio) (i j : Nat) : Nat :=
  let gang := (c.w 4).fld 0 3
  let p := memberShape gang f.m f.n
  let g := gangSize gang
  let member := if g ≤ 1 then 0 else if gangRows gang then i / max p.1 1 else j / max p.2 1
  let r := i - (if gangRows gang then member * p.1 else 0)
  let q := j - (if gangRows gang ∨ g ≤ 1 then 0 else member * p.2)
  (calInst c.onEngine % 4 + member) * 4096 + (if (c.w 4).fld 3 1 = 0 then 64 * r + q else p.2 * r + q)

/-- The 96 accumulator bits of an output's last pass (R77, R92). -/
def accBits (c : Cmd) (f : Folio) (a b : OperandVec) (ca cb : List Nat) : BitVec 96 × BitVec 3 :=
  let p := (passesOf f).getLastD (0, 0)
  if (c.w 4).fld 12 5 = 0x0E then
    let v := cintPass (c.w 4 |>.bit 27) (passSlice p ca) (passSlice p cb)
    (BitVec.ofNat 96 (unsgn 48 v.1 + unsgn 48 v.2 * 2 ^ 48), 0)
  else
    let x := realPass a b p
    (BitVec.ofNat 96 (unsgn 96 x.sum), BitVec.ofNat 3 (x.nan.toNat + 2 * x.pinf.toNat + 4 * x.ninf.toNat))

/-- The member arrays of a command on its core, as positions 0 to 3. -/
def memberArrays (c : Cmd) : List Nat := span (calInst c.onEngine % 4) (max 1 (gangSize ((c.w 4).fld 0 3)))

/-- The accumulators and flags of some arrays clear (R79). -/
def Core.clearArrays (x : Core) (arrays : List Nat) : Core :=
  { x with acc := x.acc.filter (fun p => !arrays.contains (p.1 / 4096)), flags := x.flags.filter (fun p => !arrays.contains (p.1 / 4096)) }

/-- A pass leaves the accumulators and flags of its outputs in the stores of its arrays; every other entry of them is
clear since the pass started (R79, R104). -/
def State.setAccs (s : State) (core : Nat) (arrays : List Nat) (l : List (Nat × BitVec 96 × BitVec 3)) : State :=
  s.modCore core (fun x => l.foldl (fun (y : Core) e =>
    { y with acc := SMap.set (fun _ => 0) y.acc e.1 e.2.1, flags := SMap.set (fun _ => 0) y.flags e.1 e.2.2 }) (x.clearArrays arrays))

/-! #### Activation loads (R105) -/

/-- L_K and the elements of a cell of a pairing class (Table 4.1). -/
def spanLen (cls : Nat) : Nat := if cls = 0 then 128 else 64
def cellElems (cls : Nat) : Nat := if cls = 0 then 2 else 1

/-- The activation loads of a folio in activation-stationary flow: first K element and length of each span. -/
def loadsOf (cls : Nat) (f : Folio) : List (Nat × Nat) :=
  (passesOf f).flatMap (fun p => (List.range (cdiv p.2 (spanLen cls))).map (fun j =>
    (p.1 + j * spanLen cls, min (spanLen cls) (p.2 - j * spanLen cls))))

/-- The element bits of operand A that cell (r, q) of a member takes in a load; 0, a bubble, where the load has none. -/
def State.actBits (s : State) (c : Cmd) (f : Folio) (well cls row : Nat) (p : Nat × Nat) (q : Nat) : Nat :=
  let fa := (c.w 4).fld 12 5
  let n := cellElems cls
  let base := well + f.aAddr + row * (c.w 8).fld 0 21
  (List.range n).foldl (fun v e => if n * q + e < p.2 then v + s.packedAt base fa (p.1 + n * q + e) * 2 ^ (fmtBits fa * e) else v) 0

/-- One load of a member array: it fills the idle activation registers, which then become the active ones. `rows` are its
cell rows with the folio rows that they take. -/
def State.loadAct (s : State) (c : Cmd) (f : Folio) (core well cls array : Nat) (rows : List (Nat × Nat)) (p : Nat × Nat) : State :=
  s.modCore core (fun (x : Core) =>
    let idle := 1 - SMap.get (fun _ => 0) x.actSel array
    let key := (array * 2 + idle) * 4096
    { x with
      actSel := SMap.set (fun _ => 0) x.actSel array idle
      act := rows.foldl (fun (m : SMap Nat) r => (List.range 64).foldl (fun (m : SMap Nat) q =>
        SMap.set (fun _ => 0) m (key + 64 * r.1 + q) (s.actBits c f well cls r.2 p q)) m)
        (x.act.filter (fun e => e.1 / 4096 != array * 2 + idle)) })

/-- The activation loads of a folio in every member array; masked rows are bubbles (R105, R108, R113). -/
def State.loadActs (s : State) (c : Cmd) (f : Folio) (core well : Nat) (rows : List Nat) : State :=
  let cls := (pairing ((c.w 4).fld 12 5) ((c.w 4).fld 17 5)).getD 1
  let gang := (c.w 4).fld 0 3
  let ma := (memberShape gang f.m f.n).1
  if (c.w 4).fld 3 1 = 0 then s
  else
    (memberArrays c).zipIdx.foldl (fun (t : State) (a : Nat × Nat) =>
      let first := if gangRows gang then a.2 * ma else 0
      let mine := (rows.filter (fun i => decide (first ≤ i) && decide (i < first + ma))).map (fun i => (i - first, i))
      (loadsOf cls f).foldl (fun (t : State) p => t.loadAct c f core well cls a.1 mine p) t) s

/-- Compute one folio and drain it to the well (R82, R95, R104, R113). -/
def State.runFolio (s : State) (c : Cmd) (index : Nat) (f : Folio) : State :=
  let core := c.onCore
  let well := Mem.well core
  let fa := (c.w 4).fld 12 5
  let fb := (c.w 4).fld 17 5
  let out := (c.w 4).fld 22 5
  let rows := (List.range f.m).filter (fun i => !s.maskBit ((c.w 4).bit 30) well ((c.w 6).fld 0 21 + 32 * index) i)
  let cols := (List.range f.n).filter (fun j => !s.maskBit ((c.w 4).bit 31) well ((c.w 7).fld 0 21 + 32 * index) j)
  let nb := cdiv f.kt 32
  let vecA := rows.map (fun i => s.operandVec well (f.aAddr + i * (c.w 8).fld 0 21) (f.aScale + i * nb) fa
    (if fa = 0x0E then 0 else f.kt) ((c.w 11).bit 6))
  let vecB := cols.map (fun j => s.operandVec well (f.bAddr + j * (c.w 9).fld 0 21) (f.bScale + j * nb) fb
    (if fb = 0x0E then 0 else f.kt) ((c.w 11).bit 7))
  let cint (base : Nat) : List Nat := (List.range (if fa = 0x0E then f.kt else 0)).map (fun k => s.rdNat (well + base + 4 * k) 4)
  let cA := rows.map (fun i => cint (f.aAddr + i * (c.w 8).fld 0 21))
  let cB := cols.map (fun j => cint (f.bAddr + j * (c.w 9).fld 0 21))
  let seed := (s.ctx c.ctx).seed
  let pitch := (c.w 10).fld 0 21
  let as' := (rows.zip (vecA.zip cA))
  let bs := (cols.zip (vecB.zip cB))
  let bias (j : Nat) : Option Num :=
    if (c.w 4).bit 29 then some (decodeFloat fp32 (s.rdNat (well + f.bias + 4 * j) 4)) else none
  let outs := as'.flatMap (fun a => bs.map (fun b =>
    (a.1 * pitch + b.1 * fmtBytes out, some (folioOutput c seed f a.1 b.1 a.2.1 b.2.1 a.2.2 b.2.2 (bias b.1)))))
  let accs := as'.flatMap (fun a => bs.map (fun b => (accEntry c f a.1 b.1, accBits c f a.2.1 b.2.1 a.2.2 b.2.2)))
  let exceeds := f.m != 0 && f.n != 0 && (vecA.any (·.exceeds) || vecB.any (·.exceeds))
  let steps := cellSteps c f rows.length cols.length
  let t := ((s.loadActs c f core well rows).writeOutputs (well + f.out) (fmtBytes out) outs).setAccs core (memberArrays c) accs
  let t := if (c.w 4).bit 28 ∧ f.n ≠ 0 then t.writeBounds well out f.out pitch f.n f.bound (List.range f.m) else t
  let t := (t.addG 0x2050 1 steps.1).addG 0x2050 2 (steps.2 - steps.1)
  if exceeds then t.modCmd c.id (fun d => { d with bound := true }) else t

/-- The folios of a command, in folio order. -/
def State.runFolios (s : State) (c : Cmd) (index : Nat) : List Folio → State
  | [] => s
  | f :: fs => (s.runFolio c index f).runFolios c (index + 1) fs

/-- Streaming time D_q of a pass (Table 4.4). -/
def passStream (cls df ma na kq : Nat) : Nat :=
  if df = 0 then (if cls = 0 then cdiv kq 2 else if cls = 2 then 2 * kq else if cls = 3 then 4 * kq else kq)
  else cdiv kq (if cls = 0 then 128 else 64) * max na ma * (if cls = 2 then 2 else if cls = 3 then 4 else 1)

/-- The length T of a command in array cycles (R120): time so far, D of the preceding pass, and whether the first load
is still to come. -/
def matrixTime (cls df gang : Nat) (scaled : Bool) (fs : List Folio) : Nat :=
  let step (f : Folio) (a : Nat × Nat × Bool) (p : Nat × Nat) : Nat × Nat × Bool :=
    let sh := memberShape gang f.m f.n
    if p.2 = 0 then (a.1 + 72, 0, a.2.2)
    else
      let b := if scaled then cdiv (max sh.1 sh.2 * cdiv p.2 32) 64 else 0
      let load := if df = 1 ∧ a.2.2 then sh.1 * (if cls = 2 then 2 else if cls = 3 then 4 else 1) else 0
      let d := passStream cls df sh.1 sh.2 p.2 + load
      let g := if gangSize gang ≤ 1 then 0 else gangSize gang
      (a.1 + 72 + (b - 72 - a.2.1) + d + (if df = 0 then 126 else 70) + g, d, false)
  let r := fs.foldl (fun a f => (passesOf f).foldl (step f) a) ((0, 0, true) : Nat × Nat × Bool)
  match fs.getLast? with
  | some f =>
    let sh := memberShape gang f.m f.n
    if ((passesOf f).getLastD (0, 0)).2 = 0 then r.1 else r.1 + (if df = 0 then sh.1 else cdiv (sh.1 * sh.2) 64)
  | none => r.1

/-- Stall and back-pressure cycles of a command of length T on a number of arrays: none in radio and exact intervals; in a
fill interval a free number of at most one array cycle in sixteen, which stops every member, and of which a free number
holds a bubble in each of its cells (R109, R111, R112, R115, R117, R121). -/
def State.countStalls (s : State) (c : Cmd) (arrays t : Nat) : State :=
  if s.modeOf c = 0 then
    let (v, u) := s.fresh
    let (w, u) := u.fresh
    let stalls := v % (cdiv (t - 72) 16 + 1)
    (u.addG 0x2050 3 (arrays * stalls)).addG 0x2050 2 (arrays * 4096 * (w % (stalls + 1)))
  else s

/-- Run some folios of a command from an index on, with their stalls. -/
def State.foliosPart (s : State) (c : Cmd) (index : Nat) (fs : List Folio) : State :=
  let cls := (pairing ((c.w 4).fld 12 5) ((c.w 4).fld 17 5)).getD 1
  let scaled := scaledOp ((c.w 4).fld 12 5) ((c.w 11).bit 6) || scaledOp ((c.w 4).fld 17 5) ((c.w 11).bit 7)
  (s.runFolios c index fs).countStalls c (memberArrays c).length (matrixTime cls ((c.w 4).fld 3 1) ((c.w 4).fld 0 3) scaled fs)

/-- The effect of FOLIOS: the folios from the one that a preempted command goes on with (R122). -/
def foliosEffect (c : Cmd) (s : State) : Except Refused (State × List Nat) := do
  let fs ← s.checkFolios c c.onEngine
  .ok (s.foliosPart c c.part (fs.drop c.part), [])

/-- FOLIOS (R195). -/
def execFolios (cid : Nat) (s : State) : Host.Outcome State Fault Refusal :=
  .next (s.perform cid (fun c => c.cls == 0 && c.form == 0) foliosEffect)

/-! ### COMBINE (R197) -/

/-- Output formats of a partial format. -/
def combineOut (part out : Nat) : Bool :=
  if part = 0x00 then decide (out ≤ 4)
  else if part = 0x07 then out == 7
  else if part = 0x0F then out == 0x0E || out == 0x0F || out == 0x10
  else part == 0x10 && out == 0x10

/-- The checks of COMBINE. -/
def State.checkCombine (s : State) (c : Cmd) (id : Nat) : Except Refused Unit := do
  let core := (coreOf id).getD 0
  let out := (c.w 4).fld 0 5
  let part := (c.w 4).fld 5 5
  let n := 64 * ((c.w 5).fld 21 11 + 1)
  let srcs := (span 8 ((c.w 4).fld 11 3 + 1)).map c.w
  ensure (combineOut part out) Status.formatUnsupported
  ensure (decide ((c.w 6).fld 21 6 ≤ if out = 0x0E ∨ out = 0x0F then 47 else 0)) Status.shapeInvalid
  ensure (!(c.w 4).bit 10 || part == 0 || part == 7) Status.shapeInvalid
  ensure (srcs.all (fun w => decide (w.fld 21 7 ≤ 95))) Status.shapeInvalid
  ensure (s.floatOf c.fn ((c.w 4).fld 14 16)).isSome Status.floatInvalid
  srcs.forM (fun w => s.needWell c core (w.fld 0 21) (n * fmtBytes part))
  s.needWell c core ((c.w 5).fld 0 21) (n * fmtBytes out)
  s.needWell c core ((c.w 6).fld 0 21) (if (c.w 4).bit 10 then 4 * n else 0)

/-- The drain of a COMBINE may start: FLOAT has reached THRESH. -/
def State.combineReady (s : State) (c : Cmd) : Bool :=
  match s.floatOf c.fn ((c.w 4).fld 14 16) with
  | some f => decide ((c.w 7).toNat ≤ (s.float f).toNat)
  | none => true

/-- One output of a COMBINE from its partials in list order. Under RM = 1 the I and Q of cFP32 partials take the same draws
(R87; DESIGN CHOICE, log entry 79). -/
def combineOutput (c : Cmd) (seed o : Nat) (parts : List Nat) (bias : Option Num) : Nat :=
  let out := (c.w 4).fld 0 5
  let part := (c.w 4).fld 5 5
  let n := parts.length
  let draw (pos purpose : Nat) : Option Nat := srDraw c.rm seed o 0 pos purpose
  let fl (ps : List Nat) (b : Num) (fmt : Nat) : Nat :=
    match ps.map (decodeFloat fp32) with
    | [] => 0
    | v :: rest =>
      let tail := rest.zipIdx.map (fun (e : Num × Nat) => (e.1, draw (e.2 + 1) 0, draw (e.2 + 1) 1))
      match floatFmt fmt with
      | some f =>
        if rest.isEmpty then encodeFloat f c.satf (draw (n - 1) 2) (v.add b)
        else encodeFloat f c.satf (draw (n - 1) 2) ((combineFrom (round32 (draw 0 0) v) tail).add b)
      | none => 0
  if part = 0 then fl parts (bias.getD Num.zero) out
  else if part = 7 then intResult (parts.map (sgn 32)) bias (draw (n - 1) 2)
  else if part = 0x0F then
    let i := satSum (parts.map (sgn 32))
    let q := satSum (parts.map (fun p => sgn 32 (p / 2 ^ 32)))
    if out = 0x10 then
      encodeFloat fp32 false none (Num.ofInt i) + encodeFloat fp32 false none (Num.ofInt q) * 2 ^ 32
    else cintResult (if out = 0x0E then 16 else 32) ((c.w 6).fld 21 6) [i] +
      cintResult (if out = 0x0E then 16 else 32) ((c.w 6).fld 21 6) [q] * 2 ^ (if out = 0x0E then 16 else 32)
  else fl (parts.map (· % 2 ^ 32)) Num.zero 0 + fl (parts.map (· / 2 ^ 32)) Num.zero 0 * 2 ^ 32

/-- The effect of COMBINE. -/
def combineEffect (c : Cmd) (s : State) : Except Refused (State × List Nat) := do
  s.checkCombine c c.onEngine
  let well := Mem.well c.onCore
  let part := fmtBytes ((c.w 4).fld 5 5)
  let out := fmtBytes ((c.w 4).fld 0 5)
  let n := 64 * ((c.w 5).fld 21 11 + 1)
  let srcs := (span 8 ((c.w 4).fld 11 3 + 1)).map (fun i => (c.w i).fld 0 21)
  let seed := (s.ctx c.ctx).seed
  let vals := (List.range n).map (fun o =>
    let bias := if (c.w 4).bit 10 then some (decodeFloat fp32 (s.rdNat (well + (c.w 6).fld 0 21 + 4 * o) 4)) else none
    (o * out, some (combineOutput c seed o (srcs.map (fun a => s.rdNat (well + a + o * part) part)) bias)))
  .ok ((s.writeOutputs (well + (c.w 5).fld 0 21) out vals).countStalls c 1 (72 + srcs.length * ((c.w 5).fld 21 11 + 1)), [])

/-- COMBINE, once FLOAT reaches THRESH (R197). -/
def execCombine (cid : Nat) (s : State) : Host.Outcome State Fault Refusal :=
  .next (s.perform cid (fun c => c.cls == 0 && c.form == 1 && s.combineReady c) combineEffect)

end Sys2Proof.Machine
end

