-- ==== Sys2Proof/Machine/Commands.lean ====
section
/-!
DEFINITION. Windows, records, completions, credits and contexts: WINDOW_WORD_WRITE, RECORD_CONSUME, CREDIT_WRITE,
COMPLETION_WRITE, MODERATION_DELAY_EXPIRY, CONTEXT_OPEN, CONTEXT_CLOSE and CONTEXT_NUMBER_FREED (07).
-/

namespace Sys2Proof.Machine

/-! ### The window (R184-R187, R509, R555, R560) -/

/-- A locked TDI in RUN takes writes only with the T bit (R509). -/
def State.tdiBars (s : State) (f : Nat) (tbit : Bool) : Bool := decide (f < 512) && s.o f 0x9011 1 == 2 && !tbit

/-- A function whose window discards every write: absent, resetting, in D3hot, its ring disabled, or saving sequencer
state (R187, R336, R483, R555). -/
def State.windowShut (s : State) (f : Nat) : Bool :=
  !s.up || !s.present f || s.resetting f || (s.fn f).d3hot || s.o f 0x3010 3 == 0 ||
    s.cores.any (fun e => e.2.saving && s.coreHolder e.1 == f)

/-- One word into a free slot; the slot fills when all 16 words are written (R185). -/
def State.fillWord (s : State) (f k i : Nat) (v : W32) : State :=
  let x := s.slot f k
  let ws := SMap.put i v x.words
  if ws.length = 16 then (s.setSlot f k { st := .filled, words := ws }).modFn f (fun (y : Fn) => { y with nWrite := y.nWrite + 1 })
  else s.setSlot f k { x with words := ws }

/-- WINDOW_WORD_WRITE. -/
def execWindowWordWrite (f k i : Nat) (v : W32) (enables : Nat) (tbit : Bool) (s : State) : Host.Outcome State Fault Refusal :=
  if !isFn f || decide (1024 ≤ k) || decide (16 ≤ i) then .fault .noSuchUnit
  else if !s.powered || !s.visible f then .next s
  else if s.tdiBars f tbit then .next (s.addO f 0x9011 2 1)
  else if s.windowShut f || enables != 15 || decide (s.depth f ≤ k) || decide ((s.slot f k).st ≠ .free) then
    .next (s.addO f 0x3010 0x0A 1)
  else .next (s.fillWord f k i v)

/-! ### Consumption (R186, R190-R194, R179-R182, R51) -/

/-- The open job of a context. -/
def Ctx.openJob (x : Ctx) : Option Job := x.jobs.find? (fun j => !j.closed)

/-- The header checks in the order of R191: the status and DETAIL of the first failure and its number. -/
def State.headerCheck (s : State) (c : Cmd) : Option (Nat × Nat × Nat) :=
  let x := s.ctx c.ctx
  let own := x.fn == c.fn && decide (x.st ≠ .free) && !x.closed
  let classOk :=
    if c.cls = 9 then c.fn == s.radioOwner && x.mode == 2
    else if c.cls = 10 ∧ c.form = 2 then c.fn == s.radioOwner else true
  if !own then some (1, Status.contextInvalid, 0)
  else if (c.w 1).fld 16 16 ≠ x.epoch then some (2, Status.epochStale, 0)
  else if x.st = .faulted then some (3, Status.contextFaulted, 0)
  else if 10 < c.cls then some (4, Status.classInvalid, 0)
  else if formCount c.cls ≤ c.form ∨ !classOk then some (5, Status.accessDenied, 0)
  else if c.cls = 10 ∧ c.form = 3 ∧ s.g 0xA006 1 ≠ c.fn then some (5, Status.resourceHeld, s.g 0xA006 1)
  else if !c.reservedOk then some (6, Status.reservedNonzero, 0)
  else if !c.engineOk then some (7, Status.engineInvalid, 0)
  else if c.js == x.openJob.isSome then some (8, Status.jobInvalid, 0)
  else none

/-- Whether a command's placement is left to the device: DYN of its job's JS record, fill mode only (R181, R192). -/
def State.dynOf (s : State) (c : Cmd) : Bool := (s.jobOf c).any (·.dyn)

/-- The calendars a command may run on (R49, R192): its engine, or with dynamic placement the engines of its class, for a
matrix record those at its array position. -/
def State.candidates (s : State) (c : Cmd) : List Nat :=
  if (engineClasses c.cls c.form).isEmpty then []
  else if s.dynOf c then
    let k := calClass c.engine
    (classCals k).filter (fun id => k != 0 || calInst id % 4 == calInst c.engine % 4)
  else [c.engine]

/-- Unbounded commands are refused where radio or exact work shares an engine they could reach, every member array of a
gang among them (R51). -/
def State.unboundedBarred (s : State) (c : Cmd) : Bool :=
  c.wLen == 0xFFFFFFFF && (s.candidates c).any (fun id => (membersOf c id).any s.radioShared)

/-- Open or close the job that a record names and give the record to it (R179, R181, R182). -/
def State.enterJob (s : State) (c : Cmd) : State × Cmd :=
  let x := s.ctx c.ctx
  let fill := x.mode == 0
  if c.js then
    let j : Job := { num := x.nextJob, closed := c.je, dyn := fill && (c.w 0).bit 26, noil := !fill || (c.w 0).bit 27 }
    ((s.setCtx c.ctx { x with nextJob := x.nextJob + 1, jobs := x.jobs ++ [j] }).countJob c.fn 1, { c with job := j.num })
  else
    match x.openJob with
    | some j =>
      (s.setCtx c.ctx { x with jobs := x.jobs.map (fun i => if i.num = j.num then { i with closed := c.je } else i) },
       { c with job := j.num })
    | none => (s, c)

/-- Submit a record: its header is checked and it joins its job, or it is over at once (R191). A record refused by
checks 1 to 3 belongs to no job; one refused by checks 4 to 8 belongs to the open job. -/
def State.submit (s : State) (f : Nat) (slot trig : Option Nat) (words : List W32) : State :=
  let w0 := wd words 0
  let c : Cmd := { id := s.nextId, fn := f, slot := slot, ctx := w0.fld 8 12, epoch := (wd words 1).fld 16 16,
                   js := w0.bit 20, je := w0.bit 21, words := words, trig := trig }
  let t : State := { s with nextId := s.nextId + 1 }
  match s.headerCheck c with
  | some (n, status, detail) =>
    let open' := (s.ctx c.ctx).openJob
    let joins := decide (4 ≤ n) && open'.isSome
    let d : Cmd := { c with phase := .ended, did := true, status := status,
                            detail := if c.cls = 9 then t.radioDetail c else [detail, 0, 0]
                            jobbed := joins, job := if joins then (open'.map (·.num)).getD 0 else 0 }
    { t with cmds := t.cmds ++ [d] }
  | none =>
    let r := t.enterJob c
    if r.1.unboundedBarred r.2 then
      let d : Cmd := { r.2 with phase := .ended, did := true, status := Status.unboundedOnShared
                                detail := if c.cls = 9 then t.radioDetail c else [] }
      { r.1 with cmds := r.1.cmds ++ [d] }
    else { r.1 with cmds := r.1.cmds ++ [r.2] }

/-- The words of a filled slot. -/
def Slot.record (x : Slot) : List W32 := (List.range 16).map (SMap.get (fun _ => 0) x.words)

/-- RECORD_CONSUME: the next filled slot in slot order is held and its record submitted. -/
def execRecordConsume (f : Nat) (s : State) : Host.Outcome State Fault Refusal :=
  if !isFn f then .fault .noSuchUnit
  else
    let k := (s.fn f).nConsume % max 1 (s.depth f)
    let x := s.slot f k
    if s.up && x.st = .filled && !s.resetting f then
      let t := (s.setSlot f k { st := .held }).modFn f (fun (y : Fn) => { y with nConsume := y.nConsume + 1 })
      .next ((t.addO f 0x3010 6 1).submit f (some k) none x.record)
    else .next s

/-- Give back the slots of the oldest unreturned completions (R189). -/
def State.freeSlots (s : State) (f : Nat) : List Nat → State
  | [] => s
  | k :: ks => (s.freeSlot f k).freeSlots f ks

/-- CREDIT_WRITE: the low 11 bits count credits (Table 22.3). -/
def execCreditWrite (f n enables : Nat) (tbit : Bool) (s : State) : Host.Outcome State Fault Refusal :=
  if !isFn f then .fault .noSuchUnit
  else if s.tdiBars f tbit then .next (s.addO f 0x9011 2 1)
  else if !s.up || !s.present f || !s.visible f || enables != 15 then .next s
  else
    let m := n % 2048
    let back := (s.fn f).unret.take m
    let t := (s.freeSlots f back).modFn f (fun (y : Fn) => { y with unret := y.unret.drop back.length })
    .next ((t.addO f 0x3010 9 back.length).addO f 0x3010 0x0B (m - back.length))

/-! ### Completions (R204-R207) -/

/-- Write bytes to the memory of a port's host, or discard and count them (R558, R565). -/
def State.hostWrite (s : State) (f a : Nat) (bytes : List Byte) : State :=
  if s.egress f then
    { s with host := bytes.zipIdx.foldl (fun m (e : Byte × Nat) => SMap.set (fun _ => 0) m (portOf f * 2 ^ 64 + (a + e.2) % 2 ^ 64) e.1) s.host }
  else s.addG 0x1133 (portOf f + 1) 1

/-- Signal the completions written since the last signal (R207). -/
def State.signal (s : State) (f : Nat) : State := (s.modFn f (fun (y : Fn) => { y with unsig := 0 })).msix f 0

/-- The eight words of a completion record (Table 17 of chapter 07). -/
def State.completionWords (s : State) (c : Cmd) (slot : Nat) (jobEnd : Bool) : List W32 :=
  let n := (s.fn c.fn).nCompl
  let t := s.time 2 / 2 ^ 16
  [BitVec.ofNat 32 (c.ctx + c.cls * 2 ^ 12 + c.epoch * 2 ^ 16),
   completionW1 c.status (n / max 1 (s.depth c.fn) % 2 == 0) jobEnd c.bound slot,
   BitVec.ofNat 32 (s.credit c.fn)] ++
  (List.range 3).map (fun i => BitVec.ofNat 32 (c.detail.getD i 0)) ++
  [BitVec.ofNat 32 (t % 1000000000), BitVec.ofNat 32 (t / 1000000000)]

/-- A command may retire: it is over, its writes have landed and its packets are answered (R206, R424). -/
def State.retirable (s : State) (c : Cmd) : Bool :=
  s.up && decide (c.phase = .ended) && !s.inFlight c.id && s.answered c && !s.resetting c.fn

/-- The record closed a job that is still in progress. -/
def State.endsJob (s : State) (c : Cmd) : Bool := c.je && c.jobbed && (s.jobOf c).any (·.closed)

/-- A command retires: its completion may be written, and where its record ends the job that of every other command of the
job is (R206). -/
def State.retires (s : State) (c : Cmd) : Bool :=
  s.retirable c && c.slot.isSome && !c.silent && (!s.endsJob c || s.lastOfJob c)
/-- Note the commands that have retired since, in slot order: what one core cycle retires is noted at once (R206). -/
def State.noteRetired (s : State) : State :=
  let old := s.retired.filter (fun id => (s.cmd? id).isSome)
  { s with retired := old ++ ((s.cmds.filter (fun c => s.retires c && !old.contains c.id)).map (·.id)) }
/-- The command of a function whose completion is written next. -/
def State.nextRetired (s : State) (f : Nat) : Option Nat :=
  s.retired.find? (fun id => (s.cmd? id).any (fun c => c.fn == f))

/-- Write the completion record of a command into its function's ring, with the signals of R207. -/
def State.putCompletion (s : State) (c : Cmd) (slot : Nat) : State :=
  let f := c.fn
  let jobEnd := s.endsJob c
  let words := s.completionWords c slot jobEnd
  let faulting := Status.faults c.status (s.modeOf c == 2)
  let n := (s.fn f).nCompl
  let t := s.hostWrite f (s.o f 0x3010 2 + 32 * (n % max 1 (s.depth f))) (wordsToBytes words)
  let t := t.modFn f (fun (y : Fn) => { y with nCompl := n + 1, unret := y.unret ++ [slot], unsig := y.unsig + 1,
                                               oldest := if y.unsig = 0 then s.tb2us else y.oldest })
  let t := t.addO f 0x3010 7 1
  let t := if c.status = Status.hardwareError then t.raise ErrCode.other none16 f (c.detail.getD 0 0) else t
  if c.irq || faulting || (s.o f 0x3010 4 != 0 && decide (s.o f 0x3010 4 ≤ (t.fn f).unsig)) then t.signal f else t

/-- COMPLETION_WRITE: a faulting status faults the context; a JE record that ended well closes its job (R182, R183). A
triggered record retires without a completion (R433). Completions of a function are written in the order of retirement,
those of one core cycle in slot order (R206). -/
def execCompletionWrite (cid : Nat) (s : State) : Host.Outcome State Fault Refusal :=
  match s.cmd? cid with
  | some c =>
    if !s.retirable c then .next s
    else
      match c.slot with
      | none => .next (s.settle cid)
      | some k =>
        if c.silent then .next (s.settle cid)
        else
          let u := s.noteRetired
          if u.nextRetired c.fn ≠ some cid then .next u
          else
            let t := u.putCompletion c k
            let t := if Status.faults c.status (s.modeOf c == 2) then t.faultContext c else t.closeJob c
            let t := t.dropCmd cid
            .next { t with retired := t.retired.filter (· != cid) }
  | none => .next s

/-- MODERATION_DELAY_EXPIRY: the delay ran out since the oldest unsignalled completion (R207). -/
def execModerationDelayExpiry (f : Nat) (s : State) : Host.Outcome State Fault Refusal :=
  if !isFn f then .fault .noSuchUnit
  else
    let d := s.o f 0x3010 5
    if s.up && d != 0 && (s.fn f).unsig != 0 && decide ((s.fn f).oldest + d ≤ s.tb2us) then .next (s.signal f)
    else .next s

/-! ### Contexts (R176-R178) -/

/-- The lowest free context number. -/
def State.freeCtx (s : State) : Option Nat := (List.range 4096).find? (fun n => decide ((s.ctx n).st = .free))

/-- The home core of an open request (R177, R345); none where mode 2 has no radio core to take. -/
def State.homeFor (s : State) (f mode home : Nat) : Option Nat :=
  if mode = 2 then
    if home = 0x7F then s.radioCores.head? else if s.radioCore home then some home else none
  else if home ≠ 0x7F then some home
  else
    match (List.range 96).find? (fun c => s.coreHolder c == f) with
    | some c => some c
    | none => some (((List.range 96).find? (fun c => s.coreHolder c == none16)).getD 0)

/-- The timing mode that an accepted write asks for and that is not yet in force; the last write counts (R467, R469). -/
def State.modePending (s : State) : Option Nat :=
  match s.sec.flashQ.reverse.find? (fun q => q.2.1 == objKey 1023 0x7800 1) with
  | some q => some q.2.2
  | none => if s.modeAt.isSome then some (s.g 0x7800 1) else none
/-- Compatible mode is in force or pending (R468, R469). -/
def State.compatible (s : State) : Bool := s.g 0x7800 2 == 1 || s.modePending == some 1

/-- The rule of an open request (R177). -/
def State.openRule (f request : Nat) (_ : ObjRow) (s : State) : Except Refused State := do
  let mode := fld request 0 2
  let home := fld request 2 7
  ensure (mode != 3 && fld request 9 23 == 0 && (decide (home ≤ 95) || home == 0x7F)) Status.shapeInvalid
  ensure (mode != 2 || f == s.radioOwner) Status.accessDenied
  ensure (mode != 1 || !s.compatible) Status.accessDenied
  let core ← match s.homeFor f mode home with
    | some c => .ok c
    | none => .error ⟨Status.accessDenied, 0⟩
  ensure (decide (s.o f 0x3050 5 < s.o f 0x3020 8)) Status.quotaExhausted
  let n ← match s.freeCtx with
    | some n => .ok n
    | none => .error ⟨Status.quotaExhausted, 0⟩
  let rate := s.o f 0x2010 1
  ensure (mode != 1 || decide (s.g 0x2001 1 + s.eAdm + s.g 0x2001 4 + rate ≤ s.eWinLow)) Status.quotaExhausted
  let epoch := ((s.ctx n).epoch + 1) % 2 ^ 16
  let t := s.setCtx n { fn := f, mode := mode, seed := s.o f 0x3050 6, epoch := epoch, home := core, st := .idle,
                        rate := if mode = 1 then rate else 0 }
  let t := ((t.setO f 0x3050 2 n).setO f 0x3050 3 epoch).addO f 0x3050 5 1
  .ok (if mode = 1 then t.addG 0x2001 4 rate else t)

/-- CONTEXT_OPEN: a write to Vnnn:0x3050.01. -/
def execContextOpen (path : Path) (f request : Nat) (s : State) : Host.Outcome State Fault Refusal :=
  .next (s.access path f 0x3050 1 none request (State.openRule f request))

/-- Close a context: its jobs are cancelled, its queued commands end, its running ones are told to stop (R178, R182). -/
def State.closeCtx (s : State) (f n : Nat) : State :=
  let x := s.ctx n
  let t := (s.countJob f 4 x.jobs.length).endHolds n (fun _ => true)
  let t := (t.setCtx n { x with closed := true, jobs := [] }).freeThreads n
  let t : State := { t with cmds := t.cmds.map (stopWith Status.cancelled n t.nextId) }
  t.setO f 0x3050 5 (t.o f 0x3050 5 - 1)

/-- The rule of a close. -/
def State.closeRule (f n : Nat) (_ : ObjRow) (s : State) : Except Refused State := do
  let x := s.ctx n
  ensure (decide (n < 4096) && x.fn == f && decide (x.st ≠ .free) && !x.closed) Status.contextInvalid
  .ok (s.closeCtx f n)

/-- CONTEXT_CLOSE: a write to Vnnn:0x3050.04. -/
def execContextClose (path : Path) (f n : Nat) (s : State) : Host.Outcome State Fault Refusal :=
  .next (s.access path f 0x3050 4 none n (State.closeRule f n))

/-- No command, piece or read of a context's epoch is left (R178). -/
def State.drained (s : State) (n : Nat) : Bool :=
  s.cmds.all (fun c => c.ctx != n || c.fn != (s.ctx n).fn || c.epoch != (s.ctx n).epoch) &&
    s.pieces.all (fun p => p.ctx != n) && s.reads.all (fun r => r.ctx != n)

/-- CONTEXT_NUMBER_FREED: a closed context's number returns once its traffic has drained; an exact reservation ends at
the next window start (R178, R375). -/
def execContextNumberFreed (n : Nat) (s : State) : Host.Outcome State Fault Refusal :=
  let x := s.ctx n
  if s.up && x.closed && s.drained n then
    let t := s.setCtx n { epoch := x.epoch }
    .next (if x.mode = 1 then { t with energy := { t.energy with ending := t.energy.ending ++ [(n, x.rate)] } } else t)
  else .next s

end Sys2Proof.Machine
end

