-- ==== Sys2Proof/Machine/Heads.lean ====
section
/-!
DEFINITION. Which commands may start, and what starting costs: heads of jobs (R48, R179, R180), threads and cores (R344,
R345), the intervals of an engine (R46, R53), share debits (R350) and energy (R376, R377).
-/

namespace Sys2Proof.Machine

/-! ### Heads -/

/-- A running command that holds back the later ones of its job: a float wait, a fence, a calendar WAIT (R169, R200, R64).
-/
def Cmd.blocks (c : Cmd) : Bool := c.phase == .running && (c.cls == 3 || c.cls == 5 || (c.cls == 10 && c.form == 0))

/-- The commands submitted before one. -/
def State.before (s : State) (c : Cmd) : List Cmd := s.cmds.takeWhile (fun d => d.id != c.id)

/-- A command has completed: over, landed, answered (R179, R200). -/
def State.completed (s : State) (c : Cmd) : Bool := c.phase == .ended && !s.inFlight c.id && s.answered c

/-- Earlier commands of the same job. -/
def State.earlier (s : State) (c : Cmd) : List Cmd :=
  (s.before c).filter (fun d => d.ctx == c.ctx && d.job == c.job && d.jobbed && d.fn == c.fn)

/-- A queued command that is next in its job: the earlier ones of the job have started and none holds it back, and every
command of earlier jobs of the context has completed (R48, R179, R180). -/
def State.isHead (s : State) (c : Cmd) : Bool :=
  c.phase == .queued && c.jobbed && !(s.ctx c.ctx).closed &&
    ((s.ctx c.ctx).st == .idle || (s.ctx c.ctx).st == .running) &&
    (s.before c).all (fun d => d.ctx != c.ctx || !d.jobbed || d.fn != c.fn ||
      (if d.job = c.job then d.phase != .queued && !d.blocks else s.completed d))

/-! ### Threads and cores (R180, R344, R345, R356) -/

/-- The core may take up no work of its holder: a preemption or a restore is under way (R356). -/
def State.coreQuiet (s : State) (c : Nat) : Bool :=
  (s.core c).preempt.isNone && !(s.core c).saving && (s.core c).restore.isNone

/-- A function holds a core and may start work on it. -/
def State.holds (s : State) (f c : Nat) : Bool := s.coreHolder c == f && s.coreQuiet c

/-- No radio context of the same home core and a lower number has a job ready for thread 3 (R345). -/
def State.threadTurn (s : State) (ctx : Nat) : Bool :=
  s.cmds.all (fun d => !(decide (d.ctx < ctx) && s.modeOf d == 2 && (s.ctx d.ctx).home == (s.ctx ctx).home && s.isHead d &&
    (s.threadOf d.ctx).isNone))

/-- The thread that a context would take: thread 3 of a radio core in radio mode, else a thread of a held core. -/
def State.threadFor (s : State) (ctx : Nat) : Option Nat :=
  let x := s.ctx ctx
  let ts := (s.core x.home).threads
  if x.mode = 2 then
    if s.radioCore x.home && ts.getD 3 none == none && s.threadTurn ctx then some 3 else none
  else if s.holds x.fn x.home then
    (List.range (if s.radioCore x.home then 3 else 4)).find? (fun i => ts.getD i none == none)
  else none

/-- The thread of a command's job, held already or to be taken now. -/
def State.canThread (s : State) (c : Cmd) : Bool :=
  (s.threadOf c.ctx).isSome || (s.threadFor c.ctx).isSome

/-- Take the thread of a context whose job starts. -/
def State.takeThread (s : State) (ctx : Nat) : State :=
  let t := s.modCtx ctx (fun (x : Ctx) => { x with st := .running })
  if (s.threadOf ctx).isSome then t
  else
    match s.threadFor ctx with
    | some i => t.modCore (t.ctx ctx).home (fun (y : Core) => { y with threads := y.threads.set i (some ctx) })
    | none => t

/-- A command without an engine may start: its job's thread can run it. -/
def State.canStart (s : State) (c : Cmd) : Bool := s.up && s.isHead c && s.canThread c && !s.resetting c.fn

/-- Cores that a record names by space 0 addresses (R344). -/
def Cmd.namedCores (c : Cmd) : List Nat :=
  ((if c.cls = 2 ∨ c.cls = 8 then [4, 6] else if c.cls = 9 then [4, 6, 8] else []).map (fun i => c.addr i)).filterMap
    (fun a => if a.space = 0 ∧ a.core < 96 then some a.core else none)

/-- The cores that a command needs held to run on a calendar (R344): its engine's, those it names, and its home core for a
thread. Radio work needs none. -/
def State.coresNeeded (s : State) (c : Cmd) (id : Nat) : List Nat :=
  if s.modeOf c = 2 then []
  else ((coreOf id).toList ++ c.namedCores ++ (if (s.threadOf c.ctx).isSome then [] else [(s.ctx c.ctx).home])).eraseDups

/-- Slots in use: cores held and cores with saved state (R346). -/
def State.savedOn (s : State) (f c : Nat) : Bool := (s.core c).saved.any (fun x => x.fn == f)
def State.inUse (s : State) (f c : Nat) : Bool := s.coreHolder c == f || s.savedOn f c
def State.slotsUsed (s : State) (f : Nat) : Nat := ((List.range 96).filter (s.inUse f)).length
/-- f has the core in use already or a free slot. -/
def State.hasSlot (s : State) (f c : Nat) : Bool := s.inUse f c || decide (s.slotsUsed f < s.o f 0x3020 0x0B)

/-- Zero the well range that a core's new holder can address, the accumulator stores and the flag planes (R154). -/
def State.zeroCore (s : State) (c : Nat) : State :=
  (s.zeroMem (Mem.well c) (Mem.wellSize - (s.zone c).1)).modCore c (fun (x : Core) => { x with acc := [], flags := [] })

/-- Set a core's holder, with the counts of Vnnn:0x3000.04. -/
def State.setHolder (s : State) (c f : Nat) : State :=
  let old := s.coreHolder c
  let t := if old = none16 ∨ old = f then s else s.setO old 0x3000 4 (s.o old 0x3000 4 - 1)
  let t := if f = none16 ∨ old = f then t else t.addO f 0x3000 4 1
  (t.setG 0x3060 (c + 1) f).modCore c (fun (x : Core) => { x with since := s.time 2 })

/-- Give an unheld core to a function and zero it (R346). -/
def State.giveCore (s : State) (f c : Nat) : State := (s.zeroCore c).setHolder c f

/-! ### Intervals -/

/-- The end in core cycles of the interval of a kind that a calendar is in now; 0 in none. -/
def State.intervalEnd (s : State) (id kind : Nat) : Nat :=
  match s.entryAt id s.granule with
  | some e => if e.kind = kind then e.stop * 450 else 0
  | none => 0

/-- The bound context of the exact interval that a calendar is in (R32, R40); idle in compatible mode (R468). -/
def State.boundNow (s : State) (id : Nat) : Option Nat :=
  match s.entryAt id s.granule with
  | some e =>
    if e.kind = 2 ∧ (s.ctx e.ctx).st ≠ .free ∧ !(s.ctx e.ctx).closed ∧ (s.ctx e.ctx).epoch = e.epoch ∧
        (s.ctx e.ctx).mode = 1 ∧ s.g 0x7800 2 = 0 then some e.ctx else none
  | none => none

/-- n core cycles fit from now on a calendar for a command of a mode: before the next gutter in a fill interval (R46),
before the end of its radio or exact interval (R53). -/
def State.fitsNow (s : State) (c : Cmd) (id n : Nat) : Bool :=
  match s.modeOf c with
  | 0 => s.kindNow id == 0 && decide (s.cycle + n ≤ s.nextGutter id)
  | 1 => s.boundNow id == some c.ctx && decide (s.cycle + n ≤ s.intervalEnd id 2)
  | _ => decide (s.cycle + n ≤ s.intervalEnd id 1)

/-! ### Shares and energy (R349, R376, R377) -/

/-- The engine classes of a group. -/
def groupClasses (g : Nat) : List Nat := (List.range 22).filter (fun k => shareGroup k == some g)

/-- What a start debits: a command that a preemption cut short has paid (R356, R377). -/
def Cmd.due (c : Cmd) : Nat := if c.paid then 0 else c.energy

/-- Debit a fill command: its function's own allowance first, then the common one. -/
def State.payFill (s : State) (f e : Nat) : State :=
  let own := s.o f 0x2010 2
  let t := s.setO f 0x2010 2 (own - e)
  if e ≤ own then t else { t with energy := { t.energy with common := t.energy.common - (e - own) } }
/-- Whether a fill command's energy fits (R377). -/
def State.energyFits (s : State) (f e : Nat) : Bool := decide (e ≤ s.o f 0x2010 2 + s.energy.common)

/-- Whole tokens by which a use beyond a reservation grows when units of 1/256 token are added to it. -/
def beyond (used add reserve : Nat) : Nat := (used + add - reserve * 256) / 256 - (used - reserve * 256) / 256

/-- Charge a radio command to E_radio (R376). -/
def State.payRadio (s : State) (e : Nat) : State :=
  let used := s.energy.radioUse
  let t := s.addG 0x2002 6 (beyond used e (s.g 0x2001 3))
  { t with energy := { t.energy with radioUse := used + e } }
/-- Charge an exact command to the reservation of its context (R376). -/
def State.payExact (s : State) (c : Cmd) : State :=
  let used := SMap.get (fun _ => 0) s.energy.exactUse c.ctx
  let t := s.addO c.fn 0x2010 4 (beyond used c.energy (s.ctx c.ctx).rate)
  { t with energy := { t.energy with exactUse := SMap.set (fun _ => 0) t.energy.exactUse c.ctx (used + c.energy) } }
/-- Charge a command that starts by its mode. -/
def State.payStart (s : State) (c : Cmd) : State :=
  match s.modeOf c with
  | 0 => s.payFill c.fn c.due
  | 1 => s.payExact c
  | _ => s.payRadio c.energy

end Sys2Proof.Machine
end

