-- ==== Sys2Proof/Machine/FabricSend.lean ====
section
/-!
DEFINITION. Fabric records and triggers at their sender: FABRIC_LOAD, FABRIC_STORE, the atomics, COPY_IN, COPY_OUT,
FABRIC_HANDOFF, FABRIC_RELEASE, REMOTE_PROCEDURE_TRIGGER and FABRIC_STEP_ISSUE (R201, R417-R424, R428, R431, R433).
-/

namespace Sys2Proof.Machine

/-- A fabric record's operation. `kind` is FORM of Table 7.12, 7 for a trigger; a COPY of a fabric pump with a domain
address is a COPY_IN or COPY_OUT, and so is a radio-engine job of one, whose length its parameter block holds (R245). -/
structure FabOp where
  kind   : Nat
  remote : Nat
  spaceOk : Bool
  loc    : Nat
  len    : Nat
  deriving DecidableEq, Repr

def fabOpOf (c : Cmd) : Option FabOp :=
  let space (i : Nat) : Bool := fld (wd64 c.words i) 60 4 == 3
  let dom (i : Nat) : Nat := fld (wd64 c.words i) 0 60
  if c.cls = 6 then some ⟨c.form, dom 4, space 4, wd64 c.words 6, (c.w 8).toNat⟩
  else if c.cls = 7 then some ⟨7, domAddr ((c.w 4).fld 0 13) 0 0, true, 0, 0⟩
  else if c.cls = 2 ∧ c.form = 0 ∧ calClass c.onEngine = 19 ∧ space 4 then
    some ⟨3, dom 4, true, wd64 c.words 6, (c.w 8).toNat⟩
  else if c.cls = 2 ∧ c.form = 0 ∧ calClass c.onEngine = 19 ∧ space 6 then
    some ⟨4, dom 6, true, wd64 c.words 4, (c.w 8).toNat⟩
  else if c.cls = 9 ∧ calClass c.onEngine = 19 ∧ space 4 then some ⟨3, dom 4, true, wd64 c.words 6, 0⟩
  else if c.cls = 9 ∧ calClass c.onEngine = 19 ∧ space 6 then some ⟨4, dom 6, true, wd64 c.words 4, 0⟩
  else none

/-- The device that an operation addresses. -/
def FabOp.dev (o : FabOp) : Nat := domDev o.remote
/-- A LOAD or STORE (and RELEASE) to a device in another rack goes through a standpipe (R431). -/
def State.crossRack (s : State) (dev : Nat) : Bool := dev / 64 != s.self / 64

/-- The standpipe window of a function that holds a domain address: remote base, length in regions (R431). -/
def State.pipeOf (s : State) (f a : Nat) : Option Nat :=
  (List.range 8).find? (fun w =>
    let base := fld (s.o f (0x5040 + w) 1) 0 60
    decide (base ≤ a) && decide (a < base + s.o f (0x5040 + w) 2 * 2 ^ 21))

/-- LENGTH as each form allows it (Table 7.12). -/
def FabOp.lenOk (o : FabOp) : Bool :=
  match o.kind with
  | 0 => decide (8 ≤ o.len) && decide (o.len ≤ 256) && o.len % 8 == 0
  | 1 => decide (8 ≤ o.len) && decide (o.len ≤ 256) && o.len % 8 == 0
  | 2 => o.len == 8 && o.remote % 8 == 0
  | 5 => o.len == 0
  | 6 => o.len == 0
  | _ => true

/-- Bytes of LOCAL that an operation reads or lands. -/
def FabOp.localLen (o : FabOp) : Nat := if o.kind = 5 then 8 else if o.kind = 6 ∨ o.kind = 7 then 0 else o.len

/-- The float of a fabric record; a trigger names RFLOAT (Tables 7.12, 7.13). -/
def State.fabFloat (s : State) (c : Cmd) : Except Refused (Option Nat) :=
  if c.cls = 7 then s.floatArg c ((c.w 13).bit 16) ((c.w 13).fld 0 16)
  else if c.cls = 9 then s.float12 c else s.float9 c

/-- The checks of a fabric record at its sender (R155, R201, R417-R423, R431, R435). -/
def State.checkFabric (s : State) (c : Cmd) (o : FabOp) : Except Refused (Option Nat) := do
  let a := devAddr o.loc
  ensure (o.spaceOk && !domReserved o.remote) Status.addressInvalid o.remote
  ensure (o.kind == 7 || a.space == 1 || a.space == 2) Status.addressInvalid o.loc
  ensure o.lenOk Status.shapeInvalid
  ensure (!(o.kind == 1 || o.kind == 4) || !(if c.cls = 9 then (c.w 12).bit 16 else (c.w 9).bit 16)) Status.shapeInvalid
  ensure (c.cls != 6 || o.kind != 2 || decide ((c.w 9).fld 17 3 ≤ 4)) Status.shapeInvalid
  let float ← s.fabFloat c
  ensure (decide (domOff o.remote + o.len ≤ 2 ^ 21)) Status.addressInvalid o.remote
  ensure (s.addrOk c.fn a o.localLen || o.kind == 7) Status.addressInvalid o.loc
  ensure (!s.domain.declared.contains o.dev) Status.peerFenced
  ensure (s.endpointDev c.fn o.dev).isSome Status.accessDenied
  let pipe := o.kind == 6 || ((o.kind == 0 || o.kind == 1) && s.crossRack o.dev)
  ensure (!pipe || (s.pipeOf c.fn o.remote).isSome) Status.addressInvalid o.remote
  .ok float

/-! ### Standpipes (R431) -/

/-- The landing pages of a window of a function. -/
def State.pages (s : State) (f w : Nat) : SMap LandPage := SMap.get (fun _ => []) (s.fn f).pipes w
def State.setPages (s : State) (f w : Nat) (m : SMap LandPage) : State :=
  (s.modFn f (fun (x : Fn) => { x with pipes := SMap.set (fun _ => []) x.pipes w m })).setO f (0x5040 + w) 5 m.length
/-- The page that holds a block, and its index. -/
def State.pageOf (s : State) (f w block : Nat) : Option (Nat × LandPage) := (s.pages f w).find? (fun e => e.2.block == block)
/-- The lowest free page of a window. -/
def State.freePage (s : State) (f w : Nat) : Option Nat :=
  (List.range (s.o f (0x5040 + w) 4)).find? (fun i => !(s.pages f w).any (fun e => e.1 == i))
/-- The landing address of a page. -/
def State.pageAddr (s : State) (f w i : Nat) : DevAddr := (devAddr (s.o f (0x5040 + w) 3)).plus (4096 * i)
def State.setPage (s : State) (f w i : Nat) (p : LandPage) : State := s.setPages f w (SMap.put i p (s.pages f w))

/-- Blocks of 4 KiB that a range touches. -/
def blocksOf (a n : Nat) : List Nat := if n = 0 then [] else span (a / 4096) ((a + n - 1) / 4096 - a / 4096 + 1)

/-- Give each block a page; SHAPE_INVALID where none is free. -/
def State.takePages (s : State) (f w : Nat) : List Nat → Except Refused State
  | [] => .ok s
  | b :: bs =>
    match s.pageOf f w b with
    | some _ => s.takePages f w bs
    | none =>
      match s.freePage f w with
      | some i => (s.setPage f w i { block := b }).takePages f w bs
      | none => .error ⟨Status.shapeInvalid, 0⟩

/-- Store bytes of a function into landing pages, marking them. -/
def State.markBytes (s : State) (f w a : Nat) : List Byte → State
  | [] => s
  | b :: bs =>
    match s.pageOf f w (a / 4096) with
    | some (i, p) =>
      let q : LandPage := { p with marks := if p.marks.contains (a % 4096) then p.marks else p.marks ++ [a % 4096] }
      ((s.wr (s.flat f (s.pageAddr f w i) (a % 4096)) b).setPage f w i q).markBytes f w (a + 1) bs
    | none => s.markBytes f w (a + 1) bs

/-- The bytes of a range as its landing pages hold them. -/
def State.pipeBytes (s : State) (f w a n : Nat) : List Byte :=
  (List.range n).map (fun k =>
    match s.pageOf f w ((a + k) / 4096) with
    | some (i, _) => s.rd (s.flat f (s.pageAddr f w i) ((a + k) % 4096))
    | none => 0)

/-- Ship the marked bytes of a block as one BLOCK (R431). -/
def blockStep (block : Nat) : FabStep := { type := 0x0F, kind := 0x0F, sub := domRegion (block * 4096) % 8, addr := block * 4096, len := 4096 }

/-! ### The records -/

/-- The steps of an operation that goes directly to its home (R417, R423, R424). -/
def directSteps (c : Cmd) (o : FabOp) : List FabStep :=
  let sub := domRegion o.remote % 8
  match o.kind with
  | 0 => [{ type := 1, kind := 1, sub := sub, addr := o.remote, len := o.len }]
  | 1 => [{ type := 3, kind := 3, sub := sub, addr := o.remote, len := o.len }]
  | 2 => [{ type := 4, kind := 4, sub := sub, addr := o.remote, len := 8 }]
  | 3 => (cutsOf o.remote o.len).zipIdx.map (fun (e : (Nat × Nat) × Nat) =>
      { type := 6, kind := 6, sub := e.2 % 8, addr := o.remote + e.1.1, len := e.1.2, off := e.1.1 })
  | 4 => (cutsOf o.remote o.len).zipIdx.map (fun (e : (Nat × Nat) × Nat) =>
      { type := 7, kind := 7, sub := e.2 % 8, addr := o.remote + e.1.1, len := e.1.2, off := e.1.1 })
  | 5 => [{ type := 8, kind := 8, sub := sub, addr := o.remote, len := 0 }]
  | 7 => [{ type := 0x0A, kind := 0x0A, sub := (c.w 4).fld 16 16 % 8, addr := (c.w 4).fld 16 16, len := 36 }]
  | _ => []

def State.setSteps (s : State) (cid : Nat) (l : List FabStep) : State := s.modCmd cid (fun (d : Cmd) => { d with steps := l })

/-- The own effect of a fabric record: its checks, what a standpipe does at once, and the steps that the pump issues. -/
def fabricGo (c : Cmd) (o : FabOp) (s : State) : Except Refused (State × List Nat) := do
  let float ← s.checkFabric c o
  let w := (s.pipeOf c.fn o.remote).getD 0
  if o.kind = 0 ∧ s.crossRack o.dev then
    let t ← s.takePages c.fn w (blocksOf o.remote o.len)
    let missing := (blocksOf o.remote o.len).filter (fun b => (t.pageOf c.fn w b).all (fun e => !e.2.fetched))
    if missing.isEmpty then .ok (t.emitData c float (devAddr o.loc) (t.pipeBytes c.fn w o.remote o.len), [])
    else .ok (t.setSteps c.id (missing.map (fun b => { type := 6, kind := 0x11, sub := domRegion o.remote % 8, addr := b * 4096, len := 4096 })), [])
  else if o.kind = 1 ∧ s.crossRack o.dev then
    s.needGood c (devAddr o.loc) o.len
    let t ← s.takePages c.fn w (blocksOf o.remote o.len)
    .ok (t.markBytes c.fn w o.remote (t.readAt c.fn (devAddr o.loc) o.len), [])
  else if o.kind = 6 then
    match s.pageOf c.fn w (o.remote / 4096) with
    | some (i, p) =>
      if p.marks.isEmpty then .ok (s.setPages c.fn w (SMap.del i (s.pages c.fn w)), [])
      else .ok (s.setSteps c.id [blockStep (o.remote / 4096)], [])
    | none => .ok (s, [])
  else .ok (s.setSteps c.id (directSteps c o), [])

/-- The effect of a fabric record. -/
def fabricEffect (c : Cmd) (s : State) : Except Refused (State × List Nat) :=
  match fabOpOf c with
  | none => .error ⟨Status.addressInvalid, 0⟩
  | some o => fabricGo c o s

/-- A fabric record of a form. -/
def isFabric (form : Nat) (c : Cmd) : Bool := c.cls == 6 && c.form == form
/-- An ATOMIC record of an operation; the reserved ones run, and fail, as compare-swaps do. -/
def isAtomic (op : Nat) (c : Cmd) : Bool := isFabric 2 c && min 4 ((c.w 9).fld 17 3) == op

/-- FABRIC_LOAD. -/
def execFabricLoad (cid : Nat) (s : State) : Host.Outcome State Fault Refusal := .next (s.perform cid (isFabric 0) fabricEffect)
/-- FABRIC_STORE. -/
def execFabricStore (cid : Nat) (s : State) : Host.Outcome State Fault Refusal := .next (s.perform cid (isFabric 1) fabricEffect)
/-- ATOMIC_ADD. -/
def execAtomicAdd (cid : Nat) (s : State) : Host.Outcome State Fault Refusal := .next (s.perform cid (isAtomic 0) fabricEffect)
/-- ATOMIC_MIN. -/
def execAtomicMin (cid : Nat) (s : State) : Host.Outcome State Fault Refusal := .next (s.perform cid (isAtomic 1) fabricEffect)
/-- ATOMIC_MAX. -/
def execAtomicMax (cid : Nat) (s : State) : Host.Outcome State Fault Refusal := .next (s.perform cid (isAtomic 2) fabricEffect)
/-- ATOMIC_SWAP. -/
def execAtomicSwap (cid : Nat) (s : State) : Host.Outcome State Fault Refusal := .next (s.perform cid (isAtomic 3) fabricEffect)
/-- ATOMIC_COMPARE_SWAP. -/
def execAtomicCompareSwap (cid : Nat) (s : State) : Host.Outcome State Fault Refusal := .next (s.perform cid (isAtomic 4) fabricEffect)
/-- COPY_IN. -/
def execCopyIn (cid : Nat) (s : State) : Host.Outcome State Fault Refusal := .next (s.perform cid (isFabric 3) fabricEffect)
/-- COPY_OUT. -/
def execCopyOut (cid : Nat) (s : State) : Host.Outcome State Fault Refusal := .next (s.perform cid (isFabric 4) fabricEffect)
/-- FABRIC_HANDOFF. -/
def execFabricHandoff (cid : Nat) (s : State) : Host.Outcome State Fault Refusal := .next (s.perform cid (isFabric 5) fabricEffect)
/-- FABRIC_RELEASE. -/
def execFabricRelease (cid : Nat) (s : State) : Host.Outcome State Fault Refusal := .next (s.perform cid (isFabric 6) fabricEffect)
/-- REMOTE_PROCEDURE_TRIGGER. -/
def execRemoteProcedureTrigger (cid : Nat) (s : State) : Host.Outcome State Fault Refusal :=
  .next (s.perform cid (fun c => c.cls == 7) fabricEffect)

/-! ### Steps (R414, R424) -/

/-- The data of a step. -/
def State.stepData (s : State) (c : Cmd) (o : FabOp) (st : FabStep) : List Byte :=
  match st.type with
  | 3 => s.readAt c.fn (devAddr o.loc) st.len
  | 7 => s.readAt c.fn ((devAddr o.loc).plus st.off) st.len
  | 4 => wordsToBytes [c.w 10, c.w 11] ++ (if (c.w 9).fld 17 3 = 4 then wordsToBytes [c.w 12, c.w 13] else [])
  | 0x0A => wordsToBytes (span 5 8 |>.map c.w) ++ wordsToBytes [c.w 14]
  | _ => []

/-- The marked bytes of a page of a function. -/
def State.markedOf (s : State) (f w block : Nat) : List (Nat × Byte) :=
  match s.pageOf f w block with
  | some (i, p) => p.marks.map (fun m => (m, s.rd (s.flat f (s.pageAddr f w i) m)))
  | none => []

/-- Step length in core cycles (R424): L is the latency of the local read for a spine-die requester (Table 6.3); a BLOCK is
read from its window's landing area. -/
def State.stepLength (s : State) (c : Cmd) (o : FabOp) (st : FabStep) : Nat :=
  let from' := if st.type = 0x0F then s.o c.fn (0x5040 + (s.pipeOf c.fn st.addr).getD 0) 3 else o.loc
  if st.type = 3 ∨ st.type = 7 ∨ st.type = 4 ∨ st.type = 0x0A ∨ st.type = 0x0F then
    16 + cdiv st.len 256 + (if st.type = 4 ∨ st.type = 0x0A then 0 else if (devAddr from').space = 2 then 240 else 28)
  else 16

/-- The packet of a step. -/
def State.stepPacket (s : State) (c : Cmd) (o : FabOp) (st : FabStep) (fn : Nat) : Packet :=
  { dstFn := fn, sub := st.sub, ctx := c.ctx, epoch := c.epoch, len := st.len, aop := (c.w 9).fld 17 3,
    signed := (c.w 9).bit 20, addr := st.addr, exact := s.modeOf c == 1, newOwner := (c.w 14).fld 0 13,
    rfAdd := if c.cls = 7 then (c.w 14).toNat else 0, data := s.stepData c o st,
    marks := if st.type = 0x0F then s.markedOf c.fn ((s.pipeOf c.fn st.addr).getD 0) (st.addr / 4096) else [] }

/-- What waits for the answer of a step. -/
def stepAwait (c : Cmd) (o : FabOp) (st : FabStep) (float : Option Nat) : Await :=
  { id := 0, cid := c.id, fn := c.fn, ctx := c.ctx, epoch := c.epoch, dev := o.dev, kind := st.kind, addr := st.addr,
    len := st.len, loc := o.loc + st.off, float := float }

/-- A trigger notes where RF_ADD goes (R433). -/
def State.noteTrigger (s : State) (c : Cmd) (float : Option Nat) : State :=
  match float with
  | some f => if c.cls = 7 then { s with triggers := SMap.put (s.nextId - 1) (c.fn, f, (c.w 14).toNat) s.triggers } else s
  | none => s

/-- The engine of a record whose steps are all out and that holds none: the record is over but for its answers. -/
def State.stepsDone (s : State) (cid : Nat) : State :=
  (s.modCmd cid (fun (d : Cmd) => if d.steps.isEmpty && d.engines.isEmpty && d.did && d.phase == .running then { d with phase := .ended } else d)).settle cid

/-- Issue one step. -/
def State.issueStep (s : State) (c : Cmd) (o : FabOp) (st : FabStep) (fn : Nat) (float : Option Nat) : State :=
  let local' := (devAddr o.loc).plus st.off
  let reads := st.type == 3 || st.type == 7
  if reads && (s.readBad c.fn local' st.len).isSome then
    let a := o.loc + st.off
    ((s.modCmd c.id (fun (d : Cmd) => { d with steps := [], status := Status.eccUncorrectable, detail := [a % 2 ^ 32, a / 2 ^ 32, 0] }))).stepsDone c.id
  else
    let t := (s.ask (stepAwait c o st float) st.type (s.stepPacket c o st fn)).noteTrigger c float
    let t := if st.type = 0x0F && o.kind = 6 then
        let w := (s.pipeOf c.fn st.addr).getD 0
        match s.pageOf c.fn w (st.addr / 4096) with
        | some (i, _) => t.setPages c.fn w (SMap.del i (t.pages c.fn w))
        | none => t
      else t
    let t := if c.engines.isEmpty && s.modeOf c == 0 then t.debit c.fn 19 (startup 19 + s.stepLength c o st) else t
    (t.modCmd c.id (fun (d : Cmd) => { d with steps := c.steps.drop 1 })).stepsDone c.id

/-- The next step of a record goes out once the pump is free or already holds the record, the step
fits (R46), the lane's credits cover it and fewer than 256 packets of its sub-stream are unacknowledged (R414, R424). -/
def State.recordStep (s : State) (cid : Nat) : State :=
  match s.cmd? cid with
  | some c =>
    match fabOpOf c, c.steps with
    | some o, st :: _ =>
      match s.endpointDev c.fn o.dev with
      | some e =>
        let id := c.onEngine
        let free := !c.engines.isEmpty || ((s.engine id).busy.isNone && (s.engine id).hold.all (fun h => h == (c.ctx, c.job)))
        let credits := (s.laneFor o.dev e.fn st.sub).any (fun l =>
          s.canSend l (creditClass st.type false) (packetSlots st.type (s.stepPacket c o st e.fn)) o.dev)
        if s.up && c.phase == .running && c.did && c.status == Status.ok && free && credits &&
            s.fitsNow c id ((if c.engines.isEmpty then startup 19 else 0) + s.stepLength c o st) &&
            decide ((s.stream (streamKey c.fn o.dev e.fn st.sub)).unacked.length < 256) then
          s.issueStep c o st e.fn ((s.fabFloat c).toOption.getD none)
        else s
      | none => s
    | _, _ => s
  | none => s

end Sys2Proof.Machine
end

