-- ==== Sys2Proof/Machine/FabricReceive.lean ====
section
/-!
DEFINITION. Packets that arrive: requests at their home, answers and acknowledgements at their sender, RETIRE, BLOCK,
triggered jobs, resending, and what the failure of a peer does (R414-R438).
-/

namespace Sys2Proof.Machine

/-! ### Requests at the home -/

/-- Refuse a request (R422); outside a stream nothing is kept. -/
def State.refuseLoose (s : State) (p : Packet) (status : Nat) : State :=
  s.emit p.src 0x0D true { src := s.self, srcFn := p.dstFn, dstFn := p.srcFn, sub := p.sub, seq := p.seq, req := p.req, status := status, reply := true }
def State.refuse (s : State) (p : Packet) (status : Nat) : State :=
  s.reply p.dstFn p.src 0x0D p.seq { dstFn := p.srcFn, sub := p.sub, req := p.req, status := status }

/-- The stream of a received packet. -/
def packetKey (p : Packet) : Nat := streamKey p.dstFn p.src p.srcFn p.sub

/-- Send the kept answers of a request again, as new steps (R414, R425); one that is still to be sent is sent once. -/
def State.answerAgain (s : State) (f dev : Nat) : List (Nat × Nat × Packet) → State
  | [] => s
  | e :: l =>
    (if s.answers.any (fun h => h.fn == f && h.dev == dev && h.type == e.2.1 && h.packet == e.2.2) then s
      else s.queueAnswer f dev e.2.1 0 e.2.2).answerAgain f dev l

/-- A request packet: discarded from a failed device, refused without an endpoint entry, applied only in SEQ order; a
duplicate is counted and answered again (R414, R421, R422, R436, R438). `k` applies it or names the refusal. -/
def State.receive (s : State) (p : Packet) (k : State → Except Nat State) : State :=
  let f := p.dstFn
  if !s.up then s
  else if s.domain.declared.contains p.src then s.addG 0x5005 4 1
  else if !isFn f || !s.present f then s.refuseLoose p Status.addressInvalid
  else if (s.endpointOf f p.src p.srcFn).isNone then s.refuseLoose p Status.accessDenied
  else
    let x := s.stream (packetKey p)
    if p.seq < x.expect then
      if x.cutFrom ≤ p.seq ∧ p.seq < x.cut then s.addG 0x5005 5 1
      else ((s.addG 0x5005 3 1).answerAgain f p.src (x.kept.filter (fun e => e.1 == p.seq))).acknowledge f p.src p.srcFn p.sub
    else if x.expect < p.seq then s
    else
      let t := s.modStream (packetKey p) (fun (y : Stream) => { y with expect := y.expect + 1 })
      match (if s.resetting f then .error Status.addressInvalid else k t) with
      | .ok u => u.acknowledge f p.src p.srcFn p.sub
      | .error status => (t.refuse p status).acknowledge f p.src p.srcFn p.sub

/-- A check at the home. -/
def need (cond : Bool) (status : Nat) : Except Nat Unit := if cond then .ok () else .error status

/-- Row 2 of Table 15.4: the region is exported and holds the range. -/
def State.homeRegion (s : State) (p : Packet) (n : Nat) : Except Nat Region :=
  match s.regionOf p.dstFn (domRegion p.addr) with
  | some r => if r.exported && decide (domOff p.addr + n ≤ 2 ^ 21) && domDev p.addr == s.self then .ok r else .error Status.addressInvalid
  | none => .error Status.addressInvalid

/-- The requester owns the region (R420). -/
def Region.ownedBy (r : Region) (p : Packet) : Bool := r.dev == p.src && r.owner == p.srcFn

/-- The flat address of a packet's target. -/
def State.homeFlat (s : State) (p : Packet) (r : Region) : Nat := s.flat p.dstFn (r.at (domOff p.addr)) 0

/-- A pair of the target is in the atomic unit: the packet waits (R426). -/
def State.homeBusy (s : State) (p : Packet) (n : Nat) : Bool :=
  match s.homeRegion p n with
  | .ok r => s.lineBusy (s.homeFlat p r) n
  | .error _ => false
/-- Inbound data waits for fill slots of the tracks and channels of its target, and for the atomic unit (R425, R426). -/
def State.inboundWaits (s : State) (p : Packet) (n : Nat) : Bool :=
  match s.homeRegion p n with
  | .ok r => s.homeBusy p n || !(s.landCals p.dstFn (r.at (domOff p.addr)) n).all (fun e => s.kindNow e == 0)
  | .error _ => false

/-- Read at the home for another device: an uncorrectable error refuses it, counted as source 3. -/
def State.homeRead (s : State) (p : Packet) (r : Region) (n : Nat) : Except Nat (List Byte) :=
  let a := r.at (domOff p.addr)
  match s.readBad p.dstFn a n with
  | some _ => .error Status.eccUncorrectable
  | none => .ok (s.readAt p.dstFn a n)

/-- A failed read or partial write at the home is counted (Table 15.4, last row). -/
def State.countHome (s : State) (p : Packet) (status : Nat) : State :=
  if status = Status.eccUncorrectable then
    match s.regionOf p.dstFn (domRegion p.addr) with
    | some r => s.countUncorrectable (s.homeFlat p r) 3
    | none => s
  else s

/-- A float of a function that an endpoint entry names. -/
def State.entryFloat (s : State) (f : Nat) (i : Option Nat) : Option Nat := i.bind (s.floatOf f)

/-- Bytes land at the home with the arrival float of the requester's entry (R421, R423, R550). -/
def State.homeLand (s : State) (p : Packet) (a : Nat) (data : List Byte) : Except Nat State :=
  if s.partialBad a data.length then .error Status.eccUncorrectable
  else
    let float := (s.endpointOf p.dstFn p.src p.srcFn).bind (fun e => s.entryFloat p.dstFn e.arrival)
    .ok (((s.store a data).addTerm Term.issued data.length).countLanding float data.length)

/-- The home's answer to a request. -/
def State.answer (s : State) (p : Packet) (type : Nat) (data : List Byte) (addr : Nat) (lmax : Nat := 0) : State :=
  s.reply p.dstFn p.src type p.seq { dstFn := p.srcFn, sub := p.sub, req := p.req, len := data.length, addr := addr, data := data } lmax
/-- The L_max of a read of a region by a spine-die requester (Table 6.3). -/
def Region.readLmax (r : Region) : Nat := if (r.at 0).space = 2 then 240 else 28

/-- A request whose failure on an uncorrectable error is counted. -/
def State.receiveCounted (s : State) (p : Packet) (k : State → Except Nat State) : State :=
  let fresh := s.up && !s.domain.declared.contains p.src && isFn p.dstFn && s.present p.dstFn && !s.resetting p.dstFn &&
    (s.endpointOf p.dstFn p.src p.srcFn).isSome && (s.stream (packetKey p)).expect == p.seq
  let t := if fresh then (match k s with | .error e => s.countHome p e | .ok _ => s) else s
  t.receive p k

/-- LOAD_REQ. -/
def execLoadReq (p : Packet) (s : State) : Host.Outcome State Fault Refusal :=
  if s.homeBusy p p.len then .next s
  else .next (s.receiveCounted p (fun t => do
    let r ← t.homeRegion p p.len
    need (r.ownedBy p || r.shared) Status.accessDenied
    let data ← t.homeRead p r p.len
    .ok (t.answer p 0x02 data p.addr r.readLmax)))

/-- STORE. -/
def execStore (p : Packet) (s : State) : Host.Outcome State Fault Refusal :=
  if s.inboundWaits p p.data.length then .next s
  else .next (s.receiveCounted p (fun t => do
    let r ← t.homeRegion p p.data.length
    need (r.ownedBy p) Status.ownershipFault
    t.homeLand p (t.homeFlat p r) p.data))

/-- The pieces of a COPY_REQ's range at the home's 4 KiB boundaries (R423). -/
def State.sendPieces (s : State) (p : Packet) (data : List Byte) (lmax : Nat) : List (Nat × Nat) → State
  | [] => s
  | c :: l => (s.answer p 0x07 ((data.drop c.1).take c.2) (p.addr + c.1) lmax).sendPieces p data lmax l

/-- COPY_REQ. -/
def execCopyReq (p : Packet) (s : State) : Host.Outcome State Fault Refusal :=
  if s.homeBusy p p.len then .next s
  else .next (s.receiveCounted p (fun t => do
    let r ← t.homeRegion p p.len
    need (r.ownedBy p || r.shared) Status.accessDenied
    let data ← t.homeRead p r p.len
    .ok (t.sendPieces p data r.readLmax (cutsOf (domOff p.addr) p.len))))

/-- Keep a sub-stream from acknowledging a request that is not done yet. -/
def State.holdSeq (s : State) (p : Packet) : State := s.modStream (packetKey p) (fun (y : Stream) => { y with holds := y.holds ++ [p.seq] })
def State.unholdSeq (s : State) (k seq : Nat) : State := s.modStream k (fun (y : Stream) => { y with holds := y.holds.filter (· != seq) })

/-- The atomic unit takes no further operation: 4,096 operations, or 64 lines without this one (R426). -/
def State.atomicFull (s : State) (line : Nat) : Bool :=
  let lines := (s.atomics.map (fun e => e.1 / 64)).eraseDups
  decide (4096 ≤ s.atomics.length) || (!lines.contains line && decide (64 ≤ lines.length))

/-- ATOMIC: checked and queued in the atomic unit; while the unit is full it waits in its lane. -/
def execAtomic (p : Packet) (s : State) : Host.Outcome State Fault Refusal :=
  let full := match s.homeRegion p 8 with
    | .ok r => s.atomicFull (s.homeFlat p r / 64)
    | .error _ => false
  if full then .next s
  else .next (s.receiveCounted p (fun t => do
    let r ← t.homeRegion p 8
    need (r.ownedBy p || r.atomic) Status.accessDenied
    need (!(p.exact && (p.aop == 3 || p.aop == 4) && r.atomic)) Status.multiWriterRejected
    let _ ← t.homeRead p r 8
    let a := t.homeFlat p r
    .ok { t.holdSeq p with atomics := t.atomics ++ [(a, p)] }))

/-- The new value of a 64-bit word (R426): add, min, max, swap, compare-swap. -/
def atomicValue (p : Packet) (old : Nat) : Nat :=
  let x := leNat (p.data.take 8)
  let less (a b : Nat) : Bool := if p.signed then decide (sgn 64 a < sgn 64 b) else decide (a < b)
  match p.aop with
  | 0 => (old + x) % 2 ^ 64
  | 1 => if less x old then x else old
  | 2 => if less old x then x else old
  | 3 => x
  | _ => if leNat ((p.data.drop 8).take 8) = old then x else old

/-- Apply queued operations of a line in arrival order, answer each and let it be acknowledged. -/
def State.applyAtomics (s : State) : List (Nat × Packet) → State
  | [] => s
  | (a, p) :: l =>
    let old := s.rdNat a 8
    let t := s.store a (leBytes 8 (atomicValue p old))
    let t := ((t.answer p 0x05 (leBytes 8 old) p.addr).unholdSeq (packetKey p) p.seq).acknowledge p.dstFn p.src p.srcFn p.sub
    t.applyAtomics l

/-- ATOMIC_LINE_WRITE_BACK: the queue of a line is applied and the line written back (R426). -/
def execAtomicLineWriteBack (line : Nat) (s : State) : Host.Outcome State Fault Refusal :=
  let mine := s.atomics.filter (fun e => e.1 / 64 == line)
  if s.up && !mine.isEmpty then
    let t := s.applyAtomics mine
    .next { t with atomics := t.atomics.filter (fun e => e.1 / 64 != line) }
  else .next s

/-- An 8-byte receipt: region number and device (R428). -/
def receipt (region dev : Nat) : List Byte := leBytes 4 region ++ leBytes 4 dev

/-- The notice area of an entry (Table 15.5, .04): bits [63:17] hold the offset divided by 8, and above it the space; one
eight-byte cell. -/
def noticeArea (v : Nat) : DevAddr := { space := v / 2 ^ 45, core := 0, off := v % 2 ^ 45 * 8, bad := false }

/-- Land a receipt in the notice area of an entry, with its notice float (R421). -/
def State.landReceipt (s : State) (f : Nat) (e : Endpoint) (data : List Byte) : State :=
  let a := noticeArea e.area
  let t := s.addTerm Term.issued 8
  if s.addrOk f a 8 && (a.space == 1 || a.space == 2) && !s.partialBad (s.flat f a 0) 8 then
    (t.store (s.flat f a 0) data).countLanding (s.entryFloat f e.notice) 8
  else t.sumpBytes 8

/-- HANDOFF: the owner changes, the new owner is told, and the hand-off is acknowledged once it knows (R428, R429). -/
def execHandoff (p : Packet) (s : State) : Host.Outcome State Fault Refusal :=
  .next (s.receive p (fun t => do
    let r ← t.homeRegion p 0
    need (r.ownedBy p) Status.ownershipFault
    if p.newOwner = t.self then .ok (t.setRegion p.dstFn { r with dev := t.self, owner := p.dstFn })
    else
      match t.endpointDev p.dstFn p.newOwner with
      | none => .error Status.accessDenied
      | some e =>
        let u := (t.setRegion p.dstFn { r with dev := p.newOwner, owner := e.fn }).holdSeq p
        .ok (u.ask { id := 0, cid := 0, fn := p.dstFn, dev := p.newOwner, kind := 9, back := some ((packetKey p), p.seq) } 0x09
          { dstFn := e.fn, sub := p.sub, addr := domAddr t.self r.number 0 })))

/-- OWNER_NOTICE: a receipt lands in the notice area and the region is this function's to store to (R428). -/
def execOwnerNotice (p : Packet) (s : State) : Host.Outcome State Fault Refusal :=
  .next (s.receive p (fun t =>
    match t.endpointOf p.dstFn p.src p.srcFn with
    | some e =>
      let u := t.landReceipt p.dstFn e (receipt (domRegion p.addr) p.src)
      .ok (u.modFn p.dstFn (fun (x : Fn) => { x with owned := (x.owned.filter (· != (p.src, domRegion p.addr))) ++ [(p.src, domRegion p.addr)] }))
    | none => .error Status.accessDenied))

/-- Bytes of a BLOCK that are marked, written one by one; arrival counts as of a STORE (R431). -/
def State.writeMarks (s : State) (p : Packet) (base : Nat) : List (Nat × Byte) → Except Nat State
  | [] => .ok s
  | (o, b) :: l => do
    let t ← s.homeLand p (base + o % 4096) [b]
    t.writeMarks p base l

/-- BLOCK. -/
def execBlock (p : Packet) (s : State) : Host.Outcome State Fault Refusal :=
  if s.inboundWaits p 4096 then .next s
  else .next (s.receiveCounted p (fun t => do
    let r ← t.homeRegion p 4096
    need (r.ownedBy p) Status.ownershipFault
    t.writeMarks p (t.homeFlat p r) p.marks))

/-! ### Triggers at the target (R432, R433, R437) -/

/-- A procedure that can take triggers of a function: live, its context open and not faulted. -/
def State.procOpen (s : State) (p : Packet) : Option Proc :=
  match s.proc (fld p.addr 0 16) with
  | some q =>
    let x := s.ctx q.ctx
    if q.live && q.fn == p.dstFn && x.fn == q.fn && x.st != .free && x.st != .faulted && !x.closed then some q else none
  | none => none

/-- TRIGGER: accepted into the procedure's queue, or refused; while the queue is full it waits (R433). -/
def execTrigger (p : Packet) (s : State) : Host.Outcome State Fault Refusal :=
  if (s.procOpen p).any (fun q => decide (q.depth ≤ q.queue.length)) then .next s
  else .next (s.receive p (fun t =>
    match t.procOpen p with
    | some q =>
      let a : TrigReq := { dev := p.src, fn := p.srcFn, sub := p.sub, seq := p.seq, req := p.req, args := p.data.take 32 }
      .ok ((t.setProc (fld p.addr 0 16) { q with queue := q.queue ++ [a] }).addO q.fn 0x5050 9 1)
    | none => .error Status.triggerUnregistered))

/-- A list record as one of the registered context's: CTX and EPOCH the context's, JS on the first and JE on the last. -/
def listRecord (ctx epoch : Nat) (first last : Bool) (ws : List W32) : List W32 :=
  let w0 := setFld (setFld (setFld (wd ws 0).toNat 8 12 ctx) 20 1 first.toNat) 21 1 last.toNat
  let w1 := setFld (wd ws 1).toNat 16 16 epoch
  (ws.set 0 (BitVec.ofNat 32 w0)).set 1 (BitVec.ofNat 32 w1)

/-- Submit the records of a command list (R433). -/
def State.submitList (s : State) (q : Proc) (n i : Nat) : Nat → State
  | 0 => s
  | k + 1 =>
    let ws := s.wordsAt q.fn ((devAddr q.list).plus (64 * i)) 16
    (s.submit q.fn none (some n) (listRecord q.ctx (s.ctx q.ctx).epoch (i == 0) (k == 0) ws)).submitList q n (i + 1) k

/-- TRIGGERED_JOB_START: at a job boundary of the context the oldest trigger's arguments are written and its list runs as
one job; a context that is gone drops the trigger (R433). -/
def execTriggeredJobStart (n : Nat) (s : State) : Host.Outcome State Fault Refusal :=
  match s.proc n with
  | some q =>
    match q.queue with
    | a :: rest =>
      let x := s.ctx q.ctx
      let gone := x.fn != q.fn || x.st == .free || x.st == .faulted || x.closed
      if !s.up || s.resetting q.fn || q.active.isSome then .next s
      else if gone then .next ((s.setProc n { q with queue := rest }).setO q.fn 0x5050 8 Status.contextFaulted)
      else if x.openJob.isSome then .next s
      else
        let t := s.setProc n { q with queue := rest, active := some a }
        let t := t.store (s.flat q.fn (devAddr q.arg) 0) a.args
        .next (t.submitList q n 0 q.count)
    | [] => .next s
  | none => .next s

/-! ### Answers at the sender -/

def State.await? (s : State) (p : Packet) : Option Await :=
  s.awaits.find? (fun a => a.id == p.req && a.fn == p.dstFn && a.dev == p.src)
def State.dropAwait (s : State) (id : Nat) : State := { s with awaits := s.awaits.filter (fun a => a.id != id) }

/-- Pieces of an answer on their way to their place. -/
def State.issueAnswer (s : State) (a : Await) : List Part → State
  | [] => s
  | q :: l =>
    let p : Piece := { id := s.nextId, cid := a.cid, fn := a.fn, ctx := a.ctx, epoch := a.epoch, dst := q.flat, data := q.data, addr := q.dst, float := a.float }
    let t : State := { s with pieces := s.pieces ++ [p], nextId := s.nextId + 1 }
    (t.addTerm Term.issued q.data.length).issueAnswer a l

/-- An answer's data lands at LOCAL and counts into FLOAT (R423). -/
def State.landAnswer (s : State) (a : Await) (data : List Byte) : State :=
  ((s.dropAwait a.id).issueAnswer a (s.piecesFor a.fn (devAddr a.loc) data)).settle a.cid

/-- A fetched block fills the bytes of its page that no store marked (R431). -/
def State.fillPage (s : State) (f w i : Nat) (marks : List Nat) : List (Byte × Nat) → State
  | [] => s
  | (b, k) :: l =>
    (if marks.contains k then s else s.wr (s.flat f (s.pageAddr f w i) k) b).fillPage f w i marks l

/-- A standpipe fetch arrives; the load is served once every block of it is there. -/
def State.landFetch (s : State) (a : Await) (data : List Byte) : State :=
  let t := s.dropAwait a.id
  let w := (s.pipeOf a.fn a.addr).getD 0
  let t := match s.pageOf a.fn w (a.addr / 4096) with
    | some (i, p) => (t.fillPage a.fn w i p.marks data.zipIdx).setPage a.fn w i { p with fetched := true }
    | none => t
  match s.cmd? a.cid with
  | some c =>
    match fabOpOf c with
    | some o =>
      if !t.awaited a.cid && c.steps.isEmpty && c.status == Status.ok then
        (t.emitData c a.float (devAddr o.loc) (t.pipeBytes a.fn w o.remote o.len)).settle a.cid
      else t
    | none => t
  | none => t

/-- An answer of a kind arrives, from a device that has not failed; one that nothing waits for goes to the sump (R171,
R415, R436, R438). The data of an LDF reaches its thread with LDF_REPLY. -/
def State.takeAnswer (s : State) (p : Packet) (kinds : List Nat) : State :=
  if !s.up then s
  else if s.domain.declared.contains p.src then s.addG 0x5005 4 1
  else
    match s.await? p with
    | some a =>
      if kinds.contains a.kind then
        let t := if a.kind = 0x11 then s.landFetch a p.data else s.landAnswer a p.data
        t.acknowledgeReply p.dstFn p
      else if a.kind = 0x12 then s.acknowledgeReply p.dstFn p
      else s
    | none => (s.issueSump p.data.length).acknowledgeReply p.dstFn p

/-- LOAD_DATA. -/
def execLoadData (p : Packet) (s : State) : Host.Outcome State Fault Refusal := .next (s.takeAnswer p [1])
/-- ATOMIC_RESULT. -/
def execAtomicResult (p : Packet) (s : State) : Host.Outcome State Fault Refusal := .next (s.takeAnswer p [4])

/-- COPY_DATA: a piece of a COPY_IN lands at its requester, a piece of a COPY_OUT at its home (R423). -/
def execCopyData (p : Packet) (s : State) : Host.Outcome State Fault Refusal :=
  if p.reply then .next (s.takeAnswer p [6, 0x11])
  else if s.inboundWaits p p.data.length then .next s
  else .next (s.receiveCounted p (fun t => do
    let r ← t.homeRegion p p.data.length
    need (r.ownedBy p) Status.ownershipFault
    t.homeLand p (t.homeFlat p r) p.data))

/-- TRIGGER_DONE: RF_ADD is applied to RFLOAT once (R168, R433). -/
def execTriggerDone (p : Packet) (s : State) : Host.Outcome State Fault Refusal :=
  if !s.up then .next s
  else if s.domain.declared.contains p.src then .next (s.addG 0x5005 4 1)
  else
    match (s.triggers.find? (fun e => e.1 == p.req)).map (·.2) with
    | some (f, float, n) =>
      if f = p.dstFn then
        .next ((({ s with triggers := SMap.del p.req s.triggers }).addFloat float n).acknowledgeReply f p)
      else .next s
    | none => .next (s.acknowledgeReply p.dstFn p)

/-- Clear the marks that an acknowledged BLOCK shipped (R431). -/
def State.clearMarks (s : State) (a : Await) (q : Packet) : State :=
  let w := (s.pipeOf a.fn a.addr).getD 0
  match s.pageOf a.fn w (a.addr / 4096) with
  | some (i, p) => s.setPage a.fn w i { p with marks := p.marks.filter (fun m => !q.marks.any (fun e => e.1 == m)) }
  | none => s

/-- What the acknowledgement of one request does for what waited on it (R424, R428, R431). -/
def State.acked (s : State) (tag : Nat) (q : Packet) : State :=
  match s.awaits.find? (fun a => a.id == tag) with
  | none => s
  | some a =>
    match a.kind with
    | 3 => (s.dropAwait tag).settle a.cid
    | 7 => (s.dropAwait tag).settle a.cid
    | 0x0A => (s.dropAwait tag).settle a.cid
    | 0x0F => ((s.dropAwait tag).clearMarks a q).settle a.cid
    | 8 =>
      let t := s.modFn a.fn (fun (x : Fn) => { x with owned := x.owned.filter (· != (a.dev, domRegion a.addr)) })
      if a.loc = 0 then t.dropAwait tag else t.landAnswer a (receipt (domRegion a.addr) a.dev)
    | 9 =>
      let t := s.dropAwait tag
      match a.back with
      | some (k, seq) => (t.unholdSeq k seq).acknowledge (streamFn k) (streamDev k) (streamPeer k) (streamSub k)
      | none => t
    | _ => s
def State.ackedAll (s : State) : List (Nat × Nat × Nat × Packet) → State
  | [] => s
  | e :: l => (s.acked e.2.1 e.2.2.2).ackedAll l

/-- ACK: cumulative over a sub-stream's requests; REQ 1 names one kept answer, REQ 2 the end of a RETIRE (R414, R415,
R436). -/
def execAck (p : Packet) (s : State) : Host.Outcome State Fault Refusal :=
  if !s.up then .next s
  else if s.domain.declared.contains p.src then .next (s.addG 0x5005 4 1)
  else if p.req = 1 then
    .next (s.modStream (packetKey p) (fun (x : Stream) => { x with kept := x.kept.filter (fun e => e.1 != p.seq) }))
  else if p.req = 2 then
    .next (s.modFn p.dstFn (fun (x : Fn) => { x with acksLeft := x.acksLeft.filter (· != p.src * 1024 + p.srcFn) }))
  else
    let x := s.stream (packetKey p)
    let done := x.unacked.filter (fun e => decide (e.1 ≤ p.seq))
    let t := s.modStream (packetKey p) (fun (y : Stream) => { y with unacked := y.unacked.filter (fun e => decide (p.seq < e.1)), acked := max y.acked p.seq, sentAt := s.tb2us })
    .next (t.ackedAll done)

/-- A record's answer is a refusal: it ends with the status; steps not issued yet are not (R422). -/
def State.refused (s : State) (cid status : Nat) : State :=
  (s.modCmd cid (fun (d : Cmd) =>
    if d.status = Status.ok then
      { d with status := status, steps := [], phase := if d.engines.isEmpty && d.cls != 5 then .ended else d.phase }
    else d)).settle cid

/-- REFUSE; the status that refuses an LDF reaches its thread with LDF_REPLY. -/
def execRefuse (p : Packet) (s : State) : Host.Outcome State Fault Refusal :=
  if !s.up then .next s
  else if s.domain.declared.contains p.src then .next (s.addG 0x5005 4 1)
  else
    match s.await? p with
    | some a =>
      let t := if a.kind = 0x12 then s else s.dropAwait a.id
      let t := t.modStream (packetKey p) (fun (x : Stream) => { x with unacked := x.unacked.filter (fun e => e.2.1 != a.id) })
      let t : State := { t with triggers := SMap.del a.id t.triggers }
      let t := match a.back with
        | some (k, seq) => if a.kind = 9 then (t.unholdSeq k seq).acknowledge (streamFn k) (streamDev k) (streamPeer k) (streamSub k) else t
        | none => t
      .next ((if a.kind = 0x12 then t else t.refused a.cid p.status).acknowledgeReply p.dstFn p)
    | none => .next (s.acknowledgeReply p.dstFn p)

/-- The cut of one sub-stream (R436). -/
def Stream.retire (x : Stream) (cut : Nat) : Stream :=
  if x.expect < cut then { x with cutFrom := x.expect, cut := cut, expect := cut } else { x with cut := cut, cutFrom := cut }
def State.retireSubs (s : State) (p : Packet) : List Nat → State
  | [] => s
  | i :: l =>
    (s.modStream (streamKey p.dstFn p.src p.srcFn i) (fun x => x.retire (leNat ((p.data.drop (8 * i)).take 8)))).retireSubs p l

/-- RETIRE: its data are the cuts of the eight sub-streams. -/
def execRetire (p : Packet) (s : State) : Host.Outcome State Fault Refusal :=
  if !s.up then .next s
  else if s.domain.declared.contains p.src then .next (s.addG 0x5005 4 1)
  else
    let t := s.retireSubs p (List.range 8)
    .next (t.emit p.src 0x0C false { src := s.self, srcFn := p.dstFn, dstFn := p.srcFn, req := 2 })

/-! ### Resending (R416) -/

/-- Send packets again on the lane that the up lanes now give, counting each (G:0x5005.02). -/
def State.resend (s : State) (dev : Nat) : List (Nat × Nat × Nat × Packet) → State
  | [] => s
  | e :: l => ((s.emit dev e.2.2.1 false e.2.2.2).addG 0x5005 2 1).resend dev l
def State.resendStream (s : State) (k : Nat) : State :=
  (s.modStream k (fun (x : Stream) => { x with sentAt := s.tb2us })).resend (streamDev k) (s.stream k).unacked
def State.resendStreams (s : State) : List Nat → State
  | [] => s
  | k :: ks => (s.resendStream k).resendStreams ks

/-- RESEND_TIMEOUT: no ACK came within G:0x5005.01. -/
def execResendTimeout (f dev sub : Nat) (s : State) : Host.Outcome State Fault Refusal :=
  if !isFn f || decide (8192 ≤ dev) || decide (8 ≤ sub) then .fault .noSuchUnit
  else if !s.up then .next s
  else
    let late := s.streams.filter (fun e => streamFn e.1 == f && streamDev e.1 == dev && streamSub e.1 == sub &&
      !e.2.unacked.isEmpty && decide (e.2.sentAt + s.g 0x5005 1 ≤ s.tb2us))
    .next (s.resendStreams (late.map (·.1)))

/-! ### Failed peers (R430, R435, R447) -/

/-- Regions that a failed device owns return to their home functions, with a receipt (R430). -/
def State.returnRegions (s : State) (f dev : Nat) : List Region → State
  | [] => s
  | r :: rs =>
    if r.dev = dev ∧ dev ≠ s.self ∧ r.exported then
      let t := s.setRegion f { r with dev := s.self, owner := f }
      let t := match s.endpointDev f dev with
        | some e => t.landReceipt f e (receipt r.number s.self)
        | none => t
      t.returnRegions f dev rs
    else s.returnRegions f dev rs
def State.returnAll (s : State) (dev : Nat) : List Nat → State
  | [] => s
  | f :: fs => (s.returnRegions f dev (s.fn f).regions).returnAll dev fs

/-- Records of this device that wait for answers of a peer complete with PEER_FENCED (R435). -/
def State.fenceAwaits (s : State) : List Await → State
  | [] => s
  | a :: l =>
    let t := (s.dropAwait a.id).refused a.cid Status.peerFenced
    (match a.back with
      | some (k, seq) => if a.kind = 9 then (t.unholdSeq k seq).acknowledge (streamFn k) (streamDev k) (streamPeer k) (streamSub k) else t
      | none => t).fenceAwaits l

/-- A FABRIC fence toward a device. -/
def Cmd.fencesDev (c : Cmd) (dev : Nat) : Bool := c.cls == 5 && c.form == 1 && c.phase == .running && (c.w 4).fld 0 14 == dev

/-- Everything between this device and a failed one ends: its records, fences, regions, streams and session (R430, R435,
R438, R447). -/
def State.fencePeer (s : State) (dev : Nat) : State :=
  let t : State := { s with domain := { s.domain with declared := if s.domain.declared.contains dev then s.domain.declared else s.domain.declared ++ [dev] } }
  let t := t.fenceAwaits (t.awaits.filter (fun a => a.dev == dev && a.kind != 0x12))
  let t := t.mapCmds (fun (c : Cmd) =>
    if c.fencesDev dev then { c with phase := .ended, did := true, status := Status.peerFenced }
    else if c.phase = .running && !c.steps.isEmpty && (fabOpOf c).any (fun o => o.dev == dev) && c.status == Status.ok then
      { c with steps := [], status := Status.peerFenced, phase := if c.engines.isEmpty then .ended else c.phase }
    else c)
  let t := t.returnAll dev (t.fns.map (·.1))
  { t with
    answers := t.answers.filter (fun h => h.dev != dev)
    streams := t.streams.filter (fun e => streamDev e.1 != dev)
    sessions := t.sessions.filter (fun e => e.1 != dev)
    lanes := t.lanes.map (fun (e : Nat × Lane) => (e.1, { e.2 with wait := e.2.wait.filter (fun w => w.2.2.dst != dev) })) }

end Sys2Proof.Machine
end

