-- ==== Sys2Proof/Machine/FabricLanes.lean ====
section
/-!
DEFINITION. Lanes, sessions and the control objects of the fabric: FABRIC_LANE_DOWN, FABRIC_LANE_TRAINED,
LANE_BLOCK_RECEIVE, LANE_ROLE_WRITE, SESSION_KEYING and the endpoint, region and procedure controls (R406-R412, R419-R421,
R432, R439).
-/

namespace Sys2Proof.Machine

/-! ### Lanes -/

/-- A lane loses its link: its terms close and every sub-stream that it carried chooses again and resends (R408, R416,
R551). -/
def State.laneDown (s : State) (l : Nat) : State :=
  let moved := (s.streams.filter (fun e => !e.2.unacked.isEmpty &&
    s.laneFor (streamDev e.1) (streamPeer e.1) (streamSub e.1) == some l)).map (·.1)
  ((s.setG 0x5002 (l + 1) 0).setLane l {}).resendStreams moved

/-- FABRIC_LANE_DOWN. -/
def execFabricLaneDown (l : Nat) (s : State) : Host.Outcome State Fault Refusal :=
  if 64 ≤ l then .fault .noSuchUnit
  else if s.up && s.g 0x5002 (l + 1) != 0 then .next (s.laneDown l) else .next s

/-- FABRIC_LANE_TRAINED: the lane joins with its initial credits, or is refused (R409, R411). -/
def execFabricLaneTrained (l : Nat) (identityOk : Bool) (s : State) : Host.Outcome State Fault Refusal :=
  if 64 ≤ l then .fault .noSuchUnit
  else if !s.up || s.g 0x5001 (l + 1) == 0 || s.g 0x5002 (l + 1) == 3 then .next s
  else if identityOk then
    let grant := (List.range 4).map Config.laneGrant
    .next ((s.setG 0x5002 (l + 1) 3).setLane l { held := grant, received := grant, peer := grant, buffer := grant })
  else .next ((s.setG 0x5002 (l + 1) 4).addG 0x5005 6 1)

/-- Add lists of four. -/
def add4 (a b : List Nat) : List Nat := (List.range 4).map (fun k => a.getD k 0 + b.getD k 0)

/-- Whether a receiver withholds credits of a class: atomics while the atomic unit is full, requests while a procedure's
queue is full (R409, R426, R433). -/
def State.withholds (s : State) (cls : Nat) : Bool :=
  if cls = 2 then decide (4096 ≤ s.atomics.length) || decide (64 ≤ ((s.atomics.map (fun e => e.1 / 64)).eraseDups).length)
  else if cls = 0 then s.procs.any (fun e => decide (e.2.depth ≤ e.2.queue.length))
  else false

/-- A packet's counter under its session: fresh among the last 65,536 values (R412). -/
def Session.fresh (x : Session) (n : Nat) : Bool := decide (x.hi < n + 65536) && !x.seen.contains n
def Session.accept (x : Session) (n : Nat) : Session :=
  { x with hi := max x.hi n, seen := (x.seen.filter (fun k => decide (max x.hi n < k + 65536))) ++ [n] }

/-- A packet of a block: its slots pass through the receive buffer; without a session, with a failed tag or with a stale
counter it is a tag failure (R409, R412). -/
def State.takePacket (s : State) (l : Nat) (b : BlockPacket) : State :=
  let x := s.lane l
  let t := s.setLane l { x with peer := tweak x.peer b.cls (· - b.slots), owed := tweak x.owed b.cls (· + min b.slots (x.peer.getD b.cls 0)) }
  if s.hasSession b.src && b.tagOk && (s.session b.src).fresh b.nctr then t.setSession b.src ((s.session b.src).accept b.nctr)
  else (t.addG 0x5005 7 1).raise ErrCode.tagFailure none16 none16 b.src
def State.takePackets (s : State) (l : Nat) : List BlockPacket → State
  | [] => s
  | b :: bs => (s.takePacket l b).takePackets l bs

/-- Return the owed credits of the classes that are not withheld. -/
def State.returnCredits (s : State) (l : Nat) : State :=
  let x := s.lane l
  let back (k : Nat) : Nat := if s.withholds k then 0 else x.owed.getD k 0
  let ret := (List.range 4).map back
  s.setLane l { x with peer := add4 x.peer ret, owed := (List.range 4).map (fun k => x.owed.getD k 0 - ret.getD k 0) }

/-- A good block in sequence (R407). -/
def State.takeBlock (s : State) (l bseq back : Nat) (credits : List Nat) (packets : List BlockPacket) : State :=
  let x := s.lane l
  let t := s.setLane l { x with expect := (bseq + 1) % 2 ^ 24, back := back, replays := 0, bad := false,
                                held := add4 x.held credits, received := add4 x.received credits }
  ((t.takePackets l packets).returnCredits l).flushLane l

/-- LANE_BLOCK_RECEIVE: a corrected block is counted; an uncorrectable one makes the sender replay, eight times in a row
take the lane down; a block out of sequence is not taken (R407, R408). -/
def execLaneBlockReceive (l : Nat) (kind : BlockKind) (bseq back : Nat) (credits : List Nat) (packets : List BlockPacket)
    (s : State) : Host.Outcome State Fault Refusal :=
  if 64 ≤ l then .fault .noSuchUnit
  else if !s.up || s.g 0x5002 (l + 1) != 3 then .next s
  else
    match kind with
    | .uncorrectable =>
      let x := s.lane l
      let t := (s.addG 0x5004 (l + 1) 1).setLane l { x with bad := true, replays := x.replays + 1 }
      .next (if 8 ≤ x.replays + 1 then t.laneDown l else t)
    | .corrected =>
      let t := s.addG 0x5003 (l + 1) 1
      .next (if (s.lane l).expect = bseq then t.takeBlock l bseq back credits packets else t)
    | .clean => .next (if (s.lane l).expect = bseq then s.takeBlock l bseq back credits packets else s)

/-- The rule of a role write: a lane of the partner mechanism leaves role 2 only with protection off (R406, Table 20.5). -/
def roleRule (l role : Nat) (_ : ObjRow) (s : State) : Except Refused State := do
  ensure (s.g 0xA007 (l + 1) != 1023 || role == 2 || s.g 0x5012 1 == 0) Status.resourceHeld 1023
  .ok s
/-- The effect of a role write once it is stored. -/
def State.setRole (s : State) (l role : Nat) : State :=
  (s.setG 0x5001 (l + 1) role).setG 0xA007 (l + 1) (if role = 2 then 1023 else none16)

/-- LANE_ROLE_WRITE. -/
def execLaneRoleWrite (path : Path) (l role : Nat) (s : State) : Host.Outcome State Fault Refusal :=
  .next (s.access path 1023 0x5001 (l + 1) none role (roleRule l role))

/-- Let what waited for a session go out. -/
def State.flushLanes (s : State) : List Nat → State
  | [] => s
  | l :: ls => (s.flushLane l).flushLanes ls

/-- SESSION_KEYING: a session is keyed under R513; not while the device's own δ is 1, and not while its entropy test
fails, which is a hardware error (R505). -/
def execSessionKeying (dev : Nat) (peerOk : Bool) (s : State) : Host.Outcome State Fault Refusal :=
  if 8192 ≤ dev then .fault .noSuchUnit
  else if !s.up || s.hasSession dev || s.sec.delta || !peerOk then .next s
  else if !s.sec.entropyOk then .next (s.raise ErrCode.other none16 none16 0)
  else .next ((s.setSession dev {}).flushLanes (List.range 64))

/-! ### Control objects (R439) -/

/-- A float field of an endpoint: index in [15:0], enable in [16]. -/
def floatField (v : Nat) : Option Nat := if fld v 16 1 = 1 then some (fld v 0 16) else none

/-- Commit or clear the endpoint entry under the cursor (R421). -/
def endpointRule (f value : Nat) (_ : ObjRow) (s : State) : Except Refused State := do
  let i := s.o f 0x5020 1
  let peer := s.o f 0x5020 2
  let x := s.fn f
  ensure (decide (value ≤ 1)) Status.shapeInvalid
  ensure (decide (i < s.o f 0x3020 7)) Status.quotaExhausted
  let put (m : SMap Endpoint) (t : State) : State :=
    let gone := (x.endpoints.filter (fun e => !m.any (fun d => d.2.dev == e.2.dev && d.2.fn == e.2.fn))).map (fun e => (e.2.dev, e.2.fn))
    let u := (t.modFn f (fun (y : Fn) => { y with endpoints := m })).setO f 0x5020 6 m.length
    { u with streams := u.streams.filter (fun e => !(streamFn e.1 == f && gone.contains (streamDev e.1, streamPeer e.1))) }
  if value = 0 then .ok (put (SMap.del i x.endpoints) s)
  else
    let arrival := floatField (s.o f 0x5020 3)
    let notice := floatField (s.o f 0x5020 4)
    let e : Endpoint := { dev := fld peer 0 13, fn := fld peer 16 10, arrival := arrival, notice := notice, area := s.o f 0x5020 4 / 2 ^ 17 }
    ensure (isFn e.fn && fld peer 13 3 == 0 && fld peer 26 6 == 0) Status.shapeInvalid
    ensure (x.endpoints.all (fun d => d.1 == i || d.2.dev != e.dev)) Status.shapeInvalid
    ensure ((arrival.all (fun k => (s.floatOf f k).isSome)) && (notice.all (fun k => (s.floatOf f k).isSome))) Status.floatInvalid
    .ok (put (SMap.put i e x.endpoints) s)

/-- ENDPOINT_CONTROL_WRITE. -/
def execEndpointControlWrite (path : Path) (f value : Nat) (s : State) : Host.Outcome State Fault Refusal :=
  .next (s.access path f 0x5020 5 none value (endpointRule f value))

/-- Commit or clear the region slot under the cursor (R419, R420). -/
def regionRule (f value : Nat) (_ : ObjRow) (s : State) : Except Refused State := do
  let i := s.o f 0x5030 1
  let base := s.o f 0x5030 3
  let flags := if value = 0 then 0 else s.o f 0x5030 4
  ensure (decide (value ≤ 1)) Status.shapeInvalid
  match (s.fn f).regions[i]? with
  | none => .error ⟨Status.shapeInvalid, 0⟩
  | some r =>
    let a := devAddr base
    let exported := fld flags 0 1 == 1
    let away := r.exported && !(r.dev == s.self && r.owner == f)
    ensure (value == 0 || ((a.space == 1 || a.space == 2) && a.off % 2 ^ 21 == 0 && s.addrOk f a (2 ^ 21))) Status.addressInvalid
    ensure (!r.exported || !exported || base == r.base) Status.accessDenied
    ensure (!(away && !exported)) Status.accessDenied
    let own := exported && !r.exported
    .ok (s.setRegion f { r with base := if value = 0 then 0 else base, flags := flags, dev := if own then s.self else r.dev, owner := if own then f else r.owner })

/-- REGION_CONTROL_WRITE. -/
def execRegionControlWrite (path : Path) (f value : Nat) (s : State) : Host.Outcome State Fault Refusal :=
  .next (s.access path f 0x5030 6 none value (regionRule f value))

/-- Register or unregister the procedure under the cursor (R432). -/
def procedureRule (f value : Nat) (_ : ObjRow) (s : State) : Except Refused State := do
  let n := s.o f 0x5050 1
  let c := s.o f 0x5050 2
  ensure (decide (value ≤ 1)) Status.shapeInvalid
  if value = 0 then
    match s.proc n with
    | some q => if q.fn = f then .ok (s.setProc n { q with live := false }) else .error ⟨Status.resourceHeld, q.fn⟩
    | none => .ok s
  else
    match s.proc n with
    | some q => .error ⟨Status.resourceHeld, q.fn⟩
    | none =>
      let x := s.ctx c
      let list := devAddr (s.o f 0x5050 3)
      let arg := devAddr (s.o f 0x5050 5)
      ensure (decide (c < 4096) && x.fn == f && x.st != .free && !x.closed) Status.contextInvalid
      ensure ((list.space == 1 || list.space == 2) && s.addrOk f list (64 * s.o f 0x5050 4)) Status.addressInvalid
      ensure ((arg.space == 1 || arg.space == 2) && s.addrOk f arg 32) Status.addressInvalid
      .ok (s.setProc n { fn := f, ctx := c, list := s.o f 0x5050 3, count := s.o f 0x5050 4, arg := s.o f 0x5050 5, depth := s.o f 0x5050 6 })

/-- PROCEDURE_CONTROL_WRITE. -/
def execProcedureControlWrite (path : Path) (f value : Nat) (s : State) : Host.Outcome State Fault Refusal :=
  .next (s.access path f 0x5050 7 none value (procedureRule f value))

end Sys2Proof.Machine
end

