-- ==== Sys2Proof/Machine/Pump.lean ====
section
/-!
DEFINITION. Pump commands: PUMP_COPY and PUMP_TRANSPOSE (R160-R165, R199, Table 6.2), and the path calendars of a pump
command (R47, R159).
-/

namespace Sys2Proof.Machine

/-! ### COPY -/

/-- Another core runs a command of the same job (R160). -/
def State.runsOn (s : State) (c : Cmd) (core : Nat) : Bool :=
  s.cmds.any (fun d => d.id != c.id && d.ctx == c.ctx && d.job == c.job && d.jobbed && d.fn == c.fn &&
    d.phase == .running && d.engines.any (fun e => coreOf e == some core))

/-- The cistern or GDDR7. -/
def DevAddr.isMem (a : DevAddr) : Bool := a.space == 1 || a.space == 2

/-- The source and destination pairs of Table 6.2 for a pump; a core's landing zone is part of its well (R152). -/
def State.pairOk (s : State) (c : Cmd) (id : Nat) (a b : DevAddr) : Bool :=
  if calClass id = 2 then
    let mine (x : DevAddr) : Bool := (x.space == 0 || x.space == 4) && x.core == calInst id
    let other (x : DevAddr) : Bool := x.space == 0 && x.core != calInst id && s.runsOn c x.core
    (mine a && (b.isMem || b.space == 15 || other b)) || (mine b && (a.isMem || other a))
  else if calClass id = 18 then a.isMem && (b.isMem || b.space == 4 || b.space == 15)
  else if calClass id = 19 then a.isMem && b.space == 15
  else false

/-- A record of the fabric pump that moves data to or from the fabric. -/
def Cmd.isFab (c : Cmd) : Bool := (fabOpOf c).isSome

/-- A source that some pair of Table 6.2 allows for a pump. -/
def State.sourceOk (s : State) (c : Cmd) (id : Nat) (a : DevAddr) : Bool :=
  a.isMem || (calClass id == 2 && (((a.space == 0 || a.space == 4) && a.core == calInst id) ||
    (a.space == 0 && s.runsOn c a.core)))

/-- The checks of a move of n bytes on a pump (R160, R193, R199, R420): DETAIL names the address that fails. -/
def State.checkMove (s : State) (c : Cmd) (id n : Nat) : Except Refused Unit := do
  let a := c.addr 4
  let b := c.addr 6
  ensure (!a.bad && s.sourceOk c id a) Status.addressInvalid (wd64 c.words 4)
  ensure (!b.bad && s.pairOk c id a b) Status.addressInvalid (wd64 c.words 6)
  s.needAddr c 4 a n
  s.needAddr c 6 b n
  ensure (!s.ownedElsewhere c.fn b n) Status.ownershipFault (wd64 c.words 6)

/-- The checks of a COPY; its float is checked first (R167). -/
def State.checkCopy (s : State) (c : Cmd) (id : Nat) : Except Refused (Option Nat) := do
  let float ← s.float9 c
  s.checkMove c id (c.w 8).toNat
  .ok float

/-- A byte range of a function as the source of a piece: GDDR7 is read block by block, elsewhere the first uncorrectable
byte spoils the piece. -/
def State.partOf (s : State) (f : Nat) (dst flat : Nat) (srcs : List DevAddr) : Part :=
  { dst := dst, flat := flat, data := srcs.map (fun a => s.rd (s.flat f a 0))
    srcs := srcs.filter (fun a => a.space == 2)
    bad := (srcs.find? (fun a => a.space != 2 && (s.readBad f a 1).isSome)).map DevAddr.word }

/-- The parts of a copy: cut at the 4 KiB boundaries of the destination (R161); the sump has no flat address of its own
(R164). -/
def State.copyParts (s : State) (f : Nat) (a b : DevAddr) (n : Nat) : List Part :=
  (cutsOf b.off n).map (fun (x : Nat × Nat) =>
    s.partOf f (b.plus x.1).word (if b.space = 15 then Mem.sump else s.flat f b x.1) ((span x.1 x.2).map a.plus))

/-- The compute die of a core (R9). -/
def boardOf (core : Nat) : Nat := core / 48
/-- Latency from issue to presentation of a read (Table 6.3). -/
def readLatency (core : Bool) (space : Nat) : Nat :=
  if space = 2 then (if core then 252 else 240) else if space = 1 then (if core then 40 else 28) else 0
/-- How a pump or transpose engine moves data between two addresses (Tables 6.2 and 6.3). -/
def paceOf (id : Nat) (a b : DevAddr) : Pace :=
  let core := calClass id == 2
  { read := readLatency core a.space, rate := if core then 128 else 256
    land := if core && a.space == 0 && b.space == 0 && a.core != b.core then (if boardOf a.core = boardOf b.core then 30 else 42)
            else if b.space = 4 ∧ core = false then 30 else landLatency core b.space }

/-- Issue the parts of a transfer that have not been issued before a preemption (R163). -/
def State.moveParts (s : State) (c : Cmd) (pace : Pace) (float : Option Nat) (l : List Part) : State :=
  s.issueFrom c pace float [] 0 c.part (l.drop c.part)

/-- Move n bytes from W4-W5 to W6-W7 of a record; a float counts nothing that goes to the sump (R164). -/
def State.moveBytes (s : State) (c : Cmd) (n : Nat) (float : Option Nat) : State :=
  let a := c.addr 4
  let b := c.addr 6
  s.moveParts c (paceOf c.onEngine a b) float (s.copyParts c.fn a b n)

/-- The effect of a COPY. -/
def copyEffect (c : Cmd) (s : State) : Except Refused (State × List Nat) := do
  if c.isFab then fabricEffect c s
  else
    let float ← s.checkCopy c c.onEngine
    .ok (s.moveBytes c (c.w 8).toNat float, [])

/-- PUMP_COPY. -/
def execPumpCopy (cid : Nat) (s : State) : Host.Outcome State Fault Refusal :=
  .next (s.perform cid (fun c => c.cls == 2 && c.form == 0) copyEffect)

/-! ### TRANSPOSE (R165) -/

/-- The fields of a TRANSPOSE (Table 7.8): rows, columns, element bytes, pitches. -/
structure Trans where
  rows : Nat
  cols : Nat
  es   : Nat
  sp   : Nat
  dp   : Nat
  deriving DecidableEq, Repr

def transOf (c : Cmd) : Trans :=
  { rows := (c.w 10).fld 0 9, cols := (c.w 10).fld 9 9, es := 2 ^ (c.w 10).fld 18 2, sp := (c.w 11).toNat, dp := (c.w 12).toNat }

/-- The source rows and the destination rows, as offsets and lengths. -/
def Trans.srcRows (t : Trans) : List (Nat × Nat) := (List.range t.rows).map (fun r => (r * t.sp, t.cols * t.es))
def Trans.dstRows (t : Trans) : List (Nat × Nat) := (List.range t.cols).map (fun r => (r * t.dp, t.rows * t.es))

/-- The checks of a TRANSPOSE. -/
def State.checkTranspose (s : State) (c : Cmd) : Except Refused (Option Nat) := do
  let a := c.addr 4
  let b := c.addr 6
  let t := transOf c
  let float ← s.float9 c
  ensure (decide (1 ≤ t.rows) && decide (t.rows ≤ 256) && decide (1 ≤ t.cols) && decide (t.cols ≤ 256) && decide (t.es ≤ 4))
    Status.shapeInvalid
  ensure (!a.bad && a.isMem) Status.addressInvalid (wd64 c.words 4)
  ensure (!b.bad && b.isMem) Status.addressInvalid (wd64 c.words 6)
  t.srcRows.forM (fun (r : Nat × Nat) => s.needAddr c 4 (a.plus r.1) r.2)
  t.dstRows.forM (fun (r : Nat × Nat) => s.needAddr c 6 (b.plus r.1) r.2)
  ensure (!(t.srcRows.any (fun (p : Nat × Nat) => t.dstRows.any (fun (q : Nat × Nat) => (a.plus p.1).overlaps p.2 (b.plus q.1) q.2))))
    Status.shapeInvalid
  ensure (t.dstRows.all (fun (q : Nat × Nat) => !s.ownedElsewhere c.fn (b.plus q.1) q.2)) Status.ownershipFault (wd64 c.words 6)
  .ok float

/-- Byte i of destination row k: byte i mod es of element (i / es, k) of the source. -/
def Trans.srcOff (t : Trans) (k i : Nat) : Nat := i / t.es * t.sp + k * t.es + i % t.es

/-- The parts of a transposed block. -/
def State.transParts (s : State) (f : Nat) (a b : DevAddr) (t : Trans) : List Part :=
  (List.range t.cols).flatMap (fun k =>
    let row := b.plus (k * t.dp)
    (cutsOf row.off (t.rows * t.es)).map (fun (x : Nat × Nat) =>
      s.partOf f (row.plus x.1).word (s.flat f row x.1) ((span x.1 x.2).map (fun i => a.plus (t.srcOff k i)))))

/-- The effect of a TRANSPOSE. -/
def transposeEffect (c : Cmd) (s : State) : Except Refused (State × List Nat) := do
  let float ← s.checkTranspose c
  let a := c.addr 4
  let b := c.addr 6
  .ok (s.moveParts c (paceOf c.onEngine a b) float (s.transParts c.fn a b (transOf c)), [])

/-- PUMP_TRANSPOSE. -/
def execPumpTranspose (cid : Nat) (s : State) : Host.Outcome State Fault Refusal :=
  .next (s.perform cid (fun c => c.cls == 2 && c.form == 1) transposeEffect)

/-! ### Paths (R47, R159) -/

/-- The ranges that a pump command moves: source and destination offsets and lengths; a fabric pump moves its local end. -/
def Cmd.rows (c : Cmd) : List (Nat × Nat) × List (Nat × Nat) :=
  if c.form = 1 then ((transOf c).srcRows, (transOf c).dstRows) else ([(0, (c.w 8).toNat)], [(0, (c.w 8).toNat)])

/-- The spine-track and channel calendars of the lines that a pump moves between two addresses (R47, R54, R55, R159). -/
def State.wayCals (s : State) (f : Nat) (a b : DevAddr) (r : List (Nat × Nat) × List (Nat × Nat)) : List Nat :=
  let ends (x : DevAddr) (l : List (Nat × Nat)) : List Nat := l.flatMap (fun p => lineTracks (x.off + p.1) p.2)
  let tracks :=
    if a.space = 1 ∨ b.space = 1 then (if a.space = 1 then ends a r.1 else []) ++ (if b.space = 1 then ends b r.2 else [])
    else if a.space = 2 then ends a r.1
    else if b.space = 2 then ends b r.2
    else if b.space = 15 then ends a r.1 else ends b r.2
  let chans (x : DevAddr) (l : List (Nat × Nat)) : List Nat := l.flatMap (fun p => s.channelsOf f (x.plus p.1) p.2)
  (tracks.map (calId 20)).eraseDups ++ ((chans a r.1 ++ chans b r.2).map (calId 21)).eraseDups

end Sys2Proof.Machine
end

