-- ==== Sys2Proof/Machine/Vector.lean ====
section
/-!
DEFINITION. The vector engine (05): streams, operands, masks, the operations of Table 5.2, reductions, permutations and
quantisation, with the checks of R124-R144.
-/

namespace Sys2Proof.Machine

/-- A stream of the well: byte address, row pitch in bytes (0 packed at `len` elements), element width in bits (R125). -/
structure VStream where
  addr : Nat
  pitch : Nat
  rows : Nat
  len : Nat
  bits : Nat
  deriving DecidableEq, Repr

/-- Bit address of element i of row r. -/
def VStream.bitAt (v : VStream) (r i : Nat) : Nat :=
  if v.pitch = 0 then 8 * v.addr + (r * v.len + i) * v.bits else 8 * (v.addr + r * v.pitch) + i * v.bits
/-- The distance between the starts of two rows in bits. -/
def VStream.step (v : VStream) : Nat := if v.pitch = 0 then v.len * v.bits else 8 * v.pitch
/-- Two streams of the same bytes element by element: the exact coincidence of R127. -/
def VStream.same (v w : VStream) : Bool :=
  v.addr == w.addr && v.bits == w.bits && v.rows == w.rows && v.len == w.len && (decide (v.rows ≤ 1) || v.step == w.step)
/-- First byte and length of the region that a stream spans. -/
def VStream.region (v : VStream) : Nat × Nat :=
  if v.rows = 0 ∨ v.len = 0 then (v.addr, 0)
  else (v.addr, cdiv (v.bitAt (v.rows - 1) v.len) 8 - v.addr)

def State.vget (s : State) (well : Nat) (v : VStream) (r i : Nat) : Nat :=
  let b := v.bitAt r i
  fld (s.rdNat (well + b / 8) (cdiv (b % 8 + v.bits) 8)) (b % 8) v.bits
def State.vput (s : State) (well : Nat) (v : VStream) (r i x : Nat) : State :=
  let b := v.bitAt r i
  let n := cdiv (b % 8 + v.bits) 8
  s.wrN (well + b / 8) (leBytes n (setFld (s.rdNat (well + b / 8) n) (b % 8) v.bits x))
/-- Write elements of rows. -/
def State.vputs (s : State) (well : Nat) (v : VStream) : List (Nat × Nat × Nat) → State
  | [] => s
  | e :: l => (s.vput well v e.1 e.2.1 e.2.2).vputs well v l

/-! ### Record fields (Table 7.7) -/

def Cmd.vop (c : Cmd) : Nat := (c.w 4).fld 0 6
def Cmd.vpred (c : Cmd) : Nat := (c.w 4).fld 6 4
def Cmd.vfa (c : Cmd) : Nat := (c.w 4).fld 10 5
def Cmd.vfb (c : Cmd) : Nat := (c.w 4).fld 15 5
def Cmd.vfd (c : Cmd) : Nat := (c.w 4).fld 20 5
def Cmd.vrows (c : Cmd) : Nat := (c.w 5).fld 0 17
def Cmd.vlen (c : Cmd) : Nat := (c.w 6).fld 0 17
def Cmd.vmsrc (c : Cmd) : Nat := (c.w 11).fld 21 2
def Cmd.vinv (c : Cmd) : Bool := (c.w 11).bit 23
def Cmd.vsat (c : Cmd) : Bool := (c.w 11).bit 24
def Cmd.vbound (c : Cmd) : Bool := (c.w 11).bit 25
/-- VL_S or VL_D of GATHER and SCATTER (R198). -/
def Cmd.vlx (c : Cmd) : Nat := (c.w 9).fld 0 17

/-- The operations of Table 5.2. -/
def vopListed (op : Nat) : Bool :=
  (decide (0x01 ≤ op) && decide (op ≤ 0x0C)) || op == 0x10 || op == 0x11 || (decide (0x18 ≤ op) && decide (op ≤ 0x20)) ||
    (decide (0x28 ≤ op) && decide (op ≤ 0x2E)) || op == 0x30 || op == 0x31 || op == 0x32 || op == 0x34
def vopReduce (op : Nat) : Bool := decide (0x28 ≤ op) && decide (op ≤ 0x2E)
/-- ARGMAX, ARGMIN and COUNT, which write INT32. -/
def vopIndexOut (op : Nat) : Bool := op == 0x2C || op == 0x2D || op == 0x2E
def vopIndexed (op : Nat) : Bool := op == 0x30 || op == 0x31 || op == 0x32
/-- Operations that take operand b as data. -/
def vopB (op : Nat) : Bool := [0x01, 0x02, 0x03, 0x04, 0x05, 0x06, 0x0A, 0x0C, 0x10, 0x20].contains op
/-- Operations that take operand c. -/
def vopC (op : Nat) : Bool := op == 0x04 || op == 0x0B
/-- Operations on float sources only (R134). -/
def vopFloat (op : Nat) : Bool := op == 0x11 || (decide (0x18 ≤ op) && decide (op ≤ 0x20)) || op == 0x34
/-- The destination's format code; INT32 for index results. -/
def Cmd.vdst (c : Cmd) : Nat := if vopIndexOut c.vop then 0x07 else c.vfd
/-- Bound bytes are written with a BF16 or FP16 destination (R71, R144). -/
def Cmd.vbounds (c : Cmd) : Bool := c.vbound && !(vopIndexOut c.vop || c.vop == 0x0A || c.vop == 0x34)

/-- A stream word: address and pitch in bytes (R198). -/
def vstream (w : W32) (rows len bits : Nat) : VStream := ⟨w.fld 0 21, 64 * w.fld 21 11, rows, len, bits⟩

/-- Operand streams of a command: a, b, c, none for an immediate or an operand that the operation does not take. -/
def Cmd.vA (c : Cmd) : Option VStream :=
  if c.vop = 0x31 ∧ (c.w 4).fld 25 2 ≠ 1 then some { vstream (c.w 7) 1 c.vlx (fmtBits c.vfa) with pitch := 0 }
  else if (c.w 4).fld 25 2 = 1 then none
  else some (vstream (c.w 7) c.vrows (if (c.w 4).fld 25 2 = 2 then 1 else c.vlen) (fmtBits c.vfa))
def Cmd.vB (c : Cmd) : Option VStream :=
  if !(vopB c.vop || vopIndexed c.vop) || (c.w 4).fld 27 2 == 1 then none
  else some (vstream (c.w 8) c.vrows (if (c.w 4).fld 27 2 = 2 then 1 else c.vlen) (if vopIndexed c.vop then 32 else fmtBits c.vfb))
def Cmd.vC (c : Cmd) : Option VStream :=
  if !vopC c.vop || (c.w 4).fld 29 2 == 1 then none
  else some (vstream (c.w 9) c.vrows (if (c.w 4).fld 29 2 = 2 then 1 else c.vlen) (fmtBits c.vfb))
/-- The destination: a bitmap for CMP, one element per row for a reduction, a vector of VL_D for SCATTER. -/
def Cmd.vD (c : Cmd) : VStream :=
  if c.vop = 0x0A then { vstream (c.w 10) c.vrows c.vlen 1 with pitch := 0 }
  else if vopReduce c.vop then vstream (c.w 10) c.vrows 1 (fmtBits c.vdst)
  else if c.vop = 0x32 then { vstream (c.w 10) 1 c.vlx (fmtBits c.vfd) with pitch := 0 }
  else vstream (c.w 10) c.vrows c.vlen (fmtBits c.vfd)
/-- The mask bitmap (R125). -/
def Cmd.vM (c : Cmd) : VStream := ⟨(c.w 11).fld 0 21, 0, c.vrows, c.vlen, 1⟩
/-- The scale output stream of QUANT (R198). -/
def Cmd.vScale (c : Cmd) : VStream := vstream (c.w 9) c.vrows (c.vlen / 32) 8
/-- The bound bytes behind the destination (R144): ROWS rows of ROWLEN elements, for a reduction and a SCATTER too (DEDUCED,
log entry 82). -/
def Cmd.vBound (c : Cmd) : VStream :=
  let p := c.vD.pitch
  ⟨c.vD.addr + c.vrows * (if p = 0 then c.vlen * 2 else p), 0, c.vrows, c.vlen / 32, 8⟩

/-! ### Checks -/

/-- Formats and kinds of a command (R129, R134, Table 5.1). -/
def Cmd.vformatsOk (c : Cmd) : Bool :=
  let op := c.vop
  let idx := vopIndexed op
  let data := vopB op || vopC op
  let fd := if op = 0x0A ∨ vopIndexOut op then 0 else c.vfd
  let codes := [c.vfa, fd] ++ (if data || idx then [c.vfb] else [])
  let plain (f : Nat) : Bool := decide (f ≤ 5) || f == 7
  (if op = 0x34 then decide (c.vfa ≤ 4) && isMx fd
   else if op = 0x09 then decide (c.vfa ≤ 0x0D) && decide (fd ≤ 7)
   else codes.all plain) &&
  (!idx || c.vfb == 7) && (!data || (isInt c.vfb == isInt c.vfa)) &&
  (!vopFloat op || !isInt c.vfa) && (op != 0x0C || isInt c.vfa) &&
  (!c.vbound || (op != 0x0A && !vopIndexOut op && (c.vfd == 1 || c.vfd == 2)))

/-- Shape, mask and source selections (R124, R136, R137, R141-R144). -/
def Cmd.vshapeOk (c : Cmd) : Bool :=
  let op := c.vop
  decide (c.vrows ≤ 65536) && decide (c.vlen ≤ 65536) && decide (c.vrows * c.vlen ≤ 65536) && c.vmsrc != 3 &&
    (c.w 4).fld 25 2 != 3 && (!(vopB op || vopIndexed op) || (c.w 4).fld 27 2 != 3) && (!vopC op || (c.w 4).fld 29 2 != 3) &&
    (!(op == 0x0A || c.vmsrc == 2) || decide (c.vpred ≤ 7)) &&
    !(c.vmsrc == 2 && vopC op && (c.w 4).fld 29 2 == 1) &&
    (op != 0x34 || (c.vmsrc == 0 && c.vlen % 32 == 0)) && (!c.vbounds || c.vlen % 32 == 0) &&
    (!(op == 0x31 || op == 0x32) || decide (c.vlx ≤ 65536))

/-- The streams a command reads. -/
def Cmd.vsources (c : Cmd) : List VStream := [c.vA, c.vB, c.vC].filterMap (fun x => x)
/-- The regions it writes beside the destination. -/
def Cmd.vextra (c : Cmd) : List VStream :=
  (if c.vop = 0x34 then [c.vScale] else []) ++ (if c.vbounds then [c.vBound] else [])

/-- Regions that share a byte. -/
def regionsMeet (a b : Nat × Nat) : Bool :=
  decide (0 < a.2) && decide (0 < b.2) && decide (a.1 < b.1 + b.2) && decide (b.1 < a.1 + a.2)

/-- The bytes of a stream as regions: one for packed rows, else one for each row. -/
def VStream.regions (v : VStream) : List (Nat × Nat) :=
  if v.pitch = 0 then [v.region]
  else (List.range v.rows).map (fun r => (v.addr + r * v.pitch, cdiv (v.len * v.bits) 8))
/-- Streams that share a byte (R127). -/
def VStream.meets (v w : VStream) : Bool :=
  regionsMeet v.region w.region && v.regions.any (fun a => w.regions.any (regionsMeet a))

/-- The checks of a vector command: operation, formats, shape and alignment, addresses, overlap (R124-R144). -/
def State.checkVector (s : State) (c : Cmd) (id : Nat) : Except Refused Unit := do
  let core := (coreOf id).getD 0
  ensure (vopListed c.vop) Status.operationUnsupported
  ensure c.vformatsOk Status.formatUnsupported
  ensure c.vshapeOk Status.shapeInvalid
  let masks := if c.vmsrc = 1 then [c.vM] else []
  ensure ((c.vsources ++ [c.vD] ++ c.vextra).all (fun v => decide (v.bits < 8) || v.addr % (v.bits / 8) == 0)) Status.shapeInvalid
  (c.vsources ++ [c.vD] ++ c.vextra ++ masks).forM (fun v => s.needWell c core v.region.1 v.region.2)
  ensure (c.vsources.all (fun v => v.same c.vD || !v.meets c.vD) && masks.all (fun v => !v.meets c.vD)) Status.shapeInvalid
  ensure ((c.vsources ++ masks).all (fun v => c.vextra.all (fun x => !v.meets x))) Status.shapeInvalid

/-! ### Elements -/

/-- An element of operand a: a stream element, the scaled element of an MX source, or IMM0. -/
def State.vaAt (s : State) (c : Cmd) (well r i : Nat) : Num × Nat :=
  match c.vA with
  | none => let b := (c.w 12).toNat; (decodeElem (if isInt c.vfa then 7 else 0) b, b)
  | some v =>
    let b := s.vget well v r (if (c.w 4).fld 25 2 = 2 then 0 else i)
    if isMx c.vfa then ((operandElem c.vfa false (Config.cvtScale c.words r (i / 32) % 256) b).1, b)
    else (decodeElem c.vfa b, b)
/-- An element of operand b. -/
def State.vbAt (s : State) (c : Cmd) (well r i : Nat) : Num :=
  match c.vB with
  | none => decodeElem (if isInt c.vfb then 7 else 0) (c.w 12).toNat
  | some v => decodeElem c.vfb (s.vget well v r (if (c.w 4).fld 27 2 = 2 then 0 else i))
/-- An element of operand c. -/
def State.vcAt (s : State) (c : Cmd) (well r i : Nat) : Num × Nat :=
  match c.vC with
  | none => let b := (c.w 13).toNat; (decodeElem (if isInt c.vfb then 7 else 0) b, b)
  | some v => let b := s.vget well v r (if (c.w 4).fld 29 2 = 2 then 0 else i); (decodeElem c.vfb b, b)
/-- An index: of operand b's stream, or IMM0 for every element (R126). -/
def State.viAt (s : State) (c : Cmd) (well r i : Nat) : Nat :=
  match c.vB with
  | none => (c.w 12).toNat
  | some v => s.vget well v r (if (c.w 4).fld 27 2 = 2 then 0 else i)

/-- A comparison (Table 5.3). -/
def vcompare (pred : Nat) (a b : Num) : Bool :=
  if a.isNan || b.isNan then pred == 1 || pred == 7
  else
    match pred, a.cmp b with
    | 0, o => o == .eq
    | 1, o => o != .eq
    | 2, o => o == .lt
    | 3, o => o != .gt
    | 4, o => o == .gt
    | 5, o => o != .lt
    | 6, _ => true
    | _, _ => false

/-- Whether an element is computed: the mask bit after inversion (R136). -/
def State.vlive (s : State) (c : Cmd) (well r i : Nat) (x : Num) : Bool :=
  if c.vmsrc = 0 then true
  else
    let b := if c.vmsrc = 1 then s.vget well c.vM r i == 1
      else vcompare c.vpred x (decodeElem (if isInt c.vfa then 7 else 0) (c.w 13).toNat)
    b != c.vinv

/-- Fit an integer into a width (R133). -/
def vfit (bits : Nat) (sat : Bool) (x : Int) : Int := if sat then saturate bits x else sgn bits (unsgn bits x)

/-- The final conversion into the destination (R130-R133). `exact` says that the value is the result of an integer
operation. -/
def vconvert (c : Cmd) (exact : Bool) (draw : Option Nat) (v : Num) : Nat :=
  let x := if exact then Num.ofInt v.toInt else v
  match floatFmt c.vdst with
  | some f => encodeFloat f c.satf draw x
  | none =>
    let bits := fmtBits c.vdst
    if exact then unsgn bits (vfit bits c.vsat x.toInt) else unsgn bits (numToInt bits draw x)

/-- The draw of an element (R132). -/
def State.vdraw (s : State) (c : Cmd) (r i : Nat) : Option Nat :=
  srDraw c.rm (s.ctx c.ctx).seed i r (c.w 15).toNat 3

/-- Order with +0 above -0. -/
def vless (a b : Num) : Bool :=
  a.cmp b == .lt || (a.cmp b == .eq && a.isZero && b.isZero && a.isNeg && !b.isNeg)
def vmax (a b : Num) : Num := if a.isNan || b.isNan then .nan else if vless a b then b else a
def vmin (a b : Num) : Num := if a.isNan || b.isNan then .nan else if vless b a then b else a

/-- Integer division (R133, Table 5.3). -/
def vidiv (bits : Nat) (a b : Int) : Int :=
  if b = 0 then (if a = 0 then 0 else if 0 < a then (2 ^ (bits - 1) : Nat) - 1 else -(2 ^ (bits - 1) : Nat))
  else Int.tdiv a b

/-- LOGIC on integers, exact (R133); shift counts are taken modulo the width of operand a (Table 5.2; the function is open,
log entry 14). -/
def vlogic (fn bits : Nat) (a b : Int) : Int :=
  let x := unsgn 32 a
  let y := unsgn 32 b
  match fn % 5 with
  | 0 => sgn 32 (x &&& y)
  | 1 => sgn 32 (x ||| y)
  | 2 => sgn 32 (x ^^^ y)
  | 3 => a * (2 ^ (y % bits) : Nat)
  | _ => a / (2 ^ (y % bits) : Nat)

/-- The FP32 bits of a value that FP32 holds. -/
def fp32Bits (x : Num) : W32 := BitVec.ofNat 32 (encodeFloat fp32 false none x)

/-- The silicon's own FP32 result of an operation on finite operands: a free one among those within 1 ulp of the exact value
(R130; log entry 7). -/
def vown (op : Nat) (a b : Num) : Num :=
  let own := decodeFloat fp32 (Config.transcendental op (fp32Bits a) (fp32Bits b)).toNat
  let w := Fix.value op a b
  if Fix.near w own then own else round32 none (.fin (decide (w.1 < 0)) w.1.natAbs (-640))

/-- A float operation that is exact only within 1 ulp: its special values (Tables 5.2, 5.3), else the silicon's own
result. -/
def vtranscend (op : Nat) (a b : Num) : Num :=
  let own := vown op a b
  let one : Num := .fin false 1 0
  match op, a with
  | 0x20, _ =>
    match a.sub b with
    | .nan => .nan
    | .inf n => if n then Num.zero else .inf false
    | _ => own
  | _, .nan => .nan
  | 0x18, .inf n => .fin n 0 0
  | 0x18, .fin n m _ => if m = 0 then .inf n else own
  | 0x19, .inf n => if n then .nan else Num.zero
  | 0x19, .fin n m _ => if m = 0 then .inf n else if n then .nan else own
  | 0x1A, .inf n => if n then Num.zero else .inf false
  | 0x1B, .inf n => if n then .nan else .inf false
  | 0x1B, .fin n m _ => if m = 0 then .inf true else if n then .nan else own
  | 0x1C, .inf n => if n then Num.zero else one
  | 0x1D, .inf n => if n then one.neg else one
  | 0x1E, .inf n => if n then .fin true 0 0 else .inf false
  | 0x1F, .inf n => if n then .fin true 0 0 else .inf false
  | _, _ => own

/-- One element of an elementwise operation, before its final conversion. -/
def velem (c : Cmd) (a b d : Num) : Num :=
  let ints := isInt c.vfa
  let wide := if isInt c.vfd then fmtBits c.vfd else 32
  let src := match c.vA with | some v => v.bits | none => 32
  match c.vop with
  | 0x01 => a.add b
  | 0x02 => a.sub b
  | 0x03 => a.mul b
  | 0x04 => (a.mul b).add d
  | 0x05 => vmax a b
  | 0x06 => vmin a b
  | 0x07 => if a.isNeg then a.neg else a
  | 0x08 => a.neg
  | 0x09 => a
  | 0x0C => Num.ofInt (vlogic (Config.logicFunction c.words) src a.toInt b.toInt)
  | 0x10 => if ints then Num.ofInt (vidiv wide a.toInt b.toInt) else a.div b
  | 0x11 => a.sqrt
  | op => vtranscend op a b

/-- The elements of a row that an elementwise operation writes. -/
def State.vrowElem (s : State) (c : Cmd) (well r : Nat) : List (Nat × Nat × Nat) :=
  (List.range c.vlen).filterMap (fun i =>
    let a := (s.vaAt c well r i).1
    if s.vlive c well r i a then
      some (r, i, vconvert c (isInt c.vfa) (s.vdraw c r i) (velem c a (s.vbAt c well r i) (s.vcAt c well r i).1))
    else none)

/-- CMP: one bit per element, 0 where masked (R137). -/
def State.vrowCmp (s : State) (c : Cmd) (well r : Nat) : List (Nat × Nat × Nat) :=
  (List.range c.vlen).map (fun i =>
    let a := (s.vaAt c well r i).1
    (r, i, (s.vlive c well r i a && vcompare c.vpred a (s.vbAt c well r i)).toNat))

/-- A value copied: its bits where the formats match, else converted (Table 5.2). -/
def vcopy (c : Cmd) (fmt : Nat) (draw : Option Nat) (x : Num × Nat) : Nat :=
  if fmt = c.vfd then x.2 else vconvert c (isInt c.vfa) draw x.1
/-- A value moved by PERM, GATHER or SCATTER: as a copy, but a NaN becomes the canonical one (R131). -/
def vmove (c : Cmd) (fmt : Nat) (draw : Option Nat) (x : Num × Nat) : Nat :=
  if x.1.isNan then vconvert c false draw .nan else vcopy c fmt draw x
/-- The format of an operand's values: its stream's, or the immediate's. -/
def immFmt (fmt : Nat) (st : Option VStream) : Nat := if st.isSome then fmt else if isInt fmt then 7 else 0

/-- SEL: c where the mask bit is set, else a (Table 5.2). -/
def State.vrowSel (s : State) (c : Cmd) (well r : Nat) : List (Nat × Nat × Nat) :=
  (List.range c.vlen).map (fun i =>
    let a := s.vaAt c well r i
    let d := s.vdraw c r i
    (r, i, if s.vlive c well r i a.1 then vcopy c (immFmt c.vfb c.vC) d (s.vcAt c well r i)
           else vcopy c (immFmt c.vfa c.vA) d a))

/-- IMM2 as the fill value (R141). -/
def vfill (c : Cmd) (draw : Option Nat) : Nat :=
  vconvert c (isInt c.vfa) draw (decodeElem (if isInt c.vfa then 7 else 0) (c.w 14).toNat)

/-- PERM (R141). -/
def State.vrowPerm (s : State) (c : Cmd) (well r : Nat) : List (Nat × Nat × Nat) :=
  (List.range c.vlen).filterMap (fun i =>
    let k := s.viAt c well r i
    let d := s.vdraw c r i
    if s.vlive c well r i (s.vaAt c well r i).1 then
      some (r, i, if k < c.vlen then vmove c (immFmt c.vfa c.vA) d (s.vaAt c well r k) else vfill c d)
    else none)

/-- GATHER (R141). -/
def State.vrowGather (s : State) (c : Cmd) (well r : Nat) : List (Nat × Nat × Nat) :=
  (List.range c.vlen).filterMap (fun i =>
    let k := s.viAt c well r i
    let d := s.vdraw c r i
    let bits := match c.vA with | some v => s.vget well v 0 k | none => (c.w 12).toNat
    let f := immFmt c.vfa c.vA
    let x := if k < c.vlx then decodeElem f bits else decodeElem (if isInt c.vfa then 7 else 0) (c.w 14).toNat
    if s.vlive c well r i x then
      some (r, i, if k < c.vlx then vmove c f d (x, bits) else vfill c d)
    else none)

/-- SCATTER of some elements of a row: writes in ascending source order, so that the highest source index lands; the element
index is that of the destination vector (R142). -/
def State.vrowScatter (s : State) (c : Cmd) (well r : Nat) (mine : Nat → Bool) : List (Nat × Nat × Nat) × Nat :=
  let es := ((List.range c.vlen).filter mine).filterMap (fun i =>
    let a := s.vaAt c well r i
    if s.vlive c well r i a.1 then some (s.viAt c well r i, vmove c (immFmt c.vfa c.vA) (s.vdraw c r i) a) else none)
  ((es.filter (fun e => decide (e.1 < c.vlx))).map (fun e => (0, e.1, e.2)), (es.filter (fun e => !decide (e.1 < c.vlx))).length)

/-- The unmasked elements of a row with their indices. -/
def State.vrowLive (s : State) (c : Cmd) (well r : Nat) : List (Nat × Num) :=
  (List.range c.vlen).filterMap (fun i =>
    let a := (s.vaAt c well r i).1
    if s.vlive c well r i a then some (i, a) else none)

/-- The index of the extreme element: the first NaN, else the lowest index of the extreme (R140). -/
def vargBest (hi : Bool) : List (Nat × Num) → Nat
  | [] => 0xFFFFFFFF
  | e :: l =>
    match (e :: l).find? (fun x => x.2.isNan) with
    | some x => x.1
    | none => (l.foldl (fun b x => if (if hi then vless b.2 x.2 else vless x.2 b.2) then x else b) e).1

/-- One reduction result (R138-R140, Table 5.4). A sum starts from +0, the accumulator's zero (log entry 75). The identity of
an empty row is that of the destination's kind (DEDUCED from R138, log entry 82). -/
def State.vreduce (s : State) (c : Cmd) (r : Nat) (xs : List (Nat × Num)) : Nat :=
  let ints := isInt c.vfa
  let d := s.vdraw c r 0
  let vals := xs.map (·.2)
  let fdInt := isInt c.vfd
  let bits := if fdInt then fmtBits c.vfd else 32
  match c.vop with
  | 0x28 => vconvert c ints d (vals.foldl Num.add Num.zero)
  | 0x29 =>
    vconvert c ints d (vals.foldl (fun p v =>
      if ints then (if fdInt then Num.ofInt (vfit bits c.vsat (p.mul v).toInt) else p.mul v) else round32 none (p.mul v))
      (.fin false 1 0))
  | 0x2C => vargBest true xs
  | 0x2D => vargBest false xs
  | 0x2E => (vals.filter (fun v => !v.isZero)).length
  | op =>
    let hi := op = 0x2A
    match vals with
    | [] =>
      if fdInt then unsgn bits (if hi then -(2 ^ (bits - 1) : Nat) else (2 ^ (bits - 1) : Nat) - 1)
      else vconvert c false d (.inf hi)
    | v :: l => vconvert c ints d (l.foldl (if hi then vmax else vmin) v)

/-- e_max of an MX element format (R143). -/
def mxEmax (fmt : Nat) : Int := if fmt = 0x08 then 8 else if fmt = 0x09 then 15 else if fmt = 0x0A then 4 else if fmt = 0x0D then 0 else 2

/-- QUANT of one block: the scale byte and the 32 elements (R143). -/
def State.vquantBlock (s : State) (c : Cmd) (well r blk : Nat) : Nat × List Nat :=
  let xs := (span (32 * blk) 32).map (fun i => (i, (s.vaAt c well r i).1))
  if xs.any (fun x => x.2.isNan || x.2.isInf) then (0xFF, List.replicate 32 0)
  else
    let top := xs.foldl (fun (b : Option Int) x => match x.2 with
      | .fin _ m e => if m = 0 then b else some (max (b.getD (numLog2 m e)) (numLog2 m e))
      | _ => b) none
    match top with
    | none => (0, List.replicate 32 0)
    | some t =>
      let X := max (t - mxEmax c.vfd) (-127)
      ((X + 127).toNat, xs.map (fun x => match x.2 with
        | .fin n m e =>
          if c.vfd = 0x0D then
            let k := min 127 (roundMag (s.vdraw c r x.1) m (e - X) (-6))
            unsgn 8 (if n then -(k : Int) else k)
          else match floatFmt c.vfd with
            | some f => encodeFloat f true (s.vdraw c r x.1) (.fin n m (e - X))
            | none => 0
        | _ => 0))

/-- The elements of the destination from which a bound byte is formed: those of a block of a row that the destination
has. -/
def State.vblock (s : State) (c : Cmd) (well r blk : Nat) : List Num :=
  let v := if c.vop = 0x32 then { c.vD with rows := c.vrows, len := c.vlen } else c.vD
  ((span (32 * blk) 32).filter (fun i => decide (i < v.len) && (c.vop != 0x32 || decide (r * c.vlen + i < c.vlx)))).map
    (fun i => decodeElem c.vfd (s.vget well v r i))
/-- Bound bytes of the rows as written (R144). -/
def State.vwriteBounds (s : State) (c : Cmd) (well : Nat) : List Nat → State
  | [] => s
  | r :: l =>
    let bs := (List.range (c.vlen / 32)).map (fun blk => (r, blk, (boundByte (s.vblock c well r blk)).toNat))
    (s.vputs well c.vBound bs).vwriteBounds c well l

/-! ### Groups (R129, R145, R146) -/

/-- The element rate: 128 with a 32-bit format among the streams, else 256 (R129). -/
def Cmd.vrho (c : Cmd) : Nat :=
  let data := (if c.vA.isSome then [fmtBits c.vfa] else []) ++ (if c.vB.isSome && !vopIndexed c.vop then [fmtBits c.vfb] else []) ++
    (if c.vC.isSome then [fmtBits c.vfb] else []) ++ (if c.vop = 0x0A then [] else [fmtBits c.vdst])
  if data.contains 32 then 128 else 256
/-- Groups of a row; a row without elements counts as one, in which a reduction writes its identity. -/
def Cmd.vgroups (c : Cmd) : Nat := max 1 (cdiv c.vlen c.vrho)
/-- The groups of a command. -/
def Cmd.vtotal (c : Cmd) : Nat := c.vrows * c.vgroups

/-- The groups from one on up to another of a vector command: what they write, from the sources as they were, then the bound
bytes of the rows that end there; and the elements that a SCATTER left out. -/
def State.vectorPart (s : State) (c : Cmd) (well lo hi : Nat) : State × Nat :=
  let n := c.vgroups
  let mine (r i : Nat) : Bool := decide (lo ≤ r * n + i / c.vrho) && decide (r * n + i / c.vrho < hi)
  let rows := (List.range c.vrows).filter (fun r => decide (lo < (r + 1) * n) && decide (r * n < hi))
  let ended := rows.filter (fun r => decide ((r + 1) * n ≤ hi))
  let finish (t : State) : State := if c.vbounds then t.vwriteBounds c well ended else t
  if vopReduce c.vop then (finish (s.vputs well c.vD (ended.map (fun r => (r, 0, s.vreduce c r (s.vrowLive c well r))))), 0)
  else if c.vop = 0x32 then
    let parts := rows.map (fun r => s.vrowScatter c well r (mine r))
    (finish (s.vputs well c.vD (parts.flatMap (·.1))), (parts.map (·.2)).sum)
  else if c.vop = 0x34 then
    let blocks := rows.flatMap (fun r => ((List.range (c.vlen / 32)).filter (fun b => mine r (32 * b))).map (fun b => (r, b, s.vquantBlock c well r b)))
    let t := s.vputs well c.vD (blocks.flatMap (fun x => x.2.2.2.zipIdx.map (fun e => (x.1, 32 * x.2.1 + e.2, e.1))))
    (t.vputs well c.vScale (blocks.map (fun x => (x.1, x.2.1, x.2.2.1))), 0)
  else
    let row (r : Nat) : List (Nat × Nat × Nat) :=
      if c.vop = 0x0A then s.vrowCmp c well r
      else if c.vop = 0x0B then s.vrowSel c well r
      else if c.vop = 0x30 then s.vrowPerm c well r
      else if c.vop = 0x31 then s.vrowGather c well r
      else s.vrowElem c well r
    (finish (s.vputs well c.vD (rows.flatMap (fun r => (row r).filter (fun e => mine r e.2.1)))), 0)

/-- The effect of a vector command, from the row that a preempted one goes on with (R146). A SCATTER reports the elements
that it left out, those before a preemption among them (R142). -/
def vectorEffect (c : Cmd) (s : State) : Except Refused (State × List Nat) := do
  s.checkVector c c.onEngine
  let r := s.vectorPart c (Mem.well c.onCore) c.part c.vtotal
  .ok (r.1, if c.vop = 0x32 then [c.detail.headD 0 + r.2, 0, 0] else [])

/-- A vector command of one operation. -/
def vectorRun (op cid : Nat) (s : State) : State := s.perform cid (fun c => c.cls == 1 && c.vop == op) vectorEffect

/-- Operation 0x01 of Table 5.2. -/
def execVectorAdd (cid : Nat) (s : State) : Host.Outcome State Fault Refusal := .next (vectorRun 0x01 cid s)
/-- Operation 0x02 of Table 5.2. -/
def execVectorSub (cid : Nat) (s : State) : Host.Outcome State Fault Refusal := .next (vectorRun 0x02 cid s)
/-- Operation 0x03 of Table 5.2. -/
def execVectorMul (cid : Nat) (s : State) : Host.Outcome State Fault Refusal := .next (vectorRun 0x03 cid s)
/-- Operation 0x04 of Table 5.2. -/
def execVectorFma (cid : Nat) (s : State) : Host.Outcome State Fault Refusal := .next (vectorRun 0x04 cid s)
/-- Operation 0x05 of Table 5.2. -/
def execVectorMax (cid : Nat) (s : State) : Host.Outcome State Fault Refusal := .next (vectorRun 0x05 cid s)
/-- Operation 0x06 of Table 5.2. -/
def execVectorMin (cid : Nat) (s : State) : Host.Outcome State Fault Refusal := .next (vectorRun 0x06 cid s)
/-- Operation 0x07 of Table 5.2. -/
def execVectorAbs (cid : Nat) (s : State) : Host.Outcome State Fault Refusal := .next (vectorRun 0x07 cid s)
/-- Operation 0x08 of Table 5.2. -/
def execVectorNeg (cid : Nat) (s : State) : Host.Outcome State Fault Refusal := .next (vectorRun 0x08 cid s)
/-- Operation 0x09 of Table 5.2. -/
def execVectorCvt (cid : Nat) (s : State) : Host.Outcome State Fault Refusal := .next (vectorRun 0x09 cid s)
/-- Operation 0x0A of Table 5.2. -/
def execVectorCmp (cid : Nat) (s : State) : Host.Outcome State Fault Refusal := .next (vectorRun 0x0A cid s)
/-- Operation 0x0B of Table 5.2. -/
def execVectorSel (cid : Nat) (s : State) : Host.Outcome State Fault Refusal := .next (vectorRun 0x0B cid s)
/-- Operation 0x0C of Table 5.2. -/
def execVectorLogic (cid : Nat) (s : State) : Host.Outcome State Fault Refusal := .next (vectorRun 0x0C cid s)
/-- Operation 0x10 of Table 5.2. -/
def execVectorDiv (cid : Nat) (s : State) : Host.Outcome State Fault Refusal := .next (vectorRun 0x10 cid s)
/-- Operation 0x11 of Table 5.2. -/
def execVectorSqrt (cid : Nat) (s : State) : Host.Outcome State Fault Refusal := .next (vectorRun 0x11 cid s)
/-- Operation 0x18 of Table 5.2. -/
def execVectorRecip (cid : Nat) (s : State) : Host.Outcome State Fault Refusal := .next (vectorRun 0x18 cid s)
/-- Operation 0x19 of Table 5.2. -/
def execVectorRsqrt (cid : Nat) (s : State) : Host.Outcome State Fault Refusal := .next (vectorRun 0x19 cid s)
/-- Operation 0x1A of Table 5.2. -/
def execVectorExp (cid : Nat) (s : State) : Host.Outcome State Fault Refusal := .next (vectorRun 0x1A cid s)
/-- Operation 0x1B of Table 5.2. -/
def execVectorLog (cid : Nat) (s : State) : Host.Outcome State Fault Refusal := .next (vectorRun 0x1B cid s)
/-- Operation 0x1C of Table 5.2. -/
def execVectorSigmoid (cid : Nat) (s : State) : Host.Outcome State Fault Refusal := .next (vectorRun 0x1C cid s)
/-- Operation 0x1D of Table 5.2. -/
def execVectorTanh (cid : Nat) (s : State) : Host.Outcome State Fault Refusal := .next (vectorRun 0x1D cid s)
/-- Operation 0x1E of Table 5.2. -/
def execVectorSilu (cid : Nat) (s : State) : Host.Outcome State Fault Refusal := .next (vectorRun 0x1E cid s)
/-- Operation 0x1F of Table 5.2. -/
def execVectorGelu (cid : Nat) (s : State) : Host.Outcome State Fault Refusal := .next (vectorRun 0x1F cid s)
/-- Operation 0x20 of Table 5.2. -/
def execVectorSubexp (cid : Nat) (s : State) : Host.Outcome State Fault Refusal := .next (vectorRun 0x20 cid s)
/-- Operation 0x28 of Table 5.2. -/
def execVectorRsum (cid : Nat) (s : State) : Host.Outcome State Fault Refusal := .next (vectorRun 0x28 cid s)
/-- Operation 0x29 of Table 5.2. -/
def execVectorRprod (cid : Nat) (s : State) : Host.Outcome State Fault Refusal := .next (vectorRun 0x29 cid s)
/-- Operation 0x2A of Table 5.2. -/
def execVectorRmax (cid : Nat) (s : State) : Host.Outcome State Fault Refusal := .next (vectorRun 0x2A cid s)
/-- Operation 0x2B of Table 5.2. -/
def execVectorRmin (cid : Nat) (s : State) : Host.Outcome State Fault Refusal := .next (vectorRun 0x2B cid s)
/-- Operation 0x2C of Table 5.2. -/
def execVectorArgmax (cid : Nat) (s : State) : Host.Outcome State Fault Refusal := .next (vectorRun 0x2C cid s)
/-- Operation 0x2D of Table 5.2. -/
def execVectorArgmin (cid : Nat) (s : State) : Host.Outcome State Fault Refusal := .next (vectorRun 0x2D cid s)
/-- Operation 0x2E of Table 5.2. -/
def execVectorCount (cid : Nat) (s : State) : Host.Outcome State Fault Refusal := .next (vectorRun 0x2E cid s)
/-- Operation 0x30 of Table 5.2. -/
def execVectorPerm (cid : Nat) (s : State) : Host.Outcome State Fault Refusal := .next (vectorRun 0x30 cid s)
/-- Operation 0x31 of Table 5.2. -/
def execVectorGather (cid : Nat) (s : State) : Host.Outcome State Fault Refusal := .next (vectorRun 0x31 cid s)
/-- Operation 0x32 of Table 5.2. -/
def execVectorScatter (cid : Nat) (s : State) : Host.Outcome State Fault Refusal := .next (vectorRun 0x32 cid s)
/-- Operation 0x34 of Table 5.2. -/
def execQuant (cid : Nat) (s : State) : Host.Outcome State Fault Refusal := .next (vectorRun 0x34 cid s)

end Sys2Proof.Machine
end

