-- ==== Sys2Proof/Machine/Serving.lean ====
section
/-!
DEFINITION. Serving engines: KV_STEP, SAMPLE, GATHER in its two modes and SCATTER in its three (R210-R238).
-/

namespace Sys2Proof.Machine

/-! ### What the forms share (R210) -/

/-- An address that a serving command uses: space 1 or 2, in range, readable. -/
def State.needServed (s : State) (c : Cmd) (a : DevAddr) (n : Nat) : Except Refused Unit :=
  ensure (!a.bad && a.isMem && s.addrOk c.fn a n) Status.addressInvalid a.word
/-- The same for bytes that the engine reads. -/
def State.needInput (s : State) (c : Cmd) (a : DevAddr) (n : Nat) : Except Refused Unit := do
  s.needServed c a n
  s.needGood c a n
/-- The same for bytes that it writes. -/
def State.needOutput (s : State) (c : Cmd) (a : DevAddr) (n : Nat) : Except Refused Unit := do
  s.needServed c a n
  ensure (!s.ownedElsewhere c.fn a n) Status.ownershipFault a.word

def Cmd.desc (c : Cmd) : DevAddr := c.addr 4
def Cmd.result (c : Cmd) : DevAddr := c.addr 6
def Cmd.count (c : Cmd) : Nat := (c.w 8).fld 0 24

/-- Rows of a stream: address of row i, and the bytes that n rows span. -/
def rowsSpan (n pitch len : Nat) : Nat := if n = 0 then 0 else (n - 1) * pitch + len

/-- A serving command: an uncorrectable read changes nothing and is a hardware error (Table 14.4). -/
def State.serve (s : State) (cid : Nat) (is : Cmd → Bool) (k : Cmd → State → Except Refused (State × List Nat)) : State :=
  let t := s.perform cid is k
  match s.cmd? cid, t.cmd? cid with
  | some c, some d =>
    if !c.did && d.did && d.status == Status.eccUncorrectable && (devAddr (d.detail.getD 0 0 + d.detail.getD 1 0 * 2 ^ 32)).space == 2 then
      t.raise ErrCode.uncorrectable c.onEngine c.fn (d.detail.getD 0 0)
    else t
  | _, _ => t

/-! ### KV pools (R213-R227) -/

/-- A function's pool configuration (Table 8.5). -/
structure KvPool where
  q     : Nat
  ptok  : Nat
  bpage : Nat
  base  : DevAddr
  slots : Nat
  maxp  : Nat
  bt    : DevAddr
  pos   : DevAddr
  deriving DecidableEq, Repr

def State.kvPool (s : State) (f : Nat) : KvPool :=
  { q := s.o f 0x3020 9, ptok := max 1 (s.o f 0x3800 2), bpage := s.o f 0x3800 3, base := devAddr (s.o f 0x3800 4), slots := s.o f 0x3800 5, maxp := s.o f 0x3800 6, bt := devAddr (s.o f 0x3800 7), pos := devAddr (s.o f 0x3800 8) }

/-- One entry of a KV_STEP (Table 8.1). -/
structure KvEntry where
  slot   : Nat
  kind   : Nat
  tokens : Nat
  bad    : Bool
  deriving DecidableEq, Repr

def kvEntry (w0 w1 : W32) : KvEntry :=
  { slot := w0.fld 0 16, kind := w0.fld 16 2, tokens := w1.fld 0 24, bad := w0.fld 18 14 != 0 || w1.fld 24 8 != 0 }

/-- The entries of a descriptor. -/
def State.kvEntries (s : State) (c : Cmd) : List KvEntry :=
  (List.range c.count).map (fun i =>
    let ws := s.wordsAt c.fn (c.desc.plus (8 * i)) 2
    kvEntry (wd ws 0) (wd ws 1))

/-- An entry that obeys Table 8.1. -/
def KvPool.entryOk (p : KvPool) (e : KvEntry) : Bool :=
  !e.bad && decide (e.slot < p.slots) &&
    (if e.kind = 0 then e.tokens == 0 else if e.kind = 1 then decide (1 ≤ e.tokens) && decide (e.tokens ≤ p.ptok) else e.kind == 2)

/-- The slots of a pool that are live. -/
abbrev KvMap := SMap KvSeq
def KvMap.live (m : KvMap) (k : Nat) : Option KvSeq := (m.find? (fun e => e.1 == k)).map (·.2)

/-- An entry that fits the other entries and the pool (R221). -/
def kvFits (m : KvMap) (es : List KvEntry) (e : KvEntry) : Bool :=
  let same := es.filter (fun d => d.slot == e.slot)
  let leaves := same.any (fun d => d.kind == 0)
  let single := same.length == 1 ||
    (same.length == 2 && leaves && same.any (fun d => d.kind == 2))
  single && (if e.kind = 2 then (KvMap.live m e.slot).isNone || leaves else (KvMap.live m e.slot).isSome)

/-- Pages held. -/
def KvMap.held (m : KvMap) : List Nat := m.flatMap (fun e => e.2.pages)

/-- The lowest-numbered free page (R218). -/
def kvFree (q : Nat) (held : List Nat) : Option Nat :=
  (List.range (min q (held.length + 1))).find? (fun i => !held.contains i)
/-- The n lowest free pages, ascending. -/
def kvTake (q : Nat) : Nat → List Nat → List Nat
  | 0, _ => []
  | n + 1, held =>
    match kvFree q held with
    | some i => i :: kvTake q n (i :: held)
    | none => []

/-- A step as it settles: the pool, and the lists of Table 8.2. -/
structure KvOut where
  pool     : KvMap
  included : List (Nat × Nat × Nat) := []
  stalled  : List (Nat × Nat) := []
  rejected : List (Nat × Nat) := []
  deriving DecidableEq, Repr

/-- One STEP entry (R222). -/
def KvOut.step (p : KvPool) (o : KvOut) (e : KvEntry) : KvOut :=
  match KvMap.live o.pool e.slot with
  | none => o
  | some x =>
    let need := decide (x.pages.length < cdiv (x.pos + e.tokens) p.ptok)
    let held := KvMap.held o.pool
    if p.maxp * p.ptok < x.pos + e.tokens then { o with stalled := o.stalled ++ [(e.slot, 2)] }
    else if need && decide (p.q ≤ held.length) then { o with stalled := o.stalled ++ [(e.slot, 1)] }
    else
      let y : KvSeq := { pos := x.pos + e.tokens, pages := if need then x.pages ++ kvTake p.q 1 held else x.pages }
      { o with pool := SMap.put e.slot y o.pool, included := o.included ++ [(e.slot, 1, x.pos)] }

/-- One JOIN entry. -/
def KvOut.join (p : KvPool) (o : KvOut) (e : KvEntry) : KvOut :=
  let n := cdiv e.tokens p.ptok
  let held := KvMap.held o.pool
  if p.maxp * p.ptok < e.tokens then { o with rejected := o.rejected ++ [(e.slot, 2)] }
  else if p.q < held.length + n then { o with rejected := o.rejected ++ [(e.slot, 1)] }
  else
    let y : KvSeq := { pos := e.tokens, pages := kvTake p.q n held }
    { o with pool := SMap.put e.slot y o.pool, included := o.included ++ [(e.slot, 2, 0)] }

/-- Insert an entry by slot. -/
def insertKv (e : KvEntry) : List KvEntry → List KvEntry
  | [] => [e]
  | d :: l => if e.slot ≤ d.slot then e :: d :: l else d :: insertKv e l

/-- Leaves, then steps in slot order, then joins in submission order (R222). -/
def kvSettle (p : KvPool) (m : KvMap) (es : List KvEntry) : KvOut :=
  let gone := (es.filter (fun e => e.kind == 0)).map KvEntry.slot
  let o : KvOut := { pool := m.filter (fun e => !gone.contains e.1) }
  let o := ((es.filter (fun e => e.kind == 1)).foldr insertKv []).foldl (KvOut.step p) o
  (es.filter (fun e => e.kind == 2)).foldl (KvOut.join p) o

/-- The mirror writes of a step: entries of the block table and positions that differ (R217). -/
def kvMirror (p : KvPool) (m n : KvMap) (slots : List Nat) : List (DevAddr × Nat) :=
  slots.eraseDups.flatMap (fun k =>
    let a := (KvMap.live m k).getD { pos := 0, pages := [] }
    let b := (KvMap.live n k).getD { pos := 0, pages := [] }
    ((List.range (max a.pages.length b.pages.length)).filterMap (fun j =>
      let v := b.pages.getD j 0xFFFFFFFF
      if a.pages.getD j 0xFFFFFFFF = v then none else some (p.bt.plus (4 * p.maxp * k + 4 * j), v))) ++
    (if a.pos = b.pos then [] else [(p.pos.plus (4 * k), b.pos)]))

/-- The RESULT area (Table 8.2). -/
def kvResult (p : KvPool) (o : KvOut) : List Byte :=
  let u (n : Nat) : List Byte := leBytes 4 n
  u o.included.length ++ u o.stalled.length ++ u o.rejected.length ++ u (p.q - (KvMap.held o.pool).length) ++
    o.included.flatMap (fun e => u (e.1 + e.2.1 * 2 ^ 16) ++ u e.2.2) ++
    (o.stalled ++ o.rejected).flatMap (fun e => u (e.1 + e.2 * 2 ^ 16))

/-- The mirror lands before the RESULT area (R225). -/
def State.putMirror (s : State) (f : Nat) : List (DevAddr × Nat) → State
  | [] => s
  | (a, v) :: l => ((((s.store (s.flat f a 0) (leBytes 4 v)).addTerm Term.issued 4).addTerm Term.floatless 4)).putMirror f l

/-- The checks of a KV_STEP (R219-R221). -/
def State.checkKv (s : State) (c : Cmd) : Except Refused (Option Nat) := do
  let p := s.kvPool c.fn
  let float ← s.float9 c
  ensure (p.slots != 0 && p.bpage != 0 && decide (c.count ≤ 65536)) Status.shapeInvalid
  s.needServed c p.base (p.q * p.bpage)
  s.needServed c p.bt (4 * p.maxp * p.slots)
  s.needServed c p.pos (4 * p.slots)
  s.needServed c c.result 16
  s.needInput c c.desc (8 * c.count)
  let es := s.kvEntries c
  ensure (es.all (fun e => p.entryOk e && kvFits (s.fn c.fn).kv es e)) Status.shapeInvalid
  .ok float

/-- The effect of a KV_STEP. -/
def kvEffect (c : Cmd) (s : State) : Except Refused (State × List Nat) := do
  let float ← s.checkKv c
  let p := s.kvPool c.fn
  let m := (s.fn c.fn).kv
  let es := s.kvEntries c
  let o := kvSettle p m es
  let data := kvResult p o
  let mirror := kvMirror p m o.pool (es.map KvEntry.slot)
  s.needOutput c c.result data.length
  match mirror.find? (fun e => s.partialBad (s.flat c.fn e.1 0) 4) with
  | some e => .error ⟨Status.eccUncorrectable, e.1.word⟩
  | none =>
    let f := c.fn
    let t := (s.modFn f (fun (x : Fn) => { x with kv := o.pool })).putMirror f mirror
    let t := ((t.setO f 0x3800 9 (KvMap.held o.pool).length).setO f 0x3800 0x0A o.pool.length).addO f 0x3800 0x0B 1
    let t := (t.addO f 0x3800 0x0C o.stalled.length).addO f 0x3800 0x0D o.rejected.length
    .ok (t.emitData c float c.result data, [o.stalled.length, o.rejected.length, 0])

/-- KV_STEP. -/
def execKvStep (cid : Nat) (s : State) : Host.Outcome State Fault Refusal :=
  .next (s.serve cid (fun c => c.cls == 8 && c.form == 0) kvEffect)

/-- The pool configuration of a function may not change now (R219). -/
def State.kvBusy (s : State) (f : Nat) : Bool :=
  !(s.fn f).kv.isEmpty || s.cmds.any (fun c => c.fn == f && c.cls == 8 && c.form == 0 && c.phase != .ended)

/-! ### Sampler (R228-R232) -/

/-- A row entry (Table 8.3). -/
structure SampleRow where
  seed : Nat
  pos  : Nat
  temp : Num
  topp : Num
  topk : Nat
  deriving DecidableEq, Repr

def sampleRow (ws : List W32) : SampleRow :=
  { seed := wd64 ws 0, pos := wd64 ws 2, temp := decodeFloat fp32 (wd ws 4).toNat, topp := decodeFloat fp32 (wd ws 5).toNat, topk := (wd ws 6).fld 0 11 }

/-- Numerically smaller: +0 and -0 tie (R229, Table 5.3; log entry 76). -/
def numBelow (a b : Num) : Bool := a.cmp b == .lt

/-- A parameter outside its range (R231). -/
def SampleRow.invalid (r : SampleRow) : Bool :=
  let one : Num := .fin false 1 0
  r.temp.isNan || r.temp.isInf || r.temp.isNeg || r.topp.isNan || r.topp.isNeg || r.topp.isZero || r.topp.isInf ||
    numBelow one r.topp || decide (1024 < r.topk)

/-- Insert by rank: larger first, ties to the lower index (R229). -/
def insertRank (e : Nat × Num) : List (Nat × Num) → List (Nat × Num)
  | [] => [e]
  | d :: l => if numBelow e.2 d.2 then d :: insertRank e l else e :: d :: l
def rankOrder (l : List (Nat × Num)) : List (Nat × Num) := l.foldr insertRank []

/-- The shortest prefix whose exact sum reaches a bound. -/
def topPrefix (bound : Num) (acc : Num) : List (Nat × Num) → List (Nat × Num)
  | [] => []
  | e :: l => let a := acc.add e.2; e :: (if numBelow a bound then topPrefix bound a l else [])

/-- The first entry whose exact running sum exceeds a bound. -/
def firstAbove (bound : Num) (acc : Num) : List (Nat × Num) → Option (Nat × Num)
  | [] => none
  | e :: l => let a := acc.add e.2; if numBelow bound a then some e else firstAbove bound a l

/-- The exact sum of the second components. -/
def numSum (l : List (Nat × Num)) : Num := l.foldl (fun a e => a.add e.2) Num.zero

/-- The token and the probability or cause of a row (R229-R231). -/
def SampleRow.draw (r : SampleRow) (logits : List (Nat × Num)) : Nat × Nat :=
  let xs := logits.filter (fun e => !e.2.isNan)
  let one : Num := .fin false 1 0
  if r.temp.isZero then
    match xs with
    | [] => (0xFFFFFFFF, 1)
    | e :: l => ((l.foldl (fun (b : Nat × Num) x => if numBelow b.2 x.2 then x else b) e).1, (fp32Bits one).toNat)
  else if r.invalid then (0xFFFFFFFF, 2)
  else
    let zs := xs.map (fun e => (e.1, round32 none (e.2.div r.temp)))
    let p := numBelow r.topp one
    let cand := if 0 < r.topk then (rankOrder zs).take r.topk else if p then (rankOrder zs).take 1024 else zs
    let cand := cand.filter (fun e => e.2 != .inf true)
    match cand with
    | [] => (0xFFFFFFFF, 1)
    | e :: l =>
      let zmax := (l.foldl (fun (b : Nat × Num) x => if numBelow b.2 x.2 then x else b) e).2
      let es := if zmax = .inf false then (cand.filter (fun e => e.2 == .inf false)).map (fun e => (e.1, one))
                else cand.map (fun e => (e.1, vtranscend 0x20 e.2 zmax))
      let kept := if p then topPrefix (r.topp.mul (numSum es)) Num.zero es else es
      let s1 := numSum kept
      let rnd := (philox r.seed r.pos (r.pos / 2 ^ 32) 0 4).1
      let bound := (Num.fin false rnd (-32)).mul s1
      let tok := (firstAbove bound Num.zero kept).getD (kept.getLastD (0xFFFFFFFF, Num.zero))
      (tok.1, (fp32Bits (round32 none (tok.2.div s1))).toNat)

/-- The effect of a SAMPLE. -/
def sampleEffect (c : Cmd) (s : State) : Except Refused (State × List Nat) := do
  let n := c.count
  let float ← s.float9 c
  ensure (!c.desc.bad && c.desc.isMem) Status.addressInvalid c.desc.word
  s.needOutput c c.result (8 * n)
  ensure (decide (n ≤ 4096)) Status.shapeInvalid
  if n = 0 then .ok (s, [])
  else
    s.needInput c c.desc (32 + 32 * n)
    let h := s.wordsAt c.fn c.desc 8
    let rows := (List.range n).map (fun i => s.wordsAt c.fn (c.desc.plus (32 + 32 * i)) 8)
    let v := (wd h 2).fld 0 21
    let fmt := (wd h 3).fld 0 5
    let pitch := (wd h 4).toNat
    let size := fmtBits fmt / 8
    ensure (bitsInside h [0xFFFFFFFF, 0xFFFFFFFF, 0x1FFFFF, 0x1F, 0xFFFFFFFF, 0, 0, 0] &&
      rows.all (fun r => (wd r 6).fld 11 21 == 0 && wd r 7 == 0)) Status.reservedNonzero
    ensure (decide (fmt ≤ 1)) Status.formatUnsupported
    ensure (decide (1 ≤ v) && decide (v ≤ 1048576)) Status.shapeInvalid
    let base := devAddr (wd64 h 0)
    s.needInput c base (rowsSpan n pitch (v * size))
    let out := rows.zipIdx.flatMap (fun (r : List W32 × Nat) =>
      let data := s.readAt c.fn (base.plus (r.2 * pitch)) (v * size)
      let logits := (List.range v).map (fun i => (i, decodeElem fmt (leNat ((data.drop (i * size)).take size))))
      let d := (sampleRow r.1).draw logits
      leBytes 4 d.1 ++ leBytes 4 d.2)
    .ok (s.emitData c float c.result out, [])

/-- SAMPLE. -/
def execSample (cid : Nat) (s : State) : Host.Outcome State Fault Refusal :=
  .next (s.serve cid (fun c => c.cls == 8 && c.form == 1) sampleEffect)

/-! ### Gather and scatter (R233-R237) -/

/-- A descriptor header (Table 8.4). -/
structure GsHeader where
  table : DevAddr
  nt    : Nat
  len   : Nat
  rows  : DevAddr
  pitch : Nat
  mode  : Nat
  wgt   : Bool
  cap   : Nat
  deriving DecidableEq, Repr

def gsHeader (h : List W32) : GsHeader :=
  { table := devAddr (wd64 h 0), nt := (wd h 2).toNat, len := (wd h 3).fld 0 17, rows := devAddr (wd64 h 4), pitch := (wd h 6).toNat, mode := (wd h 7).fld 0 2, wgt := (wd h 7).bit 2, cap := (wd h 7).fld 3 17 }

/-- The mode that a record's descriptor names; 0 where the descriptor cannot be addressed. -/
def State.gsMode (s : State) (c : Cmd) : Nat :=
  if s.addrOk c.fn c.desc 32 && c.desc.isMem then (gsHeader (s.wordsAt c.fn c.desc 8)).mode else 0

/-- The header of a record, checked, with its float. -/
def State.gsOpen (s : State) (c : Cmd) : Except Refused (GsHeader × Option Nat) := do
  let float ← s.float9 c
  s.needServed c c.result 0
  s.needInput c c.desc 32
  let h := s.wordsAt c.fn c.desc 8
  ensure (bitsInside h [0xFFFFFFFF, 0xFFFFFFFF, 0xFFFFFFFF, 0x1FFFF, 0xFFFFFFFF, 0xFFFFFFFF, 0xFFFFFFFF, 0xFFFFF]) Status.reservedNonzero
  let g := gsHeader h
  ensure (decide (1 ≤ g.nt) && decide (g.mode ≤ (if c.form = 2 then 1 else 2))) Status.shapeInvalid
  .ok (g, float)

/-- The row shape of the forms that move rows: lengths, addresses of both regions, and no overlap. -/
def State.gsRows (s : State) (c : Cmd) (g : GsHeader) : Except Refused Unit := do
  let n := c.count
  ensure (decide (8 ≤ g.len) && decide (g.len ≤ 65536) && g.len % 8 == 0) Status.shapeInvalid
  s.needServed c g.table (g.nt * g.len)
  s.needServed c g.rows (rowsSpan n g.pitch g.len)
  ensure (!g.table.overlaps (g.nt * g.len) g.rows (rowsSpan n g.pitch g.len)) Status.shapeInvalid
  s.needInput c (c.desc.plus 32) (4 * n + (if c.form = 3 ∧ g.mode ≠ 0 ∧ g.wgt then 4 * n else 0))

/-- Index entry i. -/
def State.gsIndex (s : State) (c : Cmd) (i : Nat) : Nat := s.natAt c.fn (c.desc.plus (32 + 4 * i)) 4

/-- The effect of a GATHER in ROWS mode (R234). -/
def gatherRowsEffect (c : Cmd) (s : State) : Except Refused (State × List Nat) := do
  let (g, float) ← s.gsOpen c
  s.gsRows c g
  let n := c.count
  let idx := (List.range n).map (s.gsIndex c)
  (idx.filter (fun k => decide (k < g.nt))).forM (fun k => s.needGood c (g.table.plus (k * g.len)) g.len)
  ensure (!s.ownedElsewhere c.fn g.rows (rowsSpan n g.pitch g.len)) Status.ownershipFault g.rows.word
  s.needOutput c c.result 4
  let t := idx.zipIdx.foldl (fun (t : State) (e : Nat × Nat) =>
    let data := if e.1 < g.nt then s.readAt c.fn (g.table.plus (e.1 * g.len)) g.len else List.replicate g.len 0
    t.emitData c float (g.rows.plus (e.2 * g.pitch)) data) s
  .ok (t.emitData c float c.result (leBytes 4 (idx.filter (fun k => decide (g.nt ≤ k))).length), [])

/-- GATHER in ROWS mode. -/
def execGatherRows (cid : Nat) (s : State) : Host.Outcome State Fault Refusal :=
  .next (s.serve cid (fun c => c.cls == 8 && c.form == 2 && s.gsMode c != 1) gatherRowsEffect)

/-- Insert a token by value, ties to the earlier entry. -/
def insertTok (t : Nat) : List Nat → List Nat
  | [] => [t]
  | u :: l => if t ≤ u then t :: u :: l else u :: insertTok t l

/-- The tokens routed to an expert, ascending. -/
def routed (pairs : List (Nat × Nat)) (x : Nat) : List Nat := ((pairs.filter (fun p => p.2 == x)).map (·.1)).foldr insertTok []

/-- The effect of a GATHER in ROUTE mode (R236). -/
def gatherRouteEffect (c : Cmd) (s : State) : Except Refused (State × List Nat) := do
  let (g, float) ← s.gsOpen c
  let n := c.count
  let ne := g.len
  ensure (decide (1 ≤ ne) && decide (ne ≤ 4096) && decide (1 ≤ g.cap) && decide (g.cap ≤ 65536) && decide (4 * g.cap ≤ g.pitch)) Status.shapeInvalid
  s.needOutput c g.rows (rowsSpan ne g.pitch (4 * g.cap))
  s.needInput c (c.desc.plus 32) (8 * n)
  let all := (List.range n).map (fun i => (s.natAt c.fn (c.desc.plus (32 + 8 * i)) 4, s.natAt c.fn (c.desc.plus (36 + 8 * i)) 4))
  let pairs := all.filter (fun p => decide (p.1 < g.nt) && decide (p.2 < ne))
  let lists := (List.range ne).map (routed pairs)
  let dropped := lists.zipIdx.flatMap (fun (e : List Nat × Nat) => (e.1.drop g.cap).map (fun t => (t, e.2)))
  let res := leBytes 4 (n - pairs.length) ++ leBytes 4 dropped.length ++ lists.flatMap (fun l => leBytes 4 (min l.length g.cap)) ++
    dropped.flatMap (fun p => leBytes 4 p.1 ++ leBytes 4 p.2)
  s.needOutput c c.result res.length
  let t := lists.zipIdx.foldl (fun (t : State) (e : List Nat × Nat) =>
    let l := e.1.take g.cap
    t.emitData c float (g.rows.plus (e.2 * g.pitch))
      (l.flatMap (leBytes 4) ++ (List.replicate (g.cap - l.length) (0xFFFFFFFF : Nat)).flatMap (leBytes 4))) s
  .ok (t.emitData c float c.result res, [])

/-- GATHER in ROUTE mode. -/
def execGatherRoute (cid : Nat) (s : State) : Host.Outcome State Fault Refusal :=
  .next (s.serve cid (fun c => c.cls == 8 && c.form == 2 && s.gsMode c == 1) gatherRouteEffect)

/-- One row of a SCATTER into the table's new contents: overwrite, or add w times it element by element, rounding once
(R235). -/
def scatterRow (fmt : Option Nat) (w : Num) (old new : List Byte) : List Byte :=
  match fmt with
  | none => new
  | some k =>
    let size := fmtBits k / 8
    (List.range (new.length / size)).flatMap (fun i =>
      let at' (l : List Byte) : Num := decodeElem k (leNat ((l.drop (i * size)).take size))
      leBytes size (match floatFmt k with
        | some f => encodeFloat f false none ((w.mul (at' new)).add (at' old))
        | none => 0))

/-- The new contents of the table rows that a SCATTER names, by ascending entry. -/
def State.scatterRows (s : State) (c : Cmd) (g : GsHeader) (fmt : Option Nat) : List (Nat × Nat) → SMap (List Byte) → SMap (List Byte)
  | [], m => m
  | (k, i) :: l, m =>
    let old := ((m.find? (fun e => e.1 == k)).map (·.2)).getD (s.readAt c.fn (g.table.plus (k * g.len)) g.len)
    let w := if g.wgt then decodeFloat fp32 (s.natAt c.fn (c.desc.plus (32 + 4 * c.count + 4 * i)) 4) else .fin false 1 0
    s.scatterRows c g fmt l (SMap.put k (scatterRow fmt w old (s.readAt c.fn (g.rows.plus (i * g.pitch)) g.len)) m)

/-- The effect of a SCATTER: each table row that it names is written once (R212, R235). -/
def scatterEffect (fmt : Option Nat) (c : Cmd) (s : State) : Except Refused (State × List Nat) := do
  let (g, float) ← s.gsOpen c
  s.gsRows c g
  let n := c.count
  let idx := ((List.range n).map (s.gsIndex c)).zipIdx
  let good := idx.filter (fun e => decide (e.1 < g.nt))
  good.forM (fun e => s.needGood c (g.rows.plus (e.2 * g.pitch)) g.len)
  if fmt.isSome then good.forM (fun e => s.needGood c (g.table.plus (e.1 * g.len)) g.len)
  ensure (good.all (fun e => !s.ownedElsewhere c.fn (g.table.plus (e.1 * g.len)) g.len)) Status.ownershipFault g.table.word
  let t := (s.scatterRows c g fmt good []).foldl (fun (t : State) (e : Nat × List Byte) =>
    t.emitData c float (g.table.plus (e.1 * g.len)) e.2) s
  .ok (t, [n - good.length, 0, 0])

/-- SCATTER that overwrites. -/
def execScatterOverwrite (cid : Nat) (s : State) : Host.Outcome State Fault Refusal :=
  .next (s.serve cid (fun c => c.cls == 8 && c.form == 3 && (s.gsMode c == 0 || s.gsMode c == 3)) (scatterEffect none))
/-- SCATTER that adds FP32 rows. -/
def execScatterAddFp32 (cid : Nat) (s : State) : Host.Outcome State Fault Refusal :=
  .next (s.serve cid (fun c => c.cls == 8 && c.form == 3 && s.gsMode c == 1) (scatterEffect (some 0)))
/-- SCATTER that adds BF16 rows. -/
def execScatterAddBf16 (cid : Nat) (s : State) : Host.Outcome State Fault Refusal :=
  .next (s.serve cid (fun c => c.cls == 8 && c.form == 3 && s.gsMode c == 2) (scatterEffect (some 1)))

end Sys2Proof.Machine
end

