-- ==== Sys2Proof/Machine/Radio.lean ====
section
/-!
DEFINITION. Radio-engine jobs of classes 7 to 15, 18 and 19: the parameter block and its checks, the W that the device
computes, and their effects (R239-R260). Machine/Codes.lean holds the arithmetic of the codes; what this manual and the
documents that it names leave open there is a constant of Config without a body (log entry 8).
-/

namespace Sys2Proof.Machine

/-! ### The parameter block (R245, R246, Tables 9.3 and 9.5) -/

def Cmd.param (c : Cmd) : DevAddr := c.addr 8
/-- A 64-byte parameter block. -/
abbrev Blk := List W32
def Blk.cls (b : Blk) : Nat := (wd b 0).fld 0 5
def Blk.mode (b : Blk) : Nat := (wd b 0).fld 8 8
def Blk.n (b : Blk) : Nat := (wd b 0).fld 16 16
def Blk.len (b : Blk) : Nat := (wd b 2).fld 0 24
def Blk.limit (b : Blk) : Nat := (wd b 3).fld 0 5

/-- The block of a record. -/
def State.blk (s : State) (c : Cmd) : Blk := s.wordsAt c.fn c.param 16
/-- The MODE that a record's block names; 0 where the block cannot be addressed. -/
def State.blkMode (s : State) (c : Cmd) : Nat := if s.addrOk c.fn c.param 64 && c.param.isMem then (s.blk c).mode else 0

/-- Bits that a class's block uses. -/
def blkBits (cls : Nat) : List Nat :=
  let a := 0xFFFFFFFF
  let common := [0xFFFFFF1F, a, 0xFFFFFF, 0x1F]
  let own :=
    match cls with
    | 7 => [a, 0x7FFFFFF]
    | 8 => [0x3FF, 0xFFFFFF, 0xFFFFFF, 0x1FF, 0xFFFFFF]
    | 9 => [a, 0x7F, 0xFFFF]
    | 10 => [a, 0x7F, 0xFFFF]
    | 11 => [0x3FFFFF, 0x7FFFFFF]
    | 12 => [0x3FFFFF, 0xFFFFF]
    | 13 => [0x1FF, 0x1FFFFFF]
    | 14 => [a, a, 0xFFFFFF, 0xFFFFFF, 0x7FFFFF, 0xFFFFFF, 0x3FF, 0xFFFF]
    | 15 => [0x3FFF, 0x1FFFF]
    | 18 => [a]
    | 19 => [a]
    | _ => List.replicate 12 a
  common ++ own ++ List.replicate (12 - own.length) 0

/-- The 51 lifting sizes of TS 38.212 (PRESUMED; log entry 8). -/
def liftingSize (z : Nat) : Bool :=
  decide (2 ≤ z) && decide (z ≤ 384) && [2, 3, 5, 7, 9, 11, 13, 15].any (fun a => (List.range 8).any (fun j => a * 2 ^ j == z))

/-- BG and ZC of a word (class 7 W4, class 8 W4, class 14 W10). -/
def bgOf (w : W32) : Nat := w.fld 0 1
def zcOf (w : W32) : Nat := w.fld 1 9
/-- Columns of a base graph that reach the circular buffer (Table 9.4). -/
def columns (w : W32) : Nat := if bgOf w = 0 then 66 else 50

def within (lo hi v : Nat) : Bool := decide (lo ≤ v) && decide (v ≤ hi)

/-- Every field of a class's block is in its range (step 4 of R246). -/
def Blk.fieldsOk (cls : Nat) (b : Blk) : Bool :=
  bitsInside b (blkBits cls) && decide (1 ≤ b.n) &&
  match cls with
  | 7 => b.mode == 0 && within 1 25 b.limit && liftingSize (zcOf (wd b 4)) && within 4 (if bgOf (wd b 4) = 0 then 46 else 42) ((wd b 4).fld 10 6) &&
      decide ((wd b 5).fld 0 24 ≤ 1277992) && decide ((wd b 5).fld 24 2 ≤ 2)
  | 8 => decide (b.mode ≤ 1) && (b.mode == 1 || liftingSize (zcOf (wd b 4))) && (wd b 6).fld 0 24 == b.len &&
      [1, 2, 4, 6, 8, 10].contains ((wd b 7).fld 0 4) && within 1 4 ((wd b 7).fld 6 3)
  | 9 => decide (b.mode ≤ 2) && (b.mode != 0 || [1, 2, 4, 8].contains b.limit) && within 1 1706 ((wd b 4).fld 0 16) && within 1 8192 ((wd b 4).fld 16 16) &&
      within 5 10 ((wd b 5).fld 0 4)
  | 10 => decide (b.mode ≤ 1) && within 1 1706 ((wd b 4).fld 0 16) && within 1 8192 ((wd b 4).fld 16 16) && within 5 10 ((wd b 5).fld 0 4)
  | 11 => decide (b.mode ≤ 1) && within 3 9 ((wd b 4).fld 16 4) &&
      (if b.mode = 0 then within 1 8192 ((wd b 4).fld 0 16) else within 40 6144 ((wd b 4).fld 0 16) && within 1 8 b.limit)
  | 12 => decide (b.mode ≤ 4) && within 12 1151 ((wd b 4).fld 0 11) && within 1 64 ((wd b 4).fld 11 7) && within 8 11 ((wd b 4).fld 18 4) &&
      decide ((wd b 4).fld 0 11 ≤ 2 ^ (wd b 4).fld 18 4) && decide ((wd b 5).fld 0 10 ≤ 837) && decide ((wd b 5).fld 10 6 ≤ 15) && within 1 12 ((wd b 5).fld 16 4)
  | 13 => b.mode == 0 && [1, 2, 4, 6, 8].contains ((wd b 4).fld 0 4) && decide (1 ≤ (wd b 5).fld 0 20) && within 1 16 ((wd b 5).fld 20 5)
  | 14 => b.mode == 0 && decide ((wd b 8).fld 0 16 ≤ b.n) && [1, 2, 4, 6, 8].contains ((wd b 8).fld 16 4) && liftingSize (zcOf (wd b 10))
  | 15 => b.mode == 0 && within 1 14 ((wd b 4).fld 10 4) && within 1 3276 ((wd b 5).fld 0 16) && decide ((wd b 4).fld 0 9 + b.n ≤ 512)
  | 18 => b.mode == 0 && wd b 1 == 0 && wd b 2 == 0 && wd b 3 == 0 && b.n == 1
  | 19 => b.mode == 0 && wd b 1 == 0 && wd b 2 == 0 && wd b 3 == 0 && b.n == 1
  | _ => true

/-- A cell whose radio jobs may start: an active one (R246, R263). -/
def State.cellRuns (s : State) (c : Nat) : Bool := s.cellState c == 2

/-- The checks of R245 and R246 on a record's block, in order; `fields` is step 4. A job that has started runs on when its cell
leaves. -/
def State.openBlk (s : State) (c : Cmd) (fields : Blk → Bool) : Except Refused (Blk × Option Nat) := do
  let float ← s.float12 c
  s.needInput c c.param 64
  let b := s.blk c
  ensure (b.cls == calClass c.onEngine) Status.engineInvalid
  ensure (decide (c.cell < 1024)) Status.shapeInvalid
  ensure (c.phase == .running || s.cellRuns c.cell) Status.accessDenied
  ensure (fields b) Status.shapeInvalid
  .ok (b, float)

/-! ### Lengths (R247, Table 9.4) -/

/-- Total LLRs of a HARQ job. -/
def Blk.eTot (b : Blk) : Nat :=
  (wd b 8).fld 0 16 * (wd b 6).fld 0 24 + (b.n - (wd b 8).fld 0 16) * (wd b 7).fld 0 24

/-- The W that the device computes for classes 7 to 15; 0 for the others. The code block size K of LTE turbo encoding is the
larger one that segmentation gives (PRESUMED, log entry 8). -/
def Blk.time (cls : Nat) (b : Blk) : Nat :=
  let c := b.n
  match cls with
  | 7 => 64 + c * b.limit * (cdiv ((wd b 4).fld 10 6 * zcOf (wd b 4)) 36 + 4)
  | 8 =>
    if b.mode = 0 then 24 + c * cdiv (columns (wd b 4) * zcOf (wd b 4)) 320 + cdiv ((wd b 6).fld 0 24) 1024
    else 24 + c * cdiv (3 * turboUp c (turboTotal c ((wd b 5).fld 0 24))) 64 + cdiv ((wd b 6).fld 0 24) 1024
  | 9 => 32 + c * (2 ^ (wd b 5).fld 0 4 * (b.limit + 6) / 4 + 8)
  | 10 => if b.mode = 0 then 16 + c * (2 ^ (wd b 5).fld 0 4 / 8 + 8) else 16 + c * (cdiv (3 * (wd b 4).fld 0 16) 32 + 8)
  | 11 =>
    let k := (wd b 4).fld 0 16
    if b.mode = 0 then 32 + c * ((if (wd b 4).fld 16 4 ≤ 7 then 1 else 4) * cdiv (9 * (k + 128)) 10 + 16)
    else 64 + c * (cdiv (k * b.limit) 5 + 64)
  | 12 => 32 + (wd b 4).fld 11 7 * c * (cdiv ((wd b 4).fld 0 11) 4 + 2 ^ (wd b 4).fld 18 4 / 8 + 16)
  | 13 => 16 + cdiv ((wd b 5).fld 0 20 * (wd b 5).fld 20 5 * cdiv ((wd b 4).fld 0 4) 2) 16
  | 14 => 272 + cdiv b.eTot 32
  | 15 => 24 + c * (cdiv ((wd b 5).fld 0 16) 16 + 4 * (wd b 4).fld 10 4)
  | _ => 0

/-- L_max of a read and of a write by a spine-die requester (Table 6.3); the sump and a fabric lane add 0 (R249). -/
def readLmax (a : DevAddr) : Nat := if a.space = 2 then 240 else if a.space = 1 then 28 else 0
def writeLmax (a : DevAddr) : Nat :=
  if a.space = 2 then 200 else if a.space = 1 then 24 else if a.space = 0 ∨ a.space = 4 then 30 else 0
/-- The W of a job of classes 18 and 19 (Table 9.4). -/
def radioPumpTime (c : Cmd) (b : Blk) : Nat := 16 + cdiv (wd b 4).toNat 256 + readLmax (c.addr 4) + writeLmax (c.addr 6)

/-! ### What the engines share -/

/-- Coded bits of a block: the rate, with the tail of a terminated code; LTE turbo codes add 12 (PRESUMED). -/
def trellisIn (b : Blk) : Nat :=
  let k := (wd b 4).fld 0 16
  b.n * (if b.mode = 0 then (if (wd b 4).bit 20 then 3 else 2) * (k + (if (wd b 4).bit 21 then 0 else (wd b 4).fld 16 4 - 1)) else 3 * k + 12)

/-- Exactly n bytes of a constant's output. -/
def takeBytes (n : Nat) (l : List Byte) : List Byte := (List.range n).map (fun i => l.getD i 0)
/-- A bit stream of n bits: the unused low bits of its last byte are 0 (R242). -/
def bitStream (n : Nat) (l : List Byte) : List Byte :=
  (List.range (cdiv n 8)).map (fun i => let b := l.getD i 0; if 8 * i + 8 ≤ n then b else BitVec.ofNat 8 (b.toNat / 2 ^ (8 * i + 8 - n) * 2 ^ (8 * i + 8 - n)))
/-- A soft bit: no engine produces -128, and one read is -127 (R243). -/
def softBit (b : Byte) : Int := max (-127) (sgn 8 b.toNat)
def softByte (x : Int) : Byte := BitVec.ofInt 8 (max (-127) (min 127 x))
/-- The classes whose input is soft bits; they read -128 as -127 (R243). -/
def softInput (cls : Nat) (l : List Byte) : List Byte := if [7, 9, 11, 14].contains cls then l.map (fun x => softByte (softBit x)) else l
def softBits (l : List Byte) : List Int := l.map softBit
/-- Bytes a to a + n of a list. -/
def slice (a n : Nat) (l : List Byte) : List Byte := (l.drop a).take n

/-- The effect of a radio-engine job: an uncorrectable error fails its transport block without a fault; DETAIL carries TB_ID
(R398, Table 7.17). -/
def State.radioDo (s : State) (cid : Nat) (is : Cmd → Bool) (k : Cmd → State → Except Refused (State × List Nat)) : State :=
  let t := s.perform cid (fun c => c.cls == 9 && is c) k
  match s.cmd? cid, t.cmd? cid with
  | some c, some d =>
    if !c.did && d.did && !Status.faults d.status true then
      let u := t.modCmd cid (fun (e : Cmd) => { e with detail := [c.tbId, 0, 0] })
      if d.status = Status.eccUncorrectable then u.failTb c else u
    else t
  | _, _ => t

/-- A job asks for its inputs: the blocks that come from GDDR7 are read through the buckets, and all of it is presented at the
time of Table 6.3 (R18, R172, R173). -/
def State.askInputs (s : State) (c : Cmd) (l : List (DevAddr × Nat)) : State :=
  let srcs := l.flatMap (fun (e : DevAddr × Nat) => if e.1.space = 2 then (List.range e.2).map e.1.plus else [])
  let r := s.askBlocks (s.readOf c 240) 256 [] s.clock (s.blocksAt c.fn srcs)
  r.1.modCmd c.id (fun (d : Cmd) => { d with asked := some (r.2.2 + (if srcs.isEmpty then 28 else 240)) })

/-- A radio-engine job: it asks for its inputs, and has its effect when they are all presented; one that fails a check does
so at once. The manual tells the memory of a job only through its reads, so its effect sees memory as they bring it. -/
def State.radioRun (s : State) (cid : Nat) (is : Cmd → Bool) (inputs : State → Cmd → List (DevAddr × Nat))
    (k : Cmd → State → Except Refused (State × List Nat)) : State :=
  match s.cmd? cid with
  | some c =>
    if !(s.up && c.phase == .running && !c.did && c.cls == 9 && is c) then s
    else
      let bad := match k c s with
        | .error e => e.status != Status.eccUncorrectable
        | .ok _ => false
      let l := (inputs s c).filter (fun e => e.2 != 0)
      match c.asked with
      | none => if bad || l.isEmpty then s.radioDo cid is k else s.askInputs c l
      | some due =>
        if s.clock < due ∨ s.reading cid none = true then s
        else
          let t := (s.asSeen cid none).radioDo cid is k
          ({ t with mem := s.mem, garbled := s.garbled, ecc := s.ecc } : State).takeReads cid none
  | none => s

/-- Nothing to ask for. -/
def noInputs (_ : State) (_ : Cmd) : List (DevAddr × Nat) := []

/-- Bytes that classes 7 to 15 read at IN (Table 9.4). -/
def Blk.input (cls : Nat) (b : Blk) : Nat :=
  match cls with
  | 7 => b.n * columns (wd b 4) * zcOf (wd b 4)
  | 8 => cdiv ((wd b 5).fld 0 24) 8
  | 9 => b.n * (wd b 4).fld 16 16
  | 10 => b.n * cdiv ((wd b 4).fld 0 16) 8
  | 11 => trellisIn b
  | 12 => 4 * (wd b 4).fld 0 11 * (wd b 4).fld 11 7 * (wd b 5).fld 16 4
  | 13 => 4 * (wd b 5).fld 0 20 * (wd b 5).fld 20 5 + 2 * (wd b 5).fld 20 5 * cdiv ((wd b 5).fld 0 20) 12
  | 14 => b.eTot
  | 15 => 4 * b.n * (wd b 4).fld 10 4 * (wd b 5).fld 0 16
  | _ => 0

/-- The soft buffer of a HARQ job and its length. -/
def Blk.sbuf (b : Blk) : DevAddr := devAddr (wd64 b 4)
def Blk.sbufLen (b : Blk) : Nat := b.n * (wd b 9).fld 0 24

/-- The inputs of a job of classes 7 to 15: IN, and the soft buffer of a HARQ job whose NEW is 0. -/
def State.codecInputs (s : State) (c : Cmd) : List (DevAddr × Nat) :=
  let b := s.blk c
  let k := calClass c.onEngine
  (c.addr 4, b.input k) :: (if k = 14 ∧ (wd b 8).bit 22 = false then [(b.sbuf, b.sbufLen)] else [])

/-- An engine that reads IN and writes one stream at OUT. -/
def codecEffect (output : State → Cmd → Blk → List Byte → List Byte) (after : Cmd → Blk → List Byte → State → State)
    (c : Cmd) (s : State) : Except Refused (State × List Nat) := do
  let (b, float) ← s.openBlk c (Blk.fieldsOk (calClass c.onEngine))
  let n := b.input (calClass c.onEngine)
  s.needInput c (c.addr 4) n
  let data := softInput (calClass c.onEngine) (s.readAt c.fn (c.addr 4) n)
  let out := output s c b data
  s.needOutput c (c.addr 6) out.length
  .ok (after c b data (s.emitData c float (c.addr 6) out), [])

/-- A job of a class and of the modes that a row names. -/
def State.isRadio (s : State) (cls : Nat) (modes : Nat → Bool) (c : Cmd) : Bool := calClass c.onEngine == cls && modes (s.blkMode c)

def nothing (_ : Cmd) (_ : Blk) (_ : List Byte) (s : State) : State := s

/-! ### LDPC (R250, R251) -/

/-- A codeword decoded: its circular buffer of LLRs (R250). -/
def ldpcWord (b : Blk) (data : List Byte) (k : Nat) : Decoded :=
  let n := columns (wd b 4) * zcOf (wd b 4)
  ldpcDecode (bgOf (wd b 4)) (zcOf (wd b 4)) ((wd b 4).fld 10 6) ((wd b 4).fld 16 16) b.limit ((wd b 5).bit 26) (softBits (slice (k * n) n data))
/-- Its CRC24B passes. -/
def ldpcPass (b : Blk) (d : Decoded) : Bool := crc24B.passes (d.bits.take ((wd b 4).fld 16 16))
/-- Its status word: iterations, CRC pass, early stop. -/
def ldpcStatus (b : Blk) (d : Decoded) : Nat := d.iters + (ldpcPass b d).toNat * 2 ^ 5 + d.early.toNat * 2 ^ 6
/-- The result of the transport block CRC; where the job names none it is open (log entry 8). -/
def tbPass (b : Blk) (data : List Byte) (bits : List Bool) : Nat :=
  let n := (wd b 5).fld 0 24
  match (wd b 5).fld 24 2 with
  | 1 => (crc16.passes (bits.take (n + 16))).toNat
  | 2 => (crc24A.passes (bits.take (n + 24))).toNat
  | _ => Config.codecStatus 7 0 b data 0 % 2

/-- The transport block CRC result and the count of failed codewords, the transport block's bits, the status words. -/
def ldpcOut (_ : State) (_ : Cmd) (b : Blk) (data : List Byte) : List Byte :=
  let n := (wd b 5).fld 0 24
  let words := (List.range b.n).map (ldpcWord b data)
  let bits := words.flatMap (fun d => d.bits.take ((wd b 4).fld 16 16 - 24))
  let failed := (words.filter (fun d => !ldpcPass b d)).length
  leBytes 4 (tbPass b data bits + failed * 2 ^ 16) ++ packBits ((List.range n).map (fun i => bits.getD i false)) ++
    words.flatMap (fun d => leBytes 4 (ldpcStatus b d))

/-- LDPC_DECODE: C circular buffers of LLRs in. -/
def execLdpcDecode (cid : Nat) (s : State) : Host.Outcome State Fault Refusal :=
  .next (s.radioRun cid (s.isRadio 7 (fun _ => true)) State.codecInputs (codecEffect ldpcOut nothing))

/-- The G rate-matched bits of a transport block, scrambled where SCR is set (R251). -/
def encodeOut (mode : Nat) (_ : State) (_ : Cmd) (b : Blk) (data : List Byte) : List Byte :=
  let w := wd b 7
  let tb := unpackBits ((wd b 5).fld 0 24) data
  let bits := if mode = 0 then ldpcEncode (bgOf (wd b 4)) (zcOf (wd b 4)) b.n (w.fld 0 4) (w.fld 4 2) (w.fld 6 3) ((wd b 8).fld 0 24) b.len tb
    else turboEncode b.n (w.fld 0 4) (w.fld 4 2) (w.fld 6 3) ((wd b 8).fld 0 24) b.len tb
  let out := (List.range b.len).map (fun i => bits.getD i false)
  packBits (if (wd b 1).bit 31 then scramble (gold ((wd b 1).fld 0 31) b.len) out else out)
/-- LDPC_ENCODE. -/
def execLdpcEncode (cid : Nat) (s : State) : Host.Outcome State Fault Refusal :=
  .next (s.radioRun cid (s.isRadio 8 (· != 1)) State.codecInputs (codecEffect (encodeOut 0) nothing))
/-- TURBO_ENCODE. -/
def execTurboEncode (cid : Nat) (s : State) : Host.Outcome State Fault Refusal :=
  .next (s.radioRun cid (s.isRadio 8 (· == 1)) State.codecInputs (codecEffect (encodeOut 1) nothing))

/-! ### Polar, Reed-Muller, repetition and simplex codes (R252, R260) -/

/-- A decision metric below the cell's DTX threshold, in 1/256 dB. -/
def State.isDtx (s : State) (c : Cmd) (metric : Nat) : Bool := decide (metric % 65536 < s.cellO c.cell 0x17)

/-- The CRC that CRCT names. -/
def polarCrc (b : Blk) : Crc := [crc24C, crc11, crc6, crc16].getD ((wd b 5).fld 4 2) crc24C
/-- A path's bits end in their CRC, masked by the RNTI. -/
def polarPass (b : Blk) (bits : List Bool) : Bool :=
  (polarCrc b).passes (bits.take ((wd b 4).fld 0 16)) (if (wd b 5).fld 4 2 = 0 then Config.crc24cStart b else 0) ((wd b 6).fld 0 16)
/-- The path with the best metric, the lower index on a tie. -/
def bestPath : List (Nat × List Bool) → List Bool
  | [] => []
  | p :: ps => (ps.foldl (fun a q => if q.1 < a.1 then q else a) p).2
/-- List decoding: the best path whose CRC passes, else the best path; and whether one passes (R252). -/
def polarChoice (b : Blk) (llrs : List Byte) : List Bool × Bool :=
  let paths := (Config.polarPaths b llrs).take b.limit
  let good := paths.filter (fun p => polarPass b p.2)
  if good.isEmpty then (bestPath paths, false) else (bestPath good, true)
/-- Maximum-likelihood decoding over all 2^K codewords of a short code; equal ones by a choice left open (R252, log entry 8). -/
def mostLikely (mode k : Nat) (llrs : List Int) : List Bool :=
  let score (m : Nat) : Int := agreement llrs ((List.range llrs.length).map (Config.shortCode mode k m))
  numBits k ((List.range (2 ^ k)).foldl (fun a m =>
    if score a < score m then m else if score a = score m && Config.undecided then m else a) 0)
/-- What a block decodes to, by mode. -/
def polarBits (mode : Nat) (b : Blk) (data llrs : List Byte) (i : Nat) : List Bool × Bool :=
  let k := (wd b 4).fld 0 16
  let open_ := Config.codecStatus 9 mode b data (2 * i + 1) % 2 == 1
  match mode with
  | 0 => polarChoice b llrs
  | 1 => (mostLikely 1 k (softBits llrs), open_)
  | _ => (unpackBits k (Config.codec 9 mode b llrs (cdiv k 8)), open_)

/-- Per block its payload bits and its status word: CRC pass in [5], DTX in [7]; a DTX payload is 0. -/
def polarOut (mode : Nat) (s : State) (c : Cmd) (b : Blk) (data : List Byte) : List Byte :=
  let k := (wd b 4).fld 0 16
  let e := (wd b 4).fld 16 16
  (List.range b.n).flatMap (fun i =>
    let dtx := s.isDtx c (Config.codecStatus 9 mode b data (2 * i))
    let r := polarBits mode b data (slice (i * e) e data) i
    packBits ((List.range k).map (fun j => !dtx && r.1.getD j false)) ++ leBytes 4 (r.2.toNat * 2 ^ 5 + dtx.toNat * 2 ^ 7))
/-- POLAR_DECODE. -/
def execPolarDecode (cid : Nat) (s : State) : Host.Outcome State Fault Refusal :=
  .next (s.radioRun cid (s.isRadio 9 (fun m => m != 1 && m != 2)) State.codecInputs (codecEffect (polarOut 0) nothing))
/-- REED_MULLER_DECODE. -/
def execReedMullerDecode (cid : Nat) (s : State) : Host.Outcome State Fault Refusal :=
  .next (s.radioRun cid (s.isRadio 9 (· == 1)) State.codecInputs (codecEffect (polarOut 1) nothing))
/-- REPETITION_SIMPLEX_DECODE. -/
def execRepetitionSimplexDecode (cid : Nat) (s : State) : Host.Outcome State Fault Refusal :=
  .next (s.radioRun cid (s.isRadio 9 (· == 2)) State.codecInputs (codecEffect (polarOut 2) nothing))

/-- E bits for each block. -/
def polarEncOut (mode : Nat) (_ : State) (_ : Cmd) (b : Blk) (data : List Byte) : List Byte :=
  let e := (wd b 4).fld 16 16
  (List.range b.n).flatMap (fun i => bitStream e ((Config.codec 10 mode b data (b.n * cdiv e 8)).drop (i * cdiv e 8)))
/-- POLAR_ENCODE. -/
def execPolarEncode (cid : Nat) (s : State) : Host.Outcome State Fault Refusal :=
  .next (s.radioRun cid (s.isRadio 10 (· != 1)) State.codecInputs (codecEffect (polarEncOut 0) nothing))
/-- TBCC_ENCODE. -/
def execTbccEncode (cid : Nat) (s : State) : Host.Outcome State Fault Refusal :=
  .next (s.radioRun cid (s.isRadio 10 (· == 1)) State.codecInputs (codecEffect (polarEncOut 1) nothing))

/-! ### Trellis codes (R253) -/

/-- Turbo decoding of a block: up to LIMIT iterations, until its CRC24B passes. -/
def turboRun (b : Blk) (llrs : List Byte) (k : Nat) : Nat → Nat → List Bool × Nat × Bool
  | 0, done => (Config.turboBits b llrs done, done, false)
  | fuel + 1, done =>
    let bits := Config.turboBits b llrs (done + 1)
    if crc24B.passes (bits.take k) then (bits, done + 1, true) else turboRun b llrs k fuel (done + 1)
/-- What a block decodes to: bits, iterations, CRC pass. A Viterbi job names no CRC: its bit is open (log entry 8). -/
def trellisBits (mode : Nat) (b : Blk) (data llrs : List Byte) (i : Nat) : List Bool × Nat × Bool :=
  let k := (wd b 4).fld 0 16
  if mode = 0 then
    let n := if (wd b 4).bit 20 then 3 else 2
    let gens := (List.range n).map (fun j => (wd b 5).fld (9 * j) 9)
    (viterbi ((wd b 4).fld 16 4) k gens ((wd b 4).bit 21) (chunksOf n llrs.length (softBits llrs)), 0, Config.codecStatus 11 0 b data i % 2 == 1)
  else turboRun b llrs k b.limit 0

/-- Per block its bits and its status word: iterations of turbo decoding in [4:0], CRC pass in [5]. -/
def trellisOut (mode : Nat) (_ : State) (_ : Cmd) (b : Blk) (data : List Byte) : List Byte :=
  let k := (wd b 4).fld 0 16
  let e := trellisIn b / max 1 b.n
  (List.range b.n).flatMap (fun i =>
    let r := trellisBits mode b data (slice (i * e) e data) i
    packBits ((List.range k).map (fun j => r.1.getD j false)) ++ leBytes 4 (r.2.1 + r.2.2.toNat * 2 ^ 5))
/-- VITERBI_DECODE. -/
def execViterbiDecode (cid : Nat) (s : State) : Host.Outcome State Fault Refusal :=
  .next (s.radioRun cid (s.isRadio 11 (· != 1)) State.codecInputs (codecEffect (trellisOut 0) nothing))
/-- TURBO_DECODE. -/
def execTurboDecode (cid : Nat) (s : State) : Host.Outcome State Fault Refusal :=
  .next (s.radioRun cid (s.isRadio 11 (· == 1)) State.codecInputs (codecEffect (trellisOut 1) nothing))

/-! ### Correlator (R258-R260) -/

/-- The PRACH threshold in use of a cell: the manual one, else the derived one (R259). -/
def State.prachT (s : State) (cell : Nat) : Nat :=
  let manual := s.cellO cell 0x11
  let pair := s.cellO cell 0x0A
  if manual ≠ 0 then manual else derivedThreshold (fld pair 0 8 * fld pair 8 8) (s.cellO cell 0x12)

/-- All samples of the profiles of a job: its roots, and the correlation transform's samples. -/
def prachSamples (b : Blk) (data : List Byte) : List Nat :=
  (List.range b.n).flatMap (fun r => (List.range (2 ^ (wd b 4).fld 18 4)).map (Config.prachPower b data r))
/-- The noise estimate, as a sum and a count: the mean of the samples at most T times the mean of them all (R258). -/
def prachNoise (t : Nat) (samples : List Nat) : Nat × Nat :=
  let kept := samples.filter (fun p => decide ((p * samples.length) ^ 2560 ≤ 10 ^ t * samples.sum ^ 2560))
  (kept.sum, kept.length)
/-- The peak in the window of a preamble index, and the lowest sample that attains it. -/
def prachPeak (b : Blk) (data : List Byte) (i : Nat) : Nat × Nat :=
  let w := Config.prachWindow b i
  let ns := (List.range w.2.2).map (fun j => (w.2.1 + j) % 2 ^ (wd b 4).fld 18 4)
  let p := (ns.map (Config.prachPower b data w.1)).foldl max 0
  let at_ := ns.filter (fun n => Config.prachPower b data w.1 n == p)
  (p, at_.foldl min (at_.headD 0))
/-- A ratio in 1/256 dB, at least 0 dB; between two of them the device reports either (log entry 8). -/
def ratioDb (a b : Nat) : Nat :=
  let t := leastFrom (fun t => !atLeastDb t a b) 16 0 - 1
  if 10 ^ t * b ^ 2560 = a ^ 2560 then t else t + (Config.prachRound a).toNat
/-- PRACH reports: per preamble index, ascending, where the peak is at least T times the noise, up to the cell's limit. -/
def prachReports (s : State) (c : Cmd) (b : Blk) (data : List Byte) : List (List Byte) :=
  let t := s.prachT c.cell
  let noise := prachNoise t (prachSamples b data)
  let found := (List.range 64).filter (fun i =>
    decide ((Config.prachWindow b i).1 < b.n) && atLeastDb t ((prachPeak b data i).1 * noise.2) noise.1)
  (found.take (s.cellO c.cell 0x13)).map (fun i =>
    let p := prachPeak b data i
    leBytes 4 (i + p.2 * 2 ^ 16) ++ leBytes 2 (min 65535 (ratioDb (p.1 * noise.2) noise.1)) ++ leBytes 2 (Config.timingAdvance b p.2))

/-! ### Cell records (R257) -/

/-- The selector under which the radio objects are written; 0 while there is no radio owner, where they do not exist. -/
def State.radioSel (s : State) : Nat := if s.radioOwner < 512 then s.radioOwner else 0
/-- The cell record base. -/
def State.crb (s : State) : Nat := if s.radioOwner < 512 then s.o s.radioOwner 0x4000 1 else 0
/-- What word i of a cell's record holds: subindex .10 + i. -/
def State.recWord (s : State) (cell i : Nat) : Nat := if i = 0 then s.prachT cell else s.cellO cell (0x10 + i)

/-- Note the words of a cell's record that a change of a subindex changes: its own, and the threshold in use where it
changes with it (R257, R259). -/
def State.noteRec (s : State) (cell sub : Nat) : State :=
  if s.crb = 0 then s
  else
    let own := if 0x10 ≤ sub ∧ sub ≤ 0x18 then [sub - 0x10] else []
    let words := own ++ (if sub = 0x0A ∨ sub = 0x11 ∨ sub = 0x12 then [0] else [])
    { s with recs := s.recs ++ words.map (fun i => (cell, i, s.frame + 2, s.recWord cell i)) }

/-- Detections are counted, and so is word 8 of the cell's record. -/
def State.countDetections (s : State) (cell n : Nat) : State := if n = 0 then s else (s.addCellO cell 0x18 n).noteRec cell 0x18
/-- PRACH_DETECT; the cell counts its detections. -/
def execPrachDetect (cid : Nat) (s : State) : Host.Outcome State Fault Refusal :=
  .next (s.radioRun cid (s.isRadio 12 (fun m => m == 0 || decide (4 < m))) State.codecInputs
    (codecEffect (fun t c b d => (prachReports t c b d).flatten) (fun c b d t => t.countDetections c.cell (prachReports s c b d).length)))

/-- PUCCH reports: per block a payload word and a status word with the DTX decision in [7]. -/
def pucchOut (mode : Nat) (s : State) (c : Cmd) (b : Blk) (data : List Byte) : List Byte :=
  (List.range b.n).flatMap (fun i =>
    let dtx := s.isDtx c (Config.codecStatus 12 mode b data (2 * i))
    leBytes 4 (if dtx then 0 else Config.codecStatus 12 mode b data (2 * i + 1)) ++ leBytes 4 (dtx.toNat * 2 ^ 7))
/-- PUCCH_FORMAT0_DETECT. -/
def execPucchFormat0Detect (cid : Nat) (s : State) : Host.Outcome State Fault Refusal :=
  .next (s.radioRun cid (s.isRadio 12 (· == 1)) State.codecInputs (codecEffect (pucchOut 1) nothing))
/-- PUCCH_FORMAT1_DETECT. -/
def execPucchFormat1Detect (cid : Nat) (s : State) : Host.Outcome State Fault Refusal :=
  .next (s.radioRun cid (s.isRadio 12 (· == 2)) State.codecInputs (codecEffect (pucchOut 2) nothing))

/-- Reports whose layout and length the manual does not give (log entry 8). -/
def openOut (mode : Nat) (_ : State) (_ : Cmd) (b : Blk) (data : List Byte) : List Byte :=
  let n := Config.codecStatus 12 mode b data 0 % 65537
  takeBytes n (Config.codec 12 mode b data n)
/-- SRS_MEASURE. -/
def execSrsMeasure (cid : Nat) (s : State) : Host.Outcome State Fault Refusal :=
  .next (s.radioRun cid (s.isRadio 12 (· == 3)) State.codecInputs (codecEffect (openOut 3) nothing))
/-- DESPREAD. -/
def execDespread (cid : Nat) (s : State) : Host.Outcome State Fault Refusal :=
  .next (s.radioRun cid (s.isRadio 12 (· == 4)) State.codecInputs (codecEffect (openOut 4) nothing))

/-! ### Demapper, HARQ combiner, pilot tracker (R254-R256) -/

/-- The LLRs of every resource element and layer in turn, bit by bit; the scale of its resource block and layer lies behind the
symbols (R254; order and scales log entry 8). -/
def demapOut (_ : State) (_ : Cmd) (b : Blk) (data : List Byte) : List Byte :=
  let qm := (wd b 4).fld 0 4
  let nre := (wd b 5).fld 0 20
  let nl := (wd b 5).fld 20 5
  (List.range (nre * nl)).flatMap (fun k =>
    let w := leNat (slice (4 * k) 4 data)
    let g := leNat (slice (4 * nre * nl + 2 * (k / nl / 12 * nl + k % nl)) 2 data)
    (List.range qm).map (fun j => softByte (llrOf qm ((wd b 4).bit 4) ((wd b 4).fld 5 4) g (k / nl) (sgn 16 (fld w 0 16), sgn 16 (fld w 16 16)) j)))
/-- DEMAP. -/
def execDemap (cid : Nat) (s : State) : Host.Outcome State Fault Refusal :=
  .next (s.radioRun cid (s.isRadio 13 (fun _ => true)) State.codecInputs (codecEffect demapOut nothing))

/-- The LLRs of a job, with the sign of those turned where the scrambling sequence has a 1. -/
def harqSoft (b : Blk) (data : List Byte) : List Int :=
  let l := softBits data
  if (wd b 1).bit 31 then List.zipWith (fun x c => if c then -x else x) l (gold ((wd b 1).fld 0 31) l.length) else l
/-- Where codeword k begins in the input, and its length. -/
def harqSpan (b : Blk) (k : Nat) : Nat × Nat :=
  let split := (wd b 8).fld 0 16
  let e0 := (wd b 6).fld 0 24
  let e1 := (wd b 7).fld 0 24
  (min k split * e0 + (k - split) * e1, if k < split then e0 else e1)
/-- A codeword's circular buffer: its LLRs deinterleaved and placed from k0 on, round and round without the filler; those that
share a place are added with saturation (R255). -/
def harqPlace (b : Blk) (l : List Int) : List Int :=
  let ncb := (wd b 9).fld 0 24
  let w := wd b 10
  let filler := fillerAt (bgOf w) (zcOf w) ((wd b 11).fld 0 16)
  let places := roundOf (startOf (bgOf w) ((wd b 8).fld 20 2) (zcOf w) ncb) ncb filler
  let rows := l.length / max 1 ((wd b 8).fld 16 4)
  let e (i : Nat) : Int := l.getD (i / max 1 rows + i % max 1 rows * (wd b 8).fld 16 4) 0
  (List.range ncb).map (fun p =>
    if filler p then softBit Config.fillerLlr
    else ((List.range l.length).filter (fun i => i % max 1 places.length == places.idxOf p)).foldl (fun v i => sat8 (v + e i)) 0)
/-- The combined circular buffers: added to the soft buffer with saturation unless NEW is set. -/
def harqCombine (b : Blk) (data old : List Byte) : List Byte :=
  let l := harqSoft b data
  let placed := (List.range b.n).flatMap (fun k => harqPlace b ((l.drop (harqSpan b k).1).take (harqSpan b k).2))
  if (wd b 8).bit 22 then placed.map softByte
  else placed.zipIdx.map (fun e => softByte (e.1 + softBit (old.getD e.2 0)))

def harqEffect (c : Cmd) (s : State) : Except Refused (State × List Nat) := do
  let (b, float) ← s.openBlk c (Blk.fieldsOk 14)
  let sbuf := b.sbuf
  let n := b.sbufLen
  ensure (sbuf.space == 2) Status.addressInvalid sbuf.word
  s.needInput c (c.addr 4) b.eTot
  if (wd b 8).bit 22 then s.needServed c sbuf n else s.needInput c sbuf n
  s.needOutput c (c.addr 6) n
  ensure (!s.ownedElsewhere c.fn sbuf n) Status.ownershipFault sbuf.word
  let out := harqCombine b (softInput 14 (s.readAt c.fn (c.addr 4) b.eTot)) (s.readAt c.fn sbuf n)
  .ok ((s.emitData c none sbuf out).emitData c float (c.addr 6) out, [])
/-- HARQ_COMBINE. -/
def execHarqCombine (cid : Nat) (s : State) : Host.Outcome State Fault Refusal :=
  .next (s.radioRun cid (s.isRadio 14 (fun _ => true)) State.codecInputs harqEffect)

/-- A track after a job: its offset, within a quarter of the subcarrier spacing, and its phase. -/
def trackAfter (b : Blk) (data : List Byte) (old : Nat × Nat) (k : Nat) : Nat × Nat :=
  let ws := b ++ [BitVec.ofNat 32 old.1, BitVec.ofNat 32 old.2, BitVec.ofNat 32 k]
  (unsgn 32 ((Config.codecStatus 15 0 ws data 0 % 32769 : Nat) - 16384), Config.codecStatus 15 0 ws data 1 % 2 ^ 32)
/-- The state of a track, cleared first where RST is set. -/
def State.trackOf (s : State) (c : Cmd) (b : Blk) (k : Nat) : Nat × Nat :=
  if (wd b 4).bit 9 then (0, 0) else SMap.get (fun _ => (0, 0)) s.tracks (calInst c.onEngine * 512 + (wd b 4).fld 0 9 + k)
/-- Per track one rotator for each symbol, then the offset. -/
def pilotOut (s : State) (c : Cmd) (b : Blk) (data : List Byte) : List Byte :=
  let n := 4 * (wd b 4).fld 10 4
  (List.range b.n).flatMap (fun k =>
    let old := s.trackOf c b k
    takeBytes n (Config.codec 15 0 (b ++ [BitVec.ofNat 32 old.1, BitVec.ofNat 32 old.2, BitVec.ofNat 32 k]) data n) ++ leBytes 4 (trackAfter b data old k).1)
def State.keepTracks (s : State) (c : Cmd) (b : Blk) (data : List Byte) : List Nat → State
  | [] => s
  | k :: ks =>
    let v := trackAfter b data (s.trackOf c b k) k
    ({ s with tracks := SMap.set (fun _ => (0, 0)) s.tracks (calInst c.onEngine * 512 + (wd b 4).fld 0 9 + k) v } : State).keepTracks c b data ks
/-- PILOT_TRACK. -/
def execPilotTrack (cid : Nat) (s : State) : Host.Outcome State Fault Refusal :=
  .next (s.radioRun cid (s.isRadio 15 (fun _ => true)) State.codecInputs (codecEffect pilotOut (fun c b d t => t.keepTracks c b d (List.range b.n))))

/-! ### Pumps (R245, R249) -/

/-- A radio-engine job of a pump moves LENGTH bytes as a COPY of that pump. -/
def radioPumpEffect (cls : Nat) (c : Cmd) (s : State) : Except Refused (State × List Nat) := do
  let (b, float) ← s.openBlk c (Blk.fieldsOk cls)
  let n := (wd b 4).toNat
  match fabOpOf c with
  | some o => fabricGo c { o with len := n } s
  | none =>
    s.checkMove c c.onEngine n
    .ok (s.moveBytes c n float, [])
/-- The spine-track and channel calendars of a pump command, those of the local end of a fabric record among them (R47, R54,
R55, R159). -/
def State.pathCals (s : State) (c : Cmd) : List Nat :=
  match fabOpOf c with
  | some o => s.landCals c.fn (devAddr o.loc) o.localLen
  | none =>
    if c.cls = 2 then s.wayCals c.fn (c.addr 4) (c.addr 6) c.rows
    else if c.cls = 9 ∧ calClass c.onEngine = 18 then
      let r := [(0, (wd (s.blk c) 4).toNat)]
      s.wayCals c.fn (c.addr 4) (c.addr 6) (r, r)
    else []
/-- RADIO_SPINE_PUMP_JOB. -/
def execRadioSpinePumpJob (cid : Nat) (s : State) : Host.Outcome State Fault Refusal :=
  .next (s.radioRun cid (s.isRadio 18 (fun _ => true)) noInputs (radioPumpEffect 18))
/-- RADIO_FABRIC_PUMP_JOB. -/
def execRadioFabricPumpJob (cid : Nat) (s : State) : Host.Outcome State Fault Refusal :=
  .next (s.radioRun cid (s.isRadio 19 (fun _ => true)) noInputs (radioPumpEffect 19))

end Sys2Proof.Machine
end

