-- ==== Sys2Proof/Machine/CellRows.lean ====
section
/-!
DEFINITION. Cells: CELL_ACTIVATE, CELL_DEACTIVATE, CELL_ENTERS_CALENDAR, CELL_LEAVES_CALENDAR, CRB_WRITE and
CELL_RECORD_UPDATE, and the rule of the cell objects that OBJECT_WRITE uses (R57-R59, R257-R266, R373, R374).
-/

namespace Sys2Proof.Machine

/-- The rule of an activation (R58, R263, R264, R374). The demand of a deactivating cell counts until it leaves the
calendar (R59). -/
def activateRule (cell : Nat) (_ : ObjRow) (s : State) : Except Refused State := do
  let st := s.cellState cell
  if st = 1 ∨ st = 2 then .ok s
  else
    ensure (st == 0) Status.accessDenied
    ensure (s.tb0Ready && s.crb != 0) Status.accessDenied
    ensure (s.costRow cell != 0) Status.radioBudgetExceeded
    ensure (s.pagesSeen.all (fun p => s.budgetHolds p (cell :: s.liveCells))) Status.radioBudgetExceeded
    ensure (decide (s.g 0x2001 1 + s.eAdm (s.costU cell) + s.g 0x2001 4 ≤ s.eWinLow)) Status.radioBudgetExceeded
    let t := s.setCellO cell 1 1
    .ok { t with cellsAt := SMap.put cell (s.frame + 2) t.cellsAt }

/-- CELL_ACTIVATE: a write of 1 to subindex .01 of a cell. -/
def execCellActivate (path : Path) (cell : Nat) (s : State) : Host.Outcome State Fault Refusal :=
  if 1024 ≤ cell then .fault .noSuchUnit
  else .next (s.access path s.radioSel (0x4400 + cell) 1 none 1 (activateRule cell))

/-- The rule of a deactivation (R263). -/
def deactivateRule (cell : Nat) (_ : ObjRow) (s : State) : Except Refused State :=
  .ok (if s.cellState cell = 1 ∨ s.cellState cell = 2 then s.deactivateCell cell else s)

/-- CELL_DEACTIVATE: a write of 0. -/
def execCellDeactivate (path : Path) (cell : Nat) (s : State) : Host.Outcome State Fault Refusal :=
  if 1024 ≤ cell then .fault .noSuchUnit
  else .next (s.access path s.radioSel (0x4400 + cell) 1 none 0 (deactivateRule cell))

/-- The frame of a cell's change has come. -/
def State.cellDue (s : State) (cell st : Nat) : Bool :=
  s.up && s.cellState cell == st && s.cellsAt.any (fun e => e.1 == cell && decide (e.2 ≤ s.frame))

/-- CELL_ENTERS_CALENDAR: at the second frame after its admission a pending cell becomes active (R59). -/
def execCellEntersCalendar (cell : Nat) (s : State) : Host.Outcome State Fault Refusal :=
  if 1024 ≤ cell then .fault .noSuchUnit else .next (if s.cellDue cell 1 then s.enterCell cell else s)

/-- CELL_LEAVES_CALENDAR: at the second frame after its deactivation a cell becomes inactive. -/
def execCellLeavesCalendar (cell : Nat) (s : State) : Host.Outcome State Fault Refusal :=
  if 1024 ≤ cell then .fault .noSuchUnit else .next (if s.cellDue cell 3 then s.leaveCell cell else s)

/-! ### Cell records (R257) -/

/-- The rule of a CRB write: every record will be written at the second frame after this one. -/
def crbRule (value : Nat) (_ : ObjRow) (s : State) : Except Refused State := do
  let a := devAddr value
  ensure (value == 0 || (!a.bad && a.isMem && s.addrOk s.radioSel a 65536)) Status.addressInvalid
  ensure s.liveCells.isEmpty Status.accessDenied
  let t := s.setO s.radioSel 0x4000 1 value
  .ok { t with recs := if value = 0 then [] else (List.range 1024).map (fun c => (c, 16, s.frame + 2, 0)) }

/-- CRB_WRITE. -/
def execCrbWrite (path : Path) (value : Nat) (s : State) : Host.Outcome State Fault Refusal :=
  .next (s.access path s.radioSel 0x4000 1 none value (crbRule value))

/-- One due update of a cell's record. -/
def State.putRec (s : State) (cell : Nat) (e : Nat × Nat × Nat × Nat) : State :=
  let a := (devAddr s.crb).plus (64 * cell)
  let put (t : State) (i v : Nat) : State := t.store (t.flat t.radioSel (a.plus (4 * i)) 0) (leBytes 4 v)
  if e.2.1 = 16 then (List.range 9).foldl (fun t i => put t i (s.recWord cell i)) s else put s e.2.1 e.2.2.2

/-- CELL_RECORD_UPDATE: the updates of a cell's record whose frame has come, in the order of their writes. -/
def execCellRecordUpdate (cell : Nat) (s : State) : Host.Outcome State Fault Refusal :=
  if 1024 ≤ cell then .fault .noSuchUnit
  else
    let due (e : Nat × Nat × Nat × Nat) : Bool := e.1 == cell && decide (e.2.2.1 ≤ s.frame)
    if s.up && s.crb != 0 then
      .next { (s.recs.filter due).foldl (fun t e => t.putRec cell e) s with recs := s.recs.filter (fun e => !due e) }
    else .next s

/-- A compression setting whose widths Table 11.3 allows for their methods; 0 means 16 (R306). -/
def widthOk (method width : Nat) : Bool :=
  if method = 0 then width == 0
  else if method = 1 then [0, 8, 9, 10, 12, 14].contains width
  else method == 2 && [8, 9, 10, 12, 14].contains width
def compressionOk (value : Nat) : Bool := widthOk (fld value 0 2) (fld value 4 4) && widthOk (fld value 8 2) (fld value 12 4)

/-- The rule of the other cell objects: .02 to .0C and .20 to .26 only while the cell is inactive; limits that the
technology sets, eAxC widths that sum to 16, widths that a method allows (R263, R304, R306, R334, Table 9.8). -/
def cellRule (cell sub value : Nat) (_ : ObjRow) (s : State) : Except Refused State := do
  ensure (!(decide (2 ≤ sub) && decide (sub ≤ 0x0C) || decide (0x20 ≤ sub) && decide (sub ≤ 0x26)) || s.cellState cell == 0) Status.accessDenied
  ensure (sub != 0x22 || fld value 0 4 + fld value 4 4 + fld value 8 4 + fld value 12 4 == 16) Status.shapeInvalid
  ensure (sub != 0x26 || compressionOk value) Status.shapeInvalid
  ensure (!(s.cellO cell 2 == 2) || !(sub == 8 && decide (8 < value)) && !(sub == 9 && decide (503 < value))) Status.shapeInvalid
  .ok ((s.setCellO cell sub value).noteRec cell sub)

end Sys2Proof.Machine
end

