-- ==== Sys2Proof/Machine/Rs.lean ====
section
/-!
DEFINITION. The burst ECC of GDDR7 (R394, R395): RS(72,64) over GF(2^8), its encoder and its decoder in a correction mode, and
the map of symbols to pins and unit intervals (Table 14.3).
-/

namespace Sys2Proof.Machine

namespace Rs

/-! ### GF(2^8), polynomial x^8 + x^4 + x^3 + x^2 + 1 -/

/-- Twice an element: the product with α. -/
def double (a : Nat) : Nat := let b := 2 * a; if 256 ≤ b then b ^^^ 0x11D else b
/-- The product. -/
def mul (a b : Nat) : Nat := ((List.range 8).foldl (fun (st : Nat × Nat) i => (if b.testBit i then st.1 ^^^ st.2 else st.1, double st.2)) (0, a)).1
/-- α to a power. -/
def alpha (n : Nat) : Nat := (List.range (n % 255)).foldl (fun a _ => double a) 1
/-- The inverse, the 254th power: a^2 a^4 ... a^128. -/
def inv (a : Nat) : Nat := ((List.range 7).foldl (fun (st : Nat × Nat) _ => let q := mul st.2 st.2; (mul st.1 q, q)) (1, a)).1
/-- A polynomial at a point, lowest coefficient first. -/
def eval (p : List Nat) (x : Nat) : Nat := p.foldr (fun c v => mul v x ^^^ c) 0
/-- The sum of two polynomials. -/
def add : List Nat → List Nat → List Nat
  | [], q => q
  | p, [] => p
  | a :: p, b :: q => (a ^^^ b) :: add p q

/-! ### The code -/

/-- The generator with roots α^0 to α^7, lowest coefficient first. -/
def generator : List Nat := (List.range 8).foldl (fun g i => add (0 :: g) (g.map (mul (alpha i)))) [1]
/-- The check symbols 64 to 71 of 64 bytes. Symbol 0 is the highest coefficient (DESIGN CHOICE, log entry 86). -/
def checks (data : List Nat) : List Nat :=
  (data.foldl (fun (r : List Nat) d =>
    let f := d ^^^ r.getD 7 0
    (List.range 8).map (fun i => (if i = 0 then 0 else r.getD (i - 1) 0) ^^^ mul f (generator.getD i 0))) (List.replicate 8 0)).reverse
/-- The codeword of a block. -/
def encode (data : List Nat) : List Nat := data ++ checks data
/-- The syndromes of 72 symbols: their values at α^0 to α^7. -/
def syndromes (w : List Nat) : List Nat := (List.range 8).map (fun i => let x := alpha i; w.foldl (fun v c => mul v x ^^^ c) 0)

/-- The state of the Berlekamp-Massey algorithm: the locator, the last one, its discrepancy, length and age. -/
structure Search where
  loc  : List Nat
  old  : List Nat
  disc : Nat
  len  : Nat
  age  : Nat
  deriving DecidableEq, Repr

def Search.step (s : List Nat) (x : Search) (n : Nat) : Search :=
  let d := (List.range (x.len + 1)).foldl (fun v i => v ^^^ mul (x.loc.getD i 0) (s.getD (n - i) 0)) 0
  if d = 0 then { x with age := x.age + 1 }
  else
    let loc := add x.loc (List.replicate x.age 0 ++ x.old.map (mul (mul d (inv x.disc))))
    if 2 * x.len ≤ n then ⟨loc, x.loc, d, n + 1 - x.len, 1⟩ else { x with loc := loc, age := x.age + 1 }

/-- The error of at most t symbols that has the syndromes s; none where there is none. -/
def locate (t : Nat) (s : List Nat) : Option (List Nat) :=
  let r := (List.range 8).foldl (Search.step s) ⟨[1], [1], 1, 0, 1⟩
  -- Forney's algorithm with the first root at α^0: the evaluator, and the odd part of the locator
  let ev := (List.range 8).map (fun k => (List.range (k + 1)).foldl (fun v i => v ^^^ mul (r.loc.getD i 0) (s.getD (k - i) 0)) 0)
  let odd := r.loc.zipIdx.map (fun e => if e.2 % 2 = 1 then e.1 else 0)
  let e := (List.range 72).map (fun j =>
    let x := alpha (71 - j)
    let y := inv x
    if eval r.loc y = 0 then mul (eval ev y) (inv (eval odd y)) else 0)
  if r.len ≤ t ∧ (e.filter (· != 0)).length ≤ t ∧ syndromes e = s then some e else none

/-- What decoding a codeword with an error gives. -/
inductive Outcome where
  | clean                       -- no symbol is in error
  | corrected
  | uncorrectable
  | miscorrected (moved : Bool) -- taken for another codeword; whether the decoder changed a symbol
  deriving DecidableEq, Repr

/-- Decoding in correction mode m: every error of at most 4 - m symbols is corrected; one that lies within 4 - m symbols of
another codeword is miscorrected; every other one is uncorrectable (R395). -/
def decode (m : Nat) (e : List Nat) : Outcome :=
  if e.all (· == 0) then .clean
  else
    match locate (4 - m) (syndromes e) with
    | some f => if f = e then .corrected else .miscorrected (f.any (· != 0))
    | none => .uncorrectable

/-! ### Pins and unit intervals (Table 14.3) -/

/-- The symbol and its bit that a pin carries in a unit interval of the nine bursts of a pair, for block b; the bit sent
first is bit 7. -/
def symbolAt (b pin ui : Nat) : Option (Nat × Nat) :=
  if 64 * b ≤ ui ∧ ui < 64 * b + 64 then some (8 * pin + (ui - 64 * b) / 8, 7 - ui % 8)
  else if 128 + 8 * b ≤ ui ∧ ui < 136 + 8 * b then some (64 + pin, 7 - ui % 8)
  else none
/-- The 72 symbols of the error that disturbed bits, as pins and unit intervals, make in block b. -/
def errorOf (b : Nat) (bits : List (Nat × Nat)) : List Nat :=
  let hits := bits.filterMap (fun x => symbolAt b x.1 x.2)
  (List.range 72).map (fun j => hits.foldl (fun v h => if h.1 = j then v ^^^ 2 ^ h.2 else v) 0)

end Rs

end Sys2Proof.Machine
end

