-- ==== Sys2Proof/Machine/Memory.lean ====
section
/-!
DEFINITION. Memory events: PIECE_LAND, MEMORY_READ_ARRIVAL, BUCKET_PRESENT, CISTERN_SCRUB, FLOAT_RANGE_WRITE and
LANDING_ZONE_SIZE_WRITE (R152, R157, R161, R162, R167, R172-R174, R395-R399).
-/

namespace Sys2Proof.Machine

/-- A piece may land now: every read of it has been presented and its time has come; of a radio or exact command in the
order of issue; of none while its bytes share a pair with a line in the atomic unit; a channel-core store has its own
command (R162, R173, R286, R426). -/
def State.mayLand (s : State) (p : Piece) : Bool :=
  let inOrder := (s.ctx p.ctx).mode == 0 || s.pieces.all (fun q => q.cid != p.cid || q.stx || decide (p.id ≤ q.id))
  s.up && !p.stx && inOrder && s.reads.all (fun r => r.piece != some p.id) && decide (p.due ≤ s.clock) &&
    !s.lineBusy p.dst p.data.length

/-- PIECE_LAND. -/
def execPieceLand (pid : Nat) (s : State) : Host.Outcome State Fault Refusal :=
  match s.pieces.find? (fun p => p.id == pid) with
  | some p => .next (if s.mayLand p then s.landPiece p else s)
  | none => .next s

/-- A read that delivers nothing, with a status of its command: its piece and the later ones go to the sump; a radio engine's
or a channel core's job fails (Table 14.4). -/
def State.failRead (s : State) (r : ReadReq) (status : Nat) : State :=
  let t := match r.piece.bind (fun id => s.pieces.find? (fun p => p.id == id)) with
    | some p => s.failPiece p status r.addr
    | none => match s.cmd? r.cid with
      | some c => if c.phase == Phase.running && !c.did then (s.did c.id status (s.radioDetail c)).failTb c else s
      | none => s
  t.dropRead r

/-- Read data came: a bucket read waits for its presentation time, a fill read reaches its requester (R172). -/
def State.arrive (s : State) (r : ReadReq) (bad : Bool) (wrong : Option (List Byte)) : State :=
  let q : ReadReq := { r with arrived := true, bad := bad, wrong := wrong }
  if r.bucket then { s with reads := s.reads.map (fun (x : ReadReq) => if x.id = r.id then q else x) }
  else if bad then s.failRead r Status.eccUncorrectable
  else s.presentRead q

/-- What decoding a block gives in correction mode m, with bits disturbed on its way and the error, if any, that is stored in
it (R394, R395). -/
def State.blockOutcome (s : State) (m flat : Nat) (bits : List (Nat × Nat)) : Rs.Outcome :=
  if s.blockBad flat then .uncorrectable
  else
    match Rs.decode m (Rs.errorOf (flat / 64 % 2) bits) with
    | .clean => if s.ecc.any (fun e => e.1 == flat / 64) then .corrected else .clean
    | o => o
/-- A codeword with disturbed bits is decoded in the correction mode of its read (R394-R396, R398). A miscorrected one is
decrypted to bytes that the manual leaves open. -/
def State.decode (s : State) (r : ReadReq) (bits : List (Nat × Nat)) : State :=
  let bad : State := (s.countUncorrectable r.src 0).arrive r true none
  if r.bad then bad
  else
    match s.blockOutcome r.mode r.src bits with
    | .clean => s.arrive r false none
    | .corrected => (s.addG 0x6000 (r.chan + 1) 1).arrive r false none
    | .uncorrectable => bad
    | .miscorrected moved =>
      let (v, t) := s.fresh
      (t.addG 0x6000 (r.chan + 1) moved.toNat).arrive r false (some (freeBytes v 64))

/-- A path fault (R174): nothing is presented; a radio command is late with cause 4, an exact one completes PATH_LATE. -/
def State.pathFault (s : State) (r : ReadReq) : State :=
  let t := s.addG 0x6100 2 1
  match s.cmd? r.cid with
  | some c => if s.modeOf c == 2 then (t.lateness c.onEngine 4 [c.id]).dropRead r else t.failRead r Status.pathLate
  | none => t.dropRead r

/-- MEMORY_READ_ARRIVAL: the data of a read that was issued and has not arrived yet, with the bits disturbed on its way. Data that comes to its bucket after
issue + L_max is never presented (R174). -/
def execMemoryReadArrival (rid : Nat) (bits : List (Nat × Nat)) (s : State) : Host.Outcome State Fault Refusal :=
  match s.reads.find? (fun r => r.id == rid) with
  | some r =>
    if !s.up || r.arrived || decide (s.clock < r.issue) then .next s
    else if r.bucket && decide (r.issue + r.lmax < s.clock) then .next (s.pathFault r)
    else .next (s.decode r bits)
  | none => .next s

/-- BUCKET_PRESENT: due at issue + L_max; a read that decoded as uncorrectable presents nothing (R173, R174, R399). -/
def execBucketPresent (rid : Nat) (s : State) : Host.Outcome State Fault Refusal :=
  match s.reads.find? (fun r => r.id == rid) with
  | some r =>
    if s.up && r.bucket && !r.shown && decide (r.issue + r.lmax ≤ s.clock) then
      .next (if !r.arrived then s.pathFault r
        else if r.bad then s.failRead r Status.eccUncorrectable
        else s.presentRead r)
    else .next s
  | none => .next s

/-- CISTERN_SCRUB: one 256-byte line of every slice is read, and its single-bit errors corrected (R157). -/
def execCisternScrub (s : State) : Host.Outcome State Fault Refusal :=
  let lo := (Mem.cistern + 8192 * (s.cscrub % 32768)) / 32
  if s.up then
    .next { s with cscrub := s.cscrub + 1
                   ecc := s.ecc.filter (fun e => !(decide (lo ≤ e.1) && decide (e.1 < lo + 256) && decide (2 ^ 35 ≤ e.1) && e.2 == 1)) }
  else .next s

/-! ### Float ranges (R167) -/

/-- The lowest selector of another function, not absent, whose float range meets a range. -/
def State.floatClash (s : State) (f base count : Nat) : Option Nat :=
  s.presentFns.find? (fun g => g != f && decide (0 < count) && decide (0 < s.o g 0x3040 2) &&
    decide (base < s.o g 0x3040 1 + s.o g 0x3040 2) && decide (s.o g 0x3040 1 < base + count))

/-- The rule of a float range write; a manager's range exchanges its floats with the pool at once. -/
def floatRangeRule (f sub value : Nat) (_ : ObjRow) (s : State) : Except Refused State := do
  let base := if sub = 1 then value else s.o f 0x3040 1
  let count := if sub = 1 then s.o f 0x3040 2 else value
  ensure (decide (base + count ≤ 65536)) Status.shapeInvalid
  match s.floatClash f base count with
  | some g => .error ⟨Status.resourceHeld, g⟩
  | none =>
    if isMgr f then
      ensure (s.o f 0x3050 5 == 0) Status.accessDenied
      ensure (decide (count ≤ s.g 0x3001 8 + s.o f 0x3040 2)) Status.quotaExhausted
      let t := s.setG 0x3001 8 (s.g 0x3001 8 + s.o f 0x3040 2 - count)
      .ok ((t.setO f 0x3040 sub value).zeroFloats base count)
    else
      ensure (!s.present f) Status.accessDenied
      .ok (s.setO f 0x3040 sub value)

/-- FLOAT_RANGE_WRITE. -/
def execFloatRangeWrite (path : Path) (f sub value : Nat) (s : State) : Host.Outcome State Fault Refusal :=
  .next (s.access path f 0x3040 sub none value (floatRangeRule f sub value))

/-- LANDING_ZONE_SIZE_WRITE: the object takes the value; it comes into force at the next page swap (R153). -/
def execLandingZoneSizeWrite (path : Path) (core z : Nat) (s : State) : Host.Outcome State Fault Refusal :=
  .next (s.access path 1023 0x6101 (core + 1) none z (storeRule 1023 0x6101 (core + 1) z))

end Sys2Proof.Machine
end

