-- ==== Sys2Proof/Machine/ChanInstr.lean ====
section
/-!
DEFINITION. The instruction words of the channel cores: their formats (R272, R288, Table 10.3), opcodes (Table 10.4), a
decoder that finds every reserved word, and an encoder.
-/

namespace Sys2Proof.Machine

/-- A channel-core instruction with its fields (Table 10.3). -/
inductive CcInstr where
  | nop | halt | brk
  | br (cond off : Nat)
  | loop (body count : Nat)
  | loopx (body x : Nat)
  | movi (dst part imm : Nat)
  | mov (dst src : Nat)
  | alu (fn xd xa xb : Nat)
  | calu (fn xd xa xb : Nat)
  | ld (xd an mm pmod size disp : Nat)
  | st (xd an mm pmod size disp : Nat)
  | ldx (xd en xo pinc size : Nat)
  | stx (xd en xo pinc size : Nat)
  | ldf (xd en xo pinc : Nat)
  | cmac (k pa sh ma mb ppa ppb conj sub : Nat)
  | cmac4 (k pa sh ma mb ppa ppb conj sub : Nat)
  | cmac4m (k pa sh ma mb ppa ppb conj sub : Nat)
  | ftap (k pa sh ma mb ppa ppb conj sub : Nat)
  | clra (mask : Nat)
  | sta (k an mm pm fmt shift rnd clr : Nat)
  | sta4 (k an mm pm fmt shift rnd clr : Nat)
  | rda (k xd mm pm shift rnd clr : Nat)
  deriving DecidableEq, Repr

/-! ### Register codes (Table 10.2) -/

/-- A code that may be read; TID and SATC may not be written (R272). -/
def ccReadable (code : Nat) : Bool := decide (code ≤ 0x3B)
def ccWritable (code : Nat) : Bool := decide (code ≤ 0x39)

/-! ### Well-formed instructions (R272, R279, R282, R285, R287, R288, Table 10.3) -/

/-- Registers that an access of 4 × 2^size bytes names, XD first: they exist, and an external access is aligned. -/
def ccRegs (xd size : Nat) : Bool := decide (xd + 2 ^ size ≤ 16)
def ccAligned (xd size : Nat) : Bool := if size = 2 then xd % 4 == 0 else if size = 3 then xd % 8 == 0 else true

/-- Format M. -/
def ccMemOk (xd an mm pmod size disp : Nat) : Bool :=
  decide (xd < 16 ∧ an < 16 ∧ mm < 8 ∧ pmod < 3 ∧ size < 3 ∧ disp < 2048) && ccRegs xd size
/-- Format E. -/
def ccExtOk (xd en xo pinc size : Nat) : Bool :=
  decide (xd < 16 ∧ en < 4 ∧ xo < 16 ∧ pinc < 2 ∧ size < 4) && ccRegs xd size && ccAligned xd size
/-- Format C. -/
def ccMacOk (k pa sh ma mb ppa ppb conj sub : Nat) : Bool :=
  decide (k < 8 ∧ pa < 16 ∧ sh < 16 ∧ ma < 8 ∧ mb < 8 ∧ ppa < 2 ∧ ppb < 2 ∧ conj < 2 ∧ sub < 2)
/-- The first accumulator of a quad form. -/
def ccQuad (k : Nat) : Bool := k == 0 || k == 4
/-- Format S. -/
def ccStoOk (k an mm pm fmt shift rnd clr : Nat) : Bool :=
  decide (k < 8 ∧ an < 16 ∧ mm < 8 ∧ pm < 2 ∧ fmt < 2 ∧ shift < 40 ∧ rnd < 3 ∧ clr < 2)

/-- An instruction whose fields all hold values that the formats allow. -/
def CcInstr.wf : CcInstr → Bool
  | .nop => true
  | .halt => true
  | .brk => true
  | .br cond off => decide (cond < 5 ∧ off < 65536)
  | .loop body count => decide (1 ≤ body ∧ body < 4096 ∧ count < 16384)
  | .loopx body x => decide (1 ≤ body ∧ body < 4096 ∧ x < 16)
  | .movi dst part imm => decide (part < 3 ∧ imm < 65536) && ccWritable dst
  | .mov dst src => ccWritable dst && ccReadable src
  | .alu fn xd xa xb => decide (fn < 9 ∧ xd < 16 ∧ xa < 16 ∧ xb < 16)
  | .calu fn xd xa xb => decide (fn < 5 ∧ xd < 16 ∧ xa < 16 ∧ xb < 16)
  | .ld xd an mm pmod size disp => ccMemOk xd an mm pmod size disp
  | .st xd an mm pmod size disp => ccMemOk xd an mm pmod size disp
  | .ldx xd en xo pinc size => ccExtOk xd en xo pinc size
  | .stx xd en xo pinc size => ccExtOk xd en xo pinc size
  | .ldf xd en xo pinc => decide (xd < 16 ∧ en < 4 ∧ xo < 16 ∧ pinc < 2 ∧ xd % 2 = 0 ∧ xo % 2 = 0)
  | .cmac k pa sh ma mb ppa ppb conj sub => ccMacOk k pa sh ma mb ppa ppb conj sub
  | .cmac4 k pa sh ma mb ppa ppb conj sub => ccMacOk k pa sh ma mb ppa ppb conj sub && ccQuad k && decide (pa < 4)
  | .cmac4m k pa sh ma mb ppa ppb conj sub => ccMacOk k pa sh ma mb ppa ppb conj sub && ccQuad k
  | .ftap k pa sh ma mb ppa ppb conj sub => ccMacOk k pa sh ma mb ppa ppb conj sub && ccQuad k
  | .clra mask => decide (mask < 256)
  | .sta k an mm pm fmt shift rnd clr => ccStoOk k an mm pm fmt shift rnd clr
  | .sta4 k an mm pm fmt shift rnd clr => ccStoOk k an mm pm fmt shift rnd clr && ccQuad k
  | .rda k xd mm pm shift rnd clr => ccStoOk k xd mm pm 0 shift rnd clr

/-! ### Words -/

/-- A number cut into fields of the given widths, from bit 0 upward. -/
def unpack : List Nat → Nat → List Nat
  | [], _ => []
  | n :: ns, x => x % 2 ^ n :: unpack ns (x / 2 ^ n)

/-- The number that fields of the given widths make. -/
def pack : List Nat → List Nat → Nat
  | n :: ns, v :: vs => v + 2 ^ n * pack ns vs
  | _, _ => 0

/-- Field widths of each format from bit 0 upward, reserved fields among them; bits [31:26] are the opcode. -/
def fmtNone : List Nat := [26]
def fmtR : List Nat := [8, 6, 4, 4, 4]
def fmtI : List Nat := [16, 2, 2, 6]
def fmtV : List Nat := [14, 6, 6]
def fmtM : List Nat := [11, 2, 2, 3, 4, 4]
def fmtE : List Nat := [13, 2, 1, 4, 2, 4]
def fmtC : List Nat := [5, 1, 1, 1, 1, 3, 3, 4, 4, 3]
def fmtS : List Nat := [5, 1, 2, 6, 1, 1, 3, 4, 3]
def fmtBr : List Nat := [16, 6, 4]
def fmtLoop : List Nat := [14, 12]
def fmtLoopx : List Nat := [10, 4, 12]
def fmtClra : List Nat := [18, 8]

/-- The instruction of an opcode whose 26 lower bits are x, before the ranges of its fields are checked. -/
def readCc (op x : Nat) : Option CcInstr :=
  match op with
  | 0x00 => if x = 0 then some .nop else none
  | 0x01 => if x = 0 then some .halt else none
  | 0x02 => match unpack fmtBr x with
    | [off, 0, cond] => some (.br cond off)
    | _ => none
  | 0x03 => match unpack fmtLoop x with
    | [count, body] => some (.loop body count)
    | _ => none
  | 0x04 => match unpack fmtLoopx x with
    | [0, r, body] => some (.loopx body r)
    | _ => none
  | 0x05 => if x = 0 then some .brk else none
  | 0x08 => match unpack fmtI x with
    | [imm, 0, part, dst] => some (.movi dst part imm)
    | _ => none
  | 0x09 => match unpack fmtV x with
    | [0, src, dst] => some (.mov dst src)
    | _ => none
  | 0x10 => match unpack fmtR x with
    | [0, fn, xb, xa, xd] => some (.alu fn xd xa xb)
    | _ => none
  | 0x11 => match unpack fmtR x with
    | [0, fn, xb, xa, xd] => some (.calu fn xd xa xb)
    | _ => none
  | 0x18 => match unpack fmtM x with
    | [disp, size, pmod, mm, an, xd] => some (.ld xd an mm pmod size disp)
    | _ => none
  | 0x19 => match unpack fmtM x with
    | [disp, size, pmod, mm, an, xd] => some (.st xd an mm pmod size disp)
    | _ => none
  | 0x1A => match unpack fmtE x with
    | [0, size, pinc, xo, en, xd] => some (.ldx xd en xo pinc size)
    | _ => none
  | 0x1B => match unpack fmtE x with
    | [0, size, pinc, xo, en, xd] => some (.stx xd en xo pinc size)
    | _ => none
  | 0x1C => match unpack fmtE x with
    | [0, 1, pinc, xo, en, xd] => some (.ldf xd en xo pinc)
    | _ => none
  | 0x20 => match unpack fmtC x with
    | [0, sub, conj, ppb, ppa, mb, ma, sh, pa, k] => some (.cmac k pa sh ma mb ppa ppb conj sub)
    | _ => none
  | 0x21 => match unpack fmtC x with
    | [0, sub, conj, ppb, ppa, mb, ma, sh, pa, k] => some (.cmac4 k pa sh ma mb ppa ppb conj sub)
    | _ => none
  | 0x22 => match unpack fmtC x with
    | [0, sub, conj, ppb, ppa, mb, ma, sh, pa, k] => some (.cmac4m k pa sh ma mb ppa ppb conj sub)
    | _ => none
  | 0x23 => match unpack fmtC x with
    | [0, sub, conj, ppb, ppa, mb, ma, sh, pa, k] => some (.ftap k pa sh ma mb ppa ppb conj sub)
    | _ => none
  | 0x24 => match unpack fmtClra x with
    | [0, mask] => some (.clra mask)
    | _ => none
  | 0x28 => match unpack fmtS x with
    | [0, clr, rnd, shift, fmt, pm, mm, an, k] => some (.sta k an mm pm fmt shift rnd clr)
    | _ => none
  | 0x29 => match unpack fmtS x with
    | [0, clr, rnd, shift, fmt, pm, mm, an, k] => some (.sta4 k an mm pm fmt shift rnd clr)
    | _ => none
  | 0x2A => match unpack fmtS x with
    | [0, clr, rnd, shift, 0, pm, mm, xd, k] => some (.rda k xd mm pm shift rnd clr)
    | _ => none
  | _ => none

/-- The instruction of a word; none where it is undefined (R290). -/
def decodeCc (w : W32) : Option CcInstr := (readCc (w.fld 26 6) (w.fld 0 26)).filter CcInstr.wf

/-- The opcode and the 26 lower bits of an instruction. -/
def CcInstr.parts : CcInstr → Nat × Nat
  | .nop => (0x00, 0)
  | .halt => (0x01, 0)
  | .brk => (0x05, 0)
  | .br cond off => (0x02, pack fmtBr [off, 0, cond])
  | .loop body count => (0x03, pack fmtLoop [count, body])
  | .loopx body x => (0x04, pack fmtLoopx [0, x, body])
  | .movi dst part imm => (0x08, pack fmtI [imm, 0, part, dst])
  | .mov dst src => (0x09, pack fmtV [0, src, dst])
  | .alu fn xd xa xb => (0x10, pack fmtR [0, fn, xb, xa, xd])
  | .calu fn xd xa xb => (0x11, pack fmtR [0, fn, xb, xa, xd])
  | .ld xd an mm pmod size disp => (0x18, pack fmtM [disp, size, pmod, mm, an, xd])
  | .st xd an mm pmod size disp => (0x19, pack fmtM [disp, size, pmod, mm, an, xd])
  | .ldx xd en xo pinc size => (0x1A, pack fmtE [0, size, pinc, xo, en, xd])
  | .stx xd en xo pinc size => (0x1B, pack fmtE [0, size, pinc, xo, en, xd])
  | .ldf xd en xo pinc => (0x1C, pack fmtE [0, 1, pinc, xo, en, xd])
  | .cmac k pa sh ma mb ppa ppb conj sub => (0x20, pack fmtC [0, sub, conj, ppb, ppa, mb, ma, sh, pa, k])
  | .cmac4 k pa sh ma mb ppa ppb conj sub => (0x21, pack fmtC [0, sub, conj, ppb, ppa, mb, ma, sh, pa, k])
  | .cmac4m k pa sh ma mb ppa ppb conj sub => (0x22, pack fmtC [0, sub, conj, ppb, ppa, mb, ma, sh, pa, k])
  | .ftap k pa sh ma mb ppa ppb conj sub => (0x23, pack fmtC [0, sub, conj, ppb, ppa, mb, ma, sh, pa, k])
  | .clra mask => (0x24, pack fmtClra [0, mask])
  | .sta k an mm pm fmt shift rnd clr => (0x28, pack fmtS [0, clr, rnd, shift, fmt, pm, mm, an, k])
  | .sta4 k an mm pm fmt shift rnd clr => (0x29, pack fmtS [0, clr, rnd, shift, fmt, pm, mm, an, k])
  | .rda k xd mm pm shift rnd clr => (0x2A, pack fmtS [0, clr, rnd, shift, 0, pm, mm, xd, k])

/-- The word of an instruction (R288). -/
def encodeCc (i : CcInstr) : W32 := BitVec.ofNat 32 (i.parts.1 * 2 ^ 26 + i.parts.2)

end Sys2Proof.Machine
end

