-- ==== Sys2Proof/Machine/ChannelCore.lean ====
section
/-!
DEFINITION. The channel cores (10): the registers and addressing of a thread, one meaning for each instruction, external
loads and stores, remote loads, and the jobs of engine class 17 (R267-R297).
-/

namespace Sys2Proof.Machine

/-! ### Registers of a thread (R271, R272) -/

def Thread.xr (x : Thread) (i : Nat) : W32 := x.x.getD i 0
def Thread.ar (x : Thread) (i : Nat) : Nat := (x.a.getD i 0).toNat
def Thread.setX (x : Thread) (i : Nat) (v : W32) : Thread := { x with x := x.x.set i v }
def Thread.setA (x : Thread) (i : Nat) (v : Nat) : Thread := { x with a := x.a.set i (BitVec.ofNat 18 v) }
/-- Several registers from XD on. -/
def Thread.setXs (x : Thread) (i : Nat) : List W32 → Thread
  | [] => x
  | v :: vs => (x.setX i v).setXs (i + 1) vs
/-- A post-modify offset, signed. -/
def Thread.mr (x : Thread) (i : Nat) : Int := (x.m.getD i 0).toInt

/-- What a register code reads (Table 10.2). -/
def Thread.readReg (x : Thread) (satc tid code : Nat) : W32 :=
  let i := code % 8
  if code < 0x10 then x.xr code
  else if code < 0x20 then BitVec.ofNat 32 (x.ar (code - 0x10))
  else if code < 0x28 then BitVec.ofInt 32 (x.mr i)
  else if code < 0x30 then BitVec.ofNat 32 (x.cbb.getD i 0).toNat
  else if code < 0x38 then BitVec.ofNat 32 (x.cbl.getD i 0).toNat
  else if code = 0x38 then x.amode
  else if code = 0x39 then BitVec.ofNat 32 x.flags.toNat
  else if code = 0x3A then BitVec.ofNat 32 satc
  else BitVec.ofNat 32 tid

/-- Write a register code; a narrower register keeps the low bits (R272). -/
def Thread.writeReg (x : Thread) (code : Nat) (v : W32) : Thread :=
  let i := code % 8
  if code < 0x10 then x.setX code v
  else if code < 0x20 then x.setA (code - 0x10) v.toNat
  else if code < 0x28 then { x with m := x.m.set i (BitVec.ofNat 18 v.toNat) }
  else if code < 0x30 then { x with cbb := x.cbb.set i (BitVec.ofNat 18 v.toNat) }
  else if code < 0x38 then { x with cbl := x.cbl.set i (BitVec.ofNat 19 v.toNat) }
  else if code = 0x38 then { x with amode := v }
  else { x with flags := BitVec.ofNat 2 v.toNat }

/-! ### Block repeats (R278-R280) -/

/-- The repeats and the next PC after the instruction at an address: at the end of a body the innermost repeat returns or
finishes, and then the one around it. -/
def loopNext : List LoopFrame → Nat → List LoopFrame × Nat
  | [], pc => ([], pc + 4)
  | f :: fs, pc =>
    if pc = f.last then
      if 1 < f.count then ({ f with count := f.count - 1 } :: fs, f.first) else loopNext fs pc
    else (f :: fs, pc + 4)

/-- A thread goes on to repeats and a PC. -/
def Thread.goTo (x : Thread) (r : List LoopFrame × Nat) : Thread := { x with loops := r.1, pc := BitVec.ofNat 18 r.2 }
/-- A thread goes on after its instruction. -/
def Thread.advance (x : Thread) : Thread := x.goTo (loopNext x.loops x.pc.toNat)
/-- A taken branch ends every repeat whose body its target lies outside (R280). -/
def Thread.branch (x : Thread) (target : Nat) : Thread :=
  x.goTo (x.loops.dropWhile (fun f => decide (target < f.first) || decide (f.last < target)), target)

/-- A repeat of n body instructions opens, none where it may not (R279); a count of 0 skips the body. -/
def Thread.openLoop (x : Thread) (n count : Nat) : Option Thread :=
  let pc := x.pc.toNat
  let last := pc + 4 * n
  if x.loops.head?.any (fun f => decide (f.last < last)) then none
  else if count = 0 then some (x.goTo (loopNext x.loops last))
  else if 4 ≤ x.loops.length then none
  else some (x.goTo ({ first := pc + 4, last := last, count := count } :: x.loops, pc + 4))

/-- BRK ends the innermost repeat; with none active the thread just goes on. -/
def Thread.breakLoop (x : Thread) : Thread :=
  match x.loops with
  | f :: fs => x.goTo (loopNext fs f.last)
  | [] => x.advance

/-! ### Addressing (R277) -/

/-- The n low bits of a number in reverse order. -/
def revBits : Nat → Nat → Nat
  | 0, _ => 0
  | n + 1, x => x % 2 * 2 ^ n + revBits n (x / 2)

/-- An after a post-modify; none where AMODE or the buffer length is not one that R271 and R277 give. -/
def Thread.stepA (x : Thread) (an : Nat) (m : Int) : Option Nat :=
  let v := x.ar an
  let linear := unsgn 18 (v + m)
  let mode := x.amode.fld (2 * an) 2
  if mode = 0 ∨ (mode = 1 ∧ 8 ≤ an) then some linear
  else if mode = 1 then
    let len := (x.cbl.getD an 0).toNat
    let base := (x.cbb.getD an 0).toNat
    if len < 16 ∨ 2 ^ 18 < len then none
    else some ((base + (((v : Int) - base + m) % (len : Int)).toNat) % 2 ^ 18)
  else if mode = 2 then some (revBits 18 ((revBits 18 v + revBits 18 (unsgn 18 m)) % 2 ^ 18))
  else none

/-- The effective address of n bytes from An: displaced, modulo 2^18, its low bits ignored. -/
def Thread.ea (x : Thread) (an : Nat) (disp : Int) (n : Nat) : Nat := unsgn 18 (x.ar an + disp * n) / n * n

/-! ### Arithmetic (R281, R283, Table 10.4) -/

/-- The components of a cint16 and their packing (R91). -/
def cI (w : W32) : Int := sgn 16 (w.fld 0 16)
def cQ (w : W32) : Int := sgn 16 (w.fld 16 16)
def cPack (i q : Int) : W32 := BitVec.ofNat 32 (unsgn 16 i + unsgn 16 q * 2 ^ 16)

/-- The result of an ALU function other than CMP; none for a shift amount that Table 10.4 gives no meaning. -/
def aluOut (fn : Nat) (a b : W32) : Option W32 :=
  match fn with
  | 0 => some (a + b)
  | 1 => some (a - b)
  | 2 => some (a &&& b)
  | 3 => some (a ||| b)
  | 4 => some (a ^^^ b)
  | 5 => if b.toNat < 32 then some (a <<< b.toNat) else none
  | 6 => if b.toNat < 32 then some (a.sshiftRight b.toNat) else none
  | 7 => if b.toNat < 32 then some (a >>> b.toNat) else none
  | _ => some (a - b)

/-- FLAGS of a result: Z in [0], N in [1]. -/
def aluFlags (v : W32) : BitVec 2 := BitVec.ofNat 2 ((v == 0).toNat + 2 * v.msb.toNat)

/-- The result of a CALU function, per component, wrapping. -/
def caluOut (fn : Nat) (a b : W32) : W32 :=
  match fn with
  | 0 => cPack (cI a + cI b) (cQ a + cQ b)
  | 1 => cPack (cI a - cI b) (cQ a - cQ b)
  | 2 => cPack (cI a) (-cQ a)
  | 3 => cPack (cQ a) (cI a)
  | _ => cPack (-cI a) (-cQ a)

/-- One component of an accumulator after an addition, and whether its exact sum left 40 bits. -/
def accAdd (v : BitVec 40) (d : Int) : BitVec 40 × Bool :=
  let x := v.toInt + d
  (BitVec.ofInt 40 x, decide (x < -(2 ^ 39 : Nat)) || decide ((2 ^ 39 : Nat) ≤ x))

/-- The exact product of two cint16 values, the second conjugated or not, negated or not (R281). -/
def cProduct (a b : W32) (conj sub : Bool) : Int × Int :=
  let bq := if conj then -cQ b else cQ b
  let i := cI a * cI b - cQ a * bq
  let q := cI a * bq + cQ a * cI b
  if sub then (-i, -q) else (i, q)

/-- ACk after a product (R281). -/
def ChanCore.mac (c : ChanCore) (k : Nat) (p : Int × Int) : ChanCore :=
  let v := c.acc.getD k (0, 0)
  let i := accAdd v.1 p.1
  let q := accAdd v.2 p.2
  { c with acc := c.acc.set k (i.1, q.1), aov := c.aov || i.2 || q.2 }
/-- Products into successive accumulators. -/
def ChanCore.macs (c : ChanCore) (k : Nat) : List (Int × Int) → ChanCore
  | [] => c
  | p :: ps => (c.mac k p).macs (k + 1) ps

/-- A component shifted right and rounded: 0 toward minus infinity, 1 ties to even, 2 ties away from zero (R283). -/
def accRound (x : Int) (shift rnd : Nat) : Int :=
  let d : Int := (2 ^ shift : Nat)
  let q := x / d
  let r := x % d
  if rnd = 0 ∨ 2 * r < d then q
  else if d < 2 * r then q + 1
  else if rnd = 1 then (if q % 2 = 0 then q else q + 1)
  else if x < 0 then q else q + 1

/-- The stored form of some accumulators and the count of components that saturated (R283). -/
def ChanCore.convert (c : ChanCore) (ks : List Nat) (bits shift rnd : Nat) : List Int × Nat :=
  let raw := ks.flatMap (fun k => let v := c.acc.getD k (0, 0); [accRound v.1.toInt shift rnd, accRound v.2.toInt shift rnd])
  (raw.map (saturate bits), (raw.filter (fun x => saturate bits x != x)).length)
/-- Accumulators become zero. -/
def ChanCore.clear (c : ChanCore) (ks : List Nat) : ChanCore :=
  { c with acc := ks.foldl (fun l k => l.set k (0, 0)) c.acc }
/-- SATC counts, held at 65,535; CLR zeroes what was read. -/
def ChanCore.stored (c : ChanCore) (ks : List Nat) (sats clr : Nat) : ChanCore :=
  let d := { c with satc := min 65535 (c.satc + sats) }
  if clr = 1 then d.clear ks else d

/-! ### Threads of a core (R273, R274) -/

def ChanCore.thread (c : ChanCore) (t : Nat) : Thread := c.threads.getD t {}
def ChanCore.setThread (c : ChanCore) (t : Nat) (x : Thread) : ChanCore := { c with threads := c.threads.set t x }

/-- The thread that issues next: the running one, else the first ready one in cyclic order after the last (R274). -/
def ChanCore.pick (c : ChanCore) : Option Nat :=
  match (List.range 4).find? (fun t => decide ((c.thread t).st = .running)) with
  | some t => some t
  | none => ((span 1 4).map (fun k => (c.cur + k) % 4)).find? (fun t => decide ((c.thread t).st = .ready))

/-- The job of a core; none while it runs none. -/
def State.ccJob (s : State) (cc : Nat) : Option Cmd :=
  match (s.chan cc).cid with
  | some cid => (s.cmd? cid).filter (fun c => c.phase == .running && !c.did)
  | none => none

/-- No thread of a core runs any more; late replies of its loads find nothing (R287). -/
def State.ccStop (s : State) (cc : Nat) : State :=
  let t := s.setChan cc { s.chan cc with cid := none, threads := [], cur := 0 }
  { t with awaits := t.awaits.filter (fun a => !(a.kind == 0x12 && a.back.any (fun b => b.1 == cc))) }

/-- A RUN job ends with a status (R290, R295); an uncorrectable error fails its transport block (R398). -/
def State.ccEnd (s : State) (cc status : Nat) : State :=
  match s.ccJob cc with
  | some c =>
    let t := (s.ccStop cc).did c.id status ((s.chan cc).detail c)
    if status = Status.eccUncorrectable then t.failTb c else t
  | none => s.ccStop cc

/-- One more job of a core that completes with OK (R267, Table 10.6). -/
def State.ccCount (s : State) (cc : Nat) : State := s.addG 0x4100 (cc + 1) 1
/-- The last thread halted: the job completes with OK (R273, Table 10.6). -/
def State.ccFinish (s : State) (cc : Nat) : State :=
  let x := s.chan cc
  let t := (s.ccEnd cc Status.ok).ccCount cc
  if x.aov || x.satc != 0 then t.addG 0x4104 (cc + 1) 1 else t

/-- Zero a core's local memory (R270). -/
def State.zeroChan (s : State) (cc : Nat) : State := s.zeroMem (Mem.chan cc) (2 ^ 18)

/-! ### Issue (R274, R288-R290) -/

/-- The word at the PC of the thread that issues next. -/
def State.ccWord (s : State) (cc t : Nat) : W32 := BitVec.ofNat 32 (s.rdNat (Mem.chan cc + ((s.chan cc).thread t).pc.toNat) 4)

/-- What an instruction may do: the new core, or an error that ends the job (R290). -/
abbrev CcOut := Except Nat State

/-- One instruction of a core: the thread that issues next runs the instruction at its PC, if it is of the row's kind.
An undefined word ends the job; with no thread to issue, or for another instruction, nothing happens (log entry 5). -/
def State.ccRun (cc : Nat) (s : State) (k : Nat → Thread → CcInstr → Option CcOut) : Host.Outcome State Fault Refusal :=
  if 32 ≤ cc then .fault .noSuchUnit
  else
    match s.up && (s.ccJob cc).isSome, (s.chan cc).pick with
    | true, some t =>
      match decodeCc (s.ccWord cc t) with
      | none => .next (s.ccEnd cc Status.operationUnsupported)
      | some i =>
        match k t ((s.chan cc).thread t) i with
        | some (.ok u) => .next u
        | some (.error status) => .next (s.ccEnd cc status)
        | none => .next s
    | _, _ => .next s

/-- A thread goes on with new registers after n issue cycles (Table 10.4, G:0x4101); it keeps issuing. -/
def State.ccPut (s : State) (cc t n : Nat) (x : Thread) : State :=
  (s.setChan cc { (s.chan cc).setThread t { x with st := .running } with cur := t }).addG 0x4101 (cc + 1) n
/-- A thread switches out. -/
def State.ccOut (s : State) (cc t : Nat) (x : Thread) : State :=
  (s.setChan cc { (s.chan cc).setThread t x with cur := t }).addG 0x4101 (cc + 1) 1
/-- Change what the threads of a core share. -/
def State.modChan (s : State) (cc : Nat) (f : ChanCore → ChanCore) : State := s.setChan cc (f (s.chan cc))

/-- An after a post-modify, free where the manual gives no next value (log entry 9). -/
def State.ccStepA (s : State) (x : Thread) (an : Nat) (m : Int) : State × Thread :=
  match x.stepA an m with
  | some v => (s, x.setA an v)
  | none => let r := s.fresh; (r.2, x.setA an r.1)

/-! ### Control -/

/-- NOP. -/
def execNop (cc : Nat) (s : State) : Host.Outcome State Fault Refusal :=
  s.ccRun cc (fun t x i => match i with
    | .nop => some (.ok (s.ccPut cc t 1 x.advance))
    | _ => none)

/-- HALT: the thread ends; after the last one the job does (R273). -/
def execHalt (cc : Nat) (s : State) : Host.Outcome State Fault Refusal :=
  s.ccRun cc (fun t x i => match i with
    | .halt =>
      let u := s.ccOut cc t { x.advance with st := .halted }
      some (.ok (if (u.chan cc).threads.all (fun y => decide (y.st = .halted)) then u.ccFinish cc else u))
    | _ => none)

/-- Whether a branch condition holds. -/
def Thread.taken (x : Thread) (cond : Nat) : Bool :=
  match cond with
  | 0 => true
  | 1 => x.flags.toNat % 2 == 1
  | 2 => x.flags.toNat % 2 == 0
  | 3 => x.flags.toNat / 2 == 1
  | _ => x.flags.toNat / 2 == 0

/-- BR: 2 cycles when taken. -/
def execBr (cc : Nat) (s : State) : Host.Outcome State Fault Refusal :=
  s.ccRun cc (fun t x i => match i with
    | .br cond off =>
      some (.ok (if x.taken cond then s.ccPut cc t 2 (x.branch (unsgn 18 (x.pc.toNat + 4 * sgn 16 off))) else s.ccPut cc t 1 x.advance))
    | _ => none)

/-- A block repeat of one cycle, or the nesting fault of R279. -/
def State.ccLoop (s : State) (cc t : Nat) (x : Thread) (body count : Nat) : CcOut :=
  match x.openLoop body count with
  | some y => .ok (s.ccPut cc t 1 y)
  | none => .error Status.operationUnsupported

/-- LOOP. -/
def execLoop (cc : Nat) (s : State) : Host.Outcome State Fault Refusal :=
  s.ccRun cc (fun t x i => match i with
    | .loop body count => some (s.ccLoop cc t x body count)
    | _ => none)
/-- LOOPX: the count is the low 16 bits of a register. -/
def execLoopx (cc : Nat) (s : State) : Host.Outcome State Fault Refusal :=
  s.ccRun cc (fun t x i => match i with
    | .loopx body r => some (s.ccLoop cc t x body ((x.xr r).fld 0 16))
    | _ => none)
/-- BRK. -/
def execBrk (cc : Nat) (s : State) : Host.Outcome State Fault Refusal :=
  s.ccRun cc (fun t x i => match i with
    | .brk => some (.ok (s.ccPut cc t 2 x.breakLoop))
    | _ => none)

/-! ### Moves and arithmetic -/

/-- The value that MOVI places (Table 10.3). -/
def moviValue (old : W32) (part imm : Nat) : W32 :=
  if part = 0 then BitVec.ofNat 32 imm
  else if part = 1 then BitVec.ofNat 32 (imm * 2 ^ 16 + old.fld 0 16)
  else BitVec.ofInt 32 (sgn 16 imm)

/-- MOVI. -/
def execMovi (cc : Nat) (s : State) : Host.Outcome State Fault Refusal :=
  s.ccRun cc (fun t x i => match i with
    | .movi dst part imm => some (.ok (s.ccPut cc t 1 (x.writeReg dst (moviValue (x.readReg 0 t dst) part imm)).advance))
    | _ => none)
/-- MOV. -/
def execMov (cc : Nat) (s : State) : Host.Outcome State Fault Refusal :=
  s.ccRun cc (fun t x i => match i with
    | .mov dst src => some (.ok (s.ccPut cc t 1 (x.writeReg dst (x.readReg (s.chan cc).satc t src)).advance))
    | _ => none)

/-- An ALU instruction: XD and FLAGS; an undefined shift writes a free value and takes its flags from it (log entry 9).
-/
def State.ccAlu (s : State) (cc t : Nat) (x : Thread) (fn xd xa xb : Nat) : State :=
  let (v, u) := match aluOut fn (x.xr xa) (x.xr xb) with
    | some v => (v, s)
    | none => let r := s.fresh; (BitVec.ofNat 32 r.1, r.2)
  let y := if fn = 8 then x else x.setX xd v
  u.ccPut cc t 1 { y with flags := aluFlags v }.advance
/-- A row of the ALU. -/
def State.ccAluRow (s : State) (cc fn : Nat) : Host.Outcome State Fault Refusal :=
  s.ccRun cc (fun t x i => match i with
    | .alu f xd xa xb => if f = fn then some (.ok (s.ccAlu cc t x f xd xa xb)) else none
    | _ => none)

/-- ALU ADD. -/
def execAluAdd (cc : Nat) (s : State) : Host.Outcome State Fault Refusal := s.ccAluRow cc 0
/-- ALU SUB. -/
def execAluSub (cc : Nat) (s : State) : Host.Outcome State Fault Refusal := s.ccAluRow cc 1
/-- ALU AND. -/
def execAluAnd (cc : Nat) (s : State) : Host.Outcome State Fault Refusal := s.ccAluRow cc 2
/-- ALU OR. -/
def execAluOr (cc : Nat) (s : State) : Host.Outcome State Fault Refusal := s.ccAluRow cc 3
/-- ALU XOR. -/
def execAluXor (cc : Nat) (s : State) : Host.Outcome State Fault Refusal := s.ccAluRow cc 4
/-- ALU SHL. -/
def execAluShl (cc : Nat) (s : State) : Host.Outcome State Fault Refusal := s.ccAluRow cc 5
/-- ALU SHR arithmetic. -/
def execAluShrArithmetic (cc : Nat) (s : State) : Host.Outcome State Fault Refusal := s.ccAluRow cc 6
/-- ALU SHR logical. -/
def execAluShrLogical (cc : Nat) (s : State) : Host.Outcome State Fault Refusal := s.ccAluRow cc 7
/-- ALU CMP: FLAGS only. -/
def execAluCmp (cc : Nat) (s : State) : Host.Outcome State Fault Refusal := s.ccAluRow cc 8

/-- A row of the CALU, which leaves FLAGS. -/
def State.ccCaluRow (s : State) (cc fn : Nat) : Host.Outcome State Fault Refusal :=
  s.ccRun cc (fun t x i => match i with
    | .calu f xd xa xb =>
      if f = fn then some (.ok (s.ccPut cc t 1 (x.setX xd (caluOut f (x.xr xa) (x.xr xb))).advance)) else none
    | _ => none)

/-- CALU CADD. -/
def execCadd (cc : Nat) (s : State) : Host.Outcome State Fault Refusal := s.ccCaluRow cc 0
/-- CALU CSUB. -/
def execCsub (cc : Nat) (s : State) : Host.Outcome State Fault Refusal := s.ccCaluRow cc 1
/-- CALU CONJ. -/
def execConj (cc : Nat) (s : State) : Host.Outcome State Fault Refusal := s.ccCaluRow cc 2
/-- CALU swap I and Q. -/
def execSwapIq (cc : Nat) (s : State) : Host.Outcome State Fault Refusal := s.ccCaluRow cc 3
/-- CALU CNEG. -/
def execCneg (cc : Nat) (s : State) : Host.Outcome State Fault Refusal := s.ccCaluRow cc 4

/-! ### Local loads and stores (R276, R277) -/

/-- Words of local memory. -/
def State.ccRead (s : State) (cc a n : Nat) : List W32 := s.rdWords (Mem.chan cc + a) n
def State.ccWrite (s : State) (cc a : Nat) (ws : List W32) : State := s.wrN (Mem.chan cc + a) (wordsToBytes ws)

/-- The post-modify of format M. -/
def State.ccPost (s : State) (x : Thread) (an mm pmod n : Nat) : State × Thread :=
  if pmod = 0 then (s, x) else s.ccStepA x an (if pmod = 1 then x.mr mm else (n : Int))

/-- LD. -/
def execLd (cc : Nat) (s : State) : Host.Outcome State Fault Refusal :=
  s.ccRun cc (fun t x i => match i with
    | .ld xd an mm pmod size disp =>
      let n := 4 * 2 ^ size
      let ws := s.ccRead cc (x.ea an (sgn 11 disp) n) (2 ^ size)
      let r := s.ccPost x an mm pmod n
      some (.ok (r.1.ccPut cc t 1 (r.2.setXs xd ws).advance))
    | _ => none)

/-- The registers that a store takes. -/
def Thread.xs (x : Thread) (xd n : Nat) : List W32 := (span xd n).map x.xr

/-- ST. -/
def execSt (cc : Nat) (s : State) : Host.Outcome State Fault Refusal :=
  s.ccRun cc (fun t x i => match i with
    | .st xd an mm pmod size disp =>
      let n := 4 * 2 ^ size
      let u := s.ccWrite cc (x.ea an (sgn 11 disp) n) (x.xs xd (2 ^ size))
      let r := u.ccPost x an mm pmod n
      some (.ok (r.1.ccPut cc t 1 r.2.advance))
    | _ => none)

/-! ### External loads and stores (R285, R286) -/

/-- The device address that LDX and STX form. -/
def ChanCore.extAddr (c : ChanCore) (x : Thread) (en xo : Nat) : DevAddr :=
  devAddr (c.ext.getD en 0 + (x.xr xo).toNat)
/-- X(XO) is increased with PINC. -/
def Thread.pinc (x : Thread) (xo pinc n : Nat) : Thread :=
  if pinc = 1 then x.setX xo (x.xr xo + BitVec.ofNat 32 n) else x

/-- LDX: the thread waits for its data, until issue + L_max; GDDR7 is read through its bucket (R172, R285, R286). The address
must lie in the grant (R290). -/
def execLdx (cc : Nat) (s : State) : Host.Outcome State Fault Refusal :=
  s.ccRun cc (fun t x i => match i with
    | .ldx xd en xo pinc size =>
      let n := 4 * 2 ^ size
      let a := (s.chan cc).extAddr x en xo
      some (match s.ccJob cc with
        | some c =>
          if a.isMem && s.addrOk c.fn a n then
            let gddr := a.space == 2
            let q : ReadReq := { s.readOf c 240 with thread := some (cc, t) }
            let u := (s.askBlocks q 256 [] s.clock (s.blocksAt c.fn (if gddr then (List.range n).map a.plus else []))).1
            .ok (u.ccOut cc t { (x.pinc xo pinc n).advance with
              st := .waiting, xd := xd, size := n, addr := a.word, due := s.clock + (if gddr then 240 else 20), far := false })
          else .error Status.addressInvalid
        | none => .ok s)
    | _ => none)

/-- LDX_DATA_ARRIVAL: the data, presented in time, reaches the registers and the thread is ready (R286); an uncorrectable
word ends the job. -/
def execLdxDataArrival (cc t : Nat) (s : State) : Host.Outcome State Fault Refusal :=
  if 32 ≤ cc ∨ 4 ≤ t then .fault .noSuchUnit
  else
    let x := (s.chan cc).thread t
    match s.ccJob cc with
    | some c =>
      if s.up && decide (x.st = .waiting) && !x.far && decide (x.due ≤ s.clock) && !s.reading c.id (some (cc, t)) then
        let a := devAddr x.addr
        let v := s.asSeen c.id (some (cc, t))
        match v.readBad c.fn a x.size with
        | some i => .next ((s.noteBad c ⟨Status.eccUncorrectable, (a.plus i).word⟩).ccEnd cc Status.eccUncorrectable)
        | none =>
          let y := x.setXs x.xd (bytesToWords (v.readAt c.fn a x.size))
          .next ((s.takeReads c.id (some (cc, t))).setChan cc ((s.chan cc).setThread t { y with st := .ready }))
      else .next s
    | none => .next s

/-- STX: one piece, which lands by its own command; the thread does not wait (R286). -/
def execStx (cc : Nat) (s : State) : Host.Outcome State Fault Refusal :=
  s.ccRun cc (fun t x i => match i with
    | .stx xd en xo pinc size =>
      let n := 4 * 2 ^ size
      let a := (s.chan cc).extAddr x en xo
      some (match s.ccJob cc with
        | some c =>
          if !(a.isMem && s.addrOk c.fn a n) then .error Status.addressInvalid
          else if s.ownedElsewhere c.fn a n then .error Status.ownershipFault
          else
            let part : Part := { dst := a.word, flat := s.flat c.fn a 0, data := wordsToBytes (x.xs xd (2 ^ size)) }
            let p : Piece := { c.piece s.nextId part ((s.float12 c).toOption.getD none) with
              stx := true, due := s.clock + landLatency false a.space }
            let u : State := { s with pieces := s.pieces ++ [p], nextId := s.nextId + 1 }
            .ok ((u.addTerm Term.issued n).ccPut cc t 1 (x.pinc xo pinc n).advance)
        | none => .ok s)
    | _ => none)

/-- STX_LANDING, at issue + L_max. -/
def execStxLanding (pid : Nat) (s : State) : Host.Outcome State Fault Refusal :=
  match s.pieces.find? (fun p => p.id == pid) with
  | some p => .next (if s.up && p.stx && decide (p.due ≤ s.clock) && !s.lineBusy p.dst p.data.length then s.landPiece p else s)
  | none => .next s

/-! ### Remote loads (R287, R427) -/

/-- A load that misses: zeros, and one more miss (R287). -/
def State.ccMiss (s : State) (cc t : Nat) (x : Thread) : State :=
  let c := s.chan cc
  (s.setChan cc { c.setThread t { x.setXs x.xd [0, 0] with st := .ready, far := false } with misses := c.misses + 1 }).addG 0x4103 (cc + 1) 1

/-- The domain address of an LDF. -/
def Thread.domainAt (x : Thread) (xo : Nat) : Nat := (x.xr xo).toNat + (x.xr (xo + 1)).fld 0 28 * 2 ^ 32

/-- Start a remote load for a thread that waits already: its checks, and the LOAD request (R287, R427, Table 15.4). -/
def State.ccLoad (s : State) (cc t : Nat) (c : Cmd) (a : Nat) : CcOut :=
  let x := (s.chan cc).thread t
  if (s.chan cc).fwait = 0 then .error Status.accessDenied
  else if domReserved a || s.crossRack (domDev a) || decide (2 ^ 21 < domOff a + 8) then .error Status.addressInvalid
  else if s.domain.declared.contains (domDev a) then .ok (s.ccMiss cc t x)
  else
    match s.endpointDev c.fn (domDev a) with
    | none => .error Status.accessDenied
    | some e =>
      let w : Await := { id := 0, cid := c.id, fn := c.fn, ctx := c.ctx, epoch := c.epoch, dev := domDev a, kind := 0x12, addr := a, len := 8, back := some (cc, t) }
      .ok (s.ask w 1 { dstFn := e.fn, sub := domRegion a % 8, ctx := c.ctx, epoch := c.epoch, len := 8, addr := a })

/-- LDF: the thread waits for the reply or for FWAIT. -/
def execLdf (cc : Nat) (s : State) : Host.Outcome State Fault Refusal :=
  s.ccRun cc (fun t x i => match i with
    | .ldf xd _ xo pinc =>
      some (match s.ccJob cc with
        | some c =>
          let u := s.ccOut cc t { (x.pinc xo pinc 8).advance with st := .waiting, xd := xd, size := 8, due := s.clock + (s.chan cc).fwait, far := true }
          u.ccLoad cc t c (x.domainAt xo)
        | none => .ok s)
    | _ => none)

/-- The LDF that a thread waits for. -/
def State.ccAwait (s : State) (cc t : Nat) : Option Await :=
  s.awaits.find? (fun a => a.kind == 0x12 && a.back == some (cc, t))

/-- LDF_REPLY: data, or the refusal that ends the job; a failed peer, and a reply after issue + FWAIT, give zeros and a miss
(R287, R427, R435). -/
def execLdfReply (cc t status : Nat) (data : List Byte) (s : State) : Host.Outcome State Fault Refusal :=
  if 32 ≤ cc ∨ 4 ≤ t then .fault .noSuchUnit
  else
    let x := (s.chan cc).thread t
    match s.ccAwait cc t, s.ccJob cc with
    | some a, some _ =>
      if s.up && decide (x.st = .waiting) && x.far then
        let u := s.dropAwait a.id
        if x.due < s.clock then .next (u.ccMiss cc t x)
        else if status = Status.ok then
          let y := x.setXs x.xd (bytesToWords (takeBytes 8 data))
          .next (u.setChan cc ((u.chan cc).setThread t { y with st := .ready, far := false }))
        else if status = Status.peerFenced then .next (u.ccMiss cc t x)
        else .next (u.ccEnd cc status)
      else .next s
    | _, _ => .next s

/-- LDF_WAIT_EXPIRY: FWAIT core cycles passed; zeros and a miss, and the reply will find nothing (R287). -/
def execLdfWaitExpiry (cc t : Nat) (s : State) : Host.Outcome State Fault Refusal :=
  if 32 ≤ cc ∨ 4 ≤ t then .fault .noSuchUnit
  else
    let x := (s.chan cc).thread t
    match s.ccAwait cc t, s.ccJob cc with
    | some a, some _ =>
      if s.up && decide (x.st = .waiting) && x.far && decide (x.due ≤ s.clock) then .next ((s.dropAwait a.id).ccMiss cc t x)
      else .next s
    | _, _ => .next s

/-! ### Multiplier instructions (R281, R282, R284) -/

/-- CMAC. -/
def execCmac (cc : Nat) (s : State) : Host.Outcome State Fault Refusal :=
  s.ccRun cc (fun t x i => match i with
    | .cmac k pa sh _ _ _ _ conj sub =>
      some (.ok ((s.modChan cc (fun c => c.mac k (cProduct (x.xr pa) (x.xr sh) (conj == 1) (sub == 1)))).ccPut cc t 1 x.advance))
    | _ => none)

/-- The four products of a quad and a shared operand. -/
def quadProducts (q : List W32) (sh : W32) (conj sub : Nat) : List (Int × Int) :=
  (List.range 4).map (fun i => cProduct (wd q i) sh (conj == 1) (sub == 1))

/-- CMAC4. -/
def execCmac4 (cc : Nat) (s : State) : Host.Outcome State Fault Refusal :=
  s.ccRun cc (fun t x i => match i with
    | .cmac4 k pa sh _ _ _ _ conj sub =>
      some (.ok ((s.modChan cc (fun c => c.macs k (quadProducts (x.xs (4 * pa) 4) (x.xr sh) conj sub))).ccPut cc t 1 x.advance))
    | _ => none)

/-- Both addresses of a memory form are post-modified; one register named twice gets a free value (log entry 9). -/
def State.ccPost2 (s : State) (x : Thread) (an ab ma mb pa pb : Nat) : State × Thread :=
  if pa = 1 ∧ pb = 1 ∧ an = ab then
    let r := s.fresh
    (r.2, x.setA an r.1)
  else
    let r := if pa = 1 then s.ccStepA x an (x.mr ma) else (s, x)
    if pb = 1 then r.1.ccStepA r.2 ab (x.mr mb) else r

/-- CMAC4M, and with `moves` FTAP: the quad at An, the shared operand at Ab, one more cycle where both lie in one bank
(R269), and the delay move to An + 16. -/
def State.ccTap (s : State) (cc t : Nat) (x : Thread) (moves : Bool) (k an ab ma mb pa pb conj sub : Nat) : State :=
  let ea := x.ea an 0 16
  let eb := x.ea ab 0 4
  let q := s.ccRead cc ea 4
  let sh := wd (s.ccRead cc eb 1) 0
  let u := if moves then s.ccWrite cc ((x.ar an + 16) % 2 ^ 18 / 16 * 16) q else s
  let u := u.modChan cc (fun c => c.macs k (quadProducts q sh conj sub))
  let r := u.ccPost2 x an ab ma mb pa pb
  r.1.ccPut cc t (if fld ea 4 4 = fld eb 4 4 then 2 else 1) r.2.advance

/-- CMAC4M. -/
def execCmac4m (cc : Nat) (s : State) : Host.Outcome State Fault Refusal :=
  s.ccRun cc (fun t x i => match i with
    | .cmac4m k an ab ma mb pa pb conj sub => some (.ok (s.ccTap cc t x false k an ab ma mb pa pb conj sub))
    | _ => none)
/-- FTAP. -/
def execFtap (cc : Nat) (s : State) : Host.Outcome State Fault Refusal :=
  s.ccRun cc (fun t x i => match i with
    | .ftap k an ab ma mb pa pb conj sub => some (.ok (s.ccTap cc t x true k an ab ma mb pa pb conj sub))
    | _ => none)

/-- CLRA: bit i of the mask names ACi. -/
def execClra (cc : Nat) (s : State) : Host.Outcome State Fault Refusal :=
  s.ccRun cc (fun t x i => match i with
    | .clra mask =>
      some (.ok ((s.modChan cc (fun c => c.clear ((List.range 8).filter (fun k => fld mask k 1 == 1)))).ccPut cc t 1 x.advance))
    | _ => none)

/-! ### Accumulator stores (R283) -/

/-- Store some accumulators at An. -/
def State.ccStore (s : State) (cc t : Nat) (x : Thread) (ks : List Nat) (an mm pm fmt shift rnd clr : Nat) : State :=
  let bits := if fmt = 1 then 32 else 16
  let n := ks.length * (if fmt = 1 then 8 else 4)
  let r := (s.chan cc).convert ks bits shift rnd
  let u := s.wrN (Mem.chan cc + x.ea an 0 n) (r.1.flatMap (fun v => leBytes (bits / 8) (unsgn bits v)))
  let u := u.modChan cc (fun c => c.stored ks r.2 clr)
  let y := if pm = 1 then u.ccStepA x an (x.mr mm) else (u, x)
  y.1.ccPut cc t 1 y.2.advance

/-- STA. -/
def execSta (cc : Nat) (s : State) : Host.Outcome State Fault Refusal :=
  s.ccRun cc (fun t x i => match i with
    | .sta k an mm pm fmt shift rnd clr => some (.ok (s.ccStore cc t x [k] an mm pm fmt shift rnd clr))
    | _ => none)
/-- STA4. -/
def execSta4 (cc : Nat) (s : State) : Host.Outcome State Fault Refusal :=
  s.ccRun cc (fun t x i => match i with
    | .sta4 k an mm pm fmt shift rnd clr => some (.ok (s.ccStore cc t x (span k 4) an mm pm fmt shift rnd clr))
    | _ => none)
/-- RDA. -/
def execRda (cc : Nat) (s : State) : Host.Outcome State Fault Refusal :=
  s.ccRun cc (fun t x i => match i with
    | .rda k xd _ _ shift rnd clr =>
      let r := (s.chan cc).convert [k] 16 shift rnd
      let u := s.modChan cc (fun c => c.stored [k] r.2 clr)
      some (.ok (u.ccPut cc t 1 (x.setX xd (cPack (r.1.getD 0 0) (r.1.getD 1 0))).advance))
    | _ => none)

/-! ### Jobs (R291-R293) -/

/-- The fields of a class 17 block (Table 10.5). -/
def ccFieldsOk (b : Blk) : Bool :=
  let a := 0xFFFFFFFF
  let e := 0x3FFFF
  bitsInside b [0xFFFFFF1F, 0, 0xFFFFFF, 0, e, e, e, e, e, a, a, a, a, 0xFFFF, a, 0] && decide (b.mode ≤ 2) &&
  (span 5 4).all (fun i => (wd b i).toNat % 4 == 0) && (wd b 4).toNat % 16 == 0 &&
  if b.mode = 0 then within 1 4 b.n && b.len == 0
  else b.n == 1 && within 16 262144 b.len && b.len % 16 == 0 && decide ((wd b 4).toNat + b.len ≤ 262144)

/-- The device addresses of a block's E2 and E3 (R292). -/
def Blk.e2 (b : Blk) : DevAddr := devAddr (wd64 b 9)
def Blk.e3 (b : Blk) : DevAddr := devAddr (wd64 b 11)

/-- The checks of a class 17 job (R245, R246, R292). -/
def State.openChan (s : State) (c : Cmd) : Except Refused (Blk × Option Nat) := do
  let r ← s.openBlk c ccFieldsOk
  let b := r.1
  if b.mode = 0 then
    s.needServed c (c.addr 4) 0
    s.needServed c (c.addr 6) 0
    s.needServed c b.e2 0
    s.needServed c b.e3 0
    ensure (c.wLen != 0xFFFFFFFF) Status.unboundedOnShared
  else if b.mode = 1 then s.needInput c (c.addr 4) b.len
  else s.needOutput c (c.addr 6) b.len
  .ok r

/-- The W that the device computes for FILL and DRAIN (R292); 0 for RUN. -/
def ccTime (c : Cmd) (b : Blk) : Nat :=
  if b.mode = 0 then 0
  else
    let gddr := (if b.mode = 1 then c.addr 4 else c.addr 6).space == 2
    16 + cdiv b.len 32 + (if b.mode = 1 then (if gddr then 240 else 20) else (if gddr then 200 else 24))

/-- The threads of a RUN job (R273). -/
def ccThreads (b : Blk) : List Thread :=
  (List.range b.n).map (fun (t : Nat) =>
    { st := if t = 0 then .running else .ready, x := [BitVec.ofNat 32 t, wd b 14] ++ List.replicate 14 0,
      pc := BitVec.ofNat 18 (wd b (5 + t)).toNat })

/-- A RUN job starts its threads; accumulators, SATC and AOV are cleared. -/
def State.startRun (s : State) (c : Cmd) (b : Blk) : State :=
  (s.ccStop (calInst c.onEngine)).setChan (calInst c.onEngine)
    { cid := some c.id, threads := ccThreads b, fwait := (wd b 13).fld 0 16,
      ext := [wd64 c.words 4, wd64 c.words 6, wd64 b 9, wd64 b 11] }

/-- CHANNEL_CORE_RUN: a job that fails a check ends; else its threads start and it ends with the last HALT. -/
def execChannelCoreRun (cid : Nat) (s : State) : Host.Outcome State Fault Refusal :=
  let is := s.isRadio 17 (fun m => m != 1 && m != 2)
  match s.cmd? cid with
  | some c =>
    if s.up && c.phase == .running && !c.did && c.cls == 9 && is c && (s.chan (calInst c.onEngine)).cid != some cid then
      match s.openChan c with
      | .ok r => .next (s.startRun c r.1)
      | .error _ => .next (s.radioRun cid is noInputs (fun d t => (t.openChan d).map (fun _ => (t, []))))
    else .next s
  | none => .next s

/-- The 32-byte pieces of n bytes at an address, cut at its 4 KiB boundaries too (R161, R291): offsets and lengths. -/
def cuts32 (off n : Nat) : List (Nat × Nat) :=
  (cutsOf off n).flatMap (fun (c : Nat × Nat) => (List.range (cdiv c.2 32)).map (fun k => (c.1 + 32 * k, min 32 (c.2 - 32 * k))))
/-- The pieces of a FILL or DRAIN are issued; the job notes how many. -/
def State.chanPieces (s : State) (c : Cmd) (read land : Nat) (float : Option Nat) (l : List Part) : State :=
  (s.issueFrom c { read := read, land := land, rate := 32 } float [] 0 0 l).modCmd c.id (fun (d : Cmd) => { d with part := l.length })

/-- FILL: LEN bytes from IN into local memory, which the job's float counts (R291). -/
def fillEffect (c : Cmd) (s : State) : Except Refused (State × List Nat) := do
  let (b, float) ← s.openChan c
  let a := c.addr 4
  let lo := Mem.chan (calInst c.onEngine) + (wd b 4).toNat
  .ok (s.chanPieces c (if a.space = 2 then 240 else 20) 0 float
    ((cuts32 a.off b.len).map (fun (x : Nat × Nat) => s.partOf c.fn 0 (lo + x.1) ((span x.1 x.2).map a.plus))), [])
/-- CHANNEL_CORE_FILL. -/
def execChannelCoreFill (cid : Nat) (s : State) : Host.Outcome State Fault Refusal :=
  .next (s.radioRun cid (s.isRadio 17 (· == 1)) noInputs fillEffect)

/-- DRAIN: LEN bytes of local memory to OUT. -/
def drainEffect (c : Cmd) (s : State) : Except Refused (State × List Nat) := do
  let (b, float) ← s.openChan c
  let a := c.addr 6
  let lo := Mem.chan (calInst c.onEngine) + (wd b 4).toNat
  .ok (s.chanPieces c 0 (landLatency false a.space) float
    ((cuts32 a.off b.len).map (fun (x : Nat × Nat) =>
      { dst := (a.plus x.1).word, flat := s.flat c.fn a x.1, data := s.rdN (lo + x.1) x.2 })), [])
/-- CHANNEL_CORE_DRAIN. -/
def execChannelCoreDrain (cid : Nat) (s : State) : Host.Outcome State Fault Refusal :=
  .next (s.radioRun cid (s.isRadio 17 (· == 2)) noInputs drainEffect)

end Sys2Proof.Machine
end

