-- ==== Sys2Proof/Machine/Fronthaul.lean ====
section
/-!
DEFINITION. Fronthaul lanes, receive windows and staging, transmit queues, and the jobs of engine class 16 (R298-R313,
R328-R330, R333).
-/

namespace Sys2Proof.Machine

/-! ### Lanes and ports (R298, R300, R301) -/

/-- Lanes of a port in a group mode; 0 where the group is disabled (Table 11.1). -/
def portWidth (mode : Nat) : Nat := [0, 4, 2, 1, 1].getD mode 0
/-- The mode of a lane's group. -/
def State.groupMode (s : State) (lane : Nat) : Nat := s.g 0x4200 (lane / 4 + 1)
/-- The port that a lane belongs to: its lowest lane; none while the group is disabled. -/
def State.portOfLane (s : State) (lane : Nat) : Option Nat :=
  let n := portWidth (s.groupMode lane)
  if n = 0 then none else some (lane / n * n)
/-- The port of a cell (Table 11.11). -/
def State.cellPort (s : State) (cell : Nat) : Nat := fld (s.cellO cell 0x20) 48 4
/-- A port carries frames while its lowest lane is up. -/
def State.portUp (s : State) (port : Nat) : Bool := s.g 0x4202 (port + 1) == 2
/-- The engine that gets an eCPRI frame of an eAxC (R301). -/
def State.engineFor (s : State) (port eaxc : Nat) : Nat := port + eaxc % max 1 (portWidth (s.groupMode port))

/-- The rule of a group mode write (R300). -/
def groupRule (group : Nat) (_ : ObjRow) (s : State) : Except Refused State := do
  ensure (!(s.cellsIn (fun st => st == 1 || st == 2)).any (fun c => s.cellPort c / 4 == group)) Status.accessDenied
  .ok s
/-- GROUP_MODE_WRITE: the object is stored and signed; the lanes retrain once it is committed. -/
def execGroupModeWrite (path : Path) (group mode : Nat) (s : State) : Host.Outcome State Fault Refusal :=
  .next (s.access path 1023 0x4200 (group + 1) none mode (groupRule group))

/-- A new group mode in force: the group's lanes train, or are down where it is disabled. -/
def State.retrainGroup (s : State) (group mode : Nat) : State :=
  (span (4 * group) 4).foldl (fun (t : State) l => t.setG 0x4202 (l + 1) (if mode = 0 then 0 else 1)) (s.setG 0x4200 (group + 1) mode)

/-- FRONTHAUL_LANE_DOWN. -/
def execFronthaulLaneDown (lane : Nat) (s : State) : Host.Outcome State Fault Refusal :=
  if 16 ≤ lane then .fault .noSuchUnit
  else .next (if s.up then s.setG 0x4202 (lane + 1) 0 else s)
/-- FRONTHAUL_LANE_TRAINED. -/
def execFronthaulLaneTrained (lane : Nat) (s : State) : Host.Outcome State Fault Refusal :=
  if 16 ≤ lane then .fault .noSuchUnit
  else .next (if s.up && s.groupMode lane != 0 && s.g 0x4202 (lane + 1) != 2 then s.setG 0x4202 (lane + 1) 2 else s)

/-! ### Air time (R308, R333) -/

/-- The current radio frame number N (R333). -/
def State.radioFrame (s : State) : Nat := (s.frame / 10 + s.g 0x4808 1) % 2 ^ 42
/-- The radio frame nearest to a current one that is x modulo m. -/
def nearestFrame (cur x m : Nat) : Nat :=
  let d := (x + m - cur % m) % m
  if 2 * d < m ∨ (2 * d = m ∧ Config.frameTie = true) then (cur + d) % 2 ^ 42 else (cur + d + 2 ^ 42 - m) % 2 ^ 42

/-- Start of symbol l of a subframe in 2^-16 ns: symbols of 2,192 samples at 30.72 MHz divided by 2^num, with 16 samples
more before symbols 1 and 7 × 2^num + 1 (TS 38.211 clause 5.3.1, PRESUMED; log entry 17). -/
def symbolOffset (num l : Nat) : Nat :=
  let d := 2 ^ num
  let long := (if 0 < l then 1 else 0) + (if 7 * d < l then 1 else 0)
  (l * 2192 + 16 * d * long) * 204800000 / (96 * d)

/-- The numerology of a cell; an LTE cell has that of 15 kHz. -/
def State.cellNum (s : State) (cell : Nat) : Nat := if s.cellO cell 2 = 2 then 0 else s.cellO cell 3
/-- The air start of a symbol in 2^-16 ns of TB0 (R308). -/
def State.airStart (s : State) (cell n sf slot symbol : Nat) : Nat :=
  let f := 10 * ((n + 2 ^ 42 - s.g 0x4808 1 % 2 ^ 42) % 2 ^ 42)
  nanos ((f + sf) * 1000000) + symbolOffset (s.cellNum cell) (14 * slot + symbol)

/-- A slot as staging names it. -/
def slotNo (n sf slot : Nat) : Nat := (n * 16 + sf) * 64 + slot

/-! ### Receive (R302-R310) -/

/-- A frame for a packet engine that is fenced fills the lane's receive queue; what the queue cannot take is discarded, counted
as a receive overflow and reported (R16, R17). -/
def State.overflow (s : State) (lane : Nat) : State :=
  let held := SMap.get (fun _ => 0) s.rxHeld lane
  if held < Config.receiveDepth then { s with rxHeld := SMap.set (fun _ => 0) s.rxHeld lane (held + 1) }
  else (s.addG 0x4212 (lane + 1) 1).raise ErrCode.receiveOverflow (calId 16 lane) none16 lane

/-- A frame reaches the MAC of an up port, which counts it and gives it to a packet engine: that of its eAxC ID, or the first
(R301). A port that is down receives nothing. -/
def State.takeFrame (s : State) (lane : Nat) (eaxc : Option Nat) (k : Nat → State → State) : Host.Outcome State Fault Refusal :=
  if 16 ≤ lane then .fault .noSuchUnit
  else
    match s.portOfLane lane with
    | some p =>
      if s.up && s.portUp p then
        let t := s.addG 0x4210 (p + 1) 1
        let e := eaxc.elim p (s.engineFor p)
        .next (if s.isFenced (calId 16 e) then t.overflow e else k p t)
      else .next s
    | none => .next s

/-- A MAC's stamp of a frame at a lane's pins in TB0: with the signed correction of the port, G:0x4203 for ingress and G:0x4204
for egress, and off by at most 2 ns (R328; log entry 17). -/
def State.stampAt (s : State) (index port : Nat) (skew : Int) : Nat :=
  ((s.time 0 : Int) + s.oInt 1023 index (port + 1) 4 + max (-131072) (min 131072 skew)).toNat

/-- An eAxC ID belongs to a cell: its band sector and component carrier fields, which stand between the DU port and the RU
port, are the cell's (R304; log entry 8). -/
def State.eaxcBelongs (s : State) (c eaxc : Nat) : Bool :=
  let w := s.cellO c 0x22
  fld eaxc (fld w 0 4) (fld w 4 4 + fld w 8 4) == Config.eaxcCell c % 2 ^ (fld w 4 4 + fld w 8 4)

/-- The cell that a U-plane frame belongs to (R304). -/
def State.cellOfFrame (s : State) (port : Nat) (f : UFrame) : Option Nat :=
  s.liveCells.find? (fun c => s.cellRuns c && s.cellPort c == port && s.g 0x4201 (port + 1) == f.dmac &&
    fld (s.cellO c 0x21) 0 12 == f.vlan && s.eaxcBelongs c f.eaxc)

/-- The U-plane setting of a direction: method and iqWidth field (Table 11.11). -/
def State.compression (s : State) (cell dir : Nat) : Nat × Nat :=
  let v := s.cellO cell 0x26
  if dir = 0 then (fld v 0 2, fld v 4 4) else (fld v 8 2, fld v 12 4)
/-- Bytes of a compressed PRB (PRESUMED from O-RAN: one byte of exponent or shift). -/
def prbBytes (c : Nat × Nat) : Nat := 3 * (if c.2 = 0 then 16 else c.2) + (if c.1 = 0 then 0 else 1)
/-- PRBs of a section; 0 means all of the cell (PRESUMED from O-RAN). -/
def State.prbCount (s : State) (cell : Nat) (f : UFrame) : Nat := if f.numPrb = 0 then s.cellO cell 4 else f.numPrb

/-- A section whose fields a cell accepts (R303, R306). -/
def State.sectionOk (s : State) (cell : Nat) (f : UFrame) : Bool :=
  let c := s.compression cell 0
  let n := s.prbCount cell f
  (fld (s.cellO cell 0x26) 16 1 == 0 || (f.method == c.1 && f.width % 16 == c.2)) &&
    decide (f.startPrb + n ≤ s.cellO cell 4) && decide (f.symbol < 14) && f.iq.length == n * prbBytes c

/-- Sequence numbers of an eAxC and direction (R305). -/
def seqKey (cell eaxc dir : Nat) : Nat := (cell * 65536 + eaxc) * 2 + dir
def State.takeSeq (s : State) (cell eaxc seq : Nat) : State :=
  let k := seqKey cell eaxc 0
  let last := SMap.get (fun _ => 0) s.seqRx k
  let d := if last = 0 then 0 else (seq + 256 - last) % 256
  if 128 ≤ d then s
  else ({ s with seqRx := SMap.set (fun _ => 0) s.seqRx k (seq % 256 + 1) }).addCellO cell 0x2C d

/-- The staging of an engine. -/
def State.stage (s : State) (lane : Nat) : List Filed := SMap.get (fun _ => []) s.staging lane
def State.setStage (s : State) (lane : Nat) (l : List Filed) : State := { s with staging := SMap.set (fun _ => []) s.staging lane l }
/-- Bytes of the PRBs held: 12 resource elements each. -/
def stageBytes (l : List Filed) : Nat := 48 * (l.filter (fun f => !f.moved)).length

/-- Whether staging knows a PRB of an eAxC and symbol. -/
def Filed.isPrb (x : Filed) (cell eaxc slot symbol prb : Nat) : Bool :=
  x.cell == cell && x.eaxc == eaxc && x.slotNo == slot && x.symbol == symbol && x.prb == prb

/-- File the PRBs of an on-time section: the first section that carries a PRB wins (R309); a section that does not fit is
discarded (R310). -/
def State.fileSection (s : State) (lane cell slot closes : Nat) (f : UFrame) : State :=
  let old := s.stage lane
  let c := s.compression cell 0
  let prbs := span f.startPrb (s.prbCount cell f)
  let fresh := prbs.filter (fun p => !old.any (fun x => x.isPrb cell f.eaxc slot f.symbol p))
  let add := fresh.map (fun (p : Nat) =>
    { cell := cell, eaxc := f.eaxc, slotNo := slot, symbol := f.symbol, prb := p, closes := closes,
      res := Config.decompress c.1 c.2 ((f.iq.drop ((p - f.startPrb) * prbBytes c)).take (prbBytes c)) : Filed })
  let t := s.addCellO cell 0x28 1
  if 2 ^ 21 < stageBytes (old ++ add) then t.addG 0x4213 (lane + 1) 1
  else (t.setStage lane (old ++ add)).addCellO cell 0x2B (prbs.length - fresh.length)

/-- A section of a known cell: sequence, then the window of its receive stamp (R305, R308, R309). -/
def State.judgeSection (s : State) (port cell : Nat) (f : UFrame) : State :=
  let t := s.takeSeq cell f.eaxc f.seqid
  let n := nearestFrame s.radioFrame f.frameId 256
  let sym := s.airStart cell n f.subframe f.slot f.symbol
  let ta := s.cellO cell 0x23
  let closes := sym + nanos (fld ta 32 32)
  let stamp := s.stampAt 0x4203 port f.skew
  if stamp < sym + nanos (fld ta 0 32) then t.addCellO cell 0x29 1
  else if closes ≤ stamp then t.addCellO cell 0x2A 1
  else t.fileSection (s.engineFor port f.eaxc) cell (slotNo n f.subframe f.slot) closes f

/-- UPLANE_SECTION_RECEIVE. -/
def execUplaneSectionReceive (lane : Nat) (f : UFrame) (s : State) : Host.Outcome State Fault Refusal :=
  s.takeFrame lane (some f.eaxc) (fun p t =>
    if !f.wellFormed || !f.ebit || f.subseq != 0 then t.addG 0x4215 (p + 1) 1
    else
      match s.cellOfFrame p f with
      | none => t.addG 0x4214 (p + 1) 1
      | some c => if s.sectionOk c f then t.judgeSection p c f else t.addG 0x4215 (p + 1) 1)

/-- CPLANE_RECEIVE: discarded and counted (Table 11.2). -/
def execCplaneReceive (lane : Nat) (s : State) : Host.Outcome State Fault Refusal :=
  s.takeFrame lane none (fun p t => t.addG 0x4215 (p + 1) 1)

/-- ECPRI_DELAY_REQUEST_RECEIVE: the Response carries the measurement ID, the receive stamp t2, and the ingress correction (R330).
-/
def execEcpriDelayRequestReceive (lane measurement : Nat) (skew : Int) (s : State) : Host.Outcome State Fault Refusal :=
  s.takeFrame lane none (fun p t =>
    (t.send (.ecpri p measurement (s.stampAt 0x4203 p skew) (s.oInt 1023 0x4203 (p + 1) 4))).addG 0x4211 (p + 1) 1)

/-- t1 + tCV1 of the Request that a Response belongs to, as it was sent; where this device sent none, what the command says (log
entry 9). -/
def State.requestTime (s : State) (port measurement t1 : Nat) (tcv1 : Int) : Int :=
  ((s.delaySent.find? (fun e => e.1 == port * 256 + measurement % 256)).map (·.2)).getD ((t1 : Int) + tcv1)
/-- ECPRI_DELAY_RESPONSE_RECEIVE: the one-way delay (t2 - tCV2) - (t1 + tCV1) in 2^-16 ns (R330). -/
def execEcpriDelayResponseReceive (lane measurement t1 : Nat) (tcv1 : Int) (t2 : Nat) (tcv2 : Int) (s : State) :
    Host.Outcome State Fault Refusal :=
  s.takeFrame lane none (fun p t =>
    t.setG 0x4220 (p + 1) (measurement % 256 + unsgn 56 ((t2 : Int) - tcv2 - t.requestTime p measurement t1 tcv1) * 256))

/-- STAGING_EXPIRY: data whose window closed 10 ms ago is discarded, and counted where no DELIVER moved it (R310). -/
def execStagingExpiry (lane : Nat) (s : State) : Host.Outcome State Fault Refusal :=
  if 16 ≤ lane then .fault .noSuchUnit
  else if !s.up then .next s
  else
    let expired (x : Filed) : Bool := decide (x.closes + nanos 10000000 ≤ s.time 0)
    let lost := (s.stage lane).filter (fun x => expired x && !x.moved)
    .next ((s.setStage lane ((s.stage lane).filter (fun x => !expired x))).addG 0x4216 (lane + 1) lost.length)

/-! ### Fronthaul jobs (R312, R313) -/

/-- The fields of a class 16 block (Table 11.4). -/
def fhFieldsOk (b : Blk) : Bool :=
  bitsInside b ([0xFFFFFF1F, 0, 0xFFFFFF, 0, 0xFFFFF] ++ List.replicate 11 0) && decide (b.mode ≤ 3) && within 1 4096 b.n &&
    decide ((wd b 4).fld 10 4 ≤ 9) && decide ((wd b 4).fld 14 6 ≤ 7) && (b.mode != 3 || (wd b 4).fld 0 10 == 0) &&
    (b.mode != 1 || b.len == 16 * b.n)

/-- The W that the device computes for class 16 (R313). -/
def fhTime (c : Cmd) (b : Blk) : Nat :=
  let gddr := (if b.mode = 0 then c.addr 6 else c.addr 4).space == 2
  32 + 8 * b.n + cdiv b.len 256 + (if b.mode = 0 then (if gddr then 200 else 24) else (if gddr then 240 else 28))

/-- The checks of a class 16 job: R246, then the engine's port. -/
def State.openFh (s : State) (c : Cmd) : Except Refused (Blk × Option Nat) := do
  let r ← s.openBlk c fhFieldsOk
  ensure (s.portOfLane (calInst c.onEngine) == some (s.cellPort c.cell)) Status.engineInvalid
  .ok r

/-- The slot that a block names. -/
def State.blkFrame (s : State) (b : Blk) : Nat := nearestFrame s.radioFrame ((wd b 4).fld 0 10) 1024
def State.blkSlot (s : State) (b : Blk) : Nat := slotNo (s.blkFrame b) ((wd b 4).fld 10 4) ((wd b 4).fld 14 6)
def State.blkStart (s : State) (c : Cmd) (b : Blk) (symbol : Nat) : Nat :=
  s.airStart c.cell (s.blkFrame b) ((wd b 4).fld 10 4) ((wd b 4).fld 14 6) symbol

/-! #### DELIVER -/

/-- The symbols of an entry: eAxC and symbol. -/
def deliverSymbols (ws : List W32) : List (Nat × Nat) :=
  ws.flatMap (fun w => (span (w.fld 16 4) (w.fld 20 4 + 1)).map (fun k => (w.fld 0 16, k)))

/-- What OUT receives for one symbol: the presence bitmap, then 12 resource elements for every PRB. -/
def symbolBytes (l : List Filed) (cell slot prbs : Nat) (e : Nat × Nat) : List Byte :=
  let here (p : Nat) : Option Filed := l.find? (fun x => !x.moved && x.isPrb cell e.1 slot e.2 p)
  let bits := (List.range prbs).map (fun p => (here p).isSome)
  leBytes 64 (bits.zipIdx.foldl (fun n b => if b.1 then n + 2 ^ b.2 else n) 0) ++
    (List.range prbs).flatMap (fun p => wordsToBytes ((List.range 12).map (fun i => ((here p).map (fun x => wd x.res i)).getD 0)))

/-- Symbol after symbol leaves staging: each PRB moves once (R310). -/
def deliverAll (cell slot prbs : Nat) : List (Nat × Nat) → List Filed → List Byte × List Filed
  | [], l => ([], l)
  | e :: es, l =>
    let rest := l.map (fun (x : Filed) =>
      if x.cell == cell && x.slotNo == slot && (x.eaxc, x.symbol) == e then { x with moved := true, res := [] } else x)
    let r := deliverAll cell slot prbs es rest
    (symbolBytes l cell slot prbs e ++ r.1, r.2)

def deliverEffect (c : Cmd) (s : State) : Except Refused (State × List Nat) := do
  let (b, float) ← s.openFh c
  let prbs := s.cellO c.cell 4
  s.needInput c (c.addr 4) (4 * b.n)
  let ws := s.wordsAt c.fn (c.addr 4) b.n
  ensure (ws.all (fun w => w.fld 24 8 == 0 && decide (w.fld 16 4 + w.fld 20 4 ≤ 13))) Status.shapeInvalid
  let es := deliverSymbols ws
  ensure (b.len == es.length * (64 + 48 * prbs)) Status.shapeInvalid
  s.needOutput c (c.addr 6) b.len
  let lane := calInst c.onEngine
  let slot := s.blkSlot b
  let r := deliverAll c.cell slot prbs es (s.stage lane)
  .ok ((s.setStage lane r.2).emitData c float (c.addr 6) r.1, [])

/-- The inputs of a job of class 16: the entries or items at IN, and the samples of the sections that UPLANE_TX sends. -/
def State.fhInputs (s : State) (c : Cmd) : List (DevAddr × Nat) :=
  let b := s.blk c
  if b.mode = 1 then
    (c.addr 4, b.len) :: (chunksOf 4 b.n (s.wordsAt c.fn (c.addr 4) (4 * b.n))).map (fun e => (devAddr (wd64 e 2), 48 * (wd e 1).fld 9 9))
  else [(c.addr 4, if b.mode = 0 then 4 * b.n else b.len)]

/-- DELIVER; a mode out of range runs, and fails, as one. -/
def execDeliver (cid : Nat) (s : State) : Host.Outcome State Fault Refusal :=
  .next (s.radioRun cid (s.isRadio 16 (fun m => m == 0 || decide (3 < m))) State.fhInputs deliverEffect)

/-! #### Transmit -/

/-- The transmit queue of a port. -/
def State.txOf (s : State) (port : Nat) : List TxFrame := SMap.get (fun _ => []) s.txq port
def State.setTx (s : State) (port : Nat) (l : List TxFrame) : State := { s with txq := SMap.set (fun _ => []) s.txq port l }
def State.queueTx (s : State) (port : Nat) (f : TxFrame) : State := s.setTx port (s.txOf port ++ [f])

/-- The next sequence ID of an eAxC on transmit (R305, Table 11.10). -/
def State.nextSeq (s : State) (cell eaxc : Nat) : Nat × State :=
  let k := seqKey cell eaxc 1
  let v := SMap.get (fun _ => 0) s.seqTx k
  (v, { s with seqTx := SMap.set (fun _ => 0) s.seqTx k ((v + 1) % 256) })

/-- A transmit window: from t_sym less the larger offset to t_sym less the smaller (R311). -/
def State.txWindow (s : State) (cell sub t : Nat) : Nat × Nat :=
  let v := s.cellO cell sub
  (t - nanos (fld v 32 32), t - nanos (fld v 0 32))

/-- A big-endian number of n bytes. -/
def beBytes (n v : Nat) : List Byte := (leBytes n v).reverse
/-- The frame of an eCPRI message of a cell, unfragmented: EtherType 0xAEFE after one tag, E bit 1 and subsequence ID 0 (R302,
R303). The fields of the eCPRI header are those of eCPRI 2.0, and a short frame is padded to 60 bytes (PRESUMED; log entry 17).
-/
def State.ecpriFrame (s : State) (cell type eaxc seq : Nat) (body : List Byte) : List Byte :=
  let tag := s.cellO cell 0x21
  let l := beBytes 6 (fld (s.cellO cell 0x20) 0 48) ++ beBytes 6 (s.g 0x4201 (s.cellPort cell + 1)) ++
    beBytes 2 0x8100 ++ beBytes 2 (fld tag 0 12 + fld tag 12 3 * 2 ^ 13) ++ beBytes 2 0xAEFE ++
    beBytes 1 0x10 ++ beBytes 1 type ++ beBytes 2 (body.length + 4) ++ beBytes 2 eaxc ++ beBytes 1 seq ++ beBytes 1 0x80 ++ body
  l ++ List.replicate (60 - l.length) 0
/-- Bytes of a frame before its message's body, and the most that a frame has before its FCS (R299). -/
def ecpriHead : Nat := 26
def frameMax : Nat := 9212

/-- The O-RAN headers of one downlink section of a cell (PRESUMED; log entry 17), with udCompHdr under a dynamic header (R306). -/
def State.sectionHead (s : State) (cell eaxc frame sf slot symbol start n : Nat) : List Byte :=
  let z := s.compression cell 1
  beBytes 1 0x90 ++ beBytes 1 frame ++ beBytes 2 (sf * 2 ^ 12 + slot * 2 ^ 6 + symbol) ++
    beBytes 3 (Config.sectionId eaxc symbol start % 4096 * 2 ^ 12 + start) ++ beBytes 1 (if n ≤ 255 then n else 0) ++
    (if fld (s.cellO cell 0x26) 16 1 = 1 then beBytes 1 (z.2 * 16 + z.1) ++ [0] else [])
/-- Bytes of a section in a frame. -/
def State.sectionSize (s : State) (cell n : Nat) : Nat :=
  ecpriHead + 8 + (if fld (s.cellO cell 0x26) 16 1 = 1 then 2 else 0) + n * prbBytes (s.compression cell 1)

/-- The resource elements of a section, compressed PRB by PRB. -/
def State.sectionBytes (s : State) (c : Cmd) (a : DevAddr) (n : Nat) : List Byte :=
  let z := s.compression c.cell 1
  (List.range n).flatMap (fun p => takeBytes (prbBytes z) (Config.compress z.1 z.2 (s.wordsAt c.fn (a.plus (48 * p)) 12)))

/-- Queue one U-plane section. -/
def State.queueSection (s : State) (c : Cmd) (b : Blk) (e : List W32) : State :=
  let eaxc := (wd e 0).fld 0 16
  let symbol := (wd e 0).fld 16 4
  let start := (wd e 1).fld 0 9
  let n := (wd e 1).fld 9 9
  let q := s.nextSeq c.cell eaxc
  let bytes := s.ecpriFrame c.cell 0 eaxc q.1
    (s.sectionHead c.cell eaxc (s.blkFrame b % 256) ((wd b 4).fld 10 4) ((wd b 4).fld 14 6) symbol start n ++ s.sectionBytes c (devAddr (wd64 e 2)) n)
  q.2.queueTx (s.cellPort c.cell)
    { cid := c.id, cell := c.cell, insert := 0, window := some (s.txWindow c.cell 0x24 (s.blkStart c b symbol)), bytes := bytes, metered := c.metered }
def State.queueSections (s : State) (c : Cmd) (b : Blk) : List (List W32) → State
  | [] => s
  | e :: es => (s.queueSection c b e).queueSections c b es

/-- Section entries that can be sent: their fields, then their data. One that no frame holds breaks a limit like any other field
(R299; DESIGN CHOICE, log entry 17). -/
def State.needSections (s : State) (c : Cmd) : List (List W32) → Except Refused Unit
  | [] => .ok ()
  | e :: es => do
    ensure ((wd e 0).fld 20 12 == 0 && (wd e 1).fld 18 14 == 0 && decide ((wd e 0).fld 16 4 < 14) &&
      decide ((wd e 1).fld 0 9 + (wd e 1).fld 9 9 ≤ s.cellO c.cell 4) && decide (s.sectionSize c.cell ((wd e 1).fld 9 9) ≤ frameMax)) Status.shapeInvalid
    s.needInput c (devAddr (wd64 e 2)) (48 * (wd e 1).fld 9 9)
    s.needSections c es

def uplaneEffect (c : Cmd) (s : State) : Except Refused (State × List Nat) := do
  let (b, _) ← s.openFh c
  s.needInput c (c.addr 4) b.len
  let es := chunksOf 4 b.n (s.wordsAt c.fn (c.addr 4) (4 * b.n))
  s.needSections c es
  .ok (s.queueSections c b es, [])
/-- UPLANE_TX. -/
def execUplaneTx (cid : Nat) (s : State) : Host.Outcome State Fault Refusal :=
  .next (s.radioRun cid (s.isRadio 16 (· == 1)) State.fhInputs uplaneEffect)

/-- The n items of a byte string, each after a header of h bytes whose low bits are its length; none where they do not
fill it. -/
def itemsOf (h bits : Nat) : Nat → List Byte → Option (List (Nat × List Byte))
  | 0, bs => if bs.isEmpty then some [] else none
  | n + 1, bs =>
    let w := leNat (bs.take h)
    let len := fld w 0 bits
    if bs.length < h + len then none
    else (itemsOf h bits n (bs.drop (h + len))).map (fun l => (w, (bs.drop h).take len) :: l)

/-- The types of the section extensions that follow one another from an offset of a message; none where they run out of it. -/
def extTypes (m : List Byte) : Nat → Nat → Option (List Nat × Nat)
  | 0, _ => none
  | fuel + 1, i =>
    let a := (m.getD i 0).toNat
    let n := 4 * (m.getD (i + 1) 0).toNat
    if n = 0 ∨ m.length < i + n then none
    else if a < 128 then some ([a % 128], i + n)
    else (extTypes m fuel (i + n)).map (fun r => (a % 128 :: r.1, r.2))
/-- The extensions of n sections from an offset; sections of type 0 have none (PRESUMED from O-RAN; log entry 17). -/
def sectionExts (m : List Byte) (type : Nat) : Nat → Nat → Option (List Nat)
  | 0, _ => some []
  | n + 1, i =>
    let size := if type = 3 then 12 else 8
    if m.length < i + size then none
    else if type = 0 ∨ (m.getD (i + 6) 0).toNat < 128 then sectionExts m type n (i + size)
    else
      match extTypes m (m.length + 1) (i + size) with
      | some r => (sectionExts m type n r.2).map (r.1 ++ ·)
      | none => none
/-- A message that the device sends: section types 0, 1 and 3, section extensions 1 and 6, and what a frame holds (R299, Table
11.2). -/
def messageOk (m : List Byte) : Bool :=
  let type := (m.getD 5 0).toNat
  decide (6 ≤ m.length) && decide (ecpriHead + m.length ≤ frameMax) && (type == 0 || type == 1 || type == 3) &&
    ((sectionExts m type (m.getD 4 0).toNat (if type = 1 then 8 else 12)).any (fun l => l.all (fun x => x == 1 || x == 6)))

/-- Queue one C-plane message, the weights of its extension 1 in block floating point at the cell's DL width (R306); its first symbol is in byte 3 of the radio application header (PRESUMED from O-RAN). -/
def State.queueMessage (s : State) (c : Cmd) (b : Blk) (m : List Byte) : State :=
  let eaxc := Config.cplaneEaxc m % 65536
  let z := s.compression c.cell 1
  let q := s.nextSeq c.cell eaxc
  let symbol := (m.getD 3 0).toNat % 64
  q.2.queueTx (s.cellPort c.cell)
    { cid := c.id, cell := c.cell, insert := 0, window := some (s.txWindow c.cell 0x25 (s.blkStart c b symbol)),
      bytes := s.ecpriFrame c.cell 2 eaxc q.1 ((Config.cplaneBody 1 z.2 m).take m.length), metered := c.metered }
def State.queueMessages (s : State) (c : Cmd) (b : Blk) : List (Nat × List Byte) → State
  | [] => s
  | m :: ms => (s.queueMessage c b m.2).queueMessages c b ms

/-- The NBLK items of IN fill LEN exactly. -/
def State.needItems (s : State) (c : Cmd) (b : Blk) (h bits : Nat) : Except Refused (List (Nat × List Byte)) := do
  s.needInput c (c.addr 4) b.len
  match itemsOf h bits b.n (s.readAt c.fn (c.addr 4) b.len) with
  | some l => .ok l
  | none => .error ⟨Status.shapeInvalid, 0⟩

def cplaneEffect (c : Cmd) (s : State) : Except Refused (State × List Nat) := do
  let (b, _) ← s.openFh c
  let l ← s.needItems c b 4 32
  ensure (l.all (fun e => messageOk e.2)) Status.shapeInvalid
  .ok (s.queueMessages c b l, [])
/-- CPLANE_TX. -/
def execCplaneTx (cid : Nat) (s : State) : Host.Outcome State Fault Refusal :=
  .next (s.radioRun cid (s.isRadio 16 (· == 2)) State.fhInputs cplaneEffect)

/-- Whether the submitting function may use an insert code on a port (R312, R329). -/
def State.mayInsert (s : State) (fn port code : Nat) : Bool :=
  if code = 1 then s.g 0xA002 (port + 1) == fn else if code = 2 then s.g 0xA003 (port + 1) == fn else true

def rawEffect (c : Cmd) (s : State) : Except Refused (State × List Nat) := do
  let (b, _) ← s.openFh c
  let l ← s.needItems c b 8 14
  let port := s.cellPort c.cell
  ensure (l.all (fun e => fld e.1 14 2 != 3 && fld e.1 16 48 == 0 && within 60 9212 e.2.length)) Status.shapeInvalid
  ensure (l.all (fun e => s.mayInsert c.fn port (fld e.1 14 2))) Status.resourceHeld
  .ok (l.foldl (fun (t : State) e =>
    t.queueTx port { cid := c.id, cell := c.cell, insert := fld e.1 14 2, window := none, bytes := e.2, metered := c.metered }) s, [])
/-- RAW_TX. -/
def execRawTx (cid : Nat) (s : State) : Host.Outcome State Fault Refusal :=
  .next (s.radioRun cid (s.isRadio 16 (· == 3)) State.fhInputs rawEffect)

/-! ### Departure (R311, R328, R329) -/

/-- A big-endian number of n bytes in a frame, and its replacement. -/
def beAt (bs : List Byte) (i n : Nat) : Nat := leNat ((bs.drop i).take n).reverse
def putBe (bs : List Byte) (i n v : Nat) : List Byte := bs.take i ++ (leBytes n v).reverse ++ bs.drop (i + n)

/-- The bytes that an inserter leaves (Table 11.9). The payload follows the Ethernet header and a tag if there is one; the
places are those of IEEE 1588 and eCPRI (PRESUMED; log entry 17). -/
def insertStamp (code stamp : Nat) (bs : List Byte) : List Byte :=
  let o := if beAt bs 12 2 = 0x8100 then 18 else 14
  let ns := stamp / 2 ^ 16
  let putTime (l : List Byte) (i : Nat) : List Byte := putBe (putBe l i 6 (ns / 1000000000)) (i + 6) 4 (ns % 1000000000)
  let addFrac (l : List Byte) (i : Nat) : List Byte := putBe l i 8 (beAt l i 8 + stamp % 2 ^ 16)
  if code = 1 then
    let l := putTime (addFrac bs (o + 8)) (o + 34)
    putBe l (o + 6) 1 (setFld (beAt l (o + 6) 1) 1 1 0)
  else if code = 2 then addFrac (putTime bs (o + 6)) (o + 16)
  else bs

/-- Lateness of work whose command may be over (R63). -/
def State.lateFrame (s : State) (f : TxFrame) (cal : Nat) : State :=
  if (s.cmd? f.cid).isSome then s.lateness cal 4 [f.cid]
  else if f.metered then s.noteLate cal 4
  else s.addG 0x2407 5 1

/-- A delay Request leaves: t1 + tCV1 stay with its measurement ID (R330). -/
def State.noteRequest (s : State) (port code : Nat) (bs : List Byte) : State :=
  let o := if beAt bs 12 2 = 0x8100 then 18 else 14
  if code = 2 ∧ beAt bs (o + 1) 1 = 5 ∧ beAt bs (o + 5) 1 = 0 then
    let t1 := nanos (beAt bs (o + 6) 6 * 1000000000 + beAt bs (o + 12) 4)
    { s with delaySent := SMap.put (port * 256 + beAt bs (o + 4) 1) ((t1 : Int) + sgn 64 (beAt bs (o + 16) 8)) s.delaySent }
  else s

/-- FRAME_DEPART: the first queued frame of a lane's port whose window TB0 is in, or that has none, has its turn and leaves with
its stamp; at or after its window's end it is discarded. -/
def execFrameDepart (lane : Nat) (skew : Int) (s : State) : Host.Outcome State Fault Refusal :=
  if 16 ≤ lane then .fault .noSuchUnit
  else
    match s.portOfLane lane with
    | none => .next s
    | some p =>
      match (s.txOf p).find? (fun f => f.window.all (fun w => decide (w.1 ≤ s.time 0))) with
      | none => .next s
      | some f =>
        if !s.up || !s.portUp p then .next s
        else
          let t := s.setTx p ((s.txOf p).erase f)
          if f.window.all (fun w => decide (s.time 0 < w.2)) then
            let stamp := s.stampAt 0x4204 p skew
            let bytes := insertStamp f.insert stamp f.bytes
            .next (((t.send (.frame p bytes stamp)).addG 0x4211 (p + 1) 1).noteRequest p f.insert bytes)
          else .next ((t.addG 0x4217 (p + 1) 1).lateFrame f (calId 16 lane))

end Sys2Proof.Machine
end

