-- ==== Sys2Proof/Machine/Time.lean ====
section
/-!
DEFINITION. The time bases: servos, references, PTP, 1PPS, PTM and the cross snapshot (R314-R327).
-/

namespace Sys2Proof.Machine

/-! ### The servo (R318-R322) -/

def State.servoState (s : State) (n : Nat) : Nat := s.g (0x4800 + n) 2
def State.setServo (s : State) (n : Nat) (f : Servo → Servo) : State := { s with servo := s.servo.set n (f (s.servo.getD n {})) }
/-- A servo forgets its measurements. -/
def Servo.clear (x : Servo) : Servo := { x with errs := [], outside := 0 }

/-- A base enters Holdover: counted, with a health event (R320). -/
def State.holdover (s : State) (n : Nat) : State :=
  let t := (s.setG (0x4800 + n) 2 3).addG (0x4800 + n) 9 1
  (t.setServo n Servo.clear).raise ErrCode.holdover none16 none16 n

/-- Eight measurements that agree within 50 ns. -/
def agree (l : List Int) : Bool :=
  l.length == 8 && l.all (fun a => l.all (fun b => decide (a - b ≤ (nanos 50 : Nat))))

/-- A base may step: TB0 only while every cell is inactive (R322). -/
def State.mayStep (s : State) (n : Nat) : Bool := n != 0 || s.liveCells.isEmpty

/-- The step of a base by its mean error; a TB0 step waits for its seam (R28, R319, R322). -/
def State.stepBase (s : State) (n : Nat) (errs : List Int) : State :=
  let t := (s.setG (0x4800 + n) 2 2).addG (0x4800 + n) 8 1
  let now := ((s.time n : Int) - errs.sum / 8).toNat
  let t := t.setServo n (fun x => if n = 0 ∧ 3 ≤ s.g 0x4800 3 then { x.clear with seen := now } else x.clear)
  let t : State := { t with tb := t.tb.set n now }
  if n = 0 then
    let inSeam := decide (seamStart ≤ s.cycle)
    { t with tb0Ready := true
             cal := { t.cal with stepSeam := t.cal.stepSeam || !inSeam, stepNext := t.cal.stepNext || inSeam, lastTick := t.tickFrame } }
  else t

/-- A base that measures but has not stepped. -/
def State.acquire (s : State) (n : Nat) (error : Int) : State :=
  if !s.mayStep n then s
  else
    let errs := error :: ((s.servo.getD n {}).errs.take 7)
    if agree errs then s.stepBase n errs else s.setServo n (fun x => { x with errs := errs })

/-- The rate of a locked base changes: a free correction within 100 ppm that moves by no more than 1 ppm per second, which is
10^-12 in a microsecond, since it last moved (R319; log entry 18). -/
def State.steer (s : State) (n : Nat) : State :=
  let (v, t) := s.fresh
  let old := s.oInt 1023 (0x4800 + n) 7 4
  let most := s.tb2us - (s.servo.getD n {}).steered / 2 ^ 16 / 1000
  let new := max (-100000000) (min 100000000 (old + (v % (2 * most + 1) : Nat) - most))
  (t.setServo n (fun x => { x with steered := s.time 2 })).setG (0x4800 + n) 7 (unsgn 32 new)

/-- A base measures its phase error in 2^-16 ns (R318-R322). -/
def State.measure (s : State) (n : Nat) (error : Int) : State :=
  let t := s.setG (0x4800 + n) 6 (unsgn 64 error)
  let beyond := decide (nanos (s.g (0x4800 + n) 4) < error.natAbs)
  match s.servoState n with
  | 0 => (t.setG (0x4800 + n) 2 1).acquire n error
  | 2 =>
    let row := if beyond then (s.servo.getD n {}).outside + 1 else 0
    if 3 ≤ row then t.holdover n else (t.setServo n (fun x => { x with outside := row })).steer n
  | 3 => if beyond then t else ((t.setG (0x4800 + n) 2 2).setServo n Servo.clear).steer n
  | _ => t.acquire n error

/-! ### References (R320, R323, R326, R327) -/

/-- PTM runs between TB3 and port A. -/
def State.ptmOn (s : State) : Bool := s.g 0x4803 3 == 1 && (s.port 0).ptm && s.linkUp 0
/-- This device is the domain master (G:0x5010.04). -/
def State.isMaster (s : State) : Bool := s.g 0x5010 4 == 4
/-- SyncE is there: its lane is up, and the quality level that it receives is not DNU, SSM code 0x0F (R323). -/
def State.syncE (s : State) : Bool := s.g 0x4202 (s.g 0x4806 1 + 1) == 2 && fld (s.g 0x4806 2) 0 4 != 0x0F
/-- The clock port in slave state: it is up and has a parent (R323, R324). -/
def State.slaved (s : State) : Bool := s.portUp (s.g 0x4805 1) && s.parent.isSome
/-- What the TB0 source that G:0x4800.03 selects requires (Table 11.8). A combined source needs its SyncE lane. -/
def State.sourceThere (s : State) : Bool :=
  match s.g 0x4800 3 with
  | 1 => s.slaved
  | 2 => s.slaved && s.syncE
  | 3 => s.g 0xA001 2 == 1 && s.g 0xA001 1 == s.g 0xA004 1
  | 4 => s.g 0xA001 2 == 1 && s.g 0xA001 1 == s.g 0xA004 1 && s.syncE
  | _ => false
/-- A base has a reference to measure against; TB2 has none, and the master's TB1 corrects nothing (R315, R451). -/
def State.hasReference (s : State) (n : Nat) : Bool :=
  if n = 0 then s.sourceThere else if n = 1 then s.g 0x5010 4 == 2 else if n = 3 then s.ptmOn else false
/-- Three sync intervals of 16 a second, and three announce intervals of 8 a second (PRESUMED from ITU-T G.8275.1; log entry 18),
in ns. -/
def syncLimit : Nat := 187500000
def announceLimit : Nat := 375000000
/-- A base's reference is lost (R320, R323, R451): no Sync or Announce for three of their intervals, no PPS edge for 1.5 s of the
base's own count, three TIME exchanges without an answer, no PTM response for 100 ms, or what its source requires is not there.
-/
def State.referenceLost (s : State) (n : Nat) : Bool :=
  let x := s.servo.getD n {}
  match n with
  | 0 => !s.sourceThere ||
    (if s.g 0x4800 3 ≤ 2 then decide (x.seen + nanos syncLimit ≤ s.time 2) || decide (x.heard + nanos announceLimit ≤ s.time 2)
     else decide (x.seen + nanos 1500000000 ≤ s.time 0))
  | 1 => s.g 0x5010 4 == 3 || decide (4 ≤ x.missed)
  | 3 => decide (x.seen + nanos 100000000 ≤ s.time 2)
  | _ => false

/-- PHASE_MEASUREMENT. -/
def execPhaseMeasurement (n : Nat) (error : Int) (s : State) : Host.Outcome State Fault Refusal :=
  if 4 ≤ n then .fault .noSuchUnit
  else .next (if s.up && s.hasReference n then s.measure n error else s)

/-- A base loses its reference: a locked one enters Holdover; one that acquires has no usable reference any more. A slave port
that hears no Announce has no parent. -/
def State.loseReference (s : State) (n : Nat) : State :=
  let s : State := if n = 0 ∧ (s.servo.getD 0 {}).heard + nanos announceLimit ≤ s.time 2 then { s with parent := none } else s
  match s.servoState n with
  | 2 => s.holdover n
  | 1 => (s.setG (0x4800 + n) 2 0).setServo n Servo.clear
  | _ => s
/-- REFERENCE_LOSS_TIMEOUT. -/
def execReferenceLossTimeout (n : Nat) (s : State) : Host.Outcome State Fault Refusal :=
  if 4 ≤ n then .fault .noSuchUnit
  else .next (if s.up && n != 2 && !(n == 1 && s.isMaster) && s.referenceLost n then s.loseReference n else s)

/-- The rule of a re-arm (R321, R334): the owner of TB0 is G:0xA004.01's, of TB3 manager A; TB1 is re-armed by the master;
TB2 has no servo. -/
def rearmRule (path : Path) (n : Nat) (_ : ObjRow) (s : State) : Except Refused State := do
  ensure (n != 0 || pathWriter path == some (s.g 0xA004 1)) Status.resourceHeld (s.g 0xA004 1)
  ensure (n != 3 || pathWriter path == some 512) Status.accessDenied
  ensure (n == 0 || n == 3) Status.accessDenied
  ensure (s.servoState n != 2) Status.accessDenied
  .ok ((s.setG (0x4800 + n) 2 4).setServo n Servo.clear)
/-- SERVO_REARM. -/
def execServoRearm (path : Path) (n : Nat) (s : State) : Host.Outcome State Fault Refusal :=
  if 4 ≤ n then .fault .noSuchUnit
  else .next (s.access path 1023 (0x4800 + n) 5 none 1 (rearmRule path n))

/-- CROSS_SNAPSHOT: all four counts at one instant (R317). -/
def snapshotRule (_ : ObjRow) (s : State) : Except Refused State :=
  .ok ((List.range 4).foldl (fun (t : State) n => t.setG 0x4804 (n + 2) (timeWord (s.time n))) s)
def execCrossSnapshot (path : Path) (s : State) : Host.Outcome State Fault Refusal :=
  .next (s.access path 1023 0x4804 1 none 1 snapshotRule)

/-- PPS_EDGE: an event stamp, or a reference that marks the second the owner wrote; the edge is stamped as it comes, at the counts
that TB0 and TB2 have now (one at other counts is not this edge; log entry 5), and the cable delay is subtracted from each stamp
(R323, R326, R334). -/
def execPpsEdge (tb0 tb2 : Nat) (s : State) : Host.Outcome State Fault Refusal :=
  let delay := s.oInt 1023 0x4807 2 4
  let stamp (t : Nat) : Nat := ((t : Int) - delay).toNat
  if !s.up || tb0 != s.time 0 || tb2 != s.time 2 then .next s
  else if s.g 0xA001 2 = 2 then .next ((s.setG 0x4804 2 (timeWord (stamp tb0))).setG 0x4804 4 (timeWord (stamp tb2)))
  else if s.g 0xA001 2 = 1 ∧ s.g 0xA001 1 = s.g 0xA004 1 then
    let sec := s.g 0x4807 1
    let t := (s.setG 0x4807 1 ((sec + 1) % 2 ^ 48)).setServo 0 (fun x => { x with seen := tb0 })
    .next (if (s.g 0x4800 3 = 3 ∨ s.g 0x4800 3 = 4) ∧ s.hasReference 0 = true then t.measure 0 ((tb0 : Int) - delay - nanos (sec * 1000000000) : Int) else t)
  else .next s

/-- PTM_EXCHANGE: port A's master time in ns, with half the round trip as link delay (R327). -/
def execPtmExchange (master roundTrip : Nat) (s : State) : Host.Outcome State Fault Refusal :=
  if s.up && s.ptmOn then
    .next (((s.send .ptm).setServo 3 (fun x => { x with seen := s.time 2 })).measure 3 ((s.time 3 : Int) - nanos (master + roundTrip / 2) : Int))
  else .next s

/-! ### PTP and SyncE (R302, R323, R324) -/

/-- A master port: the TB0 owner holds its PTP inserter. -/
def State.masterPort (s : State) (port : Nat) : Bool := s.g 0xA002 (port + 1) == s.g 0xA004 1 && s.portUp port

/-- An Announce at the slave port: from the parent, or from a clock that the BMCA takes for parent in its place, it sets the
parent's values. -/
def State.announce (s : State) (msg : PtpMsg) : State :=
  if s.parent.all (fun d => d == msg.dataset || Config.betterMaster d msg.dataset) then
    let t : State := { s with parent := some msg.dataset }
    ((t.setServo 0 (fun x => { x with heard := s.time 2 })).setG 0x4805 3 msg.clockClass).setG 0x4805 4 msg.utcOffset
  else s

/-- PTP_RECEIVE: an Announce of the domain at the slave port sets the parent's values and a Sync there is the reference, a
Delay_Req at a master port is answered with its receive stamp; an unknown message is discarded and counted. -/
def execPtpReceive (port : Nat) (msg : PtpMsg) (s : State) : Host.Outcome State Fault Refusal :=
  s.takeFrame port none (fun p t =>
    let mine := msg.domain == s.g 0x4805 2
    let stamp := s.stampAt 0x4203 p msg.skew
    if 4 ≤ msg.kind then t.addG 0x4215 (p + 1) 1
    else if msg.kind = 0 ∧ mine ∧ p = s.g 0x4805 1 ∧ s.g 0x4800 3 ≤ 2 then t.setServo 0 (fun x => { x with seen := s.time 2 })
    else if msg.kind = 1 ∧ mine ∧ p = s.g 0x4805 1 then t.announce msg
    else if msg.kind = 3 ∧ mine ∧ s.masterPort p then
      (t.send (.ptp p 2 msg.seq 0 (stamp / 2 ^ 16) (stamp % 2 ^ 16))).addG 0x4211 (p + 1) 1
    else t)

/-- The clockClass that a master port advertises: the parent's while TB0 is Locked, 135 in Holdover within the limit, 165
after that. -/
def State.clockClass (s : State) : Nat :=
  if s.servoState 0 = 2 then s.g 0x4805 3
  else if (s.oInt 1023 0x4800 6 8).natAbs ≤ nanos (s.g 0x4800 4) then 135 else 165

/-- An Announce of a master port with its clockClass: every second Sync brings one (PRESUMED from ITU-T G.8275.1; log entry 18).
-/
def State.sendAnnounce (s : State) (port seq : Nat) : State :=
  if seq % 2 = 0 then (s.send (.ptp port 1 (seq / 2) s.clockClass 0 0)).addG 0x4211 (port + 1) 1 else s

/-- SYNC_TRANSMIT: a one-step Sync with the fields of Table 11.9; none while TB0 is in Free-run or Acquiring, as it is Re-armed
too. -/
def execSyncTransmit (port : Nat) (s : State) : Host.Outcome State Fault Refusal :=
  if 16 ≤ port then .fault .noSuchUnit
  else if s.up && s.masterPort port && (s.servoState 0 == 2 || s.servoState 0 == 3) then
    let seq := SMap.get (fun _ => 0) s.ptpSeq port
    let t : State := { s with ptpSeq := SMap.set (fun _ => 0) s.ptpSeq port ((seq + 1) % 65536) }
    let stamp := s.stampAt 0x4204 port 0
    .next (((t.send (.ptp port 0 seq s.clockClass (stamp / 2 ^ 16) (stamp % 2 ^ 16))).addG 0x4211 (port + 1) 1).sendAnnounce port seq)
  else .next s

/-- ESMC_RECEIVE: accepted on the SyncE lane only (Table 11.2). -/
def execEsmcReceive (lane quality : Nat) (s : State) : Host.Outcome State Fault Refusal :=
  s.takeFrame lane none (fun p t => if lane = s.g 0x4806 1 then t.setG 0x4806 2 quality else t.addG 0x4215 (p + 1) 1)

end Sys2Proof.Machine
end

