-- ==== Sys2Proof/Machine/Stops.lean ====
section
/-!
DEFINITION. What a command that was told to stop has done by its boundary: whole folios, vector groups or rows, and pieces
(R122, R146, R163, R178, R183, R224, R296, R362, R364). How far it came when it was told is a free value (log entry 83).
-/

namespace Sys2Proof.Machine

/-- A fresh number of at most n. -/
def State.upTo (s : State) (n : Nat) : Nat × State := (s.fresh.1 % (n + 1), s.fresh.2)

/-- An effect made by force on a stopped command; one whose checks fail does nothing. -/
def State.force (s : State) (c : Cmd) (k : Cmd → State → Except Refused (State × List Nat)) : State :=
  match k c s with
  | .ok r => r.1
  | .error _ => s

/-- The effect of a command that issues pieces. -/
def Cmd.piecewise (c : Cmd) : Option (Cmd → State → Except Refused (State × List Nat)) :=
  if c.isFab then none
  else if c.cls = 2 then some (if c.form = 1 then transposeEffect else copyEffect)
  else if c.cls = 9 ∧ calClass c.onEngine = 18 then some (radioPumpEffect 18)
  else none

/-- A channel-core FILL or DRAIN. -/
def State.chanMove (s : State) (c : Cmd) : Option (Cmd → State → Except Refused (State × List Nat)) :=
  if c.cls = 9 ∧ calClass c.onEngine = 17 then
    (if s.blkMode c = 1 then some fillEffect else if s.blkMode c = 2 then some drainEffect else none)
  else none

/-- Folios of a command, from the next one on, up to a free boundary. -/
def State.cutFolios (s : State) (c : Cmd) : State :=
  match s.checkFolios c c.onEngine with
  | .ok fs =>
    let r := s.upTo (fs.length - c.part)
    r.2.foliosPart c c.part ((fs.drop c.part).take r.1)
  | .error _ => s

/-- The vector groups between two boundaries: a function reset and an overrun stop at any group, a fault and a close at a
row. -/
def State.cutVector (s : State) (c : Cmd) (rows : Bool) : State :=
  match s.checkVector c c.onEngine with
  | .ok _ =>
    let r := s.upTo (c.vtotal - c.part)
    let hi := c.part + r.1
    (r.2.vectorPart c (Mem.well c.onCore) c.part (if rows then hi / max 1 c.vgroups * c.vgroups else hi)).1
  | .error _ => s

/-- What a stopped command has done by its boundary. One told before its effect does a part of it: a KV step settles
completely but in a function reset (R224); of a pump, or a FILL or DRAIN, the pieces issued land, or go to the sump. -/
def State.finishCut (s : State) (c : Cmd) (hard : Bool) : State :=
  match (c.piecewise).or (s.chanMove c) with
  | some k =>
    if c.cut = 1 then (s.force c k).cutPieces c.id hard else if c.cut = 2 then s.cutPieces c.id hard else s
  | none =>
    if c.cut ≠ 1 then s
    else if c.cls = 0 ∧ c.form = 0 then s.cutFolios c
    else if c.cls = 1 then s.cutVector c !hard
    else if c.cls = 8 ∧ c.form = 0 ∧ !s.resetting c.fn then s.force c kvEffect
    else s

end Sys2Proof.Machine
end

