-- ==== Sys2Proof/Machine/Starts.lean ====
section
/-!
DEFINITION. How commands reach their engines and leave them: ENGINE_OFFER, RADIO_COMMAND_START, EXACT_COMMAND_START,
COMMAND_END, PRELUDE_START, GUTTER_START, RADIO_INTERVAL_END and LATENESS_REPORT (R31-R33, R45-R53, R61-R63, R194, R346,
R350-R352, R376, R377).
-/

namespace Sys2Proof.Machine

/-! ### What a command needs -/

/-- The checks of a payload on an engine, before its command starts (R194); its effect makes them again. -/
def State.checkStart (s : State) (c : Cmd) (id : Nat) : Except Refused Unit :=
  let d := { c with engines := [id] }
  match fabOpOf d with
  | some o => if d.cls = 9 then (s.openBlk d (Blk.fieldsOk 19)).map (fun _ => ()) else (s.checkFabric d o).map (fun _ => ())
  | none =>
    if d.cls = 0 then (if d.form = 0 then (s.checkFolios d id).map (fun _ => ()) else s.checkCombine d id)
    else if d.cls = 1 then s.checkVector d id
    else if d.cls = 2 then (if d.form = 0 then (s.checkCopy d id).map (fun _ => ()) else (s.checkTranspose d).map (fun _ => ()))
    else if d.cls = 8 then do
      let _ ← s.float9 d
      s.needServed d d.desc 0
      s.needServed d d.result 0
    else if calClass id = 16 then (s.openFh d).map (fun _ => ())
    else if calClass id = 17 then (s.openChan d).map (fun _ => ())
    else (s.openBlk d (Blk.fieldsOk (calClass id))).map (fun _ => ())

/-- The length a command is fitted with: the record's W, for a radio-engine job at least what the device computes (R45,
R247, R249, R292, R313). -/
def State.fitW (s : State) (c : Cmd) (id : Nat) : Nat :=
  if c.cls = 9 then
    let b := s.blk c
    let k := calClass id
    max c.wLen (if k = 16 then fhTime c b else if k = 17 then ccTime c b else if 18 ≤ k then radioPumpTime c b else b.time k)
  else c.wLen

/-- S + W on an engine; the prelude has paid S for a command that it loaded and that starts at the first core cycle of its
interval (R31). -/
def State.lengthOn (s : State) (c : Cmd) (id : Nat) : Nat :=
  (if s.loadedFor id = some c.id then 0 else startup (calClass id)) + s.fitW c id

/-- An engine is free for a command: idle, in service, at the start of an interval loaded for no other command, held for no
other job. -/
def State.engineFree (s : State) (c : Cmd) (e : Nat) : Bool :=
  let x := s.engine e
  x.busy.isNone && !s.isFenced e && (s.loadedFor e).all (fun r => r == c.id || (s.cmd? r).all (fun d => d.phase != .queued)) && x.hold.all (fun h => h == (c.ctx, c.job))

/-- A fill command fits now on an engine: every member free and in a fill interval, and S + W before the next gutter of
each and of the tracks and channels of its path (R46, R47). -/
def State.fillFits (s : State) (c : Cmd) (id : Nat) : Bool :=
  let n := s.lengthOn c id
  let free (e : Nat) : Bool := s.kindNow e == 0 && decide (s.cycle + n ≤ s.nextGutter e)
  (membersOf c id).all (fun e => s.engineFree c e && free e) && (s.pathCals { c with engines := [id] }).all free

/-- The longest fill gap that the members and the path of a command have together, in core cycles. -/
def State.gapFor (s : State) (c : Cmd) (id : Nat) : Nat :=
  450 * longestGap ((membersOf c id ++ s.pathCals { c with engines := [id] }).flatMap (calEntries s.cal.active))
/-- No engine that a command may run on has a gap for it (R50). An unbounded command is fitted as one of 4,294,967,295 core
cycles, so none has (DESIGN CHOICE, log entry 80). -/
def State.noGap (s : State) (c : Cmd) : Bool :=
  (s.candidates c).all (fun id => decide (s.gapFor c id < startup (calClass id) + s.fitW c id))

/-- Every core that a command needs is held by its function, or is unheld and given to it: not where another function has
the core pinned, where saved state must be restored first, or without a slot (R344, R346-R348). -/
def State.giveCores (s : State) (f : Nat) : List Nat → Option State
  | [] => some s
  | c :: cs =>
    if s.holds f c then s.giveCores f cs
    else if s.coreHolder c == none16 && s.coreQuiet c && s.hasSlot f c && !s.savedOn f c && (s.pinned c).all (· == f) then
      (s.giveCore f c).giveCores f cs
    else none

/-- A command starts on its engines: its thread is taken and the engines are busy with it. -/
def State.startOn (s : State) (c : Cmd) (id : Nat) : State :=
  let t := s.takeThread c.ctx
  let hold := (s.jobOf c).any (·.noil)
  let t := (membersOf c id).foldl (fun (u : State) e => u.modEngine e (fun (x : Engine) =>
    { x with busy := some c.id, ready := none, hold := if hold then some (c.ctx, c.job) else x.hold })) t
  t.modCmd c.id (fun (d : Cmd) => { d with phase := .running, engines := membersOf c id, started := s.cycle, paid := true })

/-- A command that may not start ends with the status of its first failing check. -/
def State.refuseStart (s : State) (c : Cmd) (id : Nat) (e : Refused) : State :=
  (s.noteBad { c with engines := [id] } e).conclude c.id e.status (s.failDetail c e)

/-- A fill command at the head of its job for which no engine has a gap (R50). -/
def State.headless (s : State) (c : Cmd) : Bool :=
  s.modeOf c == 0 && s.isHead c && !s.resetting c.fn && !(s.candidates c).isEmpty && s.noGap c
/-- Heads that no gap fits end with NO_GAP_FITS, whatever their engines do now (R50). -/
def State.checkHeads (s : State) : List Cmd → State
  | [] => s
  | c :: l => (if s.headless c then s.refuseStart c c.engine ⟨Status.noGapFits, 0⟩ else s).checkHeads l

/-! ### Fill intervals (R48-R52, R351, R352, R377) -/

/-- The order in which an engine offers commands, as a key: share class by falling balance, functions round-robin after
the one served last, contexts ascending (R351). -/
def State.offerKeyOf (s : State) (id f : Nat) (ctx : Int) (n : Nat) : List Int :=
  let k := s.shareClass f
  let g := (shareGroup (calClass id)).getD 0
  let last := SMap.get (fun _ => 0) (s.engine id).last k
  [-(s.balance k g), (k : Int), ((f + 514 - last) % 514 : Nat), ctx, (n : Int)]
def State.offerKey (s : State) (id : Nat) (c : Cmd) : List Int := s.offerKeyOf id c.fn c.ctx c.id
/-- Lexicographic order. -/
def keyLt : List Int → List Int → Bool
  | a :: l, b :: m => decide (a < b) || (a == b && keyLt l m)
  | _, _ => false
def insertOffer (s : State) (id : Nat) (c : Cmd) : List Cmd → List Cmd
  | [] => [c]
  | d :: l => if keyLt (s.offerKey id d) (s.offerKey id c) then d :: insertOffer s id c l else c :: d :: l

/-- The fill commands that an engine may take, in their order. -/
def State.offers (s : State) (id : Nat) : List Cmd :=
  ((s.cmds.filter (fun c => s.modeOf c == 0 && s.isHead c && !s.resetting c.fn && (s.candidates c).contains id)).foldr (insertOffer s id) [])

/-- Under dynamic placement the first engine in ascending order that is free and whose gap fits takes the command (R49). -/
def State.firstFit (s : State) (c : Cmd) (id : Nat) : Bool :=
  !s.dynOf c || (s.candidates c).all (fun e => decide (id ≤ e) || !s.fillFits c e || (s.giveCores c.fn (s.coresNeeded c e)).isNone)

/-- A command is passed over for energy, counted the first time (R377). -/
def State.passOver (s : State) (c : Cmd) : State :=
  if c.passed then s
  else (s.addO c.fn 0x2010 3 1).modCmd c.id (fun (d : Cmd) => { d with passed := true })

/-- The engine has served a function of its class (R351). -/
def State.served (s : State) (id f : Nat) : State :=
  s.modEngine id (fun (x : Engine) => { x with last := SMap.put (s.shareClass f) (f + 1) x.last })

/-- The idle time of the holds that a command's engines have for its job is debited (R352). -/
def State.debitIdle (s : State) (f : Nat) : List Nat → State
  | [] => s
  | e :: es =>
    let x := s.engine e
    (if x.hold.isSome then s.debit f (calClass e) (s.cycle - x.freeAt) else s).debitIdle f es

/-- A class has fill work of an engine's group in this window (R350). -/
def State.noteDemand (s : State) (f id : Nat) : State :=
  match shareGroup (calClass id) with
  | some g =>
    let k := (s.shareClass f, g)
    if s.energy.demand.contains k then s else { s with energy := { s.energy with demand := s.energy.demand ++ [k] } }
  | none => s

/-- Offer one command to an engine: the state, and whether it started. The cores that it needs are given to its function
first; where one cannot be, the command waits or is skipped, and what its payload names is checked once they are held
(R194, R346, R347). -/
def State.offerOne (s : State) (id : Nat) (c : Cmd) : State × Bool :=
  if !s.isHead c then (s, false)
  else if s.isFenced id then ((if s.dynOf c then s else s.refuseStart c id ⟨Status.engineFenced, 0⟩), false)
  else if !s.fillFits c id || !s.firstFit c id then (s, false)
  else
    match s.giveCores c.fn (s.coresNeeded c id) with
    | none => (s, false)
    | some t =>
      match t.checkStart c id with
      | .error e => (t.refuseStart c id e, false)
      | .ok _ =>
        if !t.canThread c then (s, false)
        else if !s.energyFits c.fn c.due then (s.passOver c, false)
        else (((((t.payFill c.fn c.due).debitIdle c.fn (membersOf c id)).startOn c id).served id c.fn).noteDemand c.fn id, true)
/-- Offer commands in order until one starts. -/
def State.offerAll (s : State) (id : Nat) : List Cmd → State
  | [] => s
  | c :: cs =>
    let r := s.offerOne id c
    if r.2 then r.1 else r.1.offerAll id cs

/-! ### The steps of home functions (R425) -/

/-- A home function's step comes before the contexts of its function, the oldest first (DESIGN CHOICE, log entry 87). -/
def State.answerKey (s : State) (id : Nat) (h : HomeStep) : List Int := s.offerKeyOf id h.fn (-1) h.id
/-- A step of a home function may go out on a fabric pump now: the pump is free in a fill interval that holds the step, and
its lane has the credits. -/
def State.answerFits (s : State) (id : Nat) (h : HomeStep) : Bool :=
  let x := s.engine id
  calClass id == 19 && x.busy.isNone && x.hold.isNone && !s.isFenced id && s.kindNow id == 0 &&
    decide (s.cycle + startup 19 + h.len ≤ s.nextGutter id) &&
    (s.laneFor h.dev h.packet.dstFn h.packet.sub).any (fun l => s.canSend l (creditClass h.type true) (packetSlots h.type h.packet) h.dev)
/-- The step that a fabric pump takes first. -/
def State.firstAnswer (s : State) (id : Nat) : Option HomeStep :=
  (s.answers.filter (s.answerFits id)).foldl (fun (a : Option HomeStep) h =>
    if a.all (fun b => keyLt (s.answerKey id h) (s.answerKey id b)) then some h else a) none
/-- The commands that an engine is offered before the first step of a home function. -/
def State.offersBefore (s : State) (id : Nat) : List Cmd :=
  match s.firstAnswer id with
  | some h => (s.offers id).takeWhile (fun c => keyLt (s.offerKey id c) (s.answerKey id h))
  | none => s.offers id
/-- A pump's turn is a step's: it is the first that fits, and no command before it starts. -/
def State.answerTurn (s : State) (h : HomeStep) (id : Nat) : Bool :=
  s.firstAnswer id == some h && (s.offersBefore id).all (fun c => !(s.offerOne id c).2)

/-- A step of a home function goes out; its class is debited (R350, R351, R425). -/
def State.homeStep (s : State) (h : HomeStep) : State :=
  match (List.range 8).find? (fun i => s.answerTurn h (calId 19 i)) with
  | some i =>
    let t : State := { s with answers := s.answers.filter (fun x => x.id != h.id) }
    (((t.emit h.dev h.type true h.packet).debit h.fn 19 (startup 19 + h.len)).served (calId 19 i) h.fn).noteDemand h.fn (calId 19 i)
  | none => s

/-- FABRIC_STEP_ISSUE: the next step of a record, or a step of a home function. -/
def execFabricStepIssue (id : Nat) (s : State) : Host.Outcome State Fault Refusal :=
  match s.answers.find? (fun h => h.id == id) with
  | some h => .next (if s.up then s.homeStep h else s)
  | none => .next (s.recordStep id)

/-- ENGINE_OFFER: a free engine in a fill interval. -/
def execEngineOffer (id : Nat) (s : State) : Host.Outcome State Fault Refusal :=
  if !calOk id then .fault .noSuchUnit
  else if !s.up then .next s
  else
    let t := s.checkHeads s.cmds
    .next (if (t.engine id).busy.isNone && t.kindNow id == 0 then t.offerAll id (t.offersBefore id) else t)

/-! ### Radio and exact intervals (R32, R53, R61, R376) -/

/-- The charge of a radio command in 1/64 engine-granule, for each member (R61). -/
def State.radioCharge (s : State) (c : Cmd) (id : Nat) : Nat :=
  (membersOf c id).length * cdiv ((startup (calClass id) + s.fitW c id) * 64) 450

/-- Meter a radio command against the demand of the cells in the calendar: one that would exceed it is unadmitted. -/
def State.meter (s : State) (c : Cmd) (id : Nat) : State :=
  let k := calClass id
  let key := k * 8 + min 7 (s.granule / 500)
  let used := SMap.get (fun _ => 0) s.cal.charged key
  let total := used + s.radioCharge c id
  if s.demand s.inCal k < total then s.modCmd c.id (fun (d : Cmd) => { d with metered := false })
  else { s with cal := { s.cal with charged := SMap.set (fun _ => 0) s.cal.charged key total } }

/-- A radio or exact command may start on its engine now: every member, and every track and channel of its path, in an
interval of its own that holds S + W (R32, R53-R55). -/
def State.reservedFits (s : State) (c : Cmd) (id : Nat) : Bool :=
  (membersOf c id).all (fun e => s.engineFree c e && s.fitsNow c e (s.lengthOn c id)) &&
    (s.pathCals { c with engines := [id] }).all (fun e => s.fitsNow c e (s.lengthOn c id))

/-- What a radio or exact command that is next in its job does on its engine: it ends, starts, or waits. An exact command
whose cores cannot be given leaves its interval idle (R348); what the payload names is checked once they are held. -/
def State.startReserved (s : State) (c : Cmd) (fits : Bool) (begin' : State → Option State) : State :=
  let id := c.engine
  if s.isFenced id then s.refuseStart c id ⟨Status.engineFenced, 0⟩
  else if !fits then s
  else
    match begin' s with
    | none => s
    | some t =>
      match t.checkStart c id with
      | .error e => s.refuseStart c id e
      | .ok _ => if t.canThread c then (t.payStart c).startOn c id else s

/-- RADIO_COMMAND_START: a radio command needs no core, so its payload is checked before its length is fitted. -/
def execRadioCommandStart (cid : Nat) (s : State) : Host.Outcome State Fault Refusal :=
  match s.cmd? cid with
  | some c =>
    if s.up && s.isHead c && s.modeOf c == 2 && !(engineClasses c.cls c.form).isEmpty && !s.resetting c.fn then
      match s.checkStart c c.engine with
      | .error e => .next (s.refuseStart c c.engine (if s.isFenced c.engine then ⟨Status.engineFenced, 0⟩ else e))
      | .ok _ => .next (s.startReserved c (s.reservedFits c c.engine) (fun t => some (t.meter c c.engine)))
    else .next s
  | none => .next s

/-- EXACT_COMMAND_START. -/
def execExactCommandStart (cid : Nat) (s : State) : Host.Outcome State Fault Refusal :=
  match s.cmd? cid with
  | some c =>
    if s.up && s.isHead c && s.modeOf c == 1 && !(engineClasses c.cls c.form).isEmpty && !s.resetting c.fn then
      .next (s.startReserved c (s.reservedFits c c.engine) (fun t => t.giveCores c.fn (t.coresNeeded c c.engine)))
    else .next s
  | none => .next s

/-! ### The end of a command (R33, R45, R350) -/

/-- Engines become free. -/
def State.freeEngines (s : State) (c : Cmd) : State :=
  c.engines.foldl (fun (t : State) e =>
    if (t.engine e).busy = some c.id then t.modEngine e (fun (x : Engine) => { x with busy := none, freeAt := s.cycle }) else t) s

/-- Fill time that a command held its engines is debited to its class (R350). -/
def State.debitHeld (s : State) (c : Cmd) : State :=
  if s.modeOf c = 0 then c.engines.foldl (fun (t : State) e => t.debit c.fn (calClass e) (s.cycle - c.started)) s else s

/-- Arrays whose command was stopped are zeroed (R122). -/
def State.zeroArrays (s : State) (c : Cmd) : State :=
  if c.cls = 0 then
    c.engines.foldl (fun (t : State) e => t.modCore ((coreOf e).getD 0) (fun (x : Core) => x.clearArrays [calInst e % 4])) s
  else s

/-- Another radio command is ready for an engine (R33). -/
def State.radioWaiting (s : State) (e : Nat) (but : Nat) : Bool :=
  s.cmds.any (fun c => c.id != but && s.modeOf c == 2 && s.isHead c && (membersOf c c.engine).contains e)

/-- A radio command that ends early releases its interval where REL is set and no other radio command is ready for it
(R33). -/
def State.releaseEarly (s : State) (c : Cmd) : State :=
  if s.modeOf c ≠ 2 then s
  else
    c.engines.foldl (fun (t : State) e =>
      match t.entryAt e t.granule with
      | some x =>
        if x.kind = 1 ∧ x.rel = true ∧ !t.radioWaiting e c.id then { t with cal := { t.cal with released := t.cal.released ++ [(e, t.granule)] } }
        else t
      | none => t) s

/-- A function reset is past its stops: RETIRE and the hand-offs of R436 go out once no command of it runs. -/
def retireData (x : List Nat) : List Byte := x.flatMap (leBytes 8)
def State.sendRetires (s : State) (f : Nat) : List Endpoint → State
  | [] => s
  | e :: es =>
    let cuts := (List.range 8).map (fun i => (s.stream (streamKey f e.dev e.fn i)).next)
    (s.emit e.dev 0x0E false { src := s.self, srcFn := f, dstFn := e.fn, data := retireData cuts }).sendRetires f es
/-- Hand-offs of the remote regions of a function back to their homes. -/
def State.returnOwned (s : State) (f : Nat) : List (Nat × Nat) → State
  | [] => s
  | r :: rs =>
    match s.endpointDev f r.1 with
    | some e =>
      (({ s with nextId := s.nextId + 1 } : State).request f r.1 s.nextId 8
        { dstFn := e.fn, sub := r.2 % 8, addr := domAddr r.1 r.2 0, newOwner := r.1 }).returnOwned f rs
    | none => s.returnOwned f rs
def State.afterStops (s : State) (f : Nat) : State :=
  if s.resetting f && !(s.fn f).resetStop && s.cmds.all (fun c => c.fn != f) then
    let peers := ((s.fn f).endpoints.map (·.2)).filter (fun e => !s.domain.declared.contains e.dev)
    let t : State := { s with streams := s.streams.map (fun (e : Nat × Stream) => if streamFn e.1 = f then (e.1, { e.2 with unacked := [] }) else e) }
    let t := (t.sendRetires f peers).returnOwned f (s.fn f).owned
    t.modFn f (fun (x : Fn) => { x with resetStop := true, owned := [], acksLeft := peers.map (fun e => e.dev * 1024 + e.fn) })
  else s

/-- A channel-core job that completes with OK is counted: FILL and DRAIN with their last piece (Table 10.6). -/
def State.countMove (s : State) (c : Cmd) : State :=
  if c.cls = 9 ∧ calClass c.onEngine = 17 ∧ c.part ≠ 0 ∧ c.status = Status.ok then s.ccCount (calInst c.onEngine) else s
/-- What a stopped command leaves: the part that it did, and arrays to be zeroed where a function reset stopped it (R122). -/
def State.settleCut (s : State) (c : Cmd) : State :=
  if c.cut = 0 then s
  else
    let reset := s.resetting c.fn
    let t := s.finishCut c reset
    if reset then t.zeroArrays c else t

/-- A command leaves its engines: a fabric record with steps left goes on without one (R424); of a resetting function
nothing is left (R364). -/
def State.endCommand (s : State) (c : Cmd) : State :=
  let t := ((s.settleCut c).debitHeld c).freeEngines c
  let t : State := ({ t with reads := t.reads.filter (fun r => !(r.cid == c.id && r.piece.isNone && r.shown)) } : State).countMove c
  let t := if c.cls = 9 ∧ calClass c.onEngine = 17 ∧ (t.chan (calInst c.onEngine)).cid = some c.id then t.ccStop (calInst c.onEngine) else t
  if s.resetting c.fn then (t.dropCmd c.id).afterStops c.fn
  else if c.status = Status.ok ∧ !c.steps.isEmpty then t.modCmd c.id (fun (d : Cmd) => { d with engines := [] })
  else (t.modCmd c.id (fun (d : Cmd) => { d with phase := .ended, steps := [] })).settle c.id

/-- A channel core works until the last piece of its FILL or DRAIN has landed (R291, R292). -/
def State.moving (s : State) (c : Cmd) : Bool :=
  c.cls == 9 && calClass c.onEngine == 17 && c.cut == 0 && s.pieces.any (fun p => p.cid == c.id && !p.stx && !p.sump)

/-- COMMAND_END. -/
def execCommandEnd (cid : Nat) (s : State) : Host.Outcome State Fault Refusal :=
  match s.cmd? cid with
  | some c =>
    if s.up && c.phase == .running && c.did && !c.engines.isEmpty && !s.moving c then .next ((s.endCommand c).releaseEarly c)
    else .next s
  | none => .next s

/-! ### Gutters and interval ends (R31, R52, R53, R62, R63) -/

/-- The page that a calendar follows from a granule on, granule 4,000 being the next frame's first: there an armed page
whose frame has come is in force (R42, R44). -/
def State.pageFrom (s : State) (g : Nat) : PageImg :=
  let swaps := (s.g 0x2401 3 == 3 && decide (s.g 0x2401 1 ≤ s.frame + 1)) ||
    (s.g 0x2401 3 == 4 && s.cal.takeoverAt.any (fun b => decide (b ≤ s.frame + 1)))
  if g = 4000 && swaps then s.cal.shadow else s.cal.active
/-- The interval that begins at a granule on a calendar. -/
def State.entryFrom (s : State) (id g : Nat) : Option CalEntry :=
  (calEntries (s.pageFrom g) id).find? (fun e => e.start == g % 4000)

/-- The first command of the interval that follows a gutter: of the bound context, idle in compatible mode (R468), or of
the radio contexts the one of the lowest number (DESIGN CHOICE: R31 says which no further; log entry 80). -/
def State.firstOf (s : State) (id : Nat) (e : CalEntry) : Option Cmd :=
  let heads := s.cmds.filter (fun c => s.isHead c && (membersOf c c.engine).contains id && !s.resetting c.fn &&
    (if e.kind = 1 then s.modeOf c == 2
     else e.kind == 2 && s.modeOf c == 1 && c.ctx == e.ctx && c.epoch == e.epoch && s.g 0x7800 2 == 0))
  heads.foldl (fun (m : Option Cmd) c => if m.all (fun d => decide (c.ctx < d.ctx)) then some c else m) none

/-- The interval that follows the gutter in whose prelude, its last 128 core cycles, a calendar is (R31). -/
def State.preludeOf (s : State) (id : Nat) : Option CalEntry :=
  match s.entryAt id s.granule with
  | some g => if g.kind = 3 ∧ g.stop * 450 ≤ s.cycle + 128 then s.entryFrom id g.stop else none
  | none => none
/-- An engine that is still busy when the prelude of a radio interval begins (Table 2.6, cause 2). -/
def State.stopOverrun (s : State) (id : Nat) : Bool :=
  (s.engine id).busy.isSome && (s.preludeOf id).any (fun e => e.kind == 1)

/-- A fill or exact command that has overrun into a gutter is stopped: OVERRUN. What a pump has in flight goes to the sump
(R52, R122, R163). -/
def State.overrun (s : State) (c : Cmd) : State :=
  let t := s.finishCut c.toCut true
  ((((t.debitHeld c).freeEngines c).zeroArrays c).finish c.id Status.overrun).settle c.id

/-- GUTTER_START: overrunning work stops, and holds of NOIL jobs end (R352). -/
def execGutterStart (id : Nat) (s : State) : Host.Outcome State Fault Refusal :=
  if !calOk id then .fault .noSuchUnit
  else if !s.up || s.kindNow id != 3 then .next s
  else
    let t := match ((s.engine id).busy.bind s.cmd?) with
      | some c => if s.modeOf c = 2 then s else s.overrun c
      | none => s
    .next (t.endHold id)

/-- The interval in which a command started is over; a release does not end it (R33, R53, R62). -/
def State.intervalOver (s : State) (c : Cmd) (id : Nat) : Bool :=
  match (calEntries s.cal.active id).find? (fun e => e.covers (c.started / 450)) with
  | some e => decide (e.stop * 450 ≤ s.cycle)
  | none => true

/-- The cause of Table 2.6 that a report names holds on a calendar; a path fault is the hardware's word (R62). -/
def State.causeHolds (s : State) (id cause : Nat) : Bool :=
  match cause with
  | 1 => ((s.engine id).busy.bind s.cmd?).any (fun c => s.modeOf c == 2 && s.intervalOver c id)
  | 2 => s.stopOverrun id
  | 3 => s.cal.freeRun && !s.activeCells.isEmpty
  | 4 => true
  | 5 => s.isFenced id && (calEntries s.cal.active id).any (fun e => e.kind == 1)
  | _ => false

/-- A late radio command that runs leaves its engines at once. -/
def State.endLate (s : State) : List Nat → State
  | [] => s
  | cid :: cids =>
    (match s.cmd? cid with
      | some c => if c.phase == Phase.running && !c.engines.isEmpty then s.endCommand c else s.settle cid
      | none => s).endLate cids

/-- RADIO_INTERVAL_END: a radio command still running is stopped and reported (R53). -/
def execRadioIntervalEnd (id : Nat) (s : State) : Host.Outcome State Fault Refusal :=
  if !calOk id then .fault .noSuchUnit
  else
    match (s.engine id).busy.bind s.cmd? with
    | some c =>
      if s.up && s.modeOf c == 2 && s.intervalOver c id then .next ((s.lateness id 1 [c.id]).endLate [c.id]) else .next s
    | none => .next s

/-- LATENESS_REPORT: a cause of Table 2.6 and the commands it affects. -/
def execLatenessReport (id cause : Nat) (cids : List Nat) (s : State) : Host.Outcome State Fault Refusal :=
  if !calOk id then .fault .noSuchUnit
  else if s.up && s.causeHolds id cause then .next ((s.lateness id cause cids).endLate ((s.radioCmds cids).map Cmd.id))
  else .next s

/-- PRELUDE_START: in the last 128 core cycles of a gutter the engine loads the first command of what follows; an engine
that still works then makes a radio interval late, cause 2 (R31, R62). -/
def execPreludeStart (id : Nat) (s : State) : Host.Outcome State Fault Refusal :=
  if !calOk id then .fault .noSuchUnit
  else if !s.up then .next s
  else
    match s.preludeOf id with
    | some e =>
      let first := s.firstOf id e
      if s.stopOverrun id then
        let ids := first.toList.map Cmd.id
        .next ((s.lateness id 2 ids).endLate ids)
      else if (s.engine id).busy.isSome then .next s
      else .next (match first with
        | some c => s.modEngine id (fun (x : Engine) => { x with ready := some c.id })
        | none => s)
    | none => .next s

end Sys2Proof.Machine
end

