-- ==== Sys2Proof/Machine/Tenancy.lean ====
section
/-!
DEFINITION. Grants, function resets, the radio owner, and cores passing between functions: GRANT_CREATE, GRANT_DESTROY,
GRANT_COMPONENT_WRITE, FUNCTION_RESET_REQUEST, RETIRE_ACK_TIMEOUT, FUNCTION_RESET_END, RADIO_OWNER_WRITE, CORE_ACQUIRE,
CORE_RELEASE, PREEMPT_REQUEST, CLAIM_PREEMPTION, SAVE_START, SAVE_DONE and RESTORE_DONE (R335-R366, R436).
-/

namespace Sys2Proof.Machine

/-! ### Cores: give, save, restore (R346-R348, R355-R361) -/

/-- The charge of a save or a restore in 1/256 token: one for every 64 bytes moved (R377, Table 12.5). -/
def State.moveCharge (s : State) (c : Nat) : Nat := (Mem.wellSize - (s.zone c).1 + 196608 + 6144 + 2048) / 64
def State.payMove (s : State) (c : Nat) : State :=
  { s with energy := { s.energy with common := s.energy.common - s.moveCharge c } }

/-- Give an unheld core to a function: its saved state there is restored first (R346, R359). -/
def State.grantCore (s : State) (f c : Nat) : State :=
  if s.savedOn f c then
    (((s.zeroCore c).setHolder c f).payMove c).modCore c (fun (x : Core) => { x with restore := some f })
  else s.giveCore f c

/-- An unheld core that a function may be given now (R346, R348). -/
def State.mayGive (s : State) (f c : Nat) : Bool :=
  s.coreHolder c == none16 && s.coreQuiet c && s.hasSlot f c && (s.pinned c).all (· == f)

/-- A context of exact mode holds a thread of a core: it is never preempted (R355). -/
def State.exactThread (s : State) (c : Nat) : Bool :=
  (s.core c).threads.any (fun t => t.any (fun n => (s.ctx n).mode == 1))

/-- The holder of a core is chosen to leave it, and the core goes to a function, 0xFFFF none (R355, R356). -/
def State.choose (s : State) (c heir : Nat) : State :=
  if s.coreQuiet c && s.coreHolder c != none16 then
    (s.modCore c (fun (x : Core) => { x with preempt := some (s.coreHolder c, heir) })).addG 0x3061 1 1
  else s

/-- At an arm the holder of a core leaves it for a function, whatever is under way there: a save goes on for the new heir, and
a restore ends first (R345, R348). -/
def State.turnOut (s : State) (c heir : Nat) : State :=
  match (s.core c).preempt with
  | some (g, _) => s.modCore c (fun (x : Core) => { x with preempt := some (g, heir) })
  | none => (s.modCore c (fun (x : Core) => { x with preempt := some (s.coreHolder c, heir) })).addG 0x3061 1 1

/-- Saved state of a function on a core is discarded, with the counts of Vnnn:0x3000.06 and G:0x3061.03. -/
def State.dropSaved (s : State) (f c : Nat) : State :=
  if s.savedOn f c then
    ((s.modCore c (fun (x : Core) => { x with saved := x.saved.filter (fun e => e.fn != f) })).setO f 0x3000 6
      (s.o f 0x3000 6 - 1)).addG 0x3061 3 1
  else s

/-- A preempted context takes a thread that is free (R345). -/
def State.placeThread (s : State) (ctx : Nat) : State :=
  match s.threadFor ctx with
  | some i =>
    (s.modCore (s.ctx ctx).home (fun (y : Core) => { y with threads := y.threads.set i (some ctx) })).modCtx ctx
      (fun (x : Ctx) => { x with st := .running })
  | none => s

/-- The cores that a queued command, or a command of a preempted context, waits for. -/
def State.waitsFor (s : State) (c : Cmd) : List Nat :=
  if s.modeOf c = 2 ∨ !c.jobbed then []
  else if (s.ctx c.ctx).st = .preempted then [(s.ctx c.ctx).home]
  else if !s.isHead c then []
  else if (engineClasses c.cls c.form).isEmpty then (if (s.threadOf c.ctx).isSome then [] else [(s.ctx c.ctx).home])
  else s.coresNeeded c c.engine

/-- CORE_ACQUIRE: the first unheld core that a command needs; a preempted context whose core came back without a thread
for it takes one that is free. -/
def execCoreAcquire (cid : Nat) (s : State) : Host.Outcome State Fault Refusal :=
  match s.cmd? cid with
  | some c =>
    if !s.up || s.resetting c.fn then .next s
    else
      match (s.waitsFor c).find? (fun k => s.mayGive c.fn k) with
      | some k => .next (s.grantCore c.fn k)
      | none => .next (if (s.ctx c.ctx).st = .preempted then s.placeThread c.ctx else s)
  | none => .next s

/-- A command that runs on an engine of a core, or moves data of its well (R344). -/
def Cmd.usesCore (d : Cmd) (c : Nat) : Bool := d.phase == .running && (d.engines.any (fun e => coreOf e == some c) || d.namedCores.contains c)
/-- Pieces of a function on their way into a core's well. -/
def State.wellPieces (s : State) (f c : Nat) : Bool :=
  s.pieces.any (fun p => p.fn == f && !p.sump && decide (Mem.well c ≤ p.dst) && decide (p.dst < Mem.well (c + 1)))

/-- A command of a function runs on a core, or one of the core's threads is held by its contexts. -/
def State.coreBusy (s : State) (f c : Nat) : Bool :=
  s.cmds.any (fun d => d.fn == f && d.usesCore c) || s.wellPieces f c ||
    (s.core c).threads.any (fun t => t.any (fun n => (s.ctx n).fn == f))

/-- A core is taken from its holder and what it held is gone. -/
def State.vacate (s : State) (c : Nat) : State :=
  ((s.zeroCore c).setHolder c none16).modCore c (fun (x : Core) => { x with preempt := none, saving := false, restore := none })

/-- The rule of a release. -/
def releaseRule (f core : Nat) (_ : ObjRow) (s : State) : Except Refused State := do
  ensure (decide (core ≤ 95)) Status.shapeInvalid
  if s.coreHolder core = f then
    ensure (!s.coreBusy f core) Status.accessDenied
    .ok ((s.vacate core).dropSaved f core)
  else .ok (s.dropSaved f core)

/-- CORE_RELEASE. -/
def execCoreRelease (path : Path) (f core : Nat) (s : State) : Host.Outcome State Fault Refusal :=
  .next (s.access path f 0x3000 5 none core (releaseRule f core))

/-- The rule of a preemption request: every core that f holds and that is not pinned to it. -/
def preemptRule (f : Nat) (_ : ObjRow) (s : State) : Except Refused State :=
  .ok (((List.range 96).filter (fun c => s.coreHolder c == f && (s.pinned c).all (· != f) && !s.exactThread c)).foldl
    (fun (t : State) c => t.choose c none16) s)

/-- PREEMPT_REQUEST. -/
def execPreemptRequest (path : Path) (f : Nat) (s : State) : Host.Outcome State Fault Refusal :=
  .next (s.access path f 0x3000 3 none 1 (preemptRule f))

/-- The functions with a claim on a core that another holds (R347). -/
def State.claimants (s : State) (c : Nat) : List Nat :=
  let heads := (s.cmds.filter (fun d => !s.dynOf d && (s.waitsFor d).contains c && !s.resetting d.fn)).map (·.fn)
  ((heads ++ (s.core c).saved.map (·.fn)).filter (fun f => f != s.coreHolder c && s.hasSlot f c)).eraseDups

/-- The claimant chosen: highest balance of group 0, then lower class, then lower selector (R355). -/
def State.bestClaim (s : State) (l : List Nat) : Option Nat :=
  let key (f : Nat) : List Int := [-(s.balance (s.shareClass f) 0), (s.shareClass f : Int), (f : Int)]
  l.foldl (fun (m : Option Nat) f => if m.all (fun g => keyLt (key f) (key g)) then some f else m) none

/-- CLAIM_PREEMPTION: at a window start, a claim on a core that its holder took or restored at least the lease ago. -/
def execClaimPreemption (core : Nat) (s : State) : Host.Outcome State Fault Refusal :=
  if 96 ≤ core then .fault .noSuchUnit
  else
    let g := s.coreHolder core
    let held := decide ((s.core core).since + nanos (100000 * s.g 0x3002 1) ≤ s.time 2)
    if s.up && s.energy.began == some s.clock && g != none16 && s.coreQuiet core && (s.pinned core).isNone && !s.exactThread core && held then
      match s.bestClaim (s.claimants core) with
      | some f =>
        let cf := s.shareClass f
        let cg := s.shareClass g
        .next (if cf = cg ∨ s.balance cg 0 < s.balance cf 0 then s.choose core f else s)
      | none => .next s
    else .next s

/-- The commands of a function that run on a core. -/
def State.onCore (s : State) (g c : Nat) : List Cmd :=
  s.cmds.filter (fun d => d.fn == g && d.usesCore c && s.modeOf d != 2)

/-- How many pieces a pump command has in all. -/
def State.pieceCount (s : State) (c : Cmd) : Nat :=
  if c.form = 1 then (s.transParts c.fn (c.addr 4) (c.addr 6) (transOf c)).length else (cutsOf (c.addr 6).off (c.w 8).toNat).length
/-- The pieces of a command in flight. -/
def State.flying (s : State) (c : Cmd) : List Piece := s.pieces.filter (fun p => p.cid == c.id)

/-- A command can leave its engine now: before its effect, or, of a pump, when those of its pieces that have not landed are its
last ones (R163, R356). -/
def State.atBoundary (s : State) (c : Cmd) : Bool :=
  let l := s.flying c
  if c.did then
    c.cls == 2 && !c.isFab && c.status == Status.ok && !l.isEmpty && l.all (fun p => !p.sump && decide (s.pieceCount c ≤ p.idx + l.length))
  else true

/-- The boundary that a command has reached, short of its end: whole folios and rows, how many is a free value (R122, R146;
log entry 83); the pieces of a pump that have landed. -/
def State.reachBoundary (s : State) (c : Cmd) : State :=
  if c.did then
    let l := s.flying c
    (s.unissue l).modCmd c.id (fun (d : Cmd) => { d with did := false, part := s.pieceCount c - l.length })
  else if c.cls = 0 ∧ c.form = 0 then
    match s.checkFolios c c.onEngine with
    | .ok fs =>
      let r := s.upTo (fs.length - c.part - 1)
      (r.2.foliosPart c c.part ((fs.drop c.part).take r.1)).modCmd c.id (fun (d : Cmd) => { d with part := c.part + r.1 })
    | .error _ => s
  else if c.cls = 1 then
    match s.checkVector c c.onEngine with
    | .ok _ =>
      let r := s.upTo (c.vrows - c.part / c.vgroups - 1)
      let hi := c.part + r.1 * c.vgroups
      let v := r.2.vectorPart c (Mem.well c.onCore) c.part hi
      v.1.modCmd c.id (fun (d : Cmd) => { d with
        part := hi, detail := if c.vop = 0x32 then [c.detail.headD 0 + v.2, 0, 0] else d.detail })
    | .error _ => s
  else s

/-- Commands that a preemption cuts short go on from their boundaries when they start again. -/
def State.requeue (s : State) : List Cmd → State
  | [] => s
  | c :: l =>
    let t := ((s.reachBoundary c).debitHeld c).freeEngines c
    (t.modCmd c.id (fun (d : Cmd) => { d with phase := .queued, engines := [] })).requeue l

/-- A KV step of a context that a preemption of a core takes: it is never cut (R224). -/
def State.kvOn (s : State) (g c : Nat) : Bool :=
  s.cmds.any (fun d => d.fn == g && d.cls == 8 && d.form == 0 && d.phase == .running && (s.ctx d.ctx).home == c)

/-- The contexts of a function that a preemption of a core takes. -/
def takenBy (g c : Nat) (x : Ctx) : Bool :=
  x.fn == g && x.mode == 0 && x.home == c && (x.st == .idle || x.st == .running)

/-- SAVE_START: every command of the holder on the core has reached its boundary; one that can no more ends first, and what is
under way into the well lands. -/
def execSaveStart (core : Nat) (s : State) : Host.Outcome State Fault Refusal :=
  if 96 ≤ core then .fault .noSuchUnit
  else
    match (s.core core).preempt with
    | some (g, _) =>
      let run := s.onCore g core
      let t := s.requeue run
      if !s.up || (s.core core).saving || (s.core core).restore.isSome || !run.all s.atBoundary || s.kvOn g core || t.wellPieces g core then .next s
      else
        let t : State := { t with ctxs := t.ctxs.map (fun (e : Nat × Ctx) => if takenBy g core e.2 then (e.1, { e.2 with st := .preempted }) else e) }
        .next ((t.payMove core).modCore core (fun (x : Core) => { x with saving := true }))
    | none => .next s

/-- What is saved of a core (Table 12.5): a thread that serves another function is an empty record. -/
def State.snapshot (s : State) (g c : Nat) : Saved :=
  let z := (s.zone c).1
  let x := s.core c
  { fn := g, z := z,
    well := (s.mem.filter (fun e => decide (Mem.well c ≤ e.1) && decide (e.1 < Mem.well c + (Mem.wellSize - z)))).map
      (fun e => (e.1 - Mem.well c, e.2)),
    threads := x.threads.map (fun t => t.filter (fun n => (s.ctx n).fn == g && (s.ctx n).mode == 0)),
    acc := x.acc, flags := x.flags }

/-- SAVE_DONE: the state is in its slot; the core is zeroed and goes to the claimant, or to nobody. -/
def execSaveDone (core : Nat) (s : State) : Host.Outcome State Fault Refusal :=
  if 96 ≤ core then .fault .noSuchUnit
  else
    match (s.core core).preempt with
    | some (g, heir) =>
      if !s.up || !(s.core core).saving then .next s
      else
        let kept := s.snapshot g core
        let t := s.modCore core (fun (x : Core) =>
          { x with saved := x.saved.filter (fun e => e.fn != g) ++ [kept], preempt := none, saving := false
                   threads := x.threads.map (fun t => t.filter (fun n => (s.ctx n).fn != g)) })
        let t := ((t.zeroCore core).setHolder core none16).addO g 0x3000 6 1
        .next (if isFn heir && t.mayGive heir core then t.grantCore heir core else t)
    | none => .next s

/-- Saved threads are placed on free threads in their order. -/
def State.placeThreads (s : State) : List (Option Nat) → State
  | [] => s
  | some n :: l => ((if (s.ctx n).st = .preempted then s.placeThread n else s)).placeThreads l
  | none :: l => s.placeThreads l

/-- RESTORE_DONE: the saved bytes below the landing zone, the accumulators, planes and threads come back (R345, R359). -/
def execRestoreDone (core : Nat) (s : State) : Host.Outcome State Fault Refusal :=
  if 96 ≤ core then .fault .noSuchUnit
  else
    match (s.core core).restore.bind (fun f => (s.core core).saved.find? (fun e => e.fn == f)) with
    | some v =>
      if !s.up then .next s
      else
        let keep := Mem.wellSize - (s.zone core).1
        let t := (v.well.filter (fun e => decide (e.1 < keep))).foldl (fun (u : State) e => u.wr (Mem.well core + e.1) e.2) s
        let t := t.modCore core (fun (x : Core) => { x with
          restore := none, acc := v.acc, flags := v.flags, since := s.time 2, saved := x.saved.filter (fun e => e.fn != v.fn) })
        let t := (t.setO v.fn 0x3000 6 (t.o v.fn 0x3000 6 - 1)).addG 0x3061 2 1
        let busy (n : Nat) : Bool := v.threads.contains (some n)
        let t : State := { t with ctxs := t.ctxs.map (fun (e : Nat × Ctx) =>
          if e.2.fn = v.fn ∧ e.2.home = core ∧ e.2.st = .preempted ∧ !busy e.1 then (e.1, { e.2 with st := .idle }) else e) }
        .next (t.placeThreads v.threads)
    | none => .next s

/-! ### Grants (R339-R343) -/

/-- The grant component of a subindex of Vnnn:0x3020. -/
def State.comp (s : State) (f sub : Nat) : Nat := s.o f 0x3020 sub

/-- The n lowest numbers from a number on that are not used; `fuel` bounds the numbers tried. -/
def lowestFree (used : List Nat) : Nat → Nat → Nat → List Nat
  | 0, _, _ => []
  | _, _, 0 => []
  | fuel + 1, k, n + 1 => if used.contains k then lowestFree used fuel (k + 1) (n + 1) else k :: lowestFree used fuel (k + 1) n
def takeFree (used : List Nat) (n : Nat) : List Nat := lowestFree used (n + used.length) 0 n

def State.gUsed (s : State) : List Nat := s.fns.flatMap (fun e => e.2.gpages ++ e.2.saves)
def State.cUsed (s : State) : List Nat := s.fns.flatMap (fun e => e.2.cpages)
def State.regionsUsed (s : State) : List Nat := s.fns.flatMap (fun e => e.2.regions.map (·.number))

/-- Every page of a grant as a page of the flat memory. -/
def Fn.pages (x : Fn) : List Nat := x.gpages ++ x.cpages.map (· + Mem.cistern / Mem.page) ++ x.saves

/-- GDDR7 pages of a grant, its save slots included (Table 12.2). -/
def State.gNeed (s : State) (f : Nat) : Nat := s.comp f 1 + 36 * s.comp f 0x0B

/-- Every pool holds what the grant of a function asks (R341). -/
def State.poolsHold (s : State) (f : Nat) : Bool :=
  decide (s.gNeed f ≤ s.g 0x3001 2) && decide (s.comp f 2 ≤ s.g 0x3001 4) && decide (s.comp f 8 ≤ s.g 0x3001 5) &&
    decide (s.comp f 9 ≤ s.g 0x3800 2) && decide (s.comp f 6 ≤ s.g 0x3001 6) && decide (s.comp f 7 ≤ s.g 0x3001 7) &&
    decide (s.o f 0x3040 2 ≤ s.g 0x3001 8) && decide (s.comp f 5 ≤ s.g 0x3001 9)

/-- The free counts after a grant takes (or, for a destroy, gives back) its components. -/
def State.movePools (s : State) (f : Nat) (op : Nat → Nat → Nat) : State :=
  let t := (s.setG 0x3001 2 (op (s.g 0x3001 2) (s.gNeed f))).setG 0x3001 4 (op (s.g 0x3001 4) (s.comp f 2))
  let t := (t.setG 0x3001 5 (op (s.g 0x3001 5) (s.comp f 8))).setG 0x3800 2 (op (s.g 0x3800 2) (s.comp f 9))
  let t := (t.setG 0x3001 6 (op (s.g 0x3001 6) (s.comp f 6))).setG 0x3001 7 (op (s.g 0x3001 7) (s.comp f 7))
  (t.setG 0x3001 8 (op (s.g 0x3001 8) (s.o f 0x3040 2))).setG 0x3001 9 (op (s.g 0x3001 9) (s.comp f 5))

/-- A grant takes its components: pages and regions lowest-numbered first, save slots after the pages, a new key, floats
at 0. -/
def State.takeGrant (s : State) (f : Nat) : State :=
  let gp := takeFree s.gUsed (s.gNeed f)
  let x : Fn := { (s.fn f) with
    gpages := gp.take (s.comp f 1), saves := gp.drop (s.comp f 1), cpages := takeFree s.cUsed (s.comp f 2)
    regions := (takeFree s.regionsUsed (s.comp f 6)).map (fun (n : Nat) => ({ number := n } : Region)), shareCls := s.comp f 3
    granted := (span 1 11).map (s.comp f), floatTake := s.o f 0x3040 2 }
  let t := (s.movePools f (fun a b => a - b)).setFn f x
  (t.rotatePages x.pages).zeroFloats (s.o f 0x3040 1) (s.o f 0x3040 2)

/-- The rule of a create. The share components may have changed since, so what returns is read from the objects. -/
def createRule (f : Nat) (_ : ObjRow) (s : State) : Except Refused State := do
  ensure (!isMgr f && s.fnState f == 0) Status.accessDenied
  ensure s.sec.entropyOk Status.hardwareError
  ensure (s.poolsHold f) Status.quotaExhausted
  match s.floatClash f (s.o f 0x3040 1) (s.o f 0x3040 2) with
  | some g => .error ⟨Status.resourceHeld, g⟩
  | none => .ok ((s.takeGrant f).setFnState f 1)

/-- GRANT_CREATE: a write of 1 to Vnnn:0x3000.01. -/
def execGrantCreate (path : Path) (f : Nat) (s : State) : Host.Outcome State Fault Refusal :=
  .next (s.access path f 0x3000 1 none 1 (createRule f))

/-- The rule of a component write (R340). A manager's stored component takes effect at the next priming (R337). -/
def componentRule (f sub value : Nat) (_ : ObjRow) (s : State) : Except Refused State := do
  if isMgr f then .ok (s.setO f 0x3020 sub value)
  else
    ensure (!s.present f || (decide (3 ≤ sub) && decide (sub ≤ 5))) Status.accessDenied
    if sub = 5 ∧ s.present f = true then
      ensure (decide (value ≤ s.g 0x3001 9 + s.comp f 5)) Status.quotaExhausted
      .ok ((s.setG 0x3001 9 (s.g 0x3001 9 + s.comp f 5 - value)).setO f 0x3020 5 value)
    else .ok (s.setO f 0x3020 sub value)

/-- GRANT_COMPONENT_WRITE. -/
def execGrantComponentWrite (path : Path) (f sub value : Nat) (s : State) : Host.Outcome State Fault Refusal :=
  .next (s.access path f 0x3020 sub none value (componentRule f sub value))

/-! ### Function reset (R363-R366, R436) -/

/-- Cores on which a save, a restore or a claim of a function is under way are let go (R361, R364). -/
def State.endMoves (s : State) (f : Nat) : State :=
  { s with cores := (s.cores.map (fun (e : Nat × Core) =>
      let x := e.2
      let x := if x.preempt.any (fun p => p.1 == f) then { x with preempt := none, saving := false } else x
      let x := if x.preempt.any (fun p => p.2 == f) then { x with preempt := x.preempt.map (fun p => (p.1, none16)) } else x
      (e.1, if x.restore = some f then { x with restore := none } else x))).filter (fun e => decide (e.2 ≠ ({} : Core))) }

/-- Commands of a function in reset: those on engines are told to stop, all others are gone. -/
def stopOf (f : Nat) (c : Cmd) : Option Cmd :=
  if c.fn ≠ f then some c
  else if c.phase = .running ∧ !c.engines.isEmpty then
    some { c.toCut with status := if c.did then c.status else Status.cancelled, steps := [] }
  else none

/-- The open contexts of a function, with their jobs. -/
def State.ctxsOf (s : State) (f : Nat) : List (Nat × Ctx) :=
  s.ctxs.filter (fun e => e.2.fn == f && e.2.st != .free && !e.2.closed)

/-- Holds of contexts end. -/
def State.endHoldsOf (s : State) : List Nat → State
  | [] => s
  | n :: l => (s.endHolds n (fun _ => true)).endHoldsOf l

/-- Radio work that a reset of the radio owner drops is no admitted work (R61). -/
def State.unadmit (s : State) (f : Nat) : State :=
  { s with cmds := s.cmds.map (fun (c : Cmd) => if c.fn = f then { c with metered := false } else c)
           txq := s.txq.map (fun (q : Nat × List TxFrame) => (q.1, q.2.map (fun (x : TxFrame) => { x with metered := false }))) }

/-- Table 12.6, the steps before the last stop. -/
def State.beginReset (s : State) (f : Nat) (destroy : Bool) : State :=
  if s.resetting f then (if destroy && s.fnState f != 3 then s.setFnState f 3 else s)
  else
    let open' := s.ctxsOf f
    let jobs := (open'.map (fun e => e.2.jobs.length)).sum
    let t := (s.setO f 0x3000 2 1)
    let t := if isMgr f then t else t.setFnState f (if destroy then 3 else 2)
    let t := if t.o f 0x9011 1 = 1 ∨ t.o f 0x9011 1 = 2 then t.setO f 0x9011 1 3 else t
    let t := (t.countJob f 4 jobs).endHoldsOf (open'.map (·.1))
    let t : State := { t with
      ctxs := t.ctxs.map (fun (e : Nat × Ctx) =>
        if open'.any (fun o => o.1 == e.1) then (e.1, { e.2 with epoch := (e.2.epoch + 1) % 2 ^ 16, jobs := [] }) else e)
      cmds := t.cmds.filterMap (stopOf f)
      awaits := t.awaits.filter (fun a => a.fn != f)
      triggers := t.triggers.filter (fun e => e.2.1 != f)
      procs := t.procs.filter (fun e => e.2.fn != f) }
    let t := (t.endMoves f).sumpWhere (fun p => p.fn == f)
    let t := if f = t.radioOwner then (t.deactivateCells (t.cellsIn (fun v => v == 1 || v == 2))).unadmit f else t
    (t.modFn f (fun (x : Fn) => { x with resetStop := false, acksLeft := [] })).afterStops f

/-- The rule of a reset write. -/
def resetRule (f : Nat) (_ : ObjRow) (s : State) : Except Refused State := do
  ensure (s.present f) Status.accessDenied
  .ok (s.beginReset f false)

/-- FUNCTION_RESET_REQUEST: a write of 1 to Vnnn:0x3000.02. -/
def execFunctionResetRequest (path : Path) (f : Nat) (s : State) : Host.Outcome State Fault Refusal :=
  .next (s.access path f 0x3000 2 none 1 (resetRule f))

/-- The rule of a destroy: denied to an absent function, a manager, and a radio owner with cells; one during a reset of the
function merges with it (R342, R363). -/
def destroyRule (f : Nat) (_ : ObjRow) (s : State) : Except Refused State := do
  ensure (!isMgr f && s.present f) Status.accessDenied
  ensure (s.resetting f || f != s.radioOwner || s.liveCells.isEmpty) Status.accessDenied
  .ok (s.beginReset f true)

/-- GRANT_DESTROY: a write of 0 to Vnnn:0x3000.01. -/
def execGrantDestroy (path : Path) (f : Nat) (s : State) : Host.Outcome State Fault Refusal :=
  .next (s.access path f 0x3000 1 none 0 (destroyRule f))

/-- RETIRE_ACK_TIMEOUT: the reset proceeds without the acknowledgements (Table 12.6). -/
def execRetireAckTimeout (f : Nat) (s : State) : Host.Outcome State Fault Refusal :=
  if !isFn f then .fault .noSuchUnit
  else if s.up && s.resetting f && (s.fn f).resetStop then .next (s.modFn f (fun (x : Fn) => { x with acksLeft := [] }))
  else .next s

/-- Held cores are released and zeroed, saved states discarded. -/
def State.loseCores (s : State) (f : Nat) : List Nat → State
  | [] => s
  | c :: l => ((if s.coreHolder c = f then s.vacate c else s).dropSaved f c).loseCores f l

/-- Objects of a function set to 0. -/
def State.clearO (s : State) (f index : Nat) : List Nat → State
  | [] => s
  | k :: l => (s.setO f index k 0).clearO f index l

/-- Zero every channel core's local memory (R270). -/
def State.zeroChans (s : State) : State := s.zeroMem (Mem.chan 0) (32 * 2 ^ 18)

/-- The contents of the landing zones of a function (R366). -/
def State.zeroZones (s : State) (f : Nat) : State :=
  (s.cal.zones.filter (fun e => e.2.2 == f)).foldl (fun (t : State) e =>
    t.zeroMem (Mem.well e.1 + (Mem.wellSize - (s.zone e.1).1)) (s.zone e.1).1) s

/-- The holder objects 0xA000 that name a function read 0xFFFF (R342). -/
def State.dropHolders (s : State) (f : Nat) : State :=
  (s.obj.filter (fun e => isHolder (e.1 / 2 ^ 8) (e.1 % 2 ^ 8) && e.2 == f)).foldl
    (fun (t : State) e => t.putHolder (e.1 / 2 ^ 8 % 2 ^ 16) (e.1 % 2 ^ 8) none16) s

/-- Table 12.6 from the key rotation to the closing of the contexts. -/
def State.wipeFn (s : State) (f : Nat) : State :=
  let x := s.fn f
  let t := (s.rotatePages x.pages).loseCores f (List.range 96)
  let t := t.zeroFloats (t.o f 0x3040 1) (t.o f 0x3040 2)
  let t := (t.clearO f 0x3010 (span 6 6)).clearO f 0x3800 (span 9 5)
  let t := (List.range 8).foldl (fun (u : State) w => u.setO f (0x5040 + w) 5 0) t
  let t := t.setO f 0x3050 5 0
  let t : State := { t with
    ctxs := t.ctxs.map (fun (e : Nat × Ctx) => if e.2.fn = f ∧ e.2.st ≠ .free then (e.1, { e.2 with closed := true, jobs := [] }) else e)
    atomics := t.atomics.filter (fun e => e.2.dstFn != f) }
  let t := if f = t.radioOwner then (t.zeroChans).zeroZones f else t
  t.modFn f (fun (y : Fn) => { y with
    slots := [], nWrite := 0, nConsume := 0, nCompl := 0, unret := [], unsig := 0, oldest := 0, kv := [], pipes := []
    regions := y.regions.map (fun (r : Region) => { number := r.number }), resetStop := false })

/-- A destroyed function's components return and it becomes absent (R342). -/
def State.returnGrant (s : State) (f : Nat) : State :=
  let zoned := f == s.radioOwner
  let t := (s.movePools f (fun a b => a + b)).dropHolders f
  let t := if zoned then t.zeroChans else t
  ((t.setO f 0x5020 6 0).modFn f (fun (x : Fn) => { x with
    gpages := [], cpages := [], saves := [], regions := [], endpoints := [], granted := [], floatTake := 0 })).setFnState f 0

/-- FUNCTION_RESET_END: the stops are over and the peers answered. -/
def execFunctionResetEnd (f : Nat) (s : State) : Host.Outcome State Fault Refusal :=
  if !isFn f then .fault .noSuchUnit
  else if s.up && s.resetting f && (s.fn f).resetStop && (s.fn f).acksLeft.isEmpty && s.cmds.all (fun c => c.fn != f) then
    let t := (s.wipeFn f).setO f 0x3000 2 0
    let t : State := { (if t.o f 0x9011 1 = 3 then t.setO f 0x9011 1 0 else t) with
      sec := { t.sec with tdiBound := SMap.del f t.sec.tdiBound } }
    .next (if s.fnState f = 3 then t.returnGrant f else if isMgr f then t else t.setFnState f 1)
  else .next s

/-! ### The radio owner (R338) -/

/-- The rule of a designation: by the manager of the named function's port while it is free; 0xFFFF by either
(R534). -/
def radioOwnerRule (path : Path) (value : Nat) (_ : ObjRow) (s : State) : Except Refused State := do
  ensure (value == none16 || s.radioOwner == none16 || value == s.radioOwner) Status.resourceHeld s.radioOwner
  ensure (value == none16 || (decide (value < 512) && s.fnState value == 1)) Status.accessDenied
  ensure (value == none16 || (pathWriter path).all (fun w => w == mgrOf value)) Status.accessDenied
  ensure s.liveCells.isEmpty Status.accessDenied
  ensure (s.ctxs.all (fun e => e.2.mode != 2 || e.2.st == .free || e.2.closed)) Status.accessDenied
  .ok (if value = s.radioOwner then s else (s.setG 0xA005 1 value).zeroChans)

/-- RADIO_OWNER_WRITE. -/
def execRadioOwnerWrite (path : Path) (value : Nat) (s : State) : Host.Outcome State Fault Refusal :=
  .next (s.access path 1023 0xA005 1 none value (radioOwnerRule path value))

end Sys2Proof.Machine
end

