-- ==== Sys2Proof/Machine/Waits.lean ====
section
/-!
DEFINITION. Commands that hold no engine: float waits and signals, fences and calendar markers (R64, R166-R170, R199-R203,
R360, R434, R435).
-/

namespace Sys2Proof.Machine

/-- A queued command without an engine starts: its energy is charged, its thread is taken, and `k` is what it does; one
that no allowance covers is passed over (R179, R344, R376, R377). -/
def State.startFree (s : State) (cid : Nat) (kind : Cmd → Bool) (k : Cmd → State → State) : State :=
  match s.cmd? cid with
  | some c =>
    if !kind c || !s.canStart c then s
    else if s.modeOf c == 0 && !s.energyFits c.fn c.due then s.passOver c
    else
      let t := ((s.payStart c).takeThread c.ctx).modCmd cid (fun (d : Cmd) =>
        { d with phase := .running, started := s.cycle, since := s.tb2us, paid := true })
      k c t
  | none => s

/-- A running command of a kind whose context holds its thread. -/
def State.held? (s : State) (cid : Nat) (kind : Cmd → Bool) : Option Cmd :=
  (s.cmd? cid).filter (fun c => kind c && c.phase == .running && s.up && !s.resetting c.fn && (s.ctx c.ctx).st == .running)

/-! ### Floats (R166-R170) -/

def isWait (c : Cmd) : Bool := c.cls == 3
/-- The threshold of a wait. -/
def Cmd.thresh (c : Cmd) : Nat := wd64 c.words 5
/-- A wait's float is at least its threshold. -/
def State.waitMet (s : State) (c : Cmd) : Bool :=
  (s.floatOf c.fn ((c.w 4).fld 0 16)).any (fun f => decide (c.thresh ≤ (s.float f).toNat))

/-- FLOAT_WAIT: a wait whose threshold is met passes; any other holds its thread. -/
def execFloatWait (cid : Nat) (s : State) : Host.Outcome State Fault Refusal :=
  .next (s.startFree cid isWait (fun c t =>
    if (t.floatOf c.fn ((c.w 4).fld 0 16)).isNone then t.conclude cid Status.floatInvalid
    else if t.waitMet c then t.conclude cid Status.ok else t))

/-- FLOAT_WAIT_MET: the float of a waiting thread reached its threshold; a preempted context is evaluated when it is
restored (R360). -/
def execFloatWaitMet (cid : Nat) (s : State) : Host.Outcome State Fault Refusal :=
  match s.held? cid isWait with
  | some c => .next (if s.waitMet c then s.conclude cid Status.ok else s)
  | none => .next s

/-- FLOAT_WAIT_TIMEOUT: TIMEOUT microseconds of TB2 passed; it counts on while the context is preempted (R360). -/
def execFloatWaitTimeout (cid : Nat) (s : State) : Host.Outcome State Fault Refusal :=
  match s.cmd? cid with
  | some c =>
    let n := (c.w 7).toNat
    if s.up && isWait c && c.phase == .running && !s.resetting c.fn && n != 0 && decide (c.since + n ≤ s.tb2us) then
      .next (s.conclude cid Status.waitTimeout)
    else .next s
  | none => .next s

/-- Every earlier command of a job has completed and its writes have landed. -/
def State.earlierDone (s : State) (c : Cmd) : Bool := (s.earlier c).all s.completed

/-- A signal of one form; with AFTER it starts once the earlier commands are done. -/
def State.signalFloat (s : State) (cid set : Nat) (k : Cmd → State → Nat → Nat → State) : State :=
  let ready := (s.cmd? cid).all (fun c => !(c.w 4).bit 17 || s.earlierDone c)
  if !ready then s
  else
    s.startFree cid (fun c => c.cls == 4 && (c.w 4).fld 16 1 == set) (fun c t =>
      match t.floatOf c.fn ((c.w 4).fld 0 16) with
      | some f => (k c t f (wd64 c.words 5)).conclude cid Status.ok
      | none => t.conclude cid Status.floatInvalid)

/-- FLOAT_SIGNAL_ADD. -/
def execFloatSignalAdd (cid : Nat) (s : State) : Host.Outcome State Fault Refusal := .next (s.signalFloat cid 0 (fun _ => State.addFloat))
/-- The sequencer thread of a command, in logical order (R166). -/
def State.sequencer (s : State) (c : Cmd) : Nat := (s.ctx c.ctx).home * 4 + (s.threadOf c.ctx).getD 0
/-- FLOAT_SIGNAL_SET. -/
def execFloatSignalSet (cid : Nat) (s : State) : Host.Outcome State Fault Refusal :=
  .next (s.signalFloat cid 1 (fun c t f v => t.putFloat (t.sequencer c) f v))

/-! ### Fences (R200, R434, R435) -/

def isLocalFence (c : Cmd) : Bool := c.cls == 5 && c.form == 0
def isFabricFence (c : Cmd) : Bool := c.cls == 5 && c.form == 1

/-- FENCE_LOCAL: it starts, and completes once the earlier commands of its job have and their writes have landed. -/
def execFenceLocal (cid : Nat) (s : State) : Host.Outcome State Fault Refusal :=
  let t := s.startFree cid isLocalFence (fun _ t => t)
  match t.held? cid isLocalFence with
  | some c => .next (if t.earlierDone c then t.conclude cid Status.ok else t)
  | none => .next t

/-- DEST of a FABRIC fence covers a device. -/
def Cmd.dest (c : Cmd) : Nat := (c.w 4).fld 0 14
def Cmd.covers (c : Cmd) (dev : Nat) : Bool := c.dest == 0x2000 || c.dest == dev

/-- Whether an unacknowledged request of a function belongs to a job. -/
def State.ofJob (s : State) (c : Cmd) (tag : Nat) : Bool :=
  (s.awaits.find? (fun a => a.id == tag)).any (fun a => (s.cmd? a.cid).any (fun d => d.ctx == c.ctx && d.job == c.job && d.fn == c.fn))

/-- Per stream toward DEST, the highest SEQ that the job has issued and that is not acknowledged. -/
def State.fenceCuts (s : State) (c : Cmd) : List (Nat × Nat) :=
  (s.streams.filter (fun e => streamFn e.1 == c.fn && c.covers (streamDev e.1))).filterMap (fun e =>
    let l := (e.2.unacked.filter (fun u => s.ofJob c u.2.1)).map (·.1)
    if l.isEmpty then none else some (e.1, l.foldl max 0))

/-- The marked landing pages of a function for DEST: window, page, block. -/
def State.dirtyPages (s : State) (c : Cmd) : List (Nat × Nat × Nat) :=
  (s.fn c.fn).pipes.flatMap (fun w => (w.2.filter (fun e => !e.2.marks.isEmpty && c.covers (domDev (e.2.block * 4096)))).map
    (fun e => (w.1, e.1, e.2.block)))

/-- Ship landing pages as BLOCK packets that a fence waits for (R431, R434). -/
def State.shipPages (s : State) (c : Cmd) : List (Nat × Nat × Nat) → State
  | [] => s
  | (w, _, block) :: l =>
    let a := block * 4096
    (match s.endpointDev c.fn (domDev a) with
      | some e =>
        s.ask { id := 0, cid := c.id, fn := c.fn, ctx := c.ctx, epoch := c.epoch, dev := domDev a, kind := 0x0F, addr := a, len := 4096 } 0x0F
          { dstFn := e.fn, sub := domRegion a % 8, ctx := c.ctx, epoch := c.epoch, len := 4096, addr := a, marks := s.markedOf c.fn w block }
      | none => s).shipPages c l

/-- Earlier fabric records of the job toward DEST have issued all their steps. -/
def State.stepsOut (s : State) (c : Cmd) : Bool :=
  (s.earlier c).all (fun d => d.steps.isEmpty || !(fabOpOf d).any (fun o => c.covers o.dev))

/-- A fence's recorded SEQs and ships are all acknowledged; a failed device holds nothing (R435). -/
def State.fenceMet (s : State) (c : Cmd) : Bool :=
  !s.awaited c.id && c.cuts.all (fun u => s.domain.declared.contains (streamDev u.1) || decide (u.2 ≤ (s.stream u.1).acked))

/-- FENCE_FABRIC: it records and ships when it starts, and completes when everything recorded is acknowledged. -/
def execFenceFabric (cid : Nat) (s : State) : Host.Outcome State Fault Refusal :=
  let ready := (s.cmd? cid).all s.stepsOut
  let t := if ready then s.startFree cid isFabricFence (fun c t =>
      if 0x2000 < c.dest then t.conclude cid Status.shapeInvalid
      else if t.domain.declared.contains c.dest then t.conclude cid Status.peerFenced
      else
        let cuts := t.fenceCuts c
        (t.modCmd cid (fun (d : Cmd) => { d with cuts := cuts })).shipPages c (t.dirtyPages c)) else s
  match t.held? cid isFabricFence with
  | some c => .next (if t.fenceMet c then t.conclude cid Status.ok else t)
  | none => .next t

/-! ### Calendar markers (R64, R203) -/

def isMarker (form : Nat) (c : Cmd) : Bool := c.cls == 10 && c.form == form

/-- The STAMP values: frame and granule (Table 7.17). -/
def State.stampWords (s : State) : List Nat := [s.frame % 2 ^ 32, s.frame / 2 ^ 32 % 2 ^ 32, s.granule]

/-- Granule g of frame F has begun. -/
def State.reached (s : State) (f g : Nat) : Bool := decide (f < s.frame) || (f == s.frame && decide (g ≤ s.granule))
def State.waitOver (s : State) (c : Cmd) : Bool := s.reached (wd64 c.words 4) ((c.w 6).fld 0 12)

/-- CALENDAR_WAIT: a WAIT holds its thread until its granule; one whose time has passed completes at once. -/
def execCalendarWait (cid : Nat) (s : State) : Host.Outcome State Fault Refusal :=
  .next (s.startFree cid (isMarker 0) (fun c t =>
    if 4000 ≤ (c.w 6).fld 0 12 then t.conclude cid Status.shapeInvalid
    else if t.waitOver c then t.conclude cid Status.ok t.stampWords else t))

/-- CALENDAR_WAIT_RELEASE. -/
def execCalendarWaitRelease (cid : Nat) (s : State) : Host.Outcome State Fault Refusal :=
  match s.held? cid (isMarker 0) with
  | some c => .next (if s.waitOver c then s.conclude cid Status.ok s.stampWords else s)
  | none => .next s

/-- STAMP. -/
def execStamp (cid : Nat) (s : State) : Host.Outcome State Fault Refusal :=
  .next (s.startFree cid (isMarker 1) (fun _ t => t.conclude cid Status.ok t.stampWords))

/-- CALENDAR_RELEASE: the REL radio interval in progress that starts at GRANULE is fill for the rest of this frame (R33). -/
def execCalendarRelease (cid : Nat) (s : State) : Host.Outcome State Fault Refusal :=
  .next (s.startFree cid (isMarker 2) (fun c t =>
    let id := (c.w 7).fld 0 16
    let hit := calOk id && (t.liveEntries id).any (fun e => e.kind == 1 && e.rel && e.start == (c.w 6).fld 0 12 && e.covers t.granule)
    if hit then ({ t with cal := { t.cal with released := t.cal.released ++ [(id, t.granule)] } } : State).conclude cid Status.ok
    else t.conclude cid Status.shapeInvalid))

/-- The fields of a page image (Table 2.3), read as far as its bytes go. -/
def parseImage (n : Nat) (bs : List Byte) : PageImg :=
  let u (i k : Nat) : Nat := leNat ((bs.drop i).take k)
  let p := u 8 4
  let e := u 12 4
  let base := 1856 + 4 * min p 1024
  let zeroed := bs.take 16 ++ [0, 0, 0, 0] ++ bs.drop 20
  { loaded := true, version := u 0 4, length := u 4 4, patterns := p, entryCnt := e, crc := u 16 4, crcCalc := crc32c zeroed
    zeroOk := ((bs.drop 20).take 44 ++ (bs.drop 1842).take 14).all (· == 0), loadLen := n
    map := (List.range 889).foldl (fun (m : SMap Nat) k => SMap.set (fun _ => 0) m k (u (64 + 2 * k) 2)) []
    dir := (List.range (min p 1024)).map (fun k => BitVec.ofNat 32 (u (1856 + 4 * k) 4))
    entries := (List.range (min e 65536)).map (fun k => (BitVec.ofNat 32 (u (base + 8 * k) 4), BitVec.ofNat 32 (u (base + 8 * k + 4) 4))) }

/-- CALENDAR_LOAD: the image replaces the shadow page; refused while a swap is armed or validation runs (R38, R43). -/
def execCalendarLoad (cid : Nat) (image : List Byte) (s : State) : Host.Outcome State Fault Refusal :=
  if !(s.cmd? cid).all (fun c => (c.w 10).toNat == image.length) then .next s
  else
    .next (s.startFree cid (isMarker 3) (fun _ t =>
      let st := t.g 0x2401 3
      if 2 ≤ st ∧ st ≤ 4 then t.conclude cid Status.accessDenied
      else
        let u : State := { t with cal := { t.cal with shadow := parseImage image.length image } }
        ((u.swapState 1).swapState 0).conclude cid Status.ok))

end Sys2Proof.Machine
end

