-- ==== Sys2Proof/Machine/CalendarRows.lean ====
section
/-!
DEFINITION. The frame, the page swap and its validation: FRAME_TICK, SEAM_TIMEOUT, SWAP_ARM_AT_FRAME, SWAP_ARM_TAKEOVER,
SWAP_DISARM, VALIDATION_END, PAGE_SWAP and TAKEOVER_BOUNDARY (R19, R23-R28, R36-R44, R153, R154, R345, R348, R404, R456);
STANDBY_CELL_WRITE (R454).
-/

namespace Sys2Proof.Machine

/-! ### Frames (R23-R28, R404) -/

/-- The GDDR7 temperatures that a frame reads (R404). -/
def State.readTemps (s : State) : List (Int × Nat) → State
  | [] => s
  | (v, k) :: l =>
    let t := s.setG 0x6005 (k + 1) (unsgn 16 v)
    let t := if 24320 < v then t.raise ErrCode.gddr7Hot none16 none16 k
      else if 21760 < v then t.raise ErrCode.gddr7Warm none16 none16 k else t
    t.readTemps l

/-- Frame f begins: releases and radio metering start afresh, and the correction mode written since is in force (R33, R61,
R395). -/
def State.beginFrame (s : State) (f seam : Nat) : State :=
  let t := (s.setG 0x2400 2 f).setG 0x2406 3 seam
  { t with cycle := 0, eccMode := t.g 0x6003 3,
           cal := { t.cal with released := [], charged := [], stepSeam := t.cal.stepNext, stepNext := false } }

/-- Core cycles since the seam started. -/
def State.seamAge (s : State) : Nat := s.cycle - seamStart
/-- A tick that acts now ends the seam: 225 to 674 core cycles after it starts, or at any time in the seam that waits for
a step (R25, R28). -/
def State.seamOpen (s : State) : Bool :=
  decide (seamStart ≤ s.cycle) &&
    (if s.cal.stepSeam then decide (s.seamAge < 1800450) else decide (225 ≤ s.seamAge) && decide (s.seamAge < 675))

/-- FRAME_TICK: the tick of the frame f that TB0 is in, `seam` core cycles after the seam's start; a tick that says otherwise is
none of this device (R19, R23; log entry 5). One that acts outside the seam is discarded (R25, R27). -/
def execFrameTick (f seam : Nat) (temps : List Int) (s : State) : Host.Outcome State Fault Refusal :=
  if s.up && s.tickDue && f == s.tickFrame && seam == s.seamAge then
    let u : State := { s with cal := { s.cal with lastTick := f } }
    if s.seamOpen then
      let t := u.closeShipment.beginFrame f seam
      let t : State := { t with cal := { t.cal with freeRun := false } }
      .next (t.readTemps (temps.take 16).zipIdx)
    else .next u
  else .next s

/-- The seam ends without a tick: 450 core cycles after its start, where the sender knows that none comes, or once its
window is over; a seam that waits for a step after 1,800,450 (R27, R28; log entry 81). -/
def State.seamOver (s : State) : Bool :=
  decide (seamStart ≤ s.cycle) && !(s.tickDue && s.seamOpen) &&
    (if s.cal.stepSeam then decide (1800450 ≤ s.seamAge) else s.seamAge == 450 || decide (675 ≤ s.seamAge))

/-- SEAM_TIMEOUT: a free-run frame; a seam fault while any cell is active (R27). -/
def execSeamTimeout (s : State) : Host.Outcome State Fault Refusal :=
  if s.up && s.seamOver then
    let t := s.closeShipment.beginFrame (s.frame + 1) s.seamAge
    let t : State := { t with cal := { t.cal with freeRun := true } }
    let t := (t.addG 0x2406 1 1).addG 0x2406 2 1
    .next (if t.activeCells.isEmpty then t else t.lateness none16 3 [])
  else .next s

/-! ### Arming (R42-R44) -/

/-- The rule of a write of 1 or 2. -/
def armRule (mode : Nat) (_ : ObjRow) (s : State) : Except Refused State := do
  let st := s.g 0x2401 3
  ensure (st == 0 || st == 5) Status.accessDenied
  let t := (s.setG 0x2401 2 mode).swapState 2
  .ok { t with cal := { t.cal with validating := mode } }

/-- SWAP_ARM_AT_FRAME. -/
def execSwapArmAtFrame (path : Path) (s : State) : Host.Outcome State Fault Refusal :=
  .next (s.access path 1023 0x2401 2 none 1 (armRule 1))
/-- SWAP_ARM_TAKEOVER. -/
def execSwapArmTakeover (path : Path) (s : State) : Host.Outcome State Fault Refusal :=
  .next (s.access path 1023 0x2401 2 none 2 (armRule 2))

/-- The seam that precedes the frame of an armed swap has begun. -/
def State.swapDue (s : State) : Bool :=
  decide (s.g 0x2401 1 ≤ s.frame) || (s.g 0x2401 1 == s.frame + 1 && decide (seamStart ≤ s.cycle))

/-- The rule of a disarm (R43). -/
def disarmRule (_ : ObjRow) (s : State) : Except Refused State := do
  let st := s.g 0x2401 3
  if st = 3 ∨ st = 4 then
    ensure (!(if st = 3 then s.swapDue else s.cal.takeoverAt.isSome)) Status.accessDenied
    .ok ((s.setG 0x2401 2 0).swapState 0)
  else .ok s

/-- SWAP_DISARM. -/
def execSwapDisarm (path : Path) (s : State) : Host.Outcome State Fault Refusal :=
  .next (s.access path 1023 0x2401 2 none 0 disarmRule)

/-! ### Validation (R41, Table 2.5) -/

/-- A failure: code, calendar, pattern and entry. -/
abbrev Failure := Nat × Nat × Nat × Nat

/-- The entries of pattern k of an image with their indices in the image. -/
def rawEntries (p : PageImg) (k : Nat) : List (Nat × (W32 × W32)) :=
  if k = 0 then []
  else
    let d := p.dir.getD k 0
    ((p.entries.drop (d.fld 0 16)).take (d.fld 16 9)).zipIdx.map (fun e => (d.fld 0 16 + e.2, e.1))

/-- The first calendar that uses a pattern, 0xFFFF none. -/
def patternUser (p : PageImg) (k : Nat) : Nat := (mapCals.find? (fun id => patternOf p id == k)).getD none16

/-- Check 11: the structure of an image; a page that no image was loaded into holds pattern 0 alone (R37). -/
def imageOk (p : PageImg) : Bool :=
  !p.loaded || (p.version == 1 && p.zeroOk && p.length == p.loadLen && within 1 1024 p.patterns && decide (p.entryCnt ≤ 65536) &&
    p.length == 1856 + 4 * p.patterns + 8 * p.entryCnt && p.map.all (fun e => decide (e.2 < p.patterns)) &&
    (p.dir.drop 1).all (fun d => d.fld 25 7 == 0 && decide (d.fld 16 9 ≤ 256) && decide (d.fld 0 16 + d.fld 16 9 ≤ p.entryCnt)) &&
    p.crc == p.crcCalc)

/-- Check 1: a field of an entry out of range. -/
def entryBad (e : W32 × W32) : Bool :=
  let x := entryOf e
  e.1.fld 12 4 != 0 || e.1.fld 30 2 != 0 || e.2.fld 28 3 != 0 || decide (3999 < x.start) || x.len == 0 || decide (4000 < x.stop) ||
    x.kind == 0 || (x.kind != 2 && (x.ctx != 0 || x.epoch != 0)) || (x.kind != 1 && x.rel)

/-- Check 2: the first entry of a list that starts before its predecessor ends. -/
def orderBad : List (Nat × (W32 × W32)) → Option Nat
  | e :: f :: l => if (entryOf f.2).start < (entryOf e.2).stop then some f.1 else orderBad (f :: l)
  | _ => none

/-- The patterns of an image but pattern 0. -/
def ownPatterns (p : PageImg) : List Nat := span 1 (p.patterns - 1)

def check1 (p : PageImg) : Option Failure :=
  (ownPatterns p).findSome? (fun k => ((rawEntries p k).find? (fun e => entryBad e.2)).map (fun e => (1, patternUser p k, k, e.1)))
def check2 (p : PageImg) : Option Failure :=
  (ownPatterns p).findSome? (fun k => (orderBad (rawEntries p k)).map (fun i => (2, patternUser p k, k, i)))
/-- Check 3 has no failing entry: its entry index is 0xFFFF (DESIGN CHOICE, log entry 80). -/
def check3 (p : PageImg) : Option Failure :=
  ((ownPatterns p).find? (fun k => !(rawEntries p k).any (fun e => (entryOf e.2).kind == 3 && (entryOf e.2).covers 3999))).map
    (fun k => (3, patternUser p k, k, none16))

/-- A granule of a refresh run (R400). -/
def isRefresh (g : Nat) : Bool := decide (116 ≤ g % 125) && decide (g % 125 < 124)

/-- Check 4: an interval of a calendar has its gutter; a refresh run is one for class 21 alone (R30, R400). -/
def gutterOk (p : PageImg) (id : Nat) (e : CalEntry) : Bool :=
  e.start == 0 || (patternEntries p (patternOf p id)).any (fun g => g.kind == 3 && g.stop == e.start) ||
    (calClass id == 21 && isRefresh (e.start - 1))

/-- The first entry of a calendar's pattern that satisfies a test, as a failure. -/
def calFailure (p : PageImg) (code : Nat) (cals : List Nat) (bad : Nat → CalEntry → Bool) : Option Failure :=
  cals.findSome? (fun id =>
    ((rawEntries p (patternOf p id)).find? (fun e => bad id (entryOf e.2))).map (fun e => (code, id, patternOf p id, e.1)))

def check4 (p : PageImg) : Option Failure :=
  calFailure p 4 mapCals (fun id e => (e.kind == 1 || e.kind == 2) && !gutterOk p id e)
def check5 (p : PageImg) : Option Failure :=
  calFailure p 5 mapCals (fun id e => e.kind == 1 && !radioClass (calClass id))

/-- Checks 6 and 7 name a class. -/
def classFailure (code : Nat) (bad : Nat → Bool) : Option Failure :=
  ((List.range 22).find? bad).map (fun k => (code, calId k 0, none16, none16))
def State.check6 (s : State) (p : PageImg) : Option Failure :=
  classFailure 6 (fun k => (span 1 7).any (fun q => s.periodRadio p k q != s.periodRadio p k 0))
def State.check7 (s : State) (p : PageImg) : Option Failure :=
  let cells := s.cellsIn (fun v => v == 1 || v == 2)
  classFailure 7 (fun k => radioClass k && decide (s.reservation p k < s.demand cells k))

/-- Check 8: an unbounded command runs or waits on an engine that the page shares. -/
def State.check8 (s : State) (p : PageImg) : Option Failure :=
  let cmds := s.cmds.filter (fun c => c.wLen == 0xFFFFFFFF && c.phase != .ended)
  (mapCals.find? (fun id => (calEntries p id).any (fun e => e.kind == 1 || e.kind == 2) &&
    cmds.any (fun c => if c.phase = .running then c.engines.contains id else (s.candidates c).contains id))).map
    (fun id => (8, id, patternOf p id, none16))

/-- A takeover page's match of an entry of the active page: only REL may differ (R44). -/
def sameEntry (a b : CalEntry) : Bool :=
  a.start == b.start && a.len == b.len && a.kind == b.kind && (a.kind != 2 || (a.ctx == b.ctx && a.epoch == b.epoch))
/-- Check 9. Slot phases are positions in calendars, so intervals that stay keep them. -/
def check9 (active p : PageImg) : Option Failure :=
  mapCals.findSome? (fun id =>
    ((rawEntries active (patternOf active id)).find? (fun e =>
      let x := entryOf e.2
      (x.kind == 1 || x.kind == 2) && !(patternEntries p (patternOf p id)).any (sameEntry x))).map
      (fun e => (9, id, patternOf p id, e.1)))

/-- Check 10: an entry other than a gutter covers a refresh granule (R400). -/
def check10 (p : PageImg) : Option Failure :=
  calFailure p 10 (classCals 21) (fun _ e => e.kind != 3 && refreshRuns.any (fun r => decide (r.start < e.stop) && decide (e.start < r.stop)))

/-- The context that an exact entry binds (R40). -/
def State.bindsTo (s : State) (e : CalEntry) : Option Nat :=
  let x := s.ctx e.ctx
  if e.kind = 2 ∧ x.st ≠ .free ∧ x.epoch = e.epoch ∧ x.mode = 1 then some x.fn else none
/-- A function other than f has an exact-mode job in progress on a core. -/
def State.exactBusy (s : State) (f c : Nat) : Bool :=
  s.ctxs.any (fun e => e.2.mode == 1 && e.2.fn != f && !e.2.jobs.isEmpty && (e.2.home == c ||
    s.cmds.any (fun d => d.ctx == e.1 && d.phase == .running && d.engines.any (fun i => coreOf i == some c))))
/-- Check 13. -/
def State.check13 (s : State) (p : PageImg) : Option Failure :=
  (List.range 96).findSome? (fun c =>
    match (s.pinsOf p c).head? with
    | some f =>
      if s.exactBusy f c then calFailure p 13 (coreEngines c) (fun _ e => s.bindsTo e == some f)
      else calFailure p 13 (coreEngines c) (fun _ e => (s.bindsTo e).any (· != f))
    | none => none)
/-- Check 12: the named frame is less than two frames ahead. -/
def State.check12 (s : State) : Option Failure :=
  if s.g 0x2401 1 < s.frame + 2 then some (12, none16, none16, none16) else none

/-- The first failing check in the order of R41. -/
def State.validate (s : State) (mode : Nat) : Option Failure :=
  let p := s.cal.shadow
  if !imageOk p then some (11, none16, none16, none16)
  else
    ((check1 p).orElse fun _ => (check2 p).orElse fun _ => (check3 p).orElse fun _ => (check4 p).orElse fun _ =>
      (check5 p).orElse fun _ => (s.check6 p).orElse fun _ => (s.check7 p).orElse fun _ => (s.check8 p).orElse fun _ =>
      (if mode = 2 then check9 s.cal.active p else none).orElse fun _ => (check10 p).orElse fun _ =>
      (s.check13 p).orElse fun _ => if mode = 1 then s.check12 else none)

/-- The result of a validation in G:0x2402. -/
def State.setResult (s : State) (r : Failure) : State :=
  (((s.setG 0x2402 1 r.1).setG 0x2402 2 r.2.1).setG 0x2402 3 r.2.2.1).setG 0x2402 4 r.2.2.2

/-- At an arm, a core that the page pins goes to its function, and a job on thread 3 of a core that becomes a radio core
leaves it (R345, R348). -/
def State.pinCore (s : State) (c : Nat) : State :=
  let h := s.coreHolder c
  let pin := (s.pinsOf s.cal.shadow c).head?
  let third := ((s.core c).threads.getD 3 none).any (fun n => (s.ctx n).mode == 0) && s.radioCore c
  if h = none16 then (pin.filter (fun x => s.mayGive x c)).elim s (fun x => s.grantCore x c)
  else if third || pin.any (fun x => x != h || (s.core c).preempt.isSome) then s.turnOut c (pin.getD none16)
  else s
def State.pinCores (s : State) : List Nat → State
  | [] => s
  | c :: l => (s.pinCore c).pinCores l

/-- VALIDATION_END. After a refused arm, and after a swap, G:0x2401.02 reads 0 (DESIGN CHOICE, log entry 80). -/
def execValidationEnd (s : State) : Host.Outcome State Fault Refusal :=
  let mode := s.cal.validating
  if !s.up || s.g 0x2401 3 != 2 then .next s
  else
    let t : State := { s with cal := { s.cal with validating := 0 } }
    match s.validate mode with
    | some r => .next (((t.setResult r).setG 0x2401 2 0).swapState 5)
    | none => .next (((t.setResult (0, 0, 0, 0)).swapState (2 + mode)).pinCores (List.range 96))

/-! ### The swap (R42, R153, R154, R456) -/

/-- The landing zone of a core as its objects now say (R153). -/
def State.newZone (s : State) (c : Nat) : Nat × Nat := (s.g 0x6101 (c + 1), s.g 0xA010 (c + 1))
/-- A zone comes into force: bytes that pass between the zone and the context range are zeroed; where the holder changes,
all of the old and of the new zone. -/
def State.swapZone (s : State) (c : Nat) : State :=
  let old := SMap.get (fun _ => (0, none16)) s.cal.zones c
  let new := s.newZone c
  let hi := max old.1 new.1 * 65536
  let lo := min old.1 new.1 * 65536
  let t := if old.2 ≠ new.2 then s.zeroMem (Mem.well c + (Mem.wellSize - hi)) hi
    else s.zeroMem (Mem.well c + (Mem.wellSize - hi)) (hi - lo)
  { t with cal := { t.cal with zones := SMap.set (fun _ => (0, none16)) t.cal.zones c new } }
def State.swapZones (s : State) : List Nat → State
  | [] => s
  | c :: l => (s.swapZone c).swapZones l

/-- The pages exchange roles. -/
def State.swapPages (s : State) : State :=
  let t : State := { s with cal := { s.cal with active := s.cal.shadow, shadow := s.cal.active } }
  let t := ((t.setG 0x2400 1 (1 - t.g 0x2400 1)).addG 0x2401 4 1).setG 0x2401 2 0
  (t.swapState 0).swapZones (List.range 96)

/-- PAGE_SWAP: at the first core cycle of F_s or of the first frame after it. -/
def execPageSwap (s : State) : Host.Outcome State Fault Refusal :=
  if s.up && s.g 0x2401 3 == 3 && s.cycle == 0 && decide (s.g 0x2401 1 ≤ s.frame) then .next s.swapPages else .next s

/-- The standby cells that a takeover activates: those whose mirrored cell the last complete shipment lists. -/
def State.takenCells (s : State) : List Nat := s.standby.filter (fun c => s.domain.lastCells.contains (s.cellO c 0x31))

/-- Shipped tracks 0-255 become tracks 256-511 of the same trackers (R456). Both maps are keyed by tracker × 512 + track.
-/
def State.loadTracks (s : State) : List (Nat × Nat × Nat) → State
  | [] => s
  | e :: l => ({ s with tracks := SMap.set (fun _ => (0, 0)) s.tracks (e.1 + 256) e.2 } : State).loadTracks l

/-- Cells enter the calendar at once. -/
def State.activateCells (s : State) : List Nat → State
  | [] => s
  | c :: l => (({ (s.enterCell c).setCellO c 0x30 0 with standby := s.standby.filter (· != c) } : State)).activateCells l

/-- TAKEOVER_BOUNDARY. -/
def execTakeoverBoundary (s : State) : Host.Outcome State Fault Refusal :=
  match s.cal.takeoverAt with
  | some b =>
    if s.up && s.cycle == 0 && decide (b ≤ s.frame) && s.g 0x2401 3 == 4 then
      let cells := s.takenCells
      let t := (s.swapPages.activateCells cells).loadTracks s.domain.lastTracks
      let t : State := { t with cal := { t.cal with takeoverAt := none }, domain := { t.domain with holding := t.domain.holding ++ cells } }
      .next ((((t.setG 0x5012 0x0D b).addG 0x5012 0x0B 1).setPartner 4).noticeAll 0)
    else .next s
  | none => .next s

/-! ### Standby cells (R454) -/

/-- The rule of a write of .30: an inactive cell becomes a standby cell where R58 and R374 hold with every standby cell
counted, against the armed takeover page alone. -/
def standbyRule (cell value : Nat) (_ : ObjRow) (s : State) : Except Refused State := do
  if value = 0 then .ok { s.setCellO cell 0x30 0 with standby := s.standby.filter (· != cell) }
  else if s.standby.contains cell then .ok s
  else
    ensure (s.cellState cell == 0) Status.accessDenied
    ensure (s.costRow cell != 0 && s.g 0x2401 3 == 4) Status.radioBudgetExceeded
    let more := cell :: s.standby
    ensure (s.budgetHolds s.cal.shadow (more ++ s.liveCells)) Status.radioBudgetExceeded
    ensure (decide (s.g 0x2001 1 + s.eAdm (s.unitSum more) + s.g 0x2001 4 ≤ s.eWinLow)) Status.radioBudgetExceeded
    .ok { s.setCellO cell 0x30 1 with standby := s.standby ++ [cell] }

/-- STANDBY_CELL_WRITE. -/
def execStandbyCellWrite (path : Path) (cell value : Nat) (s : State) : Host.Outcome State Fault Refusal :=
  if 1024 ≤ cell then .fault .noSuchUnit
  else .next (s.access path s.radioSel (0x4400 + cell) 0x30 none value (standbyRule cell value))

end Sys2Proof.Machine
end

