-- ==== Sys2Proof/Machine/Ledgers.lean ====
section
/-!
DEFINITION. The conservation ledgers (R343, R354, R381, R546-R552, Tables 21.5 and 21.6): the terms of every equation, its
record, and its evaluation.
-/

namespace Sys2Proof.Machine

/-- One equation: ledger code, equation number, left and right terms in the order of Table 21.6; a subtracted term is
negative. -/
structure Equation where
  code  : Nat
  eq    : Nat
  left  : List Int
  right : List Int
  deriving DecidableEq, Repr

def Equation.residual (e : Equation) : Int := e.left.sum - e.right.sum
def Equation.balanced (e : Equation) : Bool := e.residual == 0

/-- Numbers as terms. -/
def terms (l : List Nat) : List Int := l.map Int.ofNat

/-! ### The window, job and KV ledgers of a function -/

/-- Held slots whose record has not retired. -/
def State.unretired (s : State) (f : Nat) : Int := (s.slotsIn f .held : Int) - (s.fn f).unret.length

def State.windowEq (s : State) (f sub : Nat) : Equation :=
  let c (k : Nat) : Int := s.o f 0x3010 k
  match sub with
  | 1 => ⟨1, 1, [(s.slotsIn f .held : Int)], [c 6, -(c 8), -(c 9)]⟩
  | 2 => ⟨1, 2, [c 6], [c 8, c 7, s.unretired f]⟩
  | _ => ⟨1, 3, [c 7], [c 9, ((s.fn f).unret.length : Int)]⟩

/-- Jobs in progress of a function. -/
def State.jobsOf (s : State) (f : Nat) : Nat := ((s.ctxs.filter (fun e => e.2.fn == f)).map (fun e => e.2.jobs.length)).sum
def State.jobEq (s : State) (f : Nat) : Equation :=
  ⟨2, 1, terms [s.o f 0x3030 1], terms [s.o f 0x3030 2, s.o f 0x3030 3, s.o f 0x3030 4, s.jobsOf f]⟩

/-- A function holds a grant. -/
def State.hasGrant (s : State) (f : Nat) : Bool := !(s.fn f).granted.isEmpty
/-- Component k of the grants, over all functions. -/
def State.grantSum (s : State) (k : Fn → Nat) : Nat := ((s.fns.filter (fun e => !e.2.granted.isEmpty)).map (fun e => k e.2)).sum
/-- Component sub of Vnnn:0x3020 as the grant took it. -/
def Fn.took (x : Fn) (sub : Nat) : Nat := x.granted.getD (sub - 1) 0

def State.kvEq (s : State) (f sub : Nat) : Equation :=
  let pages := (s.fn f).kv.flatMap (fun e => e.2.pages)
  let q : Int := (s.fn f).took 9
  let ptok := max 1 (s.o f 0x3800 2)
  if sub = 1 then ⟨3, 1, [q], [q - pages.eraseDups.length, (pages.length : Int)]⟩
  else ⟨3, 2, [(pages.length : Int)], terms [((s.fn f).kv.map (fun e => cdiv e.2.pos ptok)).sum]⟩

/-! ### The ledgers of the device -/

/-- Energy shares and floats of the functions that hold grants; their objects change while the function is live. -/
def State.objSum (s : State) (index sub : Nat) : Nat :=
  ((s.fns.filter (fun e => !e.2.granted.isEmpty)).map (fun e => s.o e.1 index sub)).sum

/-- G:0x8104.s, s the row of Table 12.2. The save slots have no pool: those taken equal the sum of H. -/
def State.grantEq (s : State) (row : Nat) : Equation :=
  let mk (total free used : Nat) : Equation := ⟨4, 1, terms [total], terms [free, used]⟩
  match row with
  | 1 => mk (s.g 0x3001 1) (s.g 0x3001 2) (s.grantSum (fun x => x.gpages.length + x.saves.length))
  | 2 => mk (s.g 0x3001 3) (s.g 0x3001 4) (s.grantSum (fun x => x.cpages.length))
  | 3 => mk (s.grantSum (fun x => x.saves.length / 36)) 0 (s.grantSum (·.took 0x0B))
  | 4 => mk 4096 (s.g 0x3001 5) (s.grantSum (·.took 8))
  | 5 => mk 16777216 (s.g 0x3800 2) (s.grantSum (·.took 9))
  | 6 => mk 32768 (s.g 0x3001 6) (s.grantSum (fun x => x.regions.length))
  | 7 => mk 65536 (s.g 0x3001 7) (s.grantSum (·.took 7))
  | 8 => mk 65536 (s.g 0x3001 8) (s.objSum 0x3040 2)
  | _ => mk 65536 (s.g 0x3001 9) (s.objSum 0x3020 5)

def State.shareEq (s : State) (g : Nat) : Equation :=
  let classes := List.range 16
  ⟨5, 1, [(s.g 0x3078 (g + 1) : Int)],
    [((classes.map (fun c => s.g (0x3074 + g) (c + 1))).sum : Int), (s.g 0x3079 (g + 1) : Int), (classes.map (fun c => s.balance c g)).sum]⟩

def State.energyEq (s : State) (sub : Nat) : Equation :=
  if sub = 1 then ⟨6, 1, terms [s.g 0x2002 1, s.g 0x2002 4], terms [s.g 0x2002 2, s.g 0x2002 3]⟩
  else ⟨6, 2, terms [s.g 0x2002 4], terms [s.g 0x2001 6, s.g 0x2002 5]⟩

/-- Bytes in flight: pieces and reads. -/
def State.flightBytes (s : State) : Nat :=
  (s.pieces.map (fun p => p.data.length)).sum
def State.floatEq (s : State) (sub : Nat) : Equation :=
  if sub = 1 then ⟨7, 1, terms [s.term Term.issued], terms [s.term Term.landed, s.term Term.floatless, s.term Term.sumped, s.flightBytes]⟩
  else ⟨7, 2, terms [s.term Term.landed], terms [s.term Term.increments]⟩

def State.creditEq (s : State) (lane k eq : Nat) : Equation :=
  let x := s.lane lane
  let at' (l : List Nat) : Nat := l.getD k 0
  if eq = 1 then ⟨8, 1, terms [at' x.buffer], terms [at' x.peer, at' x.occupied, at' x.owed]⟩
  else ⟨8, 2, terms [at' x.received], terms [at' x.sent, at' x.held]⟩

/-- The equation of a ledger object (Table 21.6). -/
def State.equation (s : State) (sel index sub : Nat) : Option Equation :=
  if index = 0x8180 then some (s.windowEq sel sub)
  else if index = 0x8181 then some (s.jobEq sel)
  else if index = 0x8182 then some (s.kvEq sel sub)
  else if index = 0x8103 then some ⟨3, 3, terms [16777216], terms [s.g 0x3800 2, s.grantSum (·.took 9)]⟩
  else if index = 0x8104 then some (s.grantEq sub)
  else if index = 0x8105 then some (s.shareEq (sub - 1))
  else if index = 0x8106 then some (s.energyEq sub)
  else if index = 0x8107 then some (s.floatEq sub)
  else if 0x8110 ≤ index ∧ index < 0x8118 then some (s.creditEq (sub - 1) ((index - 0x8110) / 2) (index % 2 + 1))
  else none

/-- The record of Table 21.5. -/
def State.record (s : State) (e : Equation) : List Byte :=
  leBytes 4 (e.code + e.eq * 2 ^ 8 + e.left.length * 2 ^ 16 + e.right.length * 2 ^ 20 + e.balanced.toNat * 2 ^ 24) ++
    leBytes 12 (timeWord (s.time 2)) ++ leBytes 8 (unsgn 64 e.residual) ++ leBytes 8 0 ++
    (e.left ++ e.right).flatMap (fun t => leBytes 8 (unsgn 64 t))

/-- An imbalance is outstanding until the next priming (R552). -/
def State.imbalanced (s : State) : Bool := s.g 0x8120 1 != 0

/-- Evaluate one equation: its first failure raises LEDGER_IMBALANCE; the first of all is kept in G:0x8120.01 (R552). -/
def State.evaluate (s : State) (k : Nat × Nat × Nat) : State :=
  match s.equation k.1 k.2.1 k.2.2 with
  | some e =>
    let key := Term.failed k.1 k.2.1 k.2.2
    if e.balanced || s.term key != 0 then s
    else
      let t := (s.setTerm key 1).addG 0x8000 6 1
      let t := if t.imbalanced then t else t.setG 0x8120 1 (leNat (s.record e))
      t.raise ErrCode.ledgerImbalance none16 (if k.1 < 514 then k.1 else none16) (e.code + e.eq * 2 ^ 8 + k.2.2 * 2 ^ 16)
  | none => s
def State.evaluateList (s : State) : List (Nat × Nat × Nat) → State
  | [] => s
  | k :: l => (s.evaluate k).evaluateList l

/-- Every ledger object of the functions that are not absent and of the device. -/
def State.ledgers (s : State) : List (Nat × Nat × Nat) :=
  s.presentFns.flatMap (fun f => [(f, 0x8180, 1), (f, 0x8180, 2), (f, 0x8180, 3), (f, 0x8181, 1), (f, 0x8182, 1), (f, 0x8182, 2)]) ++
    [(1023, 0x8103, 1)] ++ (span 1 9).map (fun k => (1023, 0x8104, k)) ++ (span 1 4).map (fun k => (1023, 0x8105, k)) ++
    [(1023, 0x8106, 1), (1023, 0x8106, 2), (1023, 0x8107, 1), (1023, 0x8107, 2)] ++
    (span 0x8110 8).flatMap (fun i => (span 1 64).map (fun l => (1023, i, l)))
def State.evaluateAll (s : State) : State := s.evaluateList s.ledgers

/-- The device condition (R544). -/
def State.condition (s : State) : Nat := (!s.fenced.isEmpty).toNat + 2 * s.imbalanced.toNat

end Sys2Proof.Machine
end

