-- ==== Sys2Proof/Machine/EnergyRows.lean ====
section
/-!
DEFINITION. Energy windows: ENERGY_WINDOW_START, ENERGY_REPORT, STANDING_RESERVE_RAISE, STANDING_RESERVE_LOWER and
POWER_LIMIT_WRITE (R350, R368-R384).
-/

namespace Sys2Proof.Machine

/-- The index of the TB2 window (R368). -/
def State.windowIndex (s : State) : Nat := s.time 2 / 2 ^ 16 / 100000 % 2 ^ 32

/-- Live functions: virtual functions in state 1 and the managers. -/
def State.liveFns (s : State) : List Nat := s.presentFns.filter (fun f => s.fnState f == 1 && !s.resetting f)

/-! ### Thermal (R383, R384) -/

def State.thermal (s : State) (v : Int) : State :=
  let t := s.setG 0x2003 1 (unsgn 16 v)
  let throttle := s.oInt 1023 0x2003 2 2
  let critical := s.oInt 1023 0x2003 3 2
  let now := s.g 0x2003 4
  let theta := if critical ≤ v then 0
    else if throttle ≤ v then now - 1 else if v < throttle - 512 then min 8 (now + 1) else now
  let t := t.setG 0x2003 4 theta
  if critical ≤ v then
    if s.energy.critical then t
    else ({ t with energy := { t.energy with critical := true } } : State).raise ErrCode.thermalCritical none16 none16 (unsgn 16 v)
  else if v < critical - 512 then { t with energy := { t.energy with critical := false } } else t

/-! ### Shares (R350) -/

/-- Sum of the share weights of the live functions of a class. -/
def State.classWeight (s : State) (c : Nat) : Nat :=
  ((s.liveFns.filter (fun f => s.shareClass f == c)).map (fun f => s.o f 0x3020 4)).sum

/-- Credit the classes with demand. -/
def State.creditShares (s : State) (g cap total : Nat) : List Nat → State
  | [] => s
  | c :: l => (s.setBalance c g (s.balance c g + (cap * s.classWeight c / total : Nat))).creditShares g cap total l
/-- A balance above cap is cut to it; the rest is forfeited. -/
def State.capShares (s : State) (g cap : Nat) : List Nat → State
  | [] => s
  | c :: l =>
    let excess := s.balance c g - cap
    (if 0 < excess then (s.setBalance c g cap).addG 0x3079 (g + 1) excess.toNat else s).capShares g cap l
/-- The share update of one group. -/
def State.updateGroup (s : State) (g : Nat) : State :=
  let cap := SMap.get (fun _ => 0) s.energy.fill g
  let dem := (List.range 16).filter (fun c => s.energy.demand.contains (c, g))
  let total := (dem.map s.classWeight).sum
  let credits := (dem.map (fun c => cap * s.classWeight c / total)).sum
  let t := (s.addG 0x3078 (g + 1) cap).creditShares g cap total dem
  (t.addG 0x3079 (g + 1) (cap - credits)).capShares g cap (List.range 16)
def State.updateShares (s : State) : State := (((s.updateGroup 0).updateGroup 1).updateGroup 2).updateGroup 3

/-- New share classes come into force (R340). -/
def State.adoptClasses (s : State) : State :=
  { s with fns := s.fns.map (fun (e : Nat × Fn) => if e.2.granted.isEmpty then e else (e.1, { e.2 with shareCls := s.o e.1 0x3020 3 })) }

/-! ### The division of a window (R370-R378) -/

/-- A pending P_lim, a pending E_std and ended exact reservations take effect. -/
def State.adoptEnergy (s : State) : State :=
  let n := s.energy
  let t := match n.pending with
    | some p => s.setG 0x2000 2 (100 * p)
    | none => s
  let t := match n.stdNext with
    | some v => t.setG 0x2001 1 v
    | none => t
  let t := t.setG 0x2001 4 (t.g 0x2001 4 - (n.ending.map (·.2)).sum)
  { t with energy := { t.energy with pending := none, stdNext := none, ending := [], radioUse := 0, exactUse := [], fill := [], demand := [] } }

/-- Own allowances of the live functions; of any other function none. -/
def State.giveOwn (s : State) (aFill : Nat) : List Nat → State
  | [] => s
  | f :: l => (s.setO f 0x2010 2 (aFill * 256 * s.o f 0x3020 5 / 65536)).giveOwn aFill l

/-- Divide E_win (R371, R378, R380). -/
def State.divide (s : State) : State :=
  let eWin := s.g 0x2000 2
  let held := s.g 0x2001 1 + s.g 0x2001 3 + s.g 0x2001 4
  let base := eWin - held
  let t := if eWin < held then (s.addG 0x2001 7 1).raise ErrCode.budgetShort none16 none16 (s.g 0x2000 3) else s
  let y := min (s.g 0x2001 6) base
  let t := (t.setG 0x2001 6 (s.g 0x2001 6 - y)).addG 0x2002 5 y
  let aFill := (base - y) * t.g 0x2003 4 / 8
  let live := t.liveFns
  let t := (s.presentFns.filter (fun f => !live.contains f)).foldl (fun (u : State) f => u.setO f 0x2010 2 0) t
  let t := (t.setG 0x2001 5 aFill).giveOwn aFill live
  let own := (live.map (fun f => t.o f 0x2010 2)).sum
  { t with energy := { t.energy with common := aFill * 256 - own, budgets := SMap.put (s.g 0x2000 3) eWin t.energy.budgets } }

/-- ENERGY_WINDOW_START: a TB2 window has begun; `junction` is the hottest reading (1/256 °C). -/
def execEnergyWindowStart (junction : Int) (s : State) : Host.Outcome State Fault Refusal :=
  if s.up && s.windowIndex != s.g 0x2000 3 then
    let t := s.adoptClasses.updateShares
    let t := ((t.setG 0x2000 3 s.windowIndex).adoptEnergy).thermal junction
    let t := t.divide.evaluateAll
    .next { t with energy := { t.energy with began := some s.clock } }
  else .next s

/-- ENERGY_REPORT: M(w) of a window that was divided (R380, R381); E_win is the value in force during it. -/
def execEnergyReport (window measured : Nat) (s : State) : Host.Outcome State Fault Refusal :=
  match s.energy.budgets.find? (fun e => e.1 == window) with
  | some (_, e) =>
    if !s.up || window == s.g 0x2000 3 then .next s
    else
      let excess := measured - e
      let t := ((s.addG 0x2002 1 e).addG 0x2002 2 measured).addG 0x2002 3 (e - measured)
      let t := (t.addG 0x2002 4 excess).addG 0x2001 6 excess
      .next { t with energy := { t.energy with
        budgets := SMap.del window t.energy.budgets
        overs := if excess = 0 then [] else excess :: t.energy.overs, calm := if excess = 0 then t.energy.calm + 1 else 0 } }
  | none => .next s

/-- E_std as it will be at the next window start. -/
def State.stdAhead (s : State) : Nat := s.energy.stdNext.getD (s.g 0x2001 1)

/-- STANDING_RESERVE_RAISE: by the mean over-spend of 16 consecutive windows, rounded up to a multiple of 100 (R372). -/
def execStandingReserveRaise (s : State) : Host.Outcome State Fault Refusal :=
  if s.up && decide (16 ≤ s.energy.overs.length) then
    let rise := cdiv (s.energy.overs.take 16).sum 1600 * 100
    .next { s with energy := { s.energy with stdNext := some (s.stdAhead + rise), overs := [], calm := 0 } }
  else .next s

/-- STANDING_RESERVE_LOWER: by 100 after 1,024 windows without over-spend, not below the calibration (R372). -/
def execStandingReserveLower (s : State) : Host.Outcome State Fault Refusal :=
  if s.up && decide (1024 ≤ s.energy.calm) then
    .next { s with energy := { s.energy with stdNext := some (max (s.g 0x2001 2) (s.stdAhead - 100)), overs := [], calm := 0 } }
  else .next s

/-- The rule of a P_lim write (R382). -/
def powerRule (value : Nat) (_ : ObjRow) (s : State) : Except Refused State := do
  ensure (decide (s.g 0x2001 1 + s.eAdm + s.g 0x2001 4 ≤ 100 * value)) Status.accessDenied
  .ok s
/-- A P_lim that the flash holds takes effect at the next window start. -/
def State.setPower (s : State) (value : Nat) : State :=
  { s.setG 0x2000 1 value with energy := { s.energy with pending := some value } }

/-- POWER_LIMIT_WRITE. -/
def execPowerLimitWrite (path : Path) (value : Nat) (s : State) : Host.Outcome State Fault Refusal :=
  .next (s.access path 1023 0x2000 1 none value (powerRule value))

end Sys2Proof.Machine
end

