-- ==== Sys2Proof/Machine/Membership.lean ====
section
/-!
DEFINITION. The membership of a domain: beats, joining, views, declarations, fencing, the master, the domain clock and the
expulsion budget (R440-R451, R462, R463).
-/

namespace Sys2Proof.Machine

/-! ### Messages and clocks -/

/-- Instants in the domain's clock table. -/
def clockAck : Nat := 0
def clockPartner : Nat := 1
def clockListen : Nat := 2
def clockView : Nat := 3
def clockPrepare : Nat := 4
def clockBeat (d : Nat) : Nat := 8192 + d

/-- TB2 in microseconds at the last event of a kind. -/
def State.clockOf (s : State) (k : Nat) : Nat := SMap.get (fun _ => 0) s.domain.clock k
def State.mark (s : State) (k : Nat) : State :=
  { s with domain := { s.domain with clock := SMap.set (fun _ => 0) s.domain.clock k s.tb2us } }
/-- An event of a kind is at least n microseconds past. -/
def State.elapsed (s : State) (k n : Nat) : Bool := decide (s.clockOf k + n ≤ s.tb2us)

/-- Domain state 2: a member (G:0x5010.04). -/
def State.isMember (s : State) : Bool := s.g 0x5010 4 == 2
/-- The epoch held, the master in force and the requested number. -/
def State.dEpoch (s : State) : Nat := s.g 0x5010 5
def State.dMaster (s : State) : Nat := s.g 0x5010 6
def State.wanted (s : State) : Nat := s.g 0x5010 3
def State.inView (s : State) (d : Nat) : Bool := s.domain.members.contains d

/-- Modular half-range comparison: a is later than b (R332). -/
def laterMod (w a b : Nat) : Bool :=
  let d := (a % 2 ^ w + 2 ^ w - b % 2 ^ w) % 2 ^ w
  decide (1 ≤ d) && decide (d < 2 ^ (w - 1))

/-- The rack of a device (R440). -/
def rackOf (d : Nat) : Nat := d / 64
/-- The members of a rack, ascending. -/
def State.rackMembers (s : State) (r : Nat) : List Nat := s.domain.members.filter (fun d => rackOf d == r)
/-- The racks that hold a member. -/
def State.racks (s : State) : List Nat := (s.domain.members.map rackOf).eraseDups

/-- A relay passes a message on to the other members of its rack (R443). -/
def State.passOn (s : State) (kind a b : Nat) (data : List Byte) : State :=
  s.domainEach kind a b data ((s.rackMembers (rackOf s.self)).filter (fun d => d != s.self && d != s.dMaster))

/-- The relay of a rack for the n-th repeat, the lowest member for the first sending. -/
def State.relayOf (s : State) (n r : Nat) : Nat := (s.rackMembers r).getD (n % (s.rackMembers r).length) 0
/-- Send a message to every member of the view by rack relay; the master is the relay of its own rack where its turn
comes. -/
def State.relayList (s : State) (n kind a b : Nat) (data : List Byte) : List Nat → State
  | [] => s
  | r :: rs =>
    let d := s.relayOf n r
    let t := if d = s.self then s.domainEach kind a b data ((s.rackMembers r).filter (· != s.self))
      else s.domainMsg d kind a b data
    t.relayList n kind a b data rs
def State.relayAll (s : State) (n kind a b : Nat) (data : List Byte) : State := s.relayList n kind a b data s.racks

/-- The 4,096-bit member map of a view: bit d is member d of the domain. -/
def memberMap (members : List Nat) : List Byte :=
  (List.range 512).map (fun i => BitVec.ofNat 8 ((List.range 8).foldl (fun (v : Nat) j =>
    if members.any (fun d => d % 4096 == 8 * i + j) then v + 2 ^ j else v) 0))

/-- The two words of a VIEW (Table 16.1). -/
def State.viewWord (s : State) : Nat := s.self + s.g 0x5010 2 * 2 ^ 16
/-- Send the VIEW to all members (the n-th repeat), or to one. -/
def State.sendView (s : State) (n : Nat) : State :=
  (s.relayAll n 4 s.dEpoch s.viewWord (memberMap s.domain.members)).mark clockView
def State.sendViewTo (s : State) (d : Nat) : State := s.domainMsg d 4 s.dEpoch s.viewWord (memberMap s.domain.members)
/-- Send FENCE_NOTICE (R442). -/
def State.sendFence (s : State) (d : Nat) : State := s.domainMsg d 6 s.dEpoch 0 []

/-! ### The recommendations (R462) -/

/-- The last score of a member. -/
def State.scoreOf (s : State) (d : Nat) : Nat := SMap.get (fun _ => 0) s.domain.beats d - 1
/-- The budget allows one more recommendation. -/
def State.budgetFree (s : State) : Bool := decide (s.domain.recommend.length < s.g 0x5013 2)
/-- The recommendations outstanding are counted in G:0x5013.03. -/
def State.countRecommend (s : State) : State := s.setG 0x5013 3 s.domain.recommend.length

/-- A member's score arrives: recommended, marked suspect, or neither. -/
def State.consider (s : State) (d score : Nat) : State :=
  let x := s.domain
  let x : Domain :=
    if s.g 0x5013 1 ≤ score then { x with recommend := x.recommend.filter (· != d), suspect := x.suspect.filter (· != d) }
    else if x.recommend.contains d then x
    else if s.budgetFree then { x with recommend := x.recommend ++ [d], suspect := x.suspect.filter (· != d) }
    else if x.suspect.contains d then x else { x with suspect := x.suspect ++ [d] }
  ({ s with domain := x } : State).countRecommend

/-- The suspect with the lowest score, then the lowest number. -/
def State.worst (s : State) : List Nat → Option Nat
  | [] => none
  | d :: l =>
    match s.worst l with
    | none => some d
    | some e => if s.scoreOf e < s.scoreOf d ∨ (s.scoreOf e = s.scoreOf d ∧ e < d) then some e else some d

/-- At a change of the spare count the suspects are considered again, the lowest score first. -/
def State.reconsider (s : State) : Nat → State
  | 0 => s.countRecommend
  | n + 1 =>
    if s.budgetFree then
      match s.worst s.domain.suspect with
      | some d => ({ s with domain := { s.domain with recommend := s.domain.recommend ++ [d], suspect := s.domain.suspect.filter (· != d) } } : State).reconsider n
      | none => s.countRecommend
    else s.countRecommend

/-- A device leaves the master's records. -/
def Domain.forget (x : Domain) (d : Nat) : Domain :=
  { x with beats := SMap.del d x.beats, recommend := x.recommend.filter (· != d), suspect := x.suspect.filter (· != d) }

/-! ### Views (R445, R447, R448) -/

/-- The member map takes effect: the count and the notice (Table 22.5). -/
def State.setMembers (s : State) (members : List Nat) : State :=
  let t : State := { s with domain := { s.domain with members := members, declared := s.domain.declared.filter (fun d => !members.contains d) } }
  (t.setG 0x5010 7 members.length).noticeMgrs 3

/-- Every device that something outstanding of this one names. -/
def State.peers (s : State) : List Nat :=
  (s.awaits.map (fun (a : Await) => a.dev) ++ s.streams.map (fun e => streamDev e.1) ++ s.sessions.map (·.1) ++
    s.cmds.flatMap (fun (c : Cmd) => (if c.cls = 5 && c.form = 1 then [(c.w 4).fld 0 14] else []) ++ ((fabOpOf c).toList.map FabOp.dev)) ++
    s.fns.flatMap (fun (e : Nat × Fn) => e.2.regions.map (fun (r : Region) => r.dev))).eraseDups
/-- Everything toward a list of peers ends. -/
def State.fencePeers (s : State) : List Nat → State
  | [] => s
  | d :: ds => (s.fencePeer d).fencePeers ds

/-- Send JOIN to the master in force, or to the configured one where none is known (R444). -/
def State.sendJoin (s : State) : State :=
  let m := if s.dMaster = none16 then s.g 0x5010 1 else s.dMaster
  if s.wanted = none16 ∨ m = none16 ∨ m = s.wanted then s else s.domainMsg m 3 s.wanted 0 []

/-- The device becomes fenced (R448). -/
def State.enterFenced (s : State) : State :=
  let was := s.g 0x5010 4
  let t := s.setG 0x5010 4 3
  let t := t.stopBy (s.frame + 1)
  let t := t.fencePeers t.peers
  let t : State := { t with streams := [], sessions := [], answers := [], domain := { t.domain with declared := s.domain.declared } }
  let t := t.loseReference 1
  if was = 1 ∨ was = 3 then t else t.sendJoin

/-- A device takes the number, the role and the epoch of a view. -/
def State.takeView (s : State) (master epoch : Nat) (members : List Nat) : State :=
  let gone := s.domain.members.filter (fun d => !members.contains d && d != s.self)
  let me := if s.isMember || s.isMaster then s.self else s.wanted
  let t := s.fencePeers gone
  let t := (((t.setG 0x5000 1 me).setG 0x5010 4 (if master = me then 4 else 2)).setG 0x5010 5 epoch).setG 0x5010 6 master
  let t := (t.setMembers members).mark clockAck
  if master = me then members.foldl (fun (u : State) d => u.mark (clockBeat d)) (t.setG 0x4801 2 2) else t

/-- A VIEW arrives: the rules of R445, and R447 and R448 for what it omits. -/
def State.hearView (s : State) (master epoch : Nat) (members : List Nat) (rearm : Bool) : State :=
  if s.isMember || s.isMaster then
    let newer := laterMod 32 epoch s.dEpoch || (epoch == s.dEpoch && master != s.dMaster && master == s.g 0x5010 1)
    if !newer then (if rearm && s.isMember then (s.setG 0x4801 2 4).setServo 1 Servo.clear else s)
    else if members.contains s.self then
      let t := s.takeView master epoch members
      if rearm && t.isMember then (t.setG 0x4801 2 4).setServo 1 Servo.clear else t
    else
      let gone := s.domain.members.filter (fun d => !members.contains d && d != s.self)
      (((s.setG 0x5010 5 epoch).setG 0x5010 6 master).fencePeers gone).enterFenced
  else if members.contains s.wanted then s.takeView master epoch members
  else if s.wanted = none16 then s
  else (s.setG 0x5010 6 master).setG 0x5010 4 (if s.g 0x5010 4 = 0 then 1 else s.g 0x5010 4)

/-- The standby keeps the copy that a VIEW of the master in force brings: its health table, the members' firmware states and
its spare count (R450). -/
def State.keepCopy (s : State) (master epoch : Nat) (copy : MasterCopy) : State :=
  if s.isMember && s.self == s.g 0x5010 2 && s.dMaster == master && s.dEpoch == epoch then
    ({ s with domain := { s.domain with
        beats := copy.health.foldl (fun (m : SMap Nat) e => SMap.put e.1 (e.2 + 1) m) []
        fwStates := copy.firmware.foldl (fun (m : SMap Nat) e => SMap.set (fun _ => 0) m e.1 e.2) [] } } : State).setG 0x5013 2 copy.spares
  else s

/-! ### Declaring (R446, R463) -/

/-- The master changes the view: the epoch rises, and the VIEW goes to all. -/
def State.changeView (s : State) (members : List Nat) : State :=
  (((s.setG 0x5010 5 (s.dEpoch + 1)).setMembers members)).sendView 0

/-- Insert a number in ascending order. -/
def insertNat (d : Nat) : List Nat → List Nat
  | [] => [d]
  | e :: l => if d < e then d :: e :: l else if d = e then e :: l else e :: insertNat d l

/-- The master declares a device failed (cause 0) or expelled (cause 1): a VIEW without it and a DECLARE, also to the
device's partner; then R447. -/
def State.declareDevice (s : State) (d cause : Nat) : State :=
  let t : State := { s with domain := s.domain.forget d }
  let t := (t.changeView (t.domain.members.filter (· != d))).addG 0x5011 5 1
  let t := t.relayAll 0 5 (d + cause * 2 ^ 16) t.dEpoch []
  let t := t.domainMsg (d ^^^ 4096) 5 (d + cause * 2 ^ 16) t.dEpoch []
  (t.fencePeer d).countRecommend

/-- MISSED_BEATS_DECLARE. -/
def execMissedBeatsDeclare (d : Nat) (s : State) : Host.Outcome State Fault Refusal :=
  if 8192 ≤ d then .fault .noSuchUnit
  else if s.up && s.isMaster && s.inView d && d != s.self && s.elapsed (clockBeat d) (s.g 0x5011 1 * s.g 0x5011 2) then
    .next (s.declareDevice d 0)
  else .next s

/-! ### The takeover of a partner (R455) -/

/-- The device takes over its partner's cells at a boundary, or refuses (R44, R455). `named` is the frame of a RELINQUISH.
-/
def State.acceptTakeover (s : State) (named : Option Nat) : State :=
  if s.cal.takeoverAt.isSome then s
  else if s.g 0x2401 3 != 4 || s.standby.isEmpty then s.raise ErrCode.takeoverRefused none16 none16 s.partner
  else
    let n := s.nextBoundary
    let b := match named with
      | some f => if n ≤ f then f else n
      | none => n
    ({ s with cal := { s.cal with takeoverAt := some b } } : State).toPartner 0x0C b

/-! ### Commands of the membership -/

/-- BEAT_SEND: epoch, health score and firmware state. -/
def execBeatSend (s : State) : Host.Outcome State Fault Refusal :=
  if s.up && s.isMember then .next (s.domainMsg s.dMaster 1 s.dEpoch (s.g 0x8000 1 + s.g 0x5018 1 * 2 ^ 16) []) else .next s

/-- JOIN_RESEND: a device with a requested number that no VIEW lists is joining. -/
def execJoinResend (s : State) : Host.Outcome State Fault Refusal :=
  if s.up && s.wanted != none16 && (s.g 0x5010 4 == 0 || s.g 0x5010 4 == 1 || s.g 0x5010 4 == 3) then
    .next (((if s.g 0x5010 4 = 0 then s.setG 0x5010 4 1 else s)).sendJoin)
  else .next s

/-- TIME_REQ_SEND: stamped in TB1; a new exchange begins. -/
def execTimeReqSend (s : State) : Host.Outcome State Fault Refusal :=
  if s.up && s.isMember then
    .next ((s.setServo 1 (fun x => { x with missed := x.missed + 1 })).domainMsg s.dMaster 7 (s.time 1) 0 [])
  else .next s

/-- SELF_FENCE: no BEAT_ACK and no PBEAT for G:0x5011.03. -/
def execSelfFence (s : State) : Host.Outcome State Fault Refusal :=
  if s.up && s.isMember && s.domain.stopAt.isNone && s.elapsed clockAck (s.g 0x5011 3) && s.elapsed clockPartner (s.g 0x5011 3) then
    .next (s.stopBy (s.frame + 1))
  else .next s

/-- STANDBY_PROMOTION: the standby names itself master and declares the old one failed. -/
def execStandbyPromotion (s : State) : Host.Outcome State Fault Refusal :=
  if s.up && s.isMember && s.self == s.g 0x5010 2 && s.elapsed clockAck (s.g 0x5011 4) then
    let old := s.dMaster
    let t := ((s.setG 0x5010 4 4).setG 0x5010 6 s.self).setG 0x4801 2 2
    let t := s.domain.members.foldl (fun (u : State) d => u.mark (clockBeat d)) t
    .next (t.declareDevice old 0)
  else .next s

/-- MASTER_LISTEN_EXPIRY: the configured master hears no VIEW and forms the domain alone at epoch 1. -/
def execMasterListenExpiry (s : State) : Host.Outcome State Fault Refusal :=
  if s.up && s.wanted != none16 && s.g 0x5010 1 == s.wanted && decide (s.g 0x5010 4 ≤ 1) && s.dMaster == none16 &&
      s.elapsed clockListen (s.g 0x5011 4) then
    .next (s.takeView s.wanted 1 [s.wanted])
  else .next s

/-- VIEW_REPEAT: every 100 ms, by the next relay of each rack. -/
def execViewRepeat (s : State) : Host.Outcome State Fault Refusal :=
  if s.up && s.isMaster && s.elapsed clockView 100000 then
    let t : State := { s with domain := { s.domain with relay := s.domain.relay + 1 } }
    .next (t.sendView t.domain.relay)
  else .next s

/-- What a BEAT reports is recorded (R461, R462). -/
def State.recordBeat (s : State) (d score fwState : Nat) : State :=
  let t := s.mark (clockBeat d)
  let t : State := { t with domain := { t.domain with beats := SMap.put d (score + 1) t.domain.beats, fwStates := SMap.set (fun _ => 0) t.domain.fwStates d fwState } }
  let t := if fwState = 4 then t.setG (0x5120 + d % 4096 / 128) (d % 128 + 1) 1 else t
  t.consider d score

/-- BEAT: a non-member gets FENCE_NOTICE, a member BEAT_ACK and, where its epoch is earlier, the current VIEW. -/
def execBeat (d epoch score fwState : Nat) (s : State) : Host.Outcome State Fault Refusal :=
  if 8192 ≤ d then .fault .noSuchUnit
  else if !s.up || !s.isMaster then .next s
  else if !s.inView d then .next (s.sendFence d)
  else
    let t := (s.recordBeat d score fwState).domainMsg d 2 s.dEpoch 0 []
    .next (if laterMod 32 s.dEpoch epoch then t.sendViewTo d else t)

/-- BEAT_ACK. -/
def execBeatAck (d epoch : Nat) (s : State) : Host.Outcome State Fault Refusal :=
  if 8192 ≤ d ∨ 2 ^ 32 ≤ epoch then .fault .noSuchUnit
  else if s.up && s.isMember && d == s.dMaster then .next (s.mark clockAck) else .next s

/-- JOIN: the master admits a device that passed the check of R411 and asks for a free number; a number that is held or
expelled is refused. -/
def execJoin (d number : Nat) (identityOk : Bool) (s : State) : Host.Outcome State Fault Refusal :=
  if 8192 ≤ d ∨ 8192 ≤ number then .fault .noSuchUnit
  else if !s.up || !s.isMaster || !identityOk then .next s
  else if s.inView number || s.domain.expelled.contains number then .next ((s.sendFence d).addG 0x5011 6 1)
  else .next ((s.mark (clockBeat number)).changeView (insertNat number s.domain.members))

/-- VIEW. -/
def execView (master standby epoch : Nat) (members : List Nat) (copy : MasterCopy) (rearm relay : Bool) (s : State) : Host.Outcome State Fault Refusal :=
  if 8192 ≤ master ∨ members.any (fun d => decide (8192 ≤ d)) then .fault .noSuchUnit
  else if !s.up then .next s
  else
    let t := (s.hearView master epoch members rearm).keepCopy master epoch copy
    .next (if relay && t.isMember then t.passOn 4 epoch (master + standby * 2 ^ 16) (memberMap members) else t)

/-- DECLARE: R447 for the device, and the takeover where it is the partner (R455). One of an earlier epoch than the held
one is old news about a member. -/
def execDeclare (d cause epoch : Nat) (relay : Bool) (s : State) : Host.Outcome State Fault Refusal :=
  if 8192 ≤ d then .fault .noSuchUnit
  else if !s.up || d == s.self then .next s
  else if d == s.partner && s.self != none16 then .next ((s.fencePeer d).acceptTakeover none)
  else
    let t := if laterMod 32 s.dEpoch epoch then s else s.fencePeer d
    .next (if relay && s.isMember then t.passOn 5 (d + cause * 2 ^ 16) epoch [] else t)

/-- FENCE_NOTICE. -/
def execFenceNotice (epoch : Nat) (s : State) : Host.Outcome State Fault Refusal :=
  if 2 ^ 32 ≤ epoch then .fault .noSuchUnit
  else if s.up && s.g 0x5010 4 != 0 then .next s.enterFenced else .next s

/-- TIME_REQ: t2 is its receive stamp, t3 the stamp of the answer; a non-member gets FENCE_NOTICE. -/
def execTimeReq (d t1 t2 : Nat) (s : State) : Host.Outcome State Fault Refusal :=
  if 8192 ≤ d then .fault .noSuchUnit
  else if !s.up || !s.isMaster then .next s
  else if !s.inView d then .next (s.sendFence d)
  else .next (s.domainMsg d 8 t2 (s.time 1) (leBytes 12 t1))

/-- TIME_RESP: the phase error of TB1 from four stamps (R451). -/
def execTimeResp (t1 t2 t3 t4 : Nat) (s : State) : Host.Outcome State Fault Refusal :=
  if s.up && s.isMember then .next ((s.setServo 1 (fun x => { x with missed := 0 })).measure 1 ((((t2 : Int) - t1) - ((t4 : Int) - t3)) / 2)) else .next s

/-! ### Writes of the master's objects -/

/-- The master in force makes these changes; any other device refuses them. -/
def State.onMaster (s : State) : Except Refused Unit := ensure s.isMaster Status.accessDenied

/-- The rule of EXPEL: the spare count falls, the recommendation goes, the member is declared with cause 1 (R463). -/
def expelRule (d : Nat) (_ : ObjRow) (s : State) : Except Refused State := do
  s.onMaster
  ensure (s.inView d && d != s.self) Status.accessDenied
  let t := s.setG 0x5013 2 (s.g 0x5013 2 - 1)
  let t := t.declareDevice d 1
  .ok { t with domain := { t.domain with expelled := if t.domain.expelled.contains d then t.domain.expelled else t.domain.expelled ++ [d] } }
/-- EXPEL. -/
def execExpel (path : Path) (d : Nat) (s : State) : Host.Outcome State Fault Refusal :=
  .next (s.access path 1023 0x5013 4 none d (expelRule d))

/-- The rule of READMIT: a readmission changes the view (R445, R463). -/
def readmitRule (d : Nat) (_ : ObjRow) (s : State) : Except Refused State := do
  s.onMaster
  if s.domain.expelled.contains d then
    .ok (({ s with domain := { s.domain with expelled := s.domain.expelled.filter (· != d) } } : State).changeView s.domain.members)
  else .ok s
/-- READMIT. -/
def execReadmit (path : Path) (d : Nat) (s : State) : Host.Outcome State Fault Refusal :=
  .next (s.access path 1023 0x5013 5 none d (readmitRule d))

/-- A stored write of the configured master takes effect: the master in force hands the mastership to a named member
(R450). -/
def State.setConfigured (s : State) (value : Nat) : State :=
  let t := s.setG 0x5010 1 value
  if s.isMaster && value != s.self && s.inView value then
    let t := (t.setG 0x5010 5 (t.dEpoch + 1))
    let t := (t.relayAll 0 4 t.dEpoch (value + t.g 0x5010 2 * 2 ^ 16) (memberMap t.domain.members)).mark clockView
    ((((t.setG 0x5010 6 value).setG 0x5010 4 2).noticeMgrs 3)).mark clockAck
  else t
/-- CONFIGURED_MASTER_WRITE: the object is stored, so its effect waits for the flash (R526). -/
def execConfiguredMasterWrite (path : Path) (value : Nat) (s : State) : Host.Outcome State Fault Refusal :=
  .next (s.access path 1023 0x5010 1 none value (storeRule 1023 0x5010 1 value))

end Sys2Proof.Machine
end

