-- ==== Sys2Proof/Machine/Keys.lean ====
section
/-!
DEFINITION. The image that runs, the colophon and the end of an unlock sequence, as several chapters use them (R502-R506,
R511, R512).
-/

namespace Sys2Proof.Machine

/-- Write an object that the device itself keeps in flash. -/
def State.storeG (s : State) (index sub v : Nat) : State :=
  let t := s.setG index sub v
  { t with sec := { t.sec with flash := SMap.put (objKey 1023 index sub) (t.g index sub) t.sec.flash } }

/-- Version and SVN of the image that runs (Table 19.2). -/
def State.imageVersion (s : State) : Nat := if s.sec.running = 0 then Config.imageVersion else (s.sec.running - 1) % 2 ^ 32
def State.imageSvn (s : State) : Nat := s.sec.imageSvn
/-- What identifies Alias_2: it changes with the image, its SVN and δ (R502). -/
def State.aliasId (s : State) : Nat := s.sec.delta.toNat + 2 * (s.imageSvn + 256 * s.imageVersion)

/-- Bytes of a key, a digest or a signature: purposes 0 DeviceID, 1 Alias_2, 2 boot ROM measurement, 3 SECFW, 4 CTLFW, 5
ENGTAB, 6 certificate chain, 7 colophon signature, 8 digest of the chain (log entry 10). -/
def cryptoBytes (purpose x n : Nat) : List Byte := (List.range n).map (Config.digestByte (purpose + 16 * x))

/-- An entry of G:0x7013 (Table 18.6). -/
def fencedWord (e : Nat × Nat) : Nat := e.1 + e.2 * 2 ^ 16

/-- The harvest map digest (Table 17.3). -/
def State.mapDigest (s : State) : Nat := Config.mapDigest s.harvest % 2 ^ 64

/-- Bytes 0 to 1,535 of a colophon (Table 19.6). -/
def State.colophonBody (s : State) (seq : Nat) : List Byte :=
  leBytes 4 1 ++ leBytes 4 0x00B19640 ++ leBytes 8 Config.serial ++ leBytes 8 seq ++ leBytes 12 (timeWord (s.time 2)) ++
    leBytes 4 s.imageVersion ++ leBytes 4 s.imageSvn ++ leBytes 4 (s.g 0x9001 1) ++ cryptoBytes 0 0 32 ++ cryptoBytes 1 s.aliasId 32 ++
    cryptoBytes 2 0 64 ++ cryptoBytes 3 s.imageVersion 64 ++ cryptoBytes 4 s.imageVersion 64 ++ cryptoBytes 5 s.imageVersion 64 ++
    leBytes 2 (s.g 0x7801 1) ++ leBytes 1 (s.g 0x7800 2) ++ leBytes 1 (s.g 0xF000 1) ++ leBytes 2 s.fenced.length ++ leBytes 2 0 ++
    leBytes 8 s.mapDigest ++ (List.range 96).flatMap (fun c => leBytes 1 (s.harvest.getD c 0)) ++
    (List.range 32).flatMap (fun c => leBytes 1 (s.harvest.getD (96 + c) 0)) ++
    (List.range 254).flatMap (fun k => leBytes 4 ((s.fenced[k]?).elim 0 fencedWord)) ++ leBytes 8 0

/-- Rebuild the colophon with its sequence raised by one (R506). -/
def State.rebuildColophon (s : State) : State :=
  let seq := (s.g 0x1000 4 + 1) % 2 ^ 64
  let body := s.colophonBody seq
  (s.storeG 0x1000 4 seq).setG 0x1000 3 (leNat (body ++ cryptoBytes 7 seq 64))

/-- Destroys start for a list of functions, whose TDIs enter ERROR (Table 19.10). -/
def State.destroyAll (s : State) : List Nat → State
  | [] => s
  | f :: fs => ((s.beginReset f true).setO f 0x9011 1 3).destroyAll fs

/-- Table 19.10 from the stop of the cells on: destroys, zeroized keys, Alias keys with δ = 1, the colophon, and debug
access in the token's scope. -/
def State.finishUnlock (s : State) : State :=
  let t := s.destroyAll (s.presentFns.filter (fun f => decide (f < 512)))
  let t := t.rotatePages (t.fns.flatMap (fun (e : Nat × Fn) => e.2.pages))
  let t : State := { t with sessions := [], sec := { t.sec with
    spdm := t.sec.spdm.map (fun (e : Nat × Spdm) => (e.1, { e.2 with sessions := [] })), ide := [], delta := true, unlocking := false } }
  (((((t.setG 0x9010 1 0).setG 0x9010 2 0).setG 0xF000 1 1).setG 0xF000 4 t.sec.unlockScope)).rebuildColophon

end Sys2Proof.Machine
end

