-- ==== Sys2Proof/Machine/Partner.lean ====
section
/-!
DEFINITION. Partners and firmware distribution: PBEAT, the shipment of the radio state, takeover and hand-back, the stop of
the cells, and the image chunks with their two-phase commit (R452-R461).
-/

namespace Sys2Proof.Machine

/-! ### Partner beats (R452) -/

/-- PBEAT_SEND: partner state and last frame shipped, on every up partner lane. -/
def execPbeatSend (s : State) : Host.Outcome State Fault Refusal :=
  if s.up && s.protection then .next (s.onPartnerLanes 9 (s.g 0x5012 2) (s.g 0x5012 7) [] s.upPartners) else .next s

/-- PBEAT. -/
def execPbeat (state frame : Nat) (s : State) : Host.Outcome State Fault Refusal :=
  if 4 < state ∨ 2 ^ 64 ≤ frame then .fault .noSuchUnit
  else if !s.up then .next s
  else
    let t := s.mark clockPartner
    .next (if s.protection && (s.g 0x5012 2 == 0 || s.g 0x5012 2 == 2) then t.setPartner 1 else t)

/-- PARTNER_UNPROTECTED_TIMEOUT: no PBEAT within 300 us. -/
def execPartnerUnprotectedTimeout (s : State) : Host.Outcome State Fault Refusal :=
  if s.up && s.protection && (s.g 0x5012 2 == 0 || s.g 0x5012 2 == 1) && s.elapsed clockPartner 300 then
    .next ((s.setPartner 2).raise ErrCode.partnerUnprotected none16 none16 0)
  else .next s

/-! ### Shipments (R453, R458, Table 16.2) -/

/-- A hand-back is under way: the shipment lists the cells taken over, with their tracks. -/
def State.handingBack (s : State) : Bool := s.domain.handBack.isSome
/-- The cells that a shipment lists. -/
def State.shipCells (s : State) : List Nat :=
  if s.handingBack then s.activeCells.filter (fun c => s.domain.holding.contains c) else s.activeCells
/-- The 256 tracks of each of the 16 pilot trackers. -/
def State.shipTracks (s : State) : List Byte :=
  let from256 := if s.handingBack then 256 else 0
  (List.range 16).flatMap (fun k => (List.range 256).flatMap (fun i =>
    let e := SMap.get (fun _ => (0, 0)) s.tracks (k * 512 + from256 + i)
    leBytes 4 e.1 ++ leBytes 4 e.2))
/-- The radio owner's ship area; nothing where it is not in its grant. -/
def State.shipOwner (s : State) : List Byte :=
  let a := devAddr (s.g 0x5012 3)
  let n := s.g 0x5012 4
  if s.radioOwner < 512 && (a.space == 1 || a.space == 2) && s.addrOk s.radioOwner a n then s.readAt s.radioOwner a n else []
/-- A shipment with a CRC field. -/
def State.shipWith (s : State) (crc : Nat) : List Byte :=
  let cells := s.shipCells
  let owner := s.shipOwner
  leBytes 8 s.frame ++ leBytes 4 s.self ++ leBytes 4 cells.length ++ leBytes 4 owner.length ++ leBytes 4 crc ++
    List.replicate 40 0 ++ cells.flatMap (fun c => leBytes 4 c) ++ s.shipTracks ++ owner
def State.shipment (s : State) : List Byte := s.shipWith (crc32c (s.shipWith 0))

/-- The pieces of a shipment, each with its offset, go round the up partner lanes. -/
def State.shipPieces (s : State) (lanes : List Nat) (total : Nat) : List (List Byte × Nat) → State
  | [] => s
  | e :: l =>
    (s.domainOn (lanes.getD (e.2 % lanes.length) 0) s.partner 0x0A s.frame (4096 * e.2 + total * 2 ^ 32) e.1).shipPieces lanes total l

/-- SHIPMENT_START: from granule 3,200, once a frame. -/
def execShipmentStart (s : State) : Host.Outcome State Fault Refusal :=
  if s.up && s.protection && !s.upPartners.isEmpty && !s.shipCells.isEmpty && decide (3200 ≤ s.granule) && (s.g 0x5012 7 != s.frame || s.frame == 0) then
    let b := s.shipment
    .next ((s.shipPieces s.upPartners b.length (chunksOf 4096 (b.length / 4096 + 1) b).zipIdx).setG 0x5012 7 s.frame)
  else .next s

/-- A field of a shipment of n bytes. -/
def shipField (b : List Byte) (at_ n : Nat) : Nat := leNat ((b.drop at_).take n)
/-- A shipment whose CRC field is zero. -/
def blankCrc (b : List Byte) : List Byte := b.take 20 ++ [0, 0, 0, 0] ++ b.drop 24
/-- Every piece fits the frame and the receive area, and the CRC matches. -/
def State.shipmentOk (s : State) (b : List Byte) : Bool :=
  let olen := shipField b 16 4
  let a := devAddr (s.g 0x5012 5)
  shipField b 0 8 == s.frame && shipField b 8 4 == s.partner && b.length == 64 + 4 * shipField b 12 4 + 32768 + olen &&
    decide (olen ≤ s.g 0x5012 6) && shipField b 20 4 == crc32c (blankCrc b) &&
    (olen == 0 || (decide (s.radioOwner < 512) && (a.space == 1 || a.space == 2) && s.addrOk s.radioOwner a (2 * s.g 0x5012 6)))
/-- The shipped tracks, keyed by tracker × 512 + track. -/
def shipTrackList (b : List Byte) : SMap (Nat × Nat) :=
  (List.range 4096).foldl (fun (m : SMap (Nat × Nat)) i =>
    SMap.set (fun _ => (0, 0)) m (i / 256 * 512 + i % 256) (shipField b (8 * i) 4, shipField b (8 * i + 4) 4)) []
/-- Write bytes at an address of a function. -/
def State.putAt (s : State) (f : Nat) (a : DevAddr) : List (Byte × Nat) → State
  | [] => s
  | e :: l => (s.wr (s.flat f a e.2) e.1).putAt f a l
/-- A complete shipment is kept: its cells, its tracks and the owner area. -/
def State.keepShipment (s : State) (b : List Byte) : State :=
  let n := shipField b 12 4
  let a := (devAddr (s.g 0x5012 5)).plus (s.frame % 2 * s.g 0x5012 6)
  let t := s.putAt s.radioOwner a (b.drop (64 + 4 * n + 32768)).zipIdx
  ({ t with domain := { t.domain with
      lastCells := (List.range n).map (fun i => shipField b (64 + 4 * i) 4 % 1024)
      lastTracks := shipTrackList (b.drop (64 + 4 * n)), rxTotal := 0, rxBytes := [] } } : State).setG 0x5012 8 s.frame

/-- Pieces in the order of their offsets. -/
def insertPiece (e : Nat × List Byte) : List (Nat × List Byte) → List (Nat × List Byte)
  | [] => [e]
  | f :: l => if e.1 < f.1 then e :: f :: l else if e.1 = f.1 then f :: l else f :: insertPiece e l

/-- A piece of the shipment of the current frame, before its seam. -/
def State.takePiece (s : State) (offset total : Nat) (data : List Byte) : State :=
  let l := insertPiece (offset, data) (if s.domain.rxFrame = s.frame then s.domain.rxBytes else [])
  let t : State := { s with domain := { s.domain with rxFrame := s.frame, rxBytes := l, rxTotal := total } }
  let b := l.flatMap (·.2)
  if b.length < total then t
  else if t.shipmentOk b then t.keepShipment b else t.closeShipment

/-- PSTATE: a piece that comes too late makes its shipment incomplete. -/
def execPstate (frame offset total : Nat) (data : List Byte) (s : State) : Host.Outcome State Fault Refusal :=
  if 4096 < data.length ∨ total = 0 ∨ 2 ^ 32 ≤ total ∨ total < offset + data.length then .fault .noSuchUnit
  else if !s.up || !s.protection then .next s
  else if frame = s.frame && decide (s.cycle < seamStart) then
    .next ((if s.domain.rxFrame = frame then s else s.closeShipment).takePiece offset total data)
  else if s.domain.rxFrame = frame then .next s.closeShipment
  else
    let t : State := { s with domain := { s.domain with rxFrame := frame, rxBytes := [], rxTotal := 0 } }
    .next (t.addG 0x5012 0x0C 1)

/-! ### Takeover, relinquishing and hand-back (R455-R458) -/

/-- RELINQUISH: the partner names the boundary. -/
def execRelinquish (frame : Nat) (s : State) : Host.Outcome State Fault Refusal :=
  if 2 ^ 64 ≤ frame then .fault .noSuchUnit
  else if s.up && s.self != none16 then .next (s.acceptTakeover (some frame)) else .next s

/-- The CLAIM that answers the RELINQUISH of a hand-back: it names frame H or a later one (R455, R458). -/
def State.claimsBack (s : State) (frame : Nat) : Bool := s.domain.handBack.any (fun h => decide (h ≤ frame))
/-- CLAIM: the partner takes the cells at the named boundary; in a hand-back those it takes stop at H already. -/
def execClaim (frame : Nat) (s : State) : Host.Outcome State Fault Refusal :=
  if 2 ^ 64 ≤ frame then .fault .noSuchUnit
  else if s.up && !s.claimsBack frame then .next (s.stopBy frame) else .next s

/-- CELLS_STOP: the boundary of a stop has come, or frame H of a hand-back. An unlock sequence that waited for the stop goes
on (Table 19.10). -/
def execCellsStop (s : State) : Host.Outcome State Fault Refusal :=
  if s.up && s.domain.stopAt.any (fun b => decide (b ≤ s.frame)) then
    .next (if s.sec.unlocking then s.stopCells.finishUnlock else s.stopCells)
  else if s.up && s.domain.handBack.any (fun b => decide (b ≤ s.frame)) then .next s.stopHeld
  else .next s

/-- The rule of HAND_BACK_WRITE: a holding device names a frame at least three ahead, and sends RELINQUISH naming it. -/
def handBackRule (frame : Nat) (_ : ObjRow) (s : State) : Except Refused State := do
  ensure (s.g 0x5012 2 == 4 && decide (s.frame + 3 ≤ frame)) Status.accessDenied
  .ok (({ s with domain := { s.domain with handBack := some frame } } : State).toPartner 0x0B frame)
/-- HAND_BACK_WRITE. -/
def execHandBackWrite (path : Path) (frame : Nat) (s : State) : Host.Outcome State Fault Refusal :=
  .next (s.access path 1023 0x5012 0x0A none frame (handBackRule frame))

/-! ### Firmware distribution (R460, R461) -/

/-- The members that an image goes to: all but the master itself. -/
def State.fwMembers (s : State) : List Nat := s.domain.members.filter (· != s.self)
/-- The firmware result of a member. -/
def State.setFwResult (s : State) (d v : Nat) : State := s.setG (0x5120 + d % 4096 / 128) (d % 128 + 1) v
def State.setFwResults (s : State) (v : Nat) : List Nat → State
  | [] => s
  | d :: ds => (s.setFwResult d v).setFwResults v ds
/-- Word a of a CHUNK: its number and the count. -/
def chunkWord (index count : Nat) : Nat := index + count * 2 ^ 32
/-- Send chunks to all members. -/
def State.sendChunks (s : State) : List Nat → State
  | [] => s
  | i :: l => (s.relayAll 0 0x0D (chunkWord i s.domain.fwCount) s.domain.fwVersion []).sendChunks l
/-- Send chunks to one member again. -/
def State.resendChunks (s : State) (d : Nat) : List Nat → State
  | [] => s
  | i :: l => (s.domainMsg d 0x0D (chunkWord i s.domain.fwCount) s.domain.fwVersion []).resendChunks d l

/-- The rule of a distribution: only the master in force starts one. -/
def distributionRule (length version : Nat) (_ : ObjRow) (s : State) : Except Refused State := do
  s.onMaster
  let t := s.setG 0x5018 7 length
  let t : State := { t with domain := { t.domain with fwCount := cdiv length 65536, fwVersion := version, fwRounds := [], fwDone := [], fwPrepared := false } }
  .ok ((t.setFwResults 0 t.fwMembers).sendChunks (List.range (cdiv length 65536)))
/-- FIRMWARE_DISTRIBUTION_START: the write of the length; `version` is that of the image's header. -/
def execFirmwareDistributionStart (path : Path) (length version : Nat) (s : State) : Host.Outcome State Fault Refusal :=
  .next (s.access path 1023 0x5018 7 none length (distributionRule length version))

/-- A member starts to receive an image. -/
def State.beginStage (s : State) (version : Nat) : State :=
  (({ s with domain := { s.domain with fwHeld := [] } } : State).setG 0x5018 1 1).setG 0x5018 2 version |>.setG 0x5018 3 0
/-- The image is whole: verified, or refused with the code of Table 19.3 of the failed check (R499). -/
def State.checkImage (s : State) (verified : Bool) : State :=
  if verified then (s.setG 0x5018 1 2).setG 0x9002 3 0
  else
    let (v, t) := s.fresh
    (t.setG 0x5018 1 5).setG 0x9002 3 (1 + v % 5)
/-- The chunks held as a bitmap of 128 bytes. -/
def chunkMap (held : List Nat) : List Byte :=
  (List.range 128).map (fun i => BitVec.ofNat 8 ((List.range 8).foldl (fun (v : Nat) j => if held.contains (8 * i + j) then v + 2 ^ j else v) 0))
/-- A chunk is held. -/
def State.holdChunk (s : State) (index count : Nat) (verified : Bool) : State :=
  if s.domain.fwHeld.contains index || s.g 0x5018 1 != 1 then s
  else
    let t : State := { s with domain := { s.domain with fwHeld := insertNat index s.domain.fwHeld } }
    let t := t.setG 0x5018 3 t.domain.fwHeld.length
    if t.domain.fwHeld.length = count then t.checkImage verified else t
/-- CHUNK: `verified` is what the checks of R499 find once the image is whole. -/
def execChunk (index count version : Nat) (verified relay : Bool) (s : State) : Host.Outcome State Fault Refusal :=
  if 1024 < count ∨ count ≤ index then .fault .noSuchUnit
  else if !s.up || !s.isMember then .next s
  else
    let t := if s.g 0x5018 1 = 0 ∨ s.g 0x5018 2 ≠ version then s.beginStage version else s
    let t := t.holdChunk index count verified
    let t := if index + 1 = count ∨ t.domain.fwHeld.length = count then t.domainMsg t.dMaster 0x0E version 0 (chunkMap t.domain.fwHeld) else t
    .next (if relay then t.passOn 0x0D (chunkWord index count) version [] else t)

/-- When every member holds the image or is missed, the master sends PREPARE. -/
def State.tryPrepare (s : State) : State :=
  if !s.domain.fwPrepared && decide (0 < s.domain.fwCount) && s.fwMembers.all (fun d => s.domain.fwDone.contains d) then
    ({ s with domain := { s.domain with fwPrepared := true } } : State).relayAll 0 0x0F s.domain.fwVersion 0 []
  else s
/-- A member needs no more chunks. -/
def State.fwFinish (s : State) (d : Nat) : State :=
  ({ s with domain := { s.domain with fwDone := if s.domain.fwDone.contains d then s.domain.fwDone else s.domain.fwDone ++ [d] } } : State).tryPrepare
/-- BITMAP: up to three rounds of missing chunks, then the member is missed. -/
def execBitmap (d : Nat) (held : List Nat) (s : State) : Host.Outcome State Fault Refusal :=
  if 8192 ≤ d then .fault .noSuchUnit
  else if !s.up || !s.isMaster || s.domain.fwDone.contains d || s.domain.fwCount == 0 then .next s
  else if !s.inView d then .next (s.sendFence d)
  else
    let missing := (List.range s.domain.fwCount).filter (fun i => !held.contains i)
    let rounds := SMap.get (fun _ => 0) s.domain.fwRounds d
    if missing.isEmpty then .next (s.fwFinish d)
    else if rounds < 3 then
      let t : State := { s with domain := { s.domain with fwRounds := SMap.put d (rounds + 1) s.domain.fwRounds } }
      .next (t.resendChunks d missing)
    else .next ((s.setFwResult d 2).fwFinish d)

/-- PREPARE: yes only with a verified copy of that image. -/
def execPrepare (version : Nat) (relay : Bool) (s : State) : Host.Outcome State Fault Refusal :=
  if !s.up || !s.isMember then .next s
  else
    let yes := (s.g 0x5018 1 == 2 || s.g 0x5018 1 == 3) && s.g 0x5018 2 == version
    let t := if yes then (s.setG 0x5018 1 3).mark clockPrepare else s
    let t := t.domainMsg t.dMaster 0x10 version yes.toNat []
    .next (if relay then t.passOn 0x0F version 0 [] else t)

/-- VOTE: COMMIT to a yes voter, ABORT to another, whose result is recorded. -/
def execVote (d : Nat) (yes : Bool) (s : State) : Host.Outcome State Fault Refusal :=
  if 8192 ≤ d then .fault .noSuchUnit
  else if !s.up || !s.isMaster || !s.domain.fwPrepared then .next s
  else if !s.inView d then .next (s.sendFence d)
  else if yes then .next (s.domainMsg d 0x11 s.domain.fwVersion 0 [])
  else
    let old := s.g (0x5120 + d % 4096 / 128) (d % 128 + 1)
    let t := if old = 2 then s else s.setFwResult d (if SMap.get (fun _ => 0) s.domain.fwStates d = 5 then 3 else 4)
    .next (t.domainMsg d 0x12 s.domain.fwVersion 0 [])

/-- COMMIT: the image becomes the boot image, signed in flash, in the slot that was not the boot slot (R461, R500). -/
def execCommit (version : Nat) (s : State) : Host.Outcome State Fault Refusal :=
  if s.up && s.g 0x5018 1 == 3 && s.g 0x5018 2 == version then
    let slot := 1 - s.g 0x9002 1
    let t := (s.setG 0x5018 1 4).storeG 0x9002 1 slot
    .next { t with sec := { t.sec with images := SMap.set (fun _ => 0) t.sec.images slot (version + 1) } }
  else .next s

/-- ABORT. -/
def execAbort (version : Nat) (s : State) : Host.Outcome State Fault Refusal :=
  if s.up && (s.g 0x5018 1 == 1 || s.g 0x5018 1 == 2 || s.g 0x5018 1 == 3) && s.g 0x5018 2 == version then .next (s.setG 0x5018 1 5) else .next s

/-- COMMIT_TIMEOUT: 10 s after its yes. -/
def execCommitTimeout (s : State) : Host.Outcome State Fault Refusal :=
  if s.up && s.g 0x5018 1 == 3 && s.elapsed clockPrepare 10000000 then .next (s.setG 0x5018 1 5) else .next s

end Sys2Proof.Machine
end

