-- ==== Sys2Proof/Machine/HostPorts.lean ====
section
/-!
DEFINITION. The host ports: links and port resets, function-level resets, visibility, MSI-X, notices, and link errors
(R554-R567, R478-R481).
-/

namespace Sys2Proof.Machine

/-! ### Resets that a host causes (R565, R566, R478, R480, R481) -/

/-- The configuration space of a function after a reset of its port or an FLR (log entry 19). -/
def State.clearConfig (s : State) (f : Nat) : State :=
  s.modFn f (fun (x : Fn) => { x with msixOff := false, msixMask := [0, 1, 2, 3], msixPend := [], d3hot := false })

/-- Start a function reset of every function of a list that has a grant (R363). -/
def State.resetFns (s : State) : List Nat → State
  | [] => s
  | f :: fs => ((if s.present f then s.beginReset f false else s).clearConfig f).resetFns fs

/-- The link of a port is down. -/
def State.dropLink (s : State) (p : Nat) : State := s.setG 0x1130 (p + 1) 0

/-- VF Enable, NumVFs and PTM Enable read 0. -/
def State.clearPort (s : State) (p : Nat) : State :=
  s.setPort p { s.port p with vfEnable := false, numVfs := 0, ptm := false }

/-- A port reset: the link, and a function reset of the manager and the virtual functions; during priming only the link
(R481). -/
def State.portReset (s : State) (p : Nat) : State :=
  let t := (s.dropLink p).clearPort p
  if s.up then t.resetFns (portFns p) else t

/-- PCIE_LINK_DOWN. -/
def execPcieLinkDown (p : Nat) (s : State) : Host.Outcome State Fault Refusal :=
  if 2 ≤ p then .fault .noSuchUnit
  else if s.powered && s.linkUp p then .next (s.portReset p) else .next s

/-- HOT_RESET. -/
def execHotReset (p : Nat) (s : State) : Host.Outcome State Fault Refusal :=
  if 2 ≤ p then .fault .noSuchUnit
  else if s.powered && s.linkUp p then .next (s.portReset p) else .next s

/-- PERST_ASSERT. -/
def execPerstAssert (p : Nat) (s : State) : Host.Outcome State Fault Refusal :=
  if 2 ≤ p then .fault .noSuchUnit
  else if s.powered then .next ((s.portReset p).setPort p { s.port p with perst := true, vfEnable := false, numVfs := 0, ptm := false })
  else .next (s.setPort p { s.port p with perst := true })

/-- PERST_DEASSERT: the port may train. -/
def execPerstDeassert (p : Nat) (s : State) : Host.Outcome State Fault Refusal :=
  if 2 ≤ p then .fault .noSuchUnit else .next (s.setPort p { s.port p with perst := false })

/-- PCIE_LINK_UP: G:0x1130.s reports the speed and the width that training reached. No row sets PTM Enable: port A has it
from its link up on (log entry 20). -/
def execPcieLinkUp (p speed width : Nat) (s : State) : Host.Outcome State Fault Refusal :=
  if 2 ≤ p ∨ speed = 0 ∨ 5 < speed ∨ width = 0 ∨ 16 < width then .fault .noSuchUnit
  else if s.powered && !(s.port p).perst then .next ((s.setG 0x1130 (p + 1) (speed + 16 * width)).setPort p { s.port p with ptm := p == 0 }) else .next s

/-- VF_FLR. -/
def execVfFlr (f : Nat) (s : State) : Host.Outcome State Fault Refusal :=
  if 512 ≤ f then .fault .noSuchUnit
  else if s.up && s.visible f then .next (s.resetFns [f]) else .next s

/-- PF_FLR: the manager and every virtual function of its port; VF Enable is cleared. -/
def execPfFlr (p : Nat) (s : State) : Host.Outcome State Fault Refusal :=
  if 2 ≤ p then .fault .noSuchUnit
  else if s.up then .next ((s.clearPort p).resetFns (portFns p)) else .next s

/-- D3HOT_ENTRY: from then on the command window discards writes. -/
def execD3hotEntry (f : Nat) (s : State) : Host.Outcome State Fault Refusal :=
  if !isFn f then .fault .noSuchUnit
  else if s.powered && s.visible f then .next (s.modFn f (fun (x : Fn) => { x with d3hot := true })) else .next s

/-- D3HOT_TO_D0: No_Soft_Reset is 0. -/
def execD3hotToD0 (f : Nat) (s : State) : Host.Outcome State Fault Refusal :=
  if !isFn f then .fault .noSuchUnit
  else if (s.fn f).d3hot then
    if s.up then .next (s.resetFns [f]) else .next (s.clearConfig f)
  else .next s

/-! ### Visibility (R557, R558) -/

/-- NUMVFS_WRITE: NumVFs changes, and `enable` sets VF Enable with it; grants stay as they are. -/
def execNumvfsWrite (p num : Nat) (enable : Bool) (s : State) : Host.Outcome State Fault Refusal :=
  if 2 ≤ p ∨ 256 < num then .fault .noSuchUnit
  else if s.powered then .next (s.setPort p { s.port p with numVfs := num, vfEnable := (s.port p).vfEnable || enable }) else .next s

/-- VF_ENABLE_CLEAR: every live virtual function of the port is reset and keeps its grant. -/
def execVfEnableClear (p : Nat) (s : State) : Host.Outcome State Fault Refusal :=
  if 2 ≤ p then .fault .noSuchUnit
  else if !s.powered || !(s.port p).vfEnable then .next s
  else
    let t := s.setPort p { s.port p with vfEnable := false }
    .next (if s.up then t.resetFns (span (256 * p) 256) else t)

/-- PTM_ENABLE_CLEAR: port A stops its exchanges; the loss of TB3's reference follows (R320, R564). -/
def execPtmEnableClear (s : State) : Host.Outcome State Fault Refusal :=
  .next (s.setPort 0 { s.port 0 with ptm := false })

/-! ### MSI-X and notices (R561-R563) -/

/-- Vectors of a function (Table 22.4). -/
def vectorsOf (f : Nat) : Nat := if isMgr f then 4 else 2

/-- MSIX_UNMASK: a pending vector sends one message and its bit clears. -/
def execMsixUnmask (f v : Nat) (s : State) : Host.Outcome State Fault Refusal :=
  if !isFn f || decide (vectorsOf f ≤ v) then .fault .noSuchUnit
  else if !s.powered then .next s
  else
    let was := (s.fn f).msixPend.contains v
    let t := s.modFn f (fun (x : Fn) => { x with msixMask := x.msixMask.filter (· != v), msixPend := x.msixPend.filter (· != v) })
    .next (if was then t.msix f v else t)

/-- The rule of a notice write: writing 1 to a bit clears it. -/
def noticeRule (f bits : Nat) (_ : ObjRow) (s : State) : Except Refused State :=
  .ok (s.setO f 0x1120 1 (s.o f 0x1120 1 - (s.o f 0x1120 1 &&& bits)))
/-- NOTICE_CLEAR. -/
def execNoticeClear (path : Path) (f bits : Nat) (s : State) : Host.Outcome State Fault Refusal :=
  .next (s.access path f 0x1120 1 none bits (noticeRule f bits))

/-! ### Link errors (R567, Table 22.6) -/

/-- An error is counted and reported through AER: severity 0 correctable, 1 non-fatal, 2 fatal. -/
def State.linkError (s : State) (p f severity : Nat) : State :=
  (s.addG (if severity = 0 then 0x1131 else 0x1132) (p + 1) 1).send (.aer p f severity)

/-- CORRECTABLE_LINK_ERROR. -/
def execCorrectableLinkError (p : Nat) (s : State) : Host.Outcome State Fault Refusal :=
  if 2 ≤ p then .fault .noSuchUnit
  else if s.powered then .next (s.linkError p (512 + p) 0) else .next s

/-- POISONED_WRITE: to the command window (target 0), CREDIT (1) or the dictionary window (2); the TLP is discarded. -/
def execPoisonedWrite (f target : Nat) (s : State) : Host.Outcome State Fault Refusal :=
  if !isFn f || decide (3 ≤ target) then .fault .noSuchUnit
  else if s.powered && s.visible f then .next (s.linkError (portOf f) f 1) else .next s

/-- HOST_READ_COMPLETION_ERROR: a calendar LOAD ends with ADDRESS_INVALID and changes no page; a firmware image read sets
G:0x5018.01 to 5 and ends the distribution. -/
def execHostReadCompletionError (p : Nat) (firmware : Bool) (cid : Nat) (s : State) : Host.Outcome State Fault Refusal :=
  if 2 ≤ p then .fault .noSuchUnit
  else if !s.up then .next s
  else
    let t := s.linkError p (512 + p) 1
    if firmware then .next (({ t with domain := { t.domain with fwCount := 0 } } : State).setG 0x5018 1 5)
    else .next (t.startFree cid (isMarker 3) (fun _ u => u.conclude cid Status.addressInvalid))

/-- FATAL_LINK_ERROR: the link retrains, which acts as a data-link-down. -/
def execFatalLinkError (p : Nat) (s : State) : Host.Outcome State Fault Refusal :=
  if 2 ≤ p then .fault .noSuchUnit
  else if s.powered then .next ((s.linkError p (512 + p) 2).portReset p) else .next s

end Sys2Proof.Machine
end

