-- ==== Sys2Proof/Machine/Security.lean ====
section
/-!
DEFINITION. The SPDM responder, IDE and TDISP, the fused SVN, the debug unlock and the entropy test (R501, R505-R512).
-/

namespace Sys2Proof.Machine

/-! ### The responder (R507, Tables 19.7, 19.8) -/

/-- Response codes of the SPDM specification (log entry 21). -/
def SpdmRsp.digests : Nat := 0x01
def SpdmRsp.certificate : Nat := 0x02
def SpdmRsp.challengeAuth : Nat := 0x03
def SpdmRsp.versionRsp : Nat := 0x04
def SpdmRsp.chunkSendAck : Nat := 0x05
def SpdmRsp.chunkResponse : Nat := 0x06
def SpdmRsp.measurements : Nat := 0x60
def SpdmRsp.capabilities : Nat := 0x61
def SpdmRsp.algorithms : Nat := 0x63
def SpdmRsp.keyExchangeRsp : Nat := 0x64
def SpdmRsp.finishRsp : Nat := 0x65
def SpdmRsp.heartbeatAck : Nat := 0x68
def SpdmRsp.keyUpdateAck : Nat := 0x69
def SpdmRsp.endSessionAck : Nat := 0x6C
def SpdmRsp.vendorDefined : Nat := 0x7E
def SpdmRsp.error : Nat := 0x7F
/-- Error codes of the SPDM specification (log entry 21). -/
def SpdmErr.invalidRequest : Nat := 0x01
def SpdmErr.invalidSession : Nat := 0x02
def SpdmErr.unexpected : Nat := 0x04
def SpdmErr.unspecified : Nat := 0x05
def SpdmErr.decrypt : Nat := 0x06
def SpdmErr.unsupported : Nat := 0x07
def SpdmErr.sessionLimit : Nat := 0x0A

def State.spdm (s : State) (t : Nat) : Spdm := SMap.get (fun _ => {}) s.sec.spdm t
def State.setSpdm (s : State) (t : Nat) (x : Spdm) : State :=
  { s with sec := { s.sec with spdm := SMap.set (fun _ => {}) s.sec.spdm t x } }
/-- Send a response, or an ERROR. -/
def State.spdmAnswer (s : State) (t code : Nat) (data : List Nat) : State := s.send (.spdm t code data)
def State.spdmError (s : State) (t e : Nat) : State := s.spdmAnswer t SpdmRsp.error [e]
/-- A signature by Alias_2: a fresh free value (log entry 10). -/
def State.signed (s : State) (t code : Nat) (data : List Nat) : State :=
  let (v, u) := s.fresh
  u.spdmAnswer t code (data ++ [v])

/-- A request on a transport of the five, once priming has ended; `ready` says what the connection must have done. -/
def State.onSpdm (s : State) (t : Nat) (ready : Spdm → Bool) (k : Spdm → State) : Host.Outcome State Fault Refusal :=
  if 5 ≤ t then .fault .noSuchUnit
  else if !s.up then .next s
  else if ready (s.spdm t) then .next (k (s.spdm t)) else .next (s.spdmError t SpdmErr.unexpected)
/-- A request in a finished secure session. -/
def State.inSession (s : State) (t session : Nat) (k : Spdm → State) : Host.Outcome State Fault Refusal :=
  s.onSpdm t (·.negotiated) (fun x => if x.sessions.contains (session, true) then k x else s.spdmError t SpdmErr.invalidSession)

/-- GET_VERSION: version 1.3, and the connection starts afresh. -/
def execGetVersion (t : Nat) (s : State) : Host.Outcome State Fault Refusal :=
  s.onSpdm t (fun _ => true) (fun x =>
    (s.setSpdm t { x with version := true, caps := false, negotiated := false, chunkIn := 0, chunkOut := 0 }).spdmAnswer t SpdmRsp.versionRsp [0x13])
/-- GET_CAPABILITIES. -/
def execGetCapabilities (t : Nat) (s : State) : Host.Outcome State Fault Refusal :=
  s.onSpdm t (·.version) (fun x => (s.setSpdm t { x with caps := true }).spdmAnswer t SpdmRsp.capabilities [])
/-- NEGOTIATE_ALGORITHMS: `supported` says that the request offers the algorithms of R507; another gets no match. -/
def execNegotiateAlgorithms (t : Nat) (supported : Bool) (s : State) : Host.Outcome State Fault Refusal :=
  s.onSpdm t (·.caps) (fun x => (s.setSpdm t { x with negotiated := supported }).spdmAnswer t SpdmRsp.algorithms [supported.toNat])

/-- The certificate chain of slot 0 (R503). -/
def State.chain (s : State) : List Byte := cryptoBytes 6 s.aliasId Config.chainLength
/-- GET_DIGESTS: slot 0 only. -/
def execGetDigests (t : Nat) (s : State) : Host.Outcome State Fault Refusal :=
  s.onSpdm t (·.negotiated) (fun _ => s.spdmAnswer t SpdmRsp.digests (1 :: (cryptoBytes 8 s.aliasId 64).map (·.toNat)))
/-- GET_CERTIFICATE: a portion of the chain of slot 0 and what remains after it. -/
def execGetCertificate (t slot offset length : Nat) (s : State) : Host.Outcome State Fault Refusal :=
  s.onSpdm t (·.negotiated) (fun _ =>
    let portion := (s.chain.drop offset).take length
    if slot ≠ 0 ∨ s.chain.length ≤ offset then s.spdmError t SpdmErr.invalidRequest
    else s.spdmAnswer t SpdmRsp.certificate (portion.length :: (s.chain.length - offset - portion.length) :: portion.map (·.toNat)))
/-- CHALLENGE: signed by Alias_2. -/
def execChallenge (t slot : Nat) (s : State) : Host.Outcome State Fault Refusal :=
  s.onSpdm t (·.negotiated) (fun _ => if slot = 0 then s.signed t SpdmRsp.challengeAuth [0] else s.spdmError t SpdmErr.invalidRequest)

/-- A measurement block (Table 19.8). -/
def State.measurement (s : State) (i : Nat) : List Nat :=
  match i with
  | 1 => (cryptoBytes 2 0 64).map (·.toNat)
  | 2 => (cryptoBytes 3 s.imageVersion 64).map (·.toNat)
  | 3 => (cryptoBytes 4 s.imageVersion 64).map (·.toNat)
  | 4 => (cryptoBytes 5 s.imageVersion 64).map (·.toNat)
  | 5 => [s.imageSvn, s.g 0x9001 1]
  | 6 => [s.g 0x7801 1, s.mapDigest]
  | 7 => [s.g 0x7800 2]
  | 8 => [s.g 0xF000 1]
  | 9 => (leBytes 1600 (s.g 0x1000 3)).map (·.toNat)
  | _ => []
/-- GET_MEASUREMENTS: index 0 asks for their number, 255 for all (SPDM); signed when requested. -/
def execGetMeasurements (t index : Nat) (signed : Bool) (s : State) : Host.Outcome State Fault Refusal :=
  s.onSpdm t (·.negotiated) (fun _ =>
    let data := if index = 0 then [9] else if index = 255 then (span 1 9).flatMap s.measurement else index :: s.measurement index
    if index ≤ 9 ∨ index = 255 then (if signed then s.signed t SpdmRsp.measurements data else s.spdmAnswer t SpdmRsp.measurements data)
    else s.spdmError t SpdmErr.invalidRequest)

/-- KEY_EXCHANGE: at most four sessions a transport; none while the entropy test fails (R505). -/
def execKeyExchange (t : Nat) (s : State) : Host.Outcome State Fault Refusal :=
  s.onSpdm t (·.negotiated) (fun x =>
    if !s.sec.entropyOk then (s.raise ErrCode.other none16 none16 0).spdmError t SpdmErr.unspecified
    else if 4 ≤ x.sessions.length then s.spdmError t SpdmErr.sessionLimit
    else (s.setSpdm t { x with sessions := x.sessions ++ [(x.nextId, false)], nextId := x.nextId + 1 }).signed t SpdmRsp.keyExchangeRsp [x.nextId])
/-- FINISH: `macOk` is whether its verify data match. -/
def execFinish (t session : Nat) (macOk : Bool) (s : State) : Host.Outcome State Fault Refusal :=
  s.onSpdm t (·.negotiated) (fun x =>
    if !x.sessions.contains (session, false) then s.spdmError t SpdmErr.invalidSession
    else if macOk then
      (s.setSpdm t { x with sessions := x.sessions.map (fun (e : Nat × Bool) => if e.1 = session then (session, true) else e) }).spdmAnswer t SpdmRsp.finishRsp [session]
    else (s.setSpdm t { x with sessions := x.sessions.filter (fun e => e.1 != session) }).spdmError t SpdmErr.decrypt)
/-- END_SESSION: its keys are gone. -/
def execEndSession (t session : Nat) (s : State) : Host.Outcome State Fault Refusal :=
  s.inSession t session (fun x =>
    (s.setSpdm t { x with sessions := x.sessions.filter (fun e => e.1 != session) }).spdmAnswer t SpdmRsp.endSessionAck [session])
/-- HEARTBEAT. -/
def execHeartbeat (t session : Nat) (s : State) : Host.Outcome State Fault Refusal :=
  s.inSession t session (fun _ => s.spdmAnswer t SpdmRsp.heartbeatAck [session])
/-- KEY_UPDATE. -/
def execKeyUpdate (t session : Nat) (s : State) : Host.Outcome State Fault Refusal :=
  s.inSession t session (fun _ => s.spdmAnswer t SpdmRsp.keyUpdateAck [session])
/-- CHUNK_SEND: bytes of a large request arrive; the last chunk completes it. -/
def execChunkSend (t : Nat) (last : Bool) (bytes : Nat) (s : State) : Host.Outcome State Fault Refusal :=
  s.onSpdm t (·.caps) (fun x => (s.setSpdm t { x with chunkIn := if last then 0 else x.chunkIn + bytes }).spdmAnswer t SpdmRsp.chunkSendAck [x.chunkIn + bytes])
/-- CHUNK_GET: the chunk of a large response at an offset. -/
def execChunkGet (t offset : Nat) (s : State) : Host.Outcome State Fault Refusal :=
  s.onSpdm t (·.caps) (fun x => (s.setSpdm t { x with chunkOut := offset }).spdmAnswer t SpdmRsp.chunkResponse [offset])

/-! ### IDE and TDISP (R508, R509) -/

def State.ideStreams (s : State) (p : Nat) : List Nat := SMap.get (fun _ => []) s.sec.ide p
/-- The active streams of a port, counted in G:0x9010. -/
def State.setIde (s : State) (p : Nat) (l : List Nat) : State :=
  ({ s with sec := { s.sec with ide := SMap.set (fun _ => []) s.sec.ide p l } } : State).setG 0x9010 (p + 1) l.length
/-- A TDI state. -/
def State.tdi (s : State) (f : Nat) : Nat := s.o f 0x9011 1
def State.setTdi (s : State) (f v : Nat) : State := s.setO f 0x9011 1 v
/-- TDIs that a stopped stream bound enter ERROR. -/
def State.stopBound (s : State) (p stream : Nat) : List (Nat × Nat) → State
  | [] => s
  | e :: l =>
    (if e.2 = stream + 1 ∧ portOf e.1 = p ∧ (s.tdi e.1 = 1 ∨ s.tdi e.1 = 2) then s.setTdi e.1 3 else s).stopBound p stream l

/-- IDE_KM: 0 QUERY, 1 KEY_PROG, 2 K_SET_GO starts a stream, 3 K_SET_STOP ends it (log entry 21). -/
def State.ideKm (s : State) (t op stream : Nat) : State :=
  let l := s.ideStreams t
  let ok := s.spdmAnswer t SpdmRsp.vendorDefined [0, op, stream]
  match op with
  | 0 => ok
  | 1 => if stream < 4 then ok else s.spdmError t SpdmErr.invalidRequest
  | 2 => if stream < 4 then (if l.contains stream then ok else ok.setIde t (l ++ [stream])) else s.spdmError t SpdmErr.invalidRequest
  | 3 => if l.contains stream then (ok.setIde t (l.filter (· != stream))).stopBound t stream s.sec.tdiBound else s.spdmError t SpdmErr.invalidRequest
  | _ => s.spdmError t SpdmErr.unsupported

/-- The device interface report: the three ranges of BAR0 and the grant sizes (R509, R568). -/
def State.tdiReport (s : State) (f : Nat) : List Nat :=
  [0, 0x11000, 1, 0x11000, 0x1000, 1, 0x12000, 0x1008, 0] ++ (span 1 11).map (fun k => s.o f 0x3020 k)

/-- TDISP requests but LOCK: 3 report, 4 state, 5 START, 6 STOP (log entry 21). -/
def State.tdisp (s : State) (t op f : Nat) : State :=
  let ok := s.spdmAnswer t SpdmRsp.vendorDefined [1, op, f]
  let bad := s.spdmAnswer t SpdmRsp.vendorDefined [1, 0x7F, f]
  let bound := SMap.get (fun _ => 0) s.sec.tdiBound f
  if 512 ≤ f ∨ portOf f ≠ t then bad
  else
    match op with
    | 3 => if s.tdi f = 1 ∨ s.tdi f = 2 then s.spdmAnswer t SpdmRsp.vendorDefined ([1, op, f] ++ s.tdiReport f) else bad
    | 4 => s.spdmAnswer t SpdmRsp.vendorDefined [1, op, f, s.tdi f]
    | 5 => if s.tdi f = 1 ∧ (s.ideStreams t).contains (bound - 1) = true then ok.setTdi f 2 else bad
    | 6 => { ok.setTdi f 0 with sec := { s.sec with tdiBound := SMap.del f s.sec.tdiBound } }
    | _ => bad

/-- VENDOR_DEFINED_REQUEST: IDE_KM (protocol 0) and TDISP (1), in a secure session on DOE only. -/
def execVendorDefinedRequest (t session protocol op arg : Nat) (s : State) : Host.Outcome State Fault Refusal :=
  s.inSession t session (fun _ =>
    if 2 ≤ t ∨ 2 ≤ protocol then s.spdmError t SpdmErr.unsupported
    else if protocol = 0 then s.ideKm t op arg else s.tdisp t op arg)

/-- LOCK_INTERFACE: only while the function is live; the TDI is bound to an IDE stream of its port. -/
def execLockInterface (f t session stream : Nat) (s : State) : Host.Outcome State Fault Refusal :=
  s.inSession t session (fun _ =>
    if 2 ≤ t then s.spdmError t SpdmErr.unsupported
    else if f < 512 ∧ portOf f = t ∧ s.fnState f = 1 ∧ s.tdi f = 0 ∧ stream < 4 then
      let u := (s.setTdi f 1).spdmAnswer t SpdmRsp.vendorDefined [1, 2, f]
      { u with sec := { u.sec with tdiBound := SMap.put f (stream + 1) u.sec.tdiBound } }
    else s.spdmAnswer t SpdmRsp.vendorDefined [1, 0x7F, f])

/-! ### The fused SVN (R501) -/

/-- The rule of a commit. -/
def svnRule (_ : ObjRow) (s : State) : Except Refused State := do
  ensure (decide (s.g 0x9001 1 < s.imageSvn) && s.g 0xF000 1 == 0 && s.g 0x5018 1 != 3 && !(s.isMaster && s.domain.fwPrepared)) Status.accessDenied
  .ok (({ s with sec := { s.sec with svnRaised := true } } : State).setG 0x9001 1 s.imageSvn).rebuildColophon
/-- SVN_COMMIT. -/
def execSvnCommit (path : Path) (s : State) : Host.Outcome State Fault Refusal :=
  .next (s.access path 1023 0x9001 3 none 1 svnRule)

/-! ### Debug unlock (R510-R512) -/

/-- UNLOCK_NONCE_READ: a new nonce of 16 bytes, and the last one is invalid. -/
def execUnlockNonceRead (path : Path) (s : State) : Host.Outcome State Fault Refusal :=
  if !s.powered then .next s
  else
    match s.gate path with
    | some t => .next t
    | none =>
      if !s.up then .next (s.respond path Status.accessDenied 0 [])
      else
        match s.reach path 1023 0xF000 2 with
        | some r =>
          if s.hasRight path r 0 then
            let (v, t) := s.fresh
            let n := v % 2 ^ 128
            let t := t.setG 0xF000 2 n
            .next (({ t with sec := { t.sec with nonceLive := true } } : State).respond path Status.ok 16 (leBytes 16 n))
          else .next (s.respond path Status.accessDenied 0 [])
        | none => .next (s.respond path Status.addressInvalid 0 [])

/-- A token that R511 accepts. -/
def State.tokenOk (s : State) (k : UnlockToken) : Bool :=
  k.serial == Config.serial && s.sec.nonceLive && k.nonce == s.g 0xF000 2 && k.sigOk && !s.sec.unlocking
/-- The layout of Table 19.9. -/
def tokenShaped (k : UnlockToken) : Bool := k.format == 1 && k.zero && decide (k.scope < 8)

/-- The rule of a token write: Table 19.10 begins; with no cell active it runs to its end, else it goes on at the cells'
stop. -/
def tokenRule (k : UnlockToken) (_ : ObjRow) (s : State) : Except Refused State := do
  ensure (tokenShaped k) Status.shapeInvalid
  ensure (s.tokenOk k) Status.accessDenied
  let t := s.setG 0x5018 1 5
  let t : State := { t with sec := { t.sec with nonceLive := false, unlocking := true, unlockScope := k.scope } }
  if s.liveCells.isEmpty then .ok t.finishUnlock
  else if s.protection && !s.activeCells.isEmpty then .ok (t.relinquish s.nextBoundary)
  else .ok (t.stopBy s.nextBoundary)

/-- A token write: a token that its rule refuses is counted in G:0xF000.05. -/
def State.tokenWrite (s : State) (path : Path) (length : Option Nat) (k : UnlockToken) : State :=
  let t := s.access path 1023 0xF000 3 length 0 (tokenRule k)
  let asked := s.powered && (s.gate path).isNone && (match s.checkWrite path 1023 0xF000 3 length 0 with | .ok _ => true | .error _ => false)
  if asked && !(tokenShaped k && s.tokenOk k) then t.addG 0xF000 5 1 else t
/-- UNLOCK_TOKEN_WRITE. -/
def execUnlockTokenWrite (path : Path) (k : UnlockToken) (s : State) : Host.Outcome State Fault Refusal :=
  .next (s.tokenWrite path none k)
/-- The token that the bytes of a write of G:0xF000.03 spell (Table 19.9). -/
def tokenOf (v : Nat) : UnlockToken :=
  { format := fld v 0 32, scope := fld v 32 32, serial := fld v 64 64, nonce := fld v 128 128, zero := fld v 256 256 == 0,
    sigOk := Config.tokenSigned (v % 2 ^ 1024) }

/-! ### The entropy test (R505) -/

/-- ENTROPY_FAILURE: a hardware error; grants and sessions cannot be created. -/
def execEntropyFailure (s : State) : Host.Outcome State Fault Refusal :=
  if !s.powered then .next s
  else .next (({ s with sec := { s.sec with entropyOk := false } } : State).raise ErrCode.entropy none16 none16 0)
/-- ENTROPY_TEST_PASS. -/
def execEntropyTestPass (s : State) : Host.Outcome State Fault Refusal :=
  .next { s with sec := { s.sec with entropyOk := true } }

end Sys2Proof.Machine
end

