-- ==== Sys2Proof/Machine/Power.lean ====
section
/-!
DEFINITION. Timing modes, power and clocks, the resets and the priming that ends them (R467-R469, R476-R496, R573-R587).
-/

namespace Sys2Proof.Machine

/-! ### Timing modes (R467-R469) -/

/-- An exact-mode context is open, or its reservation stands (R375). -/
def State.exactOpen (s : State) : Bool :=
  s.g 0x2001 4 != 0 || s.ctxs.any (fun e => e.2.mode == 1 && e.2.st != .free && !e.2.closed)
/-- The rule of a timing mode write. -/
def timingRule (value : Nat) (_ : ObjRow) (s : State) : Except Refused State := do
  ensure (value == 0 || !s.exactOpen) Status.accessDenied
  .ok s
/-- TIMING_MODE_WRITE: the object is stored, so the write counts from its commit. -/
def execTimingModeWrite (path : Path) (value : Nat) (s : State) : Host.Outcome State Fault Refusal :=
  .next (s.access path 1023 0x7800 1 none value (timingRule value))
/-- A committed write takes effect at the second frame after its frame. -/
def State.setTiming (s : State) (value : Nat) : State := { s.setG 0x7800 1 value with modeAt := some (s.frame + 2) }
/-- TIMING_MODE_CHANGE: nothing is owed at either change (R469). -/
def execTimingModeChange (s : State) : Host.Outcome State Fault Refusal :=
  if s.up && s.modeAt.any (fun f => decide (f ≤ s.frame)) then
    let t : State := { s with modeAt := none }
    if s.g 0x7800 1 = s.g 0x7800 2 then .next t
    else
      let t := ((t.setG 0x7800 2 (s.g 0x7800 1)).setG 0x7800 3 s.frame).addG 0x7800 4 1
      .next ({ t with owed := [] } : State).rebuildColophon
  else .next s

/-! ### Runtime fencing (R476, R495) -/

/-- Commands that run on a fenced unit will end with ENGINE_FENCED; those of radio mode are late with cause 5 (R63, R476). -/
def fenceCmd (ids : List Nat) (c : Cmd) : Cmd :=
  if ids.contains c.id then
    { c with did := true, status := if c.status = Status.ok then Status.engineFenced else c.status, steps := [] } else c

/-- A unit is fenced: G:0x7013, the sump for its writes, those of commands that have left it among them (R171), its commands, lateness where it holds radio intervals, the error
and the colophon. -/
def State.fenceUnit (s : State) (id : Nat) : State :=
  let running := s.cmds.filter (fun c => c.phase == .running && c.engines.contains id)
  let radio := (running.filter (fun c => (s.ctx c.ctx).mode == 2)).map (·.id)
  let other := (running.filter (fun c => (s.ctx c.ctx).mode != 2)).map (·.id)
  let t : State := { s with fenced := s.fenced ++ [(id, 2)] }
  let all := (s.cmds.filter (fun c => c.engines.contains id)).map (·.id)
  let t := t.sumpWhere (fun p => all.contains p.cid)
  let t := t.mapCmds (fenceCmd other)
  let t := (t.endHold id).modEngine id (fun (x : Engine) => { x with ready := none })
  let t := if (calEntries s.cal.active id).any (fun e => e.kind == 1) then t.lateness id 5 radio else t
  (t.raise ErrCode.unitFenced id none16 id).rebuildColophon

/-- UNIT_FENCE. A GDDR7 channel, the spine tracks and the crypto units are no units that the device can fence (R489). -/
def execUnitFence (id : Nat) (s : State) : Host.Outcome State Fault Refusal :=
  if !calOk id || decide (20 ≤ calClass id) then .fault .noSuchUnit
  else if s.up && !s.isFenced id && decide (s.fenced.length < 254) then .next (s.fenceUnit id) else .next s

/-! ### Stops (R576, R577, R586) -/

/-- The device stops with a cause in G:0x2004.03. -/
def State.stopDevice (s : State) (cause : Nat) : State :=
  { s.setG 0x2004 3 cause with power := { s.power with stopped := true } }
/-- RAIL_UNDERVOLTAGE: of the eight rails of Table 23.2. -/
def execRailUndervoltage (rail : Nat) (s : State) : Host.Outcome State Fault Refusal :=
  if 8 ≤ rail then .fault .noSuchUnit
  else if s.power.good && !s.power.stopped then .next (s.stopDevice 2) else .next s
/-- SER_REFCLK_LOSS. -/
def execSerRefclkLoss (s : State) : Host.Outcome State Fault Refusal :=
  if s.power.good && !s.power.stopped then .next (s.stopDevice 3) else .next s
/-- THERMAL_TRIP: THERMTRIP_N asserts. -/
def execThermalTrip (s : State) : Host.Outcome State Fault Refusal :=
  if s.power.aon && s.power.good then
    let t := s.stopDevice 1
    .next { t with power := { t.power with trip := true } }
  else .next s

/-! ### What a reset leaves (R478, R494, R525) -/

/-- Objects that outlive every reset while power stays: the last stop cause, the fused SVN, the harvest generation. -/
def State.keptObj (s : State) (more : List (Nat × Nat)) : SMap Nat :=
  let m := SMap.set objDflt [] (objKey 1023 0x2004 3) (s.g 0x2004 3)
  let m := SMap.set objDflt m (objKey 1023 0x9001 1) (s.g 0x9001 1)
  let m := SMap.set objDflt m (objKey 1023 0x7801 1) (s.g 0x7801 1)
  more.foldl (fun (m : SMap Nat) e => SMap.set objDflt m e.1 e.2) m

/-- Flash, fuses, the harvest record, pins and everything outside the device stay; all else is as at power-on. -/
def State.afterReset (s : State) : State :=
  { State.reset with
    host := s.host, out := s.out, pending := s.pending, freeCtr := s.freeCtr, harvest := s.harvest, badPhys := s.badPhys, fenced := s.fenced
    sec := { (({} : Sec)) with flash := s.sec.flash, images := s.sec.images, running := s.sec.running, keyCount := s.sec.keyCount,
                               entropyOk := s.sec.entropyOk, svnRaised := s.sec.svnRaised }
    ports := (List.range 2).foldl (fun (m : SMap Port) p => SMap.set (fun _ => {}) m p { ({} : Port) with perst := (s.port p).perst }) []
    power := { s.power with stopped := false, trip := false, spiHigh := s.power.sysrst || !s.power.good, request := none, warm := false } }

/-- A cold reset: TB2 is zeroed, the debug state returns to 0 (R316, R512). -/
def State.coldReset (s : State) (source : Nat) : State :=
  { s.afterReset with obj := s.keptObj [(objKey 1023 0x7000 4, source)] }

/-- The frequency corrections of TB0, TB1 and TB3. -/
def State.corrections (s : State) : List (Nat × Nat) :=
  [0, 1, 3].map (fun n => (objKey 1023 (0x4800 + n) 7, s.g (0x4800 + n) 7))
/-- A warm reset keeps TB2, the counts and corrections of the other bases, the standing calibration and δ, and relocks JTAG
(R494, R512). -/
def State.warmReset (s : State) (source : Nat) : State :=
  let debug := if s.g 0xF000 1 = 0 then 0 else 2
  let t := s.afterReset
  { t with
    obj := s.keptObj ([(objKey 1023 0x7000 3, 1), (objKey 1023 0x7000 4, source), (objKey 1023 0x2001 2, s.g 0x2001 2),
                       (objKey 1023 0x3001 1, s.g 0x3001 1), (objKey 1023 0xF000 1, debug)] ++ s.corrections)
    tb := s.tb, servo := s.servo.map (fun _ => {}), sec := { t.sec with delta := s.sec.delta }, power := { t.power with warm := true } }

/-! ### Power and reset pins (R575-R578, R581) -/

/-- VDD_IO18_IN_TOLERANCE: the always-on and I/O domains are powered. -/
def execVddIo18InTolerance (s : State) : Host.Outcome State Fault Refusal :=
  .next { s with power := { s.power with aon := true, io18 := true } }
/-- VDD_AON_LOSS: the stop-cause register loses its contents, and without its rails the device is off. -/
def execVddAonLoss (s : State) : Host.Outcome State Fault Refusal :=
  let t := s.coldReset 0
  .next { t.setG 0x2004 3 0 with power := { t.power with aon := false, io18 := false, good := false, spiHigh := true } }
/-- PWR_GOOD_RISE: cold priming starts, unless SYS_RESET_N holds the device. -/
def execPwrGoodRise (s : State) : Host.Outcome State Fault Refusal :=
  if !s.power.good && s.power.aon && s.power.io18 then
    .next (({ s with power := { s.power with good := true } } : State).coldReset 0)
  else .next s
/-- PWR_GOOD_FALL: the device stops at once and every memory loses its contents. -/
def execPwrGoodFall (s : State) : Host.Outcome State Fault Refusal :=
  if s.power.good then
    let t := ({ s with power := { s.power with good := false } } : State).coldReset 0
    .next t
  else .next s
/-- SYS_RESET_N_ASSERT: no effect while PWR_GOOD is low. -/
def execSysResetNAssert (s : State) : Host.Outcome State Fault Refusal :=
  if s.power.good then .next { s with power := { s.power with sysrst := true, spiHigh := true } } else .next s
/-- SYS_RESET_N_DEASSERT: after an assertion, a cold reset. -/
def execSysResetNDeassert (s : State) : Host.Outcome State Fault Refusal :=
  if s.power.sysrst then
    let t : State := { s with power := { s.power with sysrst := false } }
    .next (if s.power.good then t.coldReset 1 else t)
  else .next s

/-! ### Reset requests (R479, R481) -/

/-- The reset source of a path (G:0x7000.04). -/
def resetSource : Path → Nat
  | .i3c => 2
  | .vdm _ => 2
  | .window f _ => if f = 513 then 4 else 3
  | .fabric => 3
/-- Request a reset at the first frame boundary at least one granule away; a protected device with an active cell sends
RELINQUISH for it (R479). -/
def State.requestReset (s : State) (kind source : Nat) : State :=
  let b := s.nextBoundary
  let t := if s.protection && !s.activeCells.isEmpty then s.relinquish b else s
  { t with power := { t.power with request := some (kind, source, b) } }
/-- The rule of a write of G:0x7000.02; a cold request during priming restarts it (R481, R483). -/
def resetWriteRule (path : Path) (kind : Nat) (_ : ObjRow) (s : State) : Except Refused State :=
  if s.up then .ok (s.requestReset kind (resetSource path))
  else .ok (s.coldReset (resetSource path))
/-- RESET_REQUEST_WARM. -/
def execResetRequestWarm (path : Path) (s : State) : Host.Outcome State Fault Refusal :=
  .next (s.access path 1023 0x7000 2 none 1 (resetWriteRule path 1))
/-- RESET_REQUEST_COLD. -/
def execResetRequestCold (path : Path) (s : State) : Host.Outcome State Fault Refusal :=
  .next (s.access path 1023 0x7000 2 none 2 (resetWriteRule path 2))
/-- RESET_START: at the boundary. -/
def execResetStart (s : State) : Host.Outcome State Fault Refusal :=
  match s.power.request with
  | some (kind, source, b) =>
    if s.up && decide (b ≤ s.frame) then .next (if kind = 1 then s.warmReset source else s.coldReset source) else .next s
  | none => .next s

/-! ### The harvest map (R486-R491, R495) -/

/-- Physical units in ascending order that the factory map takes: 52 front, 52 back, 36 channel cores. -/
def goodUnits (lo n : Nat) : List Nat := (span lo n).filter (fun p => !Config.factoryBad.contains p)
/-- The fused factory map. -/
def factoryMap : List Nat := (goodUnits 0 52).take 48 ++ (goodUnits 52 52).take 48 ++ (goodUnits 256 36).take 32
/-- The physical units from which a logical one can be replaced. -/
def spareRange (l : Nat) : List Nat := if l < 48 then span 0 52 else if l < 96 then span 52 52 else span 256 36
/-- The lowest-numbered good spare for a logical unit. -/
def spareFor (bad map : List Nat) (l : Nat) : Option Nat :=
  (spareRange l).find? (fun q => !bad.contains q && !Config.factoryBad.contains q && !map.contains q)
/-- Failing units give their logical numbers to spares, the lower logical number first; the second list has those that no
spare could replace (R488, R489). -/
def remap (bad : List Nat) : List Nat → List Nat × List Nat → List Nat × List Nat
  | [], r => r
  | l :: ls, (map, lost) =>
    if bad.contains (map.getD l none16) then
      match spareFor bad map l with
      | some q => remap bad ls (map.set l q, lost)
      | none => remap bad ls (map, lost ++ [l])
    else remap bad ls (map, lost)

/-- The calendars of a lost logical unit. -/
def lostCals (l : Nat) : List Nat := if l < 96 then coreEngines l else [calId 17 (l - 96)]
/-- A class with no spares whose instances can be fenced. -/
def unspared (id : Nat) : Bool := calOk id && decide (3 ≤ calClass id) && decide (calClass id < 20) && calClass id != 17

/-- The harvest step of a priming: failing units enter the map, lost units and failing instances are fenced for good, what
was fenced at run time and passed returns, and the generation advances where the map or the fenced set changed. -/
def State.harvestStep (s : State) (r : PrimeResult) : State :=
  let fresh := s.harvest.isEmpty || !r.recordOk
  let bad0 := if fresh then [] else s.badPhys
  let map0 := if fresh then factoryMap else s.harvest
  let bad := bad0 ++ (r.badCores ++ r.badChans.map (· + 256)).filter (fun p => !bad0.contains p)
  let placed := remap bad (List.range 128) (map0, [])
  let map : List Nat := placed.1
  let lost : List Nat := placed.2
  let old : List (Nat × Nat) := if fresh then [] else s.fenced.filter (fun e => e.2 != 2)
  let single := ((old.filter (fun e => e.2 == 1)).map (·.1) ++ r.badUnits.filter unspared).eraseDups
  let fenced : List (Nat × Nat) := ((lost.flatMap lostCals).map (fun id => (id, 0)) ++ single.map (fun id => (id, 1))).take 254
  let gen : Nat := if fresh then 0 else if map == s.harvest && fenced == old then s.g 0x7801 1 else s.g 0x7801 1 + 1
  let t := if !r.recordOk then s.raise ErrCode.recordRejected none16 none16 0x7000 else s
  ({ t with harvest := map, badPhys := bad, fenced := fenced } : State).setG 0x7801 1 gen

/-! ### Priming (R482-R495) -/

/-- The stored objects that the flash holds, but those whose record is rejected; each rejection is a hardware error (R504,
R526). -/
def State.loadStored (s : State) (rejected : List Nat) : List (Nat × Nat) → State
  | [] => s
  | e :: l =>
    (if rejected.contains (e.1 / 2 ^ 8 % 2 ^ 16) then s.raise ErrCode.recordRejected none16 none16 (e.1 / 2 ^ 8 % 2 ^ 16)
     else { s with obj := SMap.set objDflt s.obj e.1 e.2 }).loadStored rejected l

/-- The objects at the end of priming: those in flash, but after a request to restore the defaults (R527). -/
def State.primeObjects (s : State) (r : PrimeResult) (warm : Bool) : State :=
  let restore := !warm && SMap.get (fun _ => 0) s.sec.flash (objKey 1023 0x1102 3) == 1
  let t : State := if restore then { s with sec := { s.sec with flash := [] } } else s
  let t := t.loadStored r.rejected t.sec.flash
  { t with sec := { t.sec with flash := t.sec.flash.filter (fun e => !r.rejected.contains (e.1 / 2 ^ 8 % 2 ^ 16)) } }

/-- The counts of codewords kept with one failing symbol (R484). -/
def State.keepCounts (s : State) : List (Nat × Nat) → State
  | [] => s
  | e :: l => (if e.1 < 64 then s.storeG 0x7014 (e.1 + 1) e.2 else s).keepCounts l

/-- The pools (R339, Table 12.2); the store of the KV page table moves at a cold priming only (R213). -/
def State.primePools (s : State) (warm : Bool) : State :=
  let away := if warm then s.g 0x3001 1 == 931043 else s.g 0x3800 1 == 1
  let g := if away then 931043 else 930019
  let c := if away then 3072 else 4096
  (((s.setG 0x3001 1 g).setG 0x3001 2 g).setG 0x3001 3 c).setG 0x3001 4 c

/-- Energy at the start: E_win of P_lim, E_std at its calibration (R370, R372). -/
def State.primeEnergy (s : State) : State :=
  (s.setG 0x2000 2 (100 * s.g 0x2000 1)).setG 0x2001 1 (s.g 0x2001 2)

/-- The managers' grants (R337). -/
def State.primeManagers (s : State) : State :=
  let t := if s.poolsHold 512 then s.takeGrant 512 else s
  if t.poolsHold 513 then t.takeGrant 513 else t

/-- Trained lanes: fabric lanes wait to join, fronthaul lanes are up. -/
def State.primeLanes (s : State) (r : PrimeResult) : State :=
  let t := (r.lanesUp.filter (fun l => decide (l < 64) && s.g 0x5001 (l + 1) != 0)).foldl (fun (u : State) l => u.setG 0x5002 (l + 1) 2) s
  let t := (span 1 64).foldl (fun (u : State) l => if u.g 0x5001 l = 2 then u.setG 0xA007 l 1023 else u) t
  (r.fhLanesUp.filter (fun l => decide (l < 16) && s.g 0x4200 (l / 4 + 1) != 0)).foldl (fun (u : State) l => u.setG 0x4202 (l + 1) 2) t

/-- The device seeks its domain (R444, R450). -/
def State.primeDomain (s : State) : State :=
  if s.wanted = none16 then s else (s.setG 0x5010 4 1).mark clockListen

/-- The code of the last check of the image (Table 19.3): check 4 compares the image's SVN with the fused one, between the
first three and the fifth (R499). -/
def State.imageCode (s : State) (r : PrimeResult) : Nat :=
  if 1 ≤ r.imageCheck ∧ r.imageCheck < 4 then r.imageCheck
  else if r.imageSvn < s.g 0x9001 1 then 4
  else if r.imageCheck = 5 then 5 else 0

/-- Why a priming leaves the device unusable: 1 firmware, 2 channel training, 3 memory test, 4 cistern, 5 spine (R482,
R484, R489). -/
def State.unusableCause (s : State) (r : PrimeResult) : Nat :=
  if s.imageCode r ≠ 0 then 1 else if r.channelFail then 2 else if r.memoryFail then 3 else if r.cisternFail then 4
  else if r.spineFail then 5 else 0

/-- The conditions that refuse the warm fast path (G:0x7015.01). -/
def State.fastRefusal (s : State) (r : PrimeResult) : Nat :=
  (!r.recordOk).toNat + 2 * (s.fenced.any (fun e => e.2 == 2)).toNat + 4 * (!r.firmwareSame).toNat + 8 * (!r.trainingOk).toNat

/-- Every time base counts on while priming runs. -/
def State.passTime (s : State) (ms : Nat) : State := { s with tb := s.tb.map (· + nanos (1000000 * ms)) }

/-- The standing calibration of a known-answer run: measured idle energy plus 5 %, rounded up to a multiple of 100. -/
def calibration (idle : Nat) : Nat := cdiv (105 * idle) 10000 * 100

/-- A priming that did not fail: step by step to ready or ready degraded. The first frame takes the frame number of TB0 at its
end (DEDUCED; log entry 81). -/
def State.finishPriming (s : State) (r : PrimeResult) (warm : Bool) : State :=
  let t := s.harvestStep r
  let t := if warm && r.firmwareSame then t else t.setG 0x2001 2 (calibration r.idleEnergy)
  let t := (((t.keepCounts r.kept).primePools warm).primeEnergy.primeLanes r).primeDomain
  let t : State := { t.setG 0x2400 2 t.tickFrame with
    eccMode := t.g 0x6003 3, modeAt := none, cal := { t.cal with lastTick := t.tickFrame } }
  let t := (t.setG 0x7800 2 (t.g 0x7800 1)).setG 0x7000 1 (if t.fenced.isEmpty then 5 else 6)
  t.primeManagers.rebuildColophon

/-- A priming. -/
def State.prime (s : State) (r : PrimeResult) (warm : Bool) : State :=
  let t := (s.primeObjects r warm).passTime r.durationMs
  let refusal := if warm then s.fastRefusal r else 0
  let t := (t.setG 0x7015 1 refusal).setG 0x7000 5 (if !warm then 0 else if refusal = 0 then 1 else 2)
  let t := ((t.setG 0x7000 6 r.durationMs).setG 0x9002 3 (s.imageCode r))
  let t := if warm then t.storeG 0x7000 8 (t.g 0x7000 8 + 1) else t.storeG 0x7000 7 (t.g 0x7000 7 + 1)
  let t : State := { t with sec := { t.sec with running := SMap.get (fun _ => 0) t.sec.images (t.g 0x9002 1), imageSvn := r.imageSvn } }
  if s.unusableCause r = 0 then t.finishPriming r warm
  else (t.setG 0x7000 9 (s.unusableCause r)).setG 0x7000 1 7

/-- Priming is under way: powered, out of reset, neither ready nor unusable. -/
def State.priming (s : State) : Bool := s.powered && decide (s.g 0x7000 1 < 5)

/-- COLD_PRIMING. -/
def execColdPriming (r : PrimeResult) (s : State) : Host.Outcome State Fault Refusal :=
  if 5 < r.imageCheck ∨ 64 < r.imageSvn then .fault .noSuchUnit
  else if s.priming && !s.power.warm then .next (s.prime r false) else .next s
/-- WARM_PRIMING. -/
def execWarmPriming (r : PrimeResult) (s : State) : Host.Outcome State Fault Refusal :=
  if 5 < r.imageCheck ∨ 64 < r.imageSvn then .fault .noSuchUnit
  else if s.priming && s.power.warm then .next (s.prime r true) else .next s

end Sys2Proof.Machine
end

