-- ==== Sys2Proof/Machine/Values.lean ====
section
/-!
DEFINITION. Reading the dictionary: the objects that the device computes, the ledgers, latches and INFO (R515, R523, R528,
R529, R539, R552); the health score (R545).
-/

namespace Sys2Proof.Machine

/-! ### Computed objects -/

/-- G:(0x5100 + k).s on the master: score and status of a device (R464). -/
def State.healthEntry (s : State) (k sub : Nat) : Nat :=
  let d := s.self / 4096 * 4096 + 128 * k + (sub - 1)
  if !s.isMaster then 0
  else
    let status := if s.domain.expelled.contains d then 4 else if !s.inView d then 1
      else if s.domain.recommend.contains d then 2 else if s.domain.suspect.contains d then 3 else 0
    (if d = s.self then s.g 0x8000 1 else s.scoreOf d) + status * 1024

/-- Spares of a range of physical units that the map does not use (G:0x7012). -/
def State.spares (s : State) (units : List Nat) : Nat :=
  (units.filter (fun p => !s.badPhys.contains p && !Config.factoryBad.contains p && !s.harvest.contains p)).length

/-- The region slot under the cursor (Table 15.5). -/
def State.cursorRegion (s : State) (f : Nat) : Region := (s.fn f).regions.getD (s.o f 0x5030 1) {}

/-- Cell objects that are computed (Table 9.8). -/
def State.cellValue (s : State) (c sub : Nat) : Nat :=
  if sub = 0x0B then s.costRow c else if sub = 0x0C then s.costU c else if sub = 0x10 then s.recWord c 0 % 2 ^ 16 else s.cellO c sub

/-- Objects of a function. -/
def State.fnValue (s : State) (f index sub : Nat) : Nat :=
  if index = 0x3000 ∧ sub = 1 ∧ isMgr f = true then (if s.resetting f then 2 else 1)
  else if index = 0x3010 ∧ sub = 1 then s.o f 0x3020 10
  else if index = 0x3010 ∧ sub = 0x0C then s.slotsIn f .held
  else if index = 0x3010 ∧ sub = 0x0D then s.slotsIn f .filled
  else if index = 0x3800 ∧ sub = 1 then s.o f 0x3020 9
  else if index = 0x5030 ∧ sub = 2 then (s.cursorRegion f).number
  else if index = 0x5030 ∧ sub = 5 then (s.cursorRegion f).dev + (s.cursorRegion f).owner * 2 ^ 16
  else if index = 0x4000 ∧ sub = 2 then s.activeCells.length
  else if index = 0x4000 ∧ sub = 3 then s.unitSum s.activeCells
  else if 0x4400 ≤ index ∧ index < 0x4800 then s.cellValue (index - 0x4400) sub
  else s.o f index sub

/-- Objects of the device. -/
def State.devValue (s : State) (index sub : Nat) : Nat :=
  if index = 0x2400 ∧ sub = 3 then s.granule
  -- the fields of the image's header, not what LOAD named or computed (DESIGN CHOICE, log entry 80)
  else if index = 0x2403 then (if sub = 1 then s.cal.shadow.length else s.cal.shadow.crc)
  else if index = 0x2404 then s.reservation s.cal.active (sub - 1)
  else if index = 0x2405 then (if radioClass (sub - 1) then s.demand s.inCal (sub - 1) else 0)
  else if 0x4800 ≤ index ∧ index < 0x4804 ∧ sub = 1 then timeWord (s.time (index - 0x4800))
  else if index = 0x4808 ∧ sub = 2 then s.radioFrame % 1024 + s.radioFrame / 1024 * 2 ^ 16
  else if 0x5100 ≤ index ∧ index < 0x5120 then s.healthEntry (index - 0x5100) sub
  else if index = 0x7010 then s.harvest.getD (sub - 1) 0
  else if index = 0x7011 then s.harvest.getD (95 + sub) 0 % 256
  else if index = 0x7012 then s.spares (if sub = 1 then span 0 52 else if sub = 2 then span 52 52 else span 256 36)
  else if index = 0x7013 then (if sub = 1 then s.fenced.length else (s.fenced[sub - 2]?).elim 0 fencedWord)
  else if index = 0x7801 ∧ sub = 2 then s.mapDigest
  else if index = 0x7801 ∧ sub = 3 then s.imageVersion
  else if index = 0x7801 ∧ sub = 4 then s.cal.active.crc
  else if index = 0x8000 ∧ sub = 2 then s.condition
  else if index = 0x9001 ∧ sub = 2 then s.imageSvn
  else if index = 0x1001 then leNat s.chain
  else if index = 0x1102 ∧ sub = 1 then s.sec.flashQ.length
  else s.g index sub

/-- An object's value. -/
def State.objValue (s : State) (sel index sub : Nat) : Nat :=
  if sub = 0 then Dict.maxSub sel index else if sel = 1023 then s.devValue index sub else s.fnValue sel index sub

/-- Values that a pin or a sensor gives at the read: free values (log entry 22). An undriven GPIO's sensed level, and the
measured VDD_ARR. -/
def State.senseRead (s : State) (index sub v : Nat) : Nat × State :=
  if index = 0xA00C then
    if fld v 0 1 = 1 then (fld v 0 2 + fld v 1 1 * 4, s)
    else
      let (x, t) := s.fresh
      (fld v 0 2 + x % 2 * 4, t)
  else if index = 0x2004 ∧ sub = 2 then
    let (x, t) := s.fresh
    (x % 2 ^ 16, t)
  else (v, s)

/-- A read of the nonce generates a new one (R510). -/
def State.nonceRead (s : State) : Nat × State :=
  let (v, t) := s.fresh
  let n := v % 2 ^ 128
  (n, ({ t with sec := { t.sec with nonceLive := true } } : State).setG 0xF000 2 n)

/-- The bytes of an object, with what its read does: a ledger is evaluated, a VBYTES object has its present length (R517,
R552). -/
def State.readBytes (s : State) (r : ObjRow) (sel index sub : Nat) : List Byte × State :=
  match (if sub = 0 then none else s.equation sel index sub) with
  | some e => (s.record e, s.evaluate (sel, index, sub))
  | none =>
    if index = 0xF000 ∧ sub = 2 then
      let (v, t) := s.nonceRead
      (leBytes 16 v, t)
    else if index = 0x1001 then (s.chain, s)
    else if index = 0x8120 ∧ s.g 0x8120 1 = 0 then ([], s)
    else if index = 0x8120 then (leBytes (32 + 8 * (fld (s.g 0x8120 1) 16 4 + fld (s.g 0x8120 1) 20 4)) (s.g 0x8120 1), s)
    else if index = 0x1104 ∧ sub = 6 then (leBytes (fld (s.g 0x1104 5) 80 12) (s.g 0x1104 6), s)
    else
      let (v, t) := if sel = 1023 then s.senseRead index sub (s.objValue sel index sub) else (s.objValue sel index sub, s)
      (leBytes r.size v, t)

/-! ### Reads (R516, R522, R528, R483, R575) -/

/-- A requester: one MCTP endpoint, one window, or the fabric path. -/
def requester : Path → Path
  | .window f _ => .window f false
  | p => p

/-- What answers before PWR_GOOD: two objects over I3C (R575). -/
def State.preRead (s : State) (path : Path) (sel index sub : Nat) : Bool :=
  path == .i3c && s.power.aon && s.power.io18 && !s.power.good && sel == 1023 && index == 0x2004 && (sub == 1 || sub == 3)

/-- The checks of a read in order. -/
def State.checkRead (s : State) (path : Path) (sel index sub : Nat) : Except Refused ObjRow := do
  ensure (s.up || (sel == 1023 && primingRead index)) Status.accessDenied
  match s.reach path sel index sub with
  | none => .error ⟨Status.addressInvalid, 0⟩
  | some r =>
    ensure (s.hasRight path r 0 && (index != 0x1104 || s.isMaster)) Status.accessDenied
    .ok r

/-- A read at OFFSET 0 latches the whole object for its requester; one at another OFFSET is served from that latch. -/
def State.readCore (s : State) (path : Path) (sel index sub offset length : Nat) : State :=
  match (do
      let r ← s.checkRead path sel index sub
      ensure (offset % 4 == 0 && decide (length ≤ 2048)) Status.shapeInvalid
      if offset = 0 then .ok (s.readBytes r sel index sub, true)
      else
        match s.latches.find? (fun l => l.1 == requester path && l.2.1 == objKey sel index sub) with
        | some l =>
          ensure (decide (offset < l.2.2.2.length)) Status.shapeInvalid
          .ok ((l.2.2.2, s), false)
        | none => .error ⟨Status.shapeInvalid, 0⟩ : Except Refused ((List Byte × State) × Bool)) with
  | .error e => s.respond path e.status e.detail []
  | .ok ((bytes, t), first) =>
    let t : State := if first then
        { t with latches := t.latches.filter (fun l => l.1 != requester path) ++ [(requester path, objKey sel index sub, t.tb2us, bytes)] }
      else t
    t.respond path Status.ok bytes.length ((bytes.drop offset).take length)

/-- A read on a path. -/
def State.dictRead (s : State) (path : Path) (sel index sub offset length : Nat) : State :=
  if !s.powered then
    if s.preRead path sel index sub then s.send (.dict path Status.ok 2 (leBytes (if sub = 1 then 2 else 1) (s.g 0x2004 sub))) else s
  else
    match s.gate path with
    | some t => t
    | none => s.readCore path sel index sub offset length

/-- DICT_READ. -/
def execDictRead (path : Path) (sel index sub offset length : Nat) (s : State) : Host.Outcome State Fault Refusal :=
  .next (s.dictRead path sel index sub offset length)

/-- LEDGER_READ: the whole record. -/
def execLedgerRead (path : Path) (sel index sub : Nat) (s : State) : Host.Outcome State Fault Refusal :=
  .next (s.dictRead path sel index sub 0 272)

/-- The 16 bytes of INFO (R529). -/
def infoBytes (r : ObjRow) : List Byte :=
  leBytes 4 (r.type + r.size * 2 ^ 16) ++ leBytes 4 r.acc ++ leBytes 4 r.stored.toNat ++ leBytes 4 0
/-- INFO skips the check of the right. -/
def State.infoCore (s : State) (path : Path) (sel index sub : Nat) : State :=
  if !s.up then s.respond path Status.accessDenied 0 []
  else
    match s.reach path sel index sub with
    | some r => s.respond path Status.ok 0 (infoBytes r)
    | none => s.respond path Status.addressInvalid 0 []
/-- DICT_INFO. -/
def execDictInfo (path : Path) (sel index sub : Nat) (s : State) : Host.Outcome State Fault Refusal :=
  if !s.powered then .next s
  else
    match s.gate path with
    | some t => .next t
    | none => .next (s.infoCore path sel index sub)

/-- DICT_LATCH_EXPIRY: 1 s of TB2 after it was taken. -/
def execDictLatchExpiry (path : Path) (s : State) : Host.Outcome State Fault Refusal :=
  .next { s with latches := s.latches.filter (fun l => l.1 != requester path || decide (s.tb2us < l.2.2.1 + 1000000)) }

/-! ### Health (R545, Table 21.4) -/

/-- Cores that are fenced as a whole. -/
def State.fencedCores (s : State) : List Nat := (List.range 96).filter (fun c => (coreEngines c).all s.isFenced)
/-- The deductions in the order of Table 21.4. -/
def State.deductions (s : State) : List Nat :=
  let whole := s.fencedCores
  let rest := (s.fenced.filter (fun e => !whole.any (fun c => (coreEngines c).contains e.1))).length
  let down := ((span 1 64).filter (fun l => s.g 0x5001 l != 0 && s.g 0x5002 l != 3)).length
  let kept := ((span 1 64).map (s.g 0x7014)).sum
  [100 * whole.length, 40 * rest, if s.imbalanced then 500 else 0, min 400 (25 * s.hourly.sum), min 150 (5 * s.minutely.sum),
   min 200 (10 * down), min 100 (kept / 64), (if s.servoState 0 = 3 then 50 else 0) + (if s.servoState 1 = 3 then 50 else 0)]

/-- Buckets of a period in microseconds: as many new ones as period starts have passed, at most n kept. -/
def rotate (n period before now : Nat) (l : List Nat) : List Nat :=
  (List.replicate (min n (now / period - before / period)) 0 ++ l).take n

/-- HEALTH_SCORE_UPDATE. -/
def execHealthScoreUpdate (s : State) : Host.Outcome State Fault Refusal :=
  if s.up && decide (s.healthAt + 100000 ≤ s.tb2us) then
    let t : State := { s with
      hourly := rotate 24 3600000000 s.healthAt s.tb2us s.hourly, minutely := rotate 60 60000000 s.healthAt s.tb2us s.minutely, healthAt := s.tb2us }
    let d := t.deductions
    let t := (d.zipIdx).foldl (fun (u : State) (e : Nat × Nat) => u.setG 0x8001 (e.2 + 1) e.1) t
    .next (t.setG 0x8000 1 (1000 - d.sum))
  else .next s

end Sys2Proof.Machine
end

