-- ==== Sys2Proof/Machine/Holders.lean ====
section
/-!
DEFINITION. Shared resources: the claim, release and take-away of holder objects, watchdog timers and GPIO pins (R534-R538,
Table 20.5).
-/

namespace Sys2Proof.Machine

/-! ### Parties -/

/-- A manager writes: in its own window, or the master's over the fabric. -/
def managerPath : Path → Bool
  | .window f _ => isMgr f
  | .fabric => true
  | _ => false
/-- The path's writer may act for a manager or a function f; the fabric path acts for any manager (log entry 23). -/
def actsFor (path : Path) (f : Nat) : Bool :=
  match path with
  | .window g _ => g == f
  | .fabric => isMgr f
  | _ => false

/-- "May claim": a V writer may name only itself. -/
def mayClaim (path : Path) (index value : Nat) : Bool :=
  managerPath path || ((index == 0xA002 || index == 0xA003 || index == 0xA009) && actsFor path value)

/-- "May take away while held", the party. -/
def mayTake (path : Path) (index cur : Nat) : Bool :=
  managerPath path && (index != 0xA006 || !actsFor path cur || path == .fabric) && (index != 0xA010 || actsFor path (mgrOf cur))

/-- The condition of a take-away. -/
def State.takeable (s : State) (index cur : Nat) : Bool :=
  !(index == 0xA001 && s.g 0xA001 2 == 1 && (s.g 0x4800 3 == 3 || s.g 0x4800 3 == 4)) &&
  !(index == 0xA006 && s.g 0x2401 3 != 0 && s.g 0x2401 3 != 5) &&
  !(index == 0xA010 && cur == s.radioOwner && !s.liveCells.isEmpty)

/-- The rule of a write of a holder object. TB0 ownership may change at any time and is stored (R526); radio ownership has
its own rule. -/
def holderRule (path : Path) (index sub value : Nat) (r : ObjRow) (s : State) : Except Refused State :=
  let cur := s.g index sub
  if index = 0xA005 then radioOwnerRule path value r s
  else if index = 0xA004 then .ok s
  else if value ≠ none16 ∧ isFn value = false then .error ⟨Status.shapeInvalid, 0⟩
  else if value = cur then .ok s
  else if cur = none16 then
    if mayClaim path index value then .ok (s.putHolder index sub value) else .error ⟨Status.accessDenied, 0⟩
  else if value = none16 ∧ actsFor path cur = true then .ok (s.putHolder index sub value)
  else if mayTake path index cur then
    if s.takeable index cur then .ok (s.putHolder index sub value) else .error ⟨Status.accessDenied, 0⟩
  else .error ⟨Status.resourceHeld, cur⟩

/-- A subindex of a holder object. -/
def holderAt (index sub : Nat) : Bool := isHolder (1023 * 2 ^ 16 + index) sub && decide (index < 2 ^ 16)

/-- HOLDER_CLAIM. -/
def execHolderClaim (path : Path) (index sub sel : Nat) (s : State) : Host.Outcome State Fault Refusal :=
  if !holderAt index sub then .fault .noSuchUnit
  else .next (s.access path 1023 index sub none sel (holderRule path index sub sel))
/-- HOLDER_RELEASE: a write of 0xFFFF. -/
def execHolderRelease (path : Path) (index sub : Nat) (s : State) : Host.Outcome State Fault Refusal :=
  if !holderAt index sub then .fault .noSuchUnit
  else .next (s.access path 1023 index sub none none16 (holderRule path index sub none16))
/-- HOLDER_TAKE_AWAY: a write of 0xFFFF or a new selector while the resource is held. -/
def execHolderTakeAway (path : Path) (index sub value : Nat) (s : State) : Host.Outcome State Fault Refusal :=
  if !holderAt index sub then .fault .noSuchUnit
  else .next (s.access path 1023 index sub none value (holderRule path index sub value))

/-! ### Settings of a resource (R536-R538) -/

/-- Only the holder writes a resource's settings (R536). -/
def State.byHolder (s : State) (path : Path) (index sub : Nat) : Except Refused Unit :=
  ensure (pathWriter path == some (s.g index sub)) Status.resourceHeld (s.g index sub)

/-- The window of a timer opens now. -/
def State.openWindow (s : State) (sub : Nat) : State := { s with wdog := SMap.put (sub - 1) s.tb2us s.wdog }
/-- End of a timer's window in microseconds of TB2. -/
def State.windowEnd (s : State) (sub : Nat) : Nat :=
  SMap.get (fun _ => 0) s.wdog (sub - 1) + 1000 * fld (s.g 0xA00A sub) 0 16

/-- The rule of a setting: only a manager holder may set action 2. -/
def watchdogRule (path : Path) (sub value : Nat) (_ : ObjRow) (s : State) : Except Refused State := do
  s.byHolder path 0xA009 sub
  ensure (fld value 16 2 != 2 || isMgr (s.g 0xA009 sub)) Status.accessDenied
  .ok ((s.setG 0xA00A sub value).openWindow sub)
/-- WATCHDOG_ARM. -/
def execWatchdogArm (path : Path) (timer setting : Nat) (s : State) : Host.Outcome State Fault Refusal :=
  .next (s.access path 1023 0xA00A (timer + 1) none setting (watchdogRule path (timer + 1) setting))

/-- The rule of a kick: inside the window it opens a new one. -/
def kickRule (path : Path) (sub : Nat) (_ : ObjRow) (s : State) : Except Refused State := do
  s.byHolder path 0xA009 sub
  .ok (if s.tb2us < s.windowEnd sub then s.openWindow sub else s)
/-- WATCHDOG_KICK. -/
def execWatchdogKick (path : Path) (timer : Nat) (s : State) : Host.Outcome State Fault Refusal :=
  .next (s.access path 1023 0xA00B (timer + 1) none 1 (kickRule path (timer + 1)))

/-- The action of an expiry: a health event, a reset of the holder, or a warm reset. -/
def State.watchdogAct (s : State) (timer action : Nat) : State :=
  let f := s.g 0xA009 (timer + 1)
  if action = 0 then s.raise ErrCode.watchdog none16 none16 timer
  else if action = 1 then (if isFn f && s.present f then s.beginReset f false else s)
  else s.requestReset 1 (if f = 513 then 4 else 3)
/-- WATCHDOG_EXPIRY: the count, the stop, the action. -/
def execWatchdogExpiry (timer : Nat) (s : State) : Host.Outcome State Fault Refusal :=
  if 4 ≤ timer then .fault .noSuchUnit
  else
    let v := s.g 0xA00A (timer + 1)
    if s.up && fld v 0 16 != 0 && decide (s.windowEnd (timer + 1) ≤ s.tb2us) then
      .next (((s.addG 0xA00D (timer + 1) 1).setG 0xA00A (timer + 1) (setFld v 0 16 0)).watchdogAct timer (fld v 16 2))
    else .next s

/-- The rule of a pin's control: its holder drives it. -/
def gpioRule (path : Path) (sub value : Nat) (_ : ObjRow) (s : State) : Except Refused State := do
  s.byHolder path 0xA008 sub
  .ok (s.setG 0xA00C sub value)
/-- GPIO_CONTROL_WRITE. -/
def execGpioControlWrite (path : Path) (pin value : Nat) (s : State) : Host.Outcome State Fault Refusal :=
  .next (s.access path 1023 0xA00C (pin + 1) none value (gpioRule path (pin + 1) value))

end Sys2Proof.Machine
end

