-- ==== Sys2Proof/Machine/Dictionary.lean ====
section
/-!
DEFINITION. Writes by object: OBJECT_WRITE, the commit of stored writes, the fabric path of the dictionary, and MCTP control
messages (R522-R533). Every row that writes one object shares that object's rule with OBJECT_WRITE.
-/

namespace Sys2Proof.Machine

/-! ### The rule of an object's chapter -/

/-- The rule of a write that only one test precedes. -/
def guarded (ok : Bool) (rule : ObjRow → State → Except Refused State) (r : ObjRow) (s : State) : Except Refused State :=
  if ok then rule r s else .error ⟨Status.accessDenied, 0⟩

/-- Vnnn:0x3000 (Table 12.7). -/
def lifeRule (f sub value : Nat) (r : ObjRow) (s : State) : Except Refused State :=
  match sub with
  | 1 => if value = 0 then destroyRule f r s else createRule f r s
  | 2 => if value = 1 then resetRule f r s else .error ⟨Status.shapeInvalid, 0⟩
  | 3 => preemptRule f r s
  | 5 => releaseRule f value r s
  | n => storeRule f 0x3000 n value r s

/-- Vnnn:0x3010: base and enable only while no slot is held (R204, R205). -/
def ringRule (f sub value : Nat) (r : ObjRow) (s : State) : Except Refused State := do
  ensure (sub != 2 || value % 32 == 0) Status.shapeInvalid
  ensure (!(sub == 2 || sub == 3) || s.slotsIn f .held == 0) Status.accessDenied
  storeRule f 0x3010 sub value r s

/-- Objects of a cell (Tables 9.8, 11.11, 16.3). -/
def cellObjRule (f cell sub value : Nat) (r : ObjRow) (s : State) : Except Refused State :=
  if sub = 1 then (if value = 0 then deactivateRule cell r s else activateRule cell r s)
  else if sub = 0x30 then standbyRule cell value r s
  else if sub = 0x31 then storeRule f (0x4400 + cell) sub value r s
  else cellRule cell sub value r s

/-- Objects under a function selector. -/
def fnRule (f index sub value : Nat) (r : ObjRow) (s : State) : Except Refused State :=
  if 0x4400 ≤ index ∧ index < 0x4800 then cellObjRule f (index - 0x4400) sub value r s
  else
    match index with
    | 0x3000 => lifeRule f sub value r s
    | 0x3010 => ringRule f sub value r s
    | 0x3020 => componentRule f sub value r s
    | 0x3040 => floatRangeRule f sub value r s
    | 0x3050 => if sub = 1 then State.openRule f value r s else if sub = 4 then State.closeRule f value r s else storeRule f index sub value r s
    | 0x3800 => guarded (!s.kvBusy f) (storeRule f index sub value) r s
    | 0x4000 => crbRule value r s
    | 0x5020 => if sub = 5 then endpointRule f value r s else storeRule f index sub value r s
    | 0x5030 => if sub = 6 then regionRule f value r s else storeRule f index sub value r s
    | 0x5050 => if sub = 7 then procedureRule f value r s else storeRule f index sub value r s
    | 0x1120 => noticeRule f value r s
    | n => storeRule f n sub value r s

/-- G:0x2401: F_s moves only while no swap is armed and none is validated (R43). -/
def swapRule (sub value : Nat) (r : ObjRow) (s : State) : Except Refused State :=
  if sub = 2 then (if value = 0 then disarmRule r s else armRule value r s)
  else guarded (s.g 0x2401 3 != 2 && s.g 0x2401 3 != 3 && s.g 0x2401 3 != 4) (storeRule 1023 0x2401 sub value) r s

/-- A setting of TB0: its owner writes it (R334). -/
def tb0Rule (path : Path) (index sub value : Nat) (r : ObjRow) (s : State) : Except Refused State := do
  s.byHolder path 0xA004 1
  storeRule 1023 index sub value r s

/-- G:0x4800 + n. -/
def baseRule (path : Path) (n sub value : Nat) (r : ObjRow) (s : State) : Except Refused State :=
  if sub = 5 then rearmRule path n r s
  else if n = 0 ∧ (sub = 3 ∨ sub = 4) then tb0Rule path 0x4800 sub value r s
  else storeRule 1023 (0x4800 + n) sub value r s

/-- G:0x5011.01 to .03: the self-fence time stays 50 us below the declaration (R449). -/
def beatRule (sub value : Nat) (r : ObjRow) (s : State) : Except Refused State :=
  let v (k : Nat) : Nat := if k = sub then value else s.g 0x5011 k
  guarded (decide (3 < sub) || decide (v 3 + 50 ≤ v 1 * v 2)) (storeRule 1023 0x5011 sub value) r s

/-- G:0x5012: the areas are the manager's and the radio owner's (R464). -/
def partnerRule (path : Path) (sub value : Nat) (r : ObjRow) (s : State) : Except Refused State :=
  if sub = 0x0A then handBackRule value r s
  else guarded (!(decide (3 ≤ sub) && decide (sub ≤ 6)) || managerPath path || pathWriter path == some s.radioOwner)
    (storeRule 1023 0x5012 sub value) r s

/-- G:0x5013: a new spare count is used at once (R462, R463). -/
def spareRule (sub value : Nat) (r : ObjRow) (s : State) : Except Refused State :=
  match sub with
  | 2 => .ok ((s.setG 0x5013 2 value).reconsider s.domain.suspect.length)
  | 4 => expelRule value r s
  | 5 => readmitRule value r s
  | n => storeRule 1023 0x5013 n value r s

/-- G:0x5018: a write of the length starts a distribution; the version is that of the image's header, which the device
reads from host memory: a free value. -/
def imageRule (sub value : Nat) (r : ObjRow) (s : State) : Except Refused State :=
  if sub = 7 then
    let (v, t) := s.fresh
    distributionRule value (v % 2 ^ 32) r t
  else storeRule 1023 0x5018 sub value r s

/-- Objects of the device. A write of G:0x1104.02 that the fabric brings finds an access outstanding, or no master (R533).
-/
def devRule (path : Path) (index sub value : Nat) (r : ObjRow) (s : State) : Except Refused State :=
  if holderAt index sub then holderRule path index sub value r s
  else
    match index with
    | 0x1100 => guarded (path == .i3c) (storeRule 1023 index sub value) r s
    | 0x1104 => guarded (s.isMaster && sub != 2) (storeRule 1023 index sub value) r s
    | 0x2000 => powerRule value r s
    | 0x2003 => guarded (decide (value < s.g 0x2003 3)) (storeRule 1023 index sub value) r s
    | 0x2401 => swapRule sub value r s
    | 0x4200 => groupRule (sub - 1) r s
    | 0x4800 => baseRule path 0 sub value r s
    | 0x4801 => baseRule path 1 sub value r s
    | 0x4802 => baseRule path 2 sub value r s
    | 0x4803 => baseRule path 3 sub value r s
    | 0x4804 => snapshotRule r s
    | 0x4805 => tb0Rule path index sub value r s
    | 0x4806 => tb0Rule path index sub value r s
    | 0x4807 => tb0Rule path index sub value r s
    | 0x5001 => roleRule (sub - 1) value r s
    | 0x5011 => beatRule sub value r s
    | 0x5012 => partnerRule path sub value r s
    | 0x5013 => spareRule sub value r s
    | 0x5018 => imageRule sub value r s
    | 0x7000 => resetWriteRule path value r s
    | 0x7800 => timingRule value r s
    | 0x9001 => svnRule r s
    | 0xA00A => watchdogRule path sub value r s
    | 0xA00B => kickRule path sub r s
    | 0xA00C => gpioRule path sub value r s
    | n => storeRule 1023 n sub value r s

/-- The rule of a write. -/
def writeRule (path : Path) (sel index sub value : Nat) (r : ObjRow) (s : State) : Except Refused State :=
  if sel = 1023 then devRule path index sub value r s else fnRule sel index sub value r s

/-! ### The fabric path (R533) -/

/-- Fields of a request header (Table 20.3). -/
def reqIndex (h : Nat) : Nat := fld h 0 16
def reqSub (h : Nat) : Nat := fld h 16 8
def reqOp (h : Nat) : Nat := fld h 24 8
def reqSel (h : Nat) : Nat := fld h 32 10
def reqTag (h : Nat) : Nat := fld h 48 16
def reqOffset (h : Nat) : Nat := fld h 64 13
def reqLength (h : Nat) : Nat := fld h 80 12

/-- A write by any path but the submission of a remote access. -/
def State.plainWrite (s : State) (path : Path) (sel index sub length value : Nat) : State :=
  if sel = 1023 ∧ index = 0xF000 ∧ sub = 3 then s.tokenWrite path (some length) (tokenOf value)
  else s.access path sel index sub (some length) value (writeRule path sel index sub value)

/-- The device applies a request of the fabric path; a write at an OFFSET other than 0 has no object's size. -/
def State.applyRequest (s : State) (h : Nat) (data : List Byte) : State :=
  let t : State := { s with domain := { s.domain with applying := some h } }
  match reqOp h with
  | 0 => t.readCore .fabric (reqSel h) (reqIndex h) (reqSub h) (reqOffset h) (reqLength h)
  | 1 => t.plainWrite .fabric (reqSel h) (reqIndex h) (reqSub h) (reqLength h + 4096 * reqOffset h) (leNat (data.take (reqLength h)))
  | 2 => t.infoCore .fabric (reqSel h) (reqIndex h) (reqSub h)
  | _ => t.respond .fabric Status.shapeInvalid 0 []

/-- The outcome of a remote access lands. -/
def State.remoteOutcome (s : State) (h : Nat) (data : List Byte) : State :=
  let t : State := { s with domain := { s.domain with remote := none, answers := [] } }
  (t.setG 0x1104 5 h).setG 0x1104 6 (leNat data)

/-- The failures of a broadcast, lowest device first. -/
def failures (answers : List (Nat × Nat)) : List (Nat × Nat) :=
  (answers.filter (fun a => a.2 != Status.ok)).mergeSort (fun a b => decide (a.1 ≤ b.1))

/-- The outcome of a broadcast from the answers of its members. -/
def State.broadcastOutcome (s : State) (h : Nat) (answers : List (Nat × Nat)) : State :=
  let bad := failures answers
  let first := bad.head?.getD (none16, Status.ok)
  ((s.setG 0x1104 7 bad.length).setG 0x1104 8 first.1).remoteOutcome (responseHeader h first.2 0 0) []

/-- A remote access whose answers are all there ends. -/
def State.closeRemote (s : State) : State :=
  match s.domain.remote with
  | some (target, h) =>
    if target = 0x2000 then
      if s.domain.members.all (fun d => s.domain.answers.any (fun a => a.1 == d)) then s.broadcastOutcome h s.domain.answers else s
    else if target = s.self && !s.domain.answers.isEmpty then
      (s.remoteOutcome ((s.domain.kept.map (·.1)).getD 0) ((s.domain.kept.map (·.2)).getD []))
    else s
  | none => s

/-- The data that goes with a request. -/
def State.requestData (s : State) (h : Nat) : List Byte :=
  if reqOp h = 1 then leBytes (min 128 (reqLength h)) (s.g 0x1104 3) else []

/-- Send the outstanding request to its target. -/
def State.sendRemote (s : State) : State :=
  match s.domain.remote with
  | some (target, h) =>
    if target = 0x2000 then s.relayAll 0 0x13 h 0 (s.requestData h)
    else if target = s.self then s
    else s.domainMsg target 0x13 h 0 (s.requestData h)
  | none => s

/-- The rule of a submission. -/
def submitRule (h : Nat) (_ : ObjRow) (s : State) : Except Refused State := do
  s.onMaster
  ensure s.domain.remote.isNone Status.accessDenied
  let target := s.g 0x1104 1
  ensure (target != 0x2000 || reqOp h == 1) Status.shapeInvalid
  if target ≠ 0x2000 ∧ s.inView target = false then .ok (s.remoteOutcome (responseHeader h Status.peerFenced 0 0) [])
  else
    let t : State := { s with domain := { s.domain with remote := some (target, h), remoteSent := s.tb2us, remoteTry := false, answers := [] } }
    let t := t.sendRemote
    .ok (if target = 0x2000 ∨ target = t.self then (t.applyRequest h (t.requestData h)).closeRemote else t)

/-- REMOTE_DICT_SUBMIT: a write of the 16 bytes of a request header. -/
def execRemoteDictSubmit (path : Path) (h : Nat) (s : State) : Host.Outcome State Fault Refusal :=
  .next (s.access path 1023 0x1104 2 none h (submitRule h))

/-- REMOTE_DICT_RETRY: once, with the same TAG, after 20 ms. -/
def execRemoteDictRetry (s : State) : Host.Outcome State Fault Refusal :=
  if s.up && s.domain.remote.isSome && !s.domain.remoteTry && decide (s.domain.remoteSent + 20000 ≤ s.tb2us) then
    .next (({ s with domain := { s.domain with remoteTry := true } } : State).sendRemote)
  else .next s

/-- REMOTE_DICT_TIMEOUT: 100 ms; the members that did not answer fail with it. -/
def execRemoteDictTimeout (s : State) : Host.Outcome State Fault Refusal :=
  match s.domain.remote with
  | some (target, h) =>
    if s.up && decide (s.domain.remoteSent + 100000 ≤ s.tb2us) then
      if target = 0x2000 then
        let silent := s.domain.members.filter (fun d => s.domain.answers.all (fun a => a.1 != d))
        .next (s.broadcastOutcome h (s.domain.answers ++ silent.map (fun d => (d, Status.waitTimeout))))
      else .next (s.remoteOutcome (responseHeader h Status.waitTimeout 0 0) [])
    else .next s
  | none => .next s

/-- DICT_REQ: a repeated TAG is answered with the kept response; one that is still being applied needs no second answer. -/
def execDictReq (h : Nat) (data : List Byte) (relay : Bool) (s : State) : Host.Outcome State Fault Refusal :=
  if !s.up || !s.isMember then .next s
  else
    let t := if relay then s.passOn 0x13 h 0 data else s
    if t.domain.applying.isSome then .next t
    else
      match t.domain.kept with
      | some (k, d) => if reqTag k = reqTag h then .next (t.domainMsg t.dMaster 0x14 k 0 d) else .next (t.applyRequest h data)
      | none => .next (t.applyRequest h data)

/-- DICT_RESP. -/
def execDictResp (d h : Nat) (data : List Byte) (s : State) : Host.Outcome State Fault Refusal :=
  if 8192 ≤ d then .fault .noSuchUnit
  else
    match s.domain.remote with
    | some (target, q) =>
      if !s.up || !s.isMaster || reqTag h != reqTag q then .next s
      else if target = d then .next (s.remoteOutcome h data)
      else if target = 0x2000 && s.inView d && s.domain.answers.all (fun a => a.1 != d) then
        .next (({ s with domain := { s.domain with answers := s.domain.answers ++ [(d, fld h 64 8)] } } : State).closeRemote)
      else .next s
    | none => .next s

/-! ### OBJECT_WRITE -/

/-- OBJECT_WRITE: a write of any object. -/
def execObjectWrite (path : Path) (sel index sub length value : Nat) (s : State) : Host.Outcome State Fault Refusal :=
  if sel = 1023 ∧ index = 0x1104 ∧ sub = 2 then .next (s.access path sel index sub (some length) value (submitRule value))
  else .next (s.plainWrite path sel index sub length value)

/-! ### Stored writes (R526) -/

/-- The new value of a stored object comes into force. A manager's grant does so at the next priming (R337), the store of the
KV page table at the next cold one (R213). -/
def State.commitStored (s : State) (key value : Nat) : State :=
  let sel := key / 2 ^ 24
  let index := key / 2 ^ 8 % 2 ^ 16
  let sub := key % 2 ^ 8
  if sel ≠ 1023 then s
  else
    match index with
    | 0x2000 => s.setPower value
    | 0x4200 => s.retrainGroup (sub - 1) value
    | 0x5001 => s.setRole (sub - 1) value
    | 0x5010 => if sub = 1 then s.setConfigured value else s.setG index sub value
    | 0x7800 => s.setTiming value
    | n => s.setG n sub value

/-- The window of a write that has been answered is free again. -/
def State.freeWindow (s : State) : Path → State
  | .window f _ => s.modFn f (fun (x : Fn) => { x with busy := false })
  | _ => s

/-- STORED_WRITE_COMMIT: the oldest stored write is in flash and read back, or the flash failed; then its answer. -/
def execStoredWriteCommit (flashOk : Bool) (s : State) : Host.Outcome State Fault Refusal :=
  match s.sec.flashQ with
  | [] => .next s
  | (path, key, value) :: rest =>
    if !s.powered then .next s
    else
      let t : State := { s with sec := { s.sec with flashQ := rest } }
      let t := t.freeWindow path
      if flashOk then
        let t : State := { t with sec := { t.sec with flash := SMap.put key value t.sec.flash } }
        .next (((t.commitStored key value).respond path Status.ok 0 []).closeRemote)
      else .next (((t.addG 0x1102 2 1).respond path Status.hardwareError 0 []).closeRemote)

/-! ### MCTP (R530) -/

/-- MCTP_CONTROL_MESSAGE: Set Endpoint ID (1) and Get Endpoint ID (2) of DSP0236; every other command is answered (log entry
24). -/
def execMctpControlMessage (path : Path) (command value : Nat) (s : State) : Host.Outcome State Fault Refusal :=
  if 256 ≤ command ∨ 256 ≤ value then .fault .noSuchUnit
  else
    match path with
    | .i3c =>
      if !s.powered then .next s
      else
        let t := if command = 1 then s.setG 0x1100 1 value else s
        .next (t.send (.mctp path command (t.g 0x1100 1)))
    | .vdm p =>
      if 2 ≤ p then .fault .noSuchUnit
      else if !s.powered then .next s
      else
        let t : State := if command = 1 then { s with vdmEid := SMap.set (fun _ => 0) s.vdmEid p value } else s
        .next (t.send (.mctp path command (SMap.get (fun _ => 0) t.vdmEid p)))
    | _ => .fault .noSuchUnit

end Sys2Proof.Machine
end

