-- ==== Sys2Proof/Machine/Gddr7.lean ====
section
/-!
DEFINITION. Refresh and scrubbing of the GDDR7 channels: REFRESH_RUN, REFRESH_OWED_TICK and GDDR7_SCRUB (R397-R403).
-/

namespace Sys2Proof.Machine

/-- Compatible mode is in force (R467). -/
def State.inCompatible (s : State) : Bool := s.g 0x7800 2 == 1

/-- A run of a channel that is the gutter of a radio or exact interval is never released (R402). -/
def State.runHolds (s : State) (ch first : Nat) : Bool :=
  (patternEntries s.cal.active (patternOf s.cal.active (calId 21 ch))).any (fun e =>
    (e.kind == 1 || e.kind == 2) && e.start == first + 8)

/-- REFRESH_RUN: at the first granule of a run (R401, R402). -/
def execRefreshRun (ch : Nat) (s : State) : Host.Outcome State Fault Refusal :=
  if 64 ≤ ch then .fault .noSuchUnit
  else if !s.up || s.granule % 125 != 116 then .next s
  else if s.inCompatible then
    let owed := SMap.get (fun _ => 0) s.owed ch
    let n := min owed 8
    let t := { s.addG 0x6007 (ch + 1) n with owed := SMap.set (fun _ => 0) s.owed ch (owed - n) }
    .next (if n = 8 || s.runHolds ch s.granule then t
      else { t with cal := { t.cal with released := t.cal.released ++ [(calId 21 ch, s.granule + n)] } })
  else .next (s.addG 0x6007 (ch + 1) 8)

/-- A seam that lasts past its first 675 core cycles (R403). -/
def State.longSeam (s : State) : Bool := decide (seamStart + 675 ≤ s.cycle)

/-- REFRESH_OWED_TICK: every 3.9 µs one more REFab is owed in compatible mode; in an extended seam one is issued (R402,
R403). -/
def execRefreshOwedTick (ch : Nat) (s : State) : Host.Outcome State Fault Refusal :=
  if 64 ≤ ch then .fault .noSuchUnit
  else if !s.up then .next s
  else if s.longSeam then .next (s.addG 0x6007 (ch + 1) 1)
  else if s.inCompatible then
    .next { s with owed := SMap.set (fun _ => 0) s.owed ch (SMap.get (fun _ => 0) s.owed ch + 1) }
  else .next s

/-- Pairs of a channel, and those that lie in pages (R391, R397). -/
def channelPairs : Nat := 7456540
def pagedPairs : Nat := 7456512

/-- The payload address of pair p of a channel in ascending order; none for the space beyond the last page (R391). -/
def pairAddr (ch p : Nat) : Option Nat :=
  if p < pagedPairs then some ((8 * (p / 64) + ch / 8) * 65536 + (8 * (p % 64) + ch % 8) * 128)
  else if p < pagedPairs + 24 then
    let q := p - pagedPairs
    some ((932064 + q / 8) * 65536 + (64 * (q % 8) + ch) * 128)
  else none

/-- A corrected pair is written back, or the write-back is discarded (R397). A block that was miscorrected is written back as
bytes that the manual leaves open. -/
def State.writeBack (s : State) (ch : Nat) (a : Option Nat) (intervened : Bool) (wrong : List Nat) : State :=
  if intervened then s.addG 0x6009 (ch + 1) 1
  else
    match a with
    | some x =>
      let t : State := { s with ecc := s.ecc.filter (fun e => !(e.1 == x / 64 || e.1 == x / 64 + 1)) }
      wrong.foldl (fun t b => let (v, u) := t.fresh; u.store (x + 64 * b) (freeBytes v 64)) t
    | none => s

/-- The scrubber's pass goes on; at its end the pass is counted and judged (R397). -/
def State.scrubNext (s : State) (ch corrected : Nat) : State :=
  let p := SMap.get (fun _ => (0, 0)) s.scrub ch
  let n := p.2 + corrected
  if p.1 + 1 < channelPairs then { s with scrub := SMap.set (fun _ => (0, 0)) s.scrub ch (p.1 + 1, n) }
  else
    let t := { s.addG 0x6002 (ch + 1) 1 with scrub := SMap.set (fun _ => (0, 0)) s.scrub ch (0, 0) }
    if s.g 0x6003 2 < n then t.raise ErrCode.scrubThreshold (calId 21 ch) none16 ch else t

/-- An uncorrectable codeword met by the scrubber (Table 14.4). -/
def State.scrubBad (s : State) (ch : Nat) (a : Option Nat) : State :=
  let x := a.getD 0
  let t := ((s.addG 0x6001 (ch + 1) 1).setG 0x6004 1 x).setG 0x6004 2 2
  t.raise ErrCode.uncorrectable (calId 21 ch) none16 (x % 2 ^ 32)

/-- A scrub read of a pair by what its two codewords decode to: corrections and uncorrectable codewords are counted, and a
pair with corrections alone is written back (R396-R398). -/
def State.scrubPair (s : State) (ch : Nat) (a : Option Nat) (intervened : Bool) (outs : List (Nat × Rs.Outcome)) : State :=
  let fixed := outs.filter (fun o => o.2 == .corrected || o.2 == .miscorrected true)
  let bad := outs.filter (fun o => o.2 == .uncorrectable)
  let t := if fixed.isEmpty then s else s.addG 0x6000 (ch + 1) fixed.length
  let t := bad.foldl (fun t o => t.scrubBad ch (a.map (· + 64 * o.1))) t
  let t := if fixed.isEmpty || !bad.isEmpty then t
    else t.writeBack ch a intervened ((fixed.filter (fun o => o.2 != .corrected)).map (·.1))
  t.scrubNext ch fixed.length

/-- GDDR7_SCRUB: the next pair of a channel is read in a fill slot, with the bits disturbed on its way; `intervened` where a
write entered before the write-back. -/
def execGddr7Scrub (ch : Nat) (bits : List (Nat × Nat)) (intervened : Bool) (s : State) : Host.Outcome State Fault Refusal :=
  if 64 ≤ ch then .fault .noSuchUnit
  else if !s.up || s.kindNow (calId 21 ch) != 0 then .next s
  else
    let a := pairAddr ch (SMap.get (fun _ => (0, 0)) s.scrub ch).1
    .next (s.scrubPair ch a intervened ([0, 1].map (fun b =>
      (b, a.elim (Rs.decode s.eccMode (Rs.errorOf b bits)) (fun x => s.blockOutcome s.eccMode (x + 64 * b) bits)))))

end Sys2Proof.Machine
end

