-- ==== Sys2Proof/Machine/Dispatch.lean ====
section
/-!
DEFINITION. One arm per command: the call of its meaning.
-/

namespace Sys2Proof.Machine

/-- The effect of a command on everything but the queue. -/
def exec (i : Instr) (s : State) : Host.Outcome State Fault Refusal :=
  match i with
  | .frameTick f seam temps => Sys2Proof.Machine.execFrameTick f seam temps s
  | .seamTimeout => Sys2Proof.Machine.execSeamTimeout s
  | .gutterStart cal => Sys2Proof.Machine.execGutterStart cal s
  | .preludeStart cal => Sys2Proof.Machine.execPreludeStart cal s
  | .radioIntervalEnd cal => Sys2Proof.Machine.execRadioIntervalEnd cal s
  | .engineOffer cal => Sys2Proof.Machine.execEngineOffer cal s
  | .radioCommandStart cid => Sys2Proof.Machine.execRadioCommandStart cid s
  | .exactCommandStart cid => Sys2Proof.Machine.execExactCommandStart cid s
  | .commandEnd cid => Sys2Proof.Machine.execCommandEnd cid s
  | .swapArmAtFrame path => Sys2Proof.Machine.execSwapArmAtFrame path s
  | .swapArmTakeover path => Sys2Proof.Machine.execSwapArmTakeover path s
  | .swapDisarm path => Sys2Proof.Machine.execSwapDisarm path s
  | .validationEnd => Sys2Proof.Machine.execValidationEnd s
  | .pageSwap => Sys2Proof.Machine.execPageSwap s
  | .takeoverBoundary => Sys2Proof.Machine.execTakeoverBoundary s
  | .cellEntersCalendar cell => Sys2Proof.Machine.execCellEntersCalendar cell s
  | .cellLeavesCalendar cell => Sys2Proof.Machine.execCellLeavesCalendar cell s
  | .latenessReport cal cause cids => Sys2Proof.Machine.execLatenessReport cal cause cids s
  | .calendarWaitRelease cid => Sys2Proof.Machine.execCalendarWaitRelease cid s
  | .windowWordWrite fn slot word value enables tbit => Sys2Proof.Machine.execWindowWordWrite fn slot word value enables tbit s
  | .recordConsume fn => Sys2Proof.Machine.execRecordConsume fn s
  | .creditWrite fn n enables tbit => Sys2Proof.Machine.execCreditWrite fn n enables tbit s
  | .completionWrite cid => Sys2Proof.Machine.execCompletionWrite cid s
  | .moderationDelayExpiry fn => Sys2Proof.Machine.execModerationDelayExpiry fn s
  | .contextOpen path fn request => Sys2Proof.Machine.execContextOpen path fn request s
  | .contextClose path fn ctx => Sys2Proof.Machine.execContextClose path fn ctx s
  | .contextNumberFreed ctx => Sys2Proof.Machine.execContextNumberFreed ctx s
  | .folios cid => Sys2Proof.Machine.execFolios cid s
  | .combine cid => Sys2Proof.Machine.execCombine cid s
  | .vectorAdd cid => Sys2Proof.Machine.execVectorAdd cid s
  | .vectorSub cid => Sys2Proof.Machine.execVectorSub cid s
  | .vectorMul cid => Sys2Proof.Machine.execVectorMul cid s
  | .vectorFma cid => Sys2Proof.Machine.execVectorFma cid s
  | .vectorMax cid => Sys2Proof.Machine.execVectorMax cid s
  | .vectorMin cid => Sys2Proof.Machine.execVectorMin cid s
  | .vectorAbs cid => Sys2Proof.Machine.execVectorAbs cid s
  | .vectorNeg cid => Sys2Proof.Machine.execVectorNeg cid s
  | .vectorCvt cid => Sys2Proof.Machine.execVectorCvt cid s
  | .vectorCmp cid => Sys2Proof.Machine.execVectorCmp cid s
  | .vectorSel cid => Sys2Proof.Machine.execVectorSel cid s
  | .vectorLogic cid => Sys2Proof.Machine.execVectorLogic cid s
  | .vectorDiv cid => Sys2Proof.Machine.execVectorDiv cid s
  | .vectorSqrt cid => Sys2Proof.Machine.execVectorSqrt cid s
  | .vectorRecip cid => Sys2Proof.Machine.execVectorRecip cid s
  | .vectorRsqrt cid => Sys2Proof.Machine.execVectorRsqrt cid s
  | .vectorExp cid => Sys2Proof.Machine.execVectorExp cid s
  | .vectorLog cid => Sys2Proof.Machine.execVectorLog cid s
  | .vectorSigmoid cid => Sys2Proof.Machine.execVectorSigmoid cid s
  | .vectorTanh cid => Sys2Proof.Machine.execVectorTanh cid s
  | .vectorSilu cid => Sys2Proof.Machine.execVectorSilu cid s
  | .vectorGelu cid => Sys2Proof.Machine.execVectorGelu cid s
  | .vectorSubexp cid => Sys2Proof.Machine.execVectorSubexp cid s
  | .vectorRsum cid => Sys2Proof.Machine.execVectorRsum cid s
  | .vectorRprod cid => Sys2Proof.Machine.execVectorRprod cid s
  | .vectorRmax cid => Sys2Proof.Machine.execVectorRmax cid s
  | .vectorRmin cid => Sys2Proof.Machine.execVectorRmin cid s
  | .vectorArgmax cid => Sys2Proof.Machine.execVectorArgmax cid s
  | .vectorArgmin cid => Sys2Proof.Machine.execVectorArgmin cid s
  | .vectorCount cid => Sys2Proof.Machine.execVectorCount cid s
  | .vectorPerm cid => Sys2Proof.Machine.execVectorPerm cid s
  | .vectorGather cid => Sys2Proof.Machine.execVectorGather cid s
  | .vectorScatter cid => Sys2Proof.Machine.execVectorScatter cid s
  | .quant cid => Sys2Proof.Machine.execQuant cid s
  | .pumpCopy cid => Sys2Proof.Machine.execPumpCopy cid s
  | .pumpTranspose cid => Sys2Proof.Machine.execPumpTranspose cid s
  | .floatWait cid => Sys2Proof.Machine.execFloatWait cid s
  | .floatWaitMet cid => Sys2Proof.Machine.execFloatWaitMet cid s
  | .floatWaitTimeout cid => Sys2Proof.Machine.execFloatWaitTimeout cid s
  | .floatSignalAdd cid => Sys2Proof.Machine.execFloatSignalAdd cid s
  | .floatSignalSet cid => Sys2Proof.Machine.execFloatSignalSet cid s
  | .fenceLocal cid => Sys2Proof.Machine.execFenceLocal cid s
  | .fenceFabric cid => Sys2Proof.Machine.execFenceFabric cid s
  | .fabricLoad cid => Sys2Proof.Machine.execFabricLoad cid s
  | .fabricStore cid => Sys2Proof.Machine.execFabricStore cid s
  | .atomicAdd cid => Sys2Proof.Machine.execAtomicAdd cid s
  | .atomicMin cid => Sys2Proof.Machine.execAtomicMin cid s
  | .atomicMax cid => Sys2Proof.Machine.execAtomicMax cid s
  | .atomicSwap cid => Sys2Proof.Machine.execAtomicSwap cid s
  | .atomicCompareSwap cid => Sys2Proof.Machine.execAtomicCompareSwap cid s
  | .copyIn cid => Sys2Proof.Machine.execCopyIn cid s
  | .copyOut cid => Sys2Proof.Machine.execCopyOut cid s
  | .fabricHandoff cid => Sys2Proof.Machine.execFabricHandoff cid s
  | .fabricRelease cid => Sys2Proof.Machine.execFabricRelease cid s
  | .remoteProcedureTrigger cid => Sys2Proof.Machine.execRemoteProcedureTrigger cid s
  | .fabricStepIssue cid => Sys2Proof.Machine.execFabricStepIssue cid s
  | .kvStep cid => Sys2Proof.Machine.execKvStep cid s
  | .sample cid => Sys2Proof.Machine.execSample cid s
  | .gatherRows cid => Sys2Proof.Machine.execGatherRows cid s
  | .gatherRoute cid => Sys2Proof.Machine.execGatherRoute cid s
  | .scatterOverwrite cid => Sys2Proof.Machine.execScatterOverwrite cid s
  | .scatterAddFp32 cid => Sys2Proof.Machine.execScatterAddFp32 cid s
  | .scatterAddBf16 cid => Sys2Proof.Machine.execScatterAddBf16 cid s
  | .ldpcDecode cid => Sys2Proof.Machine.execLdpcDecode cid s
  | .ldpcEncode cid => Sys2Proof.Machine.execLdpcEncode cid s
  | .turboEncode cid => Sys2Proof.Machine.execTurboEncode cid s
  | .polarDecode cid => Sys2Proof.Machine.execPolarDecode cid s
  | .reedMullerDecode cid => Sys2Proof.Machine.execReedMullerDecode cid s
  | .repetitionSimplexDecode cid => Sys2Proof.Machine.execRepetitionSimplexDecode cid s
  | .polarEncode cid => Sys2Proof.Machine.execPolarEncode cid s
  | .tbccEncode cid => Sys2Proof.Machine.execTbccEncode cid s
  | .viterbiDecode cid => Sys2Proof.Machine.execViterbiDecode cid s
  | .turboDecode cid => Sys2Proof.Machine.execTurboDecode cid s
  | .prachDetect cid => Sys2Proof.Machine.execPrachDetect cid s
  | .pucchFormat0Detect cid => Sys2Proof.Machine.execPucchFormat0Detect cid s
  | .pucchFormat1Detect cid => Sys2Proof.Machine.execPucchFormat1Detect cid s
  | .srsMeasure cid => Sys2Proof.Machine.execSrsMeasure cid s
  | .despread cid => Sys2Proof.Machine.execDespread cid s
  | .demap cid => Sys2Proof.Machine.execDemap cid s
  | .harqCombine cid => Sys2Proof.Machine.execHarqCombine cid s
  | .pilotTrack cid => Sys2Proof.Machine.execPilotTrack cid s
  | .radioSpinePumpJob cid => Sys2Proof.Machine.execRadioSpinePumpJob cid s
  | .radioFabricPumpJob cid => Sys2Proof.Machine.execRadioFabricPumpJob cid s
  | .deliver cid => Sys2Proof.Machine.execDeliver cid s
  | .uplaneTx cid => Sys2Proof.Machine.execUplaneTx cid s
  | .cplaneTx cid => Sys2Proof.Machine.execCplaneTx cid s
  | .rawTx cid => Sys2Proof.Machine.execRawTx cid s
  | .channelCoreRun cid => Sys2Proof.Machine.execChannelCoreRun cid s
  | .channelCoreFill cid => Sys2Proof.Machine.execChannelCoreFill cid s
  | .channelCoreDrain cid => Sys2Proof.Machine.execChannelCoreDrain cid s
  | .calendarWait cid => Sys2Proof.Machine.execCalendarWait cid s
  | .stamp cid => Sys2Proof.Machine.execStamp cid s
  | .calendarRelease cid => Sys2Proof.Machine.execCalendarRelease cid s
  | .calendarLoad cid image => Sys2Proof.Machine.execCalendarLoad cid image s
  | .pieceLand pid => Sys2Proof.Machine.execPieceLand pid s
  | .memoryReadArrival rid bits => Sys2Proof.Machine.execMemoryReadArrival rid bits s
  | .bucketPresent rid => Sys2Proof.Machine.execBucketPresent rid s
  | .cisternScrub => Sys2Proof.Machine.execCisternScrub s
  | .floatRangeWrite path fn sub value => Sys2Proof.Machine.execFloatRangeWrite path fn sub value s
  | .landingZoneSizeWrite path core z => Sys2Proof.Machine.execLandingZoneSizeWrite path core z s
  | .nop cc => Sys2Proof.Machine.execNop cc s
  | .halt cc => Sys2Proof.Machine.execHalt cc s
  | .br cc => Sys2Proof.Machine.execBr cc s
  | .loop cc => Sys2Proof.Machine.execLoop cc s
  | .loopx cc => Sys2Proof.Machine.execLoopx cc s
  | .brk cc => Sys2Proof.Machine.execBrk cc s
  | .movi cc => Sys2Proof.Machine.execMovi cc s
  | .mov cc => Sys2Proof.Machine.execMov cc s
  | .aluAdd cc => Sys2Proof.Machine.execAluAdd cc s
  | .aluSub cc => Sys2Proof.Machine.execAluSub cc s
  | .aluAnd cc => Sys2Proof.Machine.execAluAnd cc s
  | .aluOr cc => Sys2Proof.Machine.execAluOr cc s
  | .aluXor cc => Sys2Proof.Machine.execAluXor cc s
  | .aluShl cc => Sys2Proof.Machine.execAluShl cc s
  | .aluShrArithmetic cc => Sys2Proof.Machine.execAluShrArithmetic cc s
  | .aluShrLogical cc => Sys2Proof.Machine.execAluShrLogical cc s
  | .aluCmp cc => Sys2Proof.Machine.execAluCmp cc s
  | .cadd cc => Sys2Proof.Machine.execCadd cc s
  | .csub cc => Sys2Proof.Machine.execCsub cc s
  | .conj cc => Sys2Proof.Machine.execConj cc s
  | .swapIq cc => Sys2Proof.Machine.execSwapIq cc s
  | .cneg cc => Sys2Proof.Machine.execCneg cc s
  | .ld cc => Sys2Proof.Machine.execLd cc s
  | .st cc => Sys2Proof.Machine.execSt cc s
  | .ldx cc => Sys2Proof.Machine.execLdx cc s
  | .ldxDataArrival cc thread => Sys2Proof.Machine.execLdxDataArrival cc thread s
  | .stx cc => Sys2Proof.Machine.execStx cc s
  | .stxLanding pid => Sys2Proof.Machine.execStxLanding pid s
  | .ldf cc => Sys2Proof.Machine.execLdf cc s
  | .ldfReply cc thread status data => Sys2Proof.Machine.execLdfReply cc thread status data s
  | .ldfWaitExpiry cc thread => Sys2Proof.Machine.execLdfWaitExpiry cc thread s
  | .cmac cc => Sys2Proof.Machine.execCmac cc s
  | .cmac4 cc => Sys2Proof.Machine.execCmac4 cc s
  | .cmac4m cc => Sys2Proof.Machine.execCmac4m cc s
  | .ftap cc => Sys2Proof.Machine.execFtap cc s
  | .clra cc => Sys2Proof.Machine.execClra cc s
  | .sta cc => Sys2Proof.Machine.execSta cc s
  | .sta4 cc => Sys2Proof.Machine.execSta4 cc s
  | .rda cc => Sys2Proof.Machine.execRda cc s
  | .cellActivate path cell => Sys2Proof.Machine.execCellActivate path cell s
  | .cellDeactivate path cell => Sys2Proof.Machine.execCellDeactivate path cell s
  | .crbWrite path value => Sys2Proof.Machine.execCrbWrite path value s
  | .cellRecordUpdate cell => Sys2Proof.Machine.execCellRecordUpdate cell s
  | .standbyCellWrite path cell value => Sys2Proof.Machine.execStandbyCellWrite path cell value s
  | .groupModeWrite path group mode => Sys2Proof.Machine.execGroupModeWrite path group mode s
  | .uplaneSectionReceive lane frame => Sys2Proof.Machine.execUplaneSectionReceive lane frame s
  | .cplaneReceive lane => Sys2Proof.Machine.execCplaneReceive lane s
  | .ecpriDelayRequestReceive lane measurement skew => Sys2Proof.Machine.execEcpriDelayRequestReceive lane measurement skew s
  | .ecpriDelayResponseReceive lane measurement t1 tcv1 t2 tcv2 => Sys2Proof.Machine.execEcpriDelayResponseReceive lane measurement t1 tcv1 t2 tcv2 s
  | .ptpReceive port msg => Sys2Proof.Machine.execPtpReceive port msg s
  | .esmcReceive lane quality => Sys2Proof.Machine.execEsmcReceive lane quality s
  | .stagingExpiry lane => Sys2Proof.Machine.execStagingExpiry lane s
  | .frameDepart lane skew => Sys2Proof.Machine.execFrameDepart lane skew s
  | .ppsEdge tb0 tb2 => Sys2Proof.Machine.execPpsEdge tb0 tb2 s
  | .syncTransmit port => Sys2Proof.Machine.execSyncTransmit port s
  | .ptmExchange master roundTrip => Sys2Proof.Machine.execPtmExchange master roundTrip s
  | .phaseMeasurement base error => Sys2Proof.Machine.execPhaseMeasurement base error s
  | .referenceLossTimeout base => Sys2Proof.Machine.execReferenceLossTimeout base s
  | .servoRearm path base => Sys2Proof.Machine.execServoRearm path base s
  | .crossSnapshot path => Sys2Proof.Machine.execCrossSnapshot path s
  | .grantCreate path fn => Sys2Proof.Machine.execGrantCreate path fn s
  | .grantDestroy path fn => Sys2Proof.Machine.execGrantDestroy path fn s
  | .grantComponentWrite path fn sub value => Sys2Proof.Machine.execGrantComponentWrite path fn sub value s
  | .functionResetRequest path fn => Sys2Proof.Machine.execFunctionResetRequest path fn s
  | .functionResetEnd fn => Sys2Proof.Machine.execFunctionResetEnd fn s
  | .retireAckTimeout fn => Sys2Proof.Machine.execRetireAckTimeout fn s
  | .radioOwnerWrite path value => Sys2Proof.Machine.execRadioOwnerWrite path value s
  | .coreAcquire cid => Sys2Proof.Machine.execCoreAcquire cid s
  | .coreRelease path fn core => Sys2Proof.Machine.execCoreRelease path fn core s
  | .preemptRequest path fn => Sys2Proof.Machine.execPreemptRequest path fn s
  | .claimPreemption core => Sys2Proof.Machine.execClaimPreemption core s
  | .saveStart core => Sys2Proof.Machine.execSaveStart core s
  | .saveDone core => Sys2Proof.Machine.execSaveDone core s
  | .restoreDone core => Sys2Proof.Machine.execRestoreDone core s
  | .energyWindowStart junction => Sys2Proof.Machine.execEnergyWindowStart junction s
  | .energyReport window measured => Sys2Proof.Machine.execEnergyReport window measured s
  | .standingReserveRaise => Sys2Proof.Machine.execStandingReserveRaise s
  | .standingReserveLower => Sys2Proof.Machine.execStandingReserveLower s
  | .powerLimitWrite path value => Sys2Proof.Machine.execPowerLimitWrite path value s
  | .refreshRun channel => Sys2Proof.Machine.execRefreshRun channel s
  | .refreshOwedTick channel => Sys2Proof.Machine.execRefreshOwedTick channel s
  | .gddr7Scrub channel bits intervened => Sys2Proof.Machine.execGddr7Scrub channel bits intervened s
  | .fabricLaneDown lane => Sys2Proof.Machine.execFabricLaneDown lane s
  | .fabricLaneTrained lane identityOk => Sys2Proof.Machine.execFabricLaneTrained lane identityOk s
  | .laneBlockReceive lane kind bseq back credits packets => Sys2Proof.Machine.execLaneBlockReceive lane kind bseq back credits packets s
  | .laneRoleWrite path lane role => Sys2Proof.Machine.execLaneRoleWrite path lane role s
  | .sessionKeying device peerOk => Sys2Proof.Machine.execSessionKeying device peerOk s
  | .loadReq p => Sys2Proof.Machine.execLoadReq p s
  | .loadData p => Sys2Proof.Machine.execLoadData p s
  | .store p => Sys2Proof.Machine.execStore p s
  | .atomic p => Sys2Proof.Machine.execAtomic p s
  | .atomicResult p => Sys2Proof.Machine.execAtomicResult p s
  | .atomicLineWriteBack line => Sys2Proof.Machine.execAtomicLineWriteBack line s
  | .copyReq p => Sys2Proof.Machine.execCopyReq p s
  | .copyData p => Sys2Proof.Machine.execCopyData p s
  | .handoff p => Sys2Proof.Machine.execHandoff p s
  | .ownerNotice p => Sys2Proof.Machine.execOwnerNotice p s
  | .trigger p => Sys2Proof.Machine.execTrigger p s
  | .triggeredJobStart proc => Sys2Proof.Machine.execTriggeredJobStart proc s
  | .triggerDone p => Sys2Proof.Machine.execTriggerDone p s
  | .ack p => Sys2Proof.Machine.execAck p s
  | .refuse p => Sys2Proof.Machine.execRefuse p s
  | .retire p => Sys2Proof.Machine.execRetire p s
  | .block p => Sys2Proof.Machine.execBlock p s
  | .resendTimeout fn device sub => Sys2Proof.Machine.execResendTimeout fn device sub s
  | .endpointControlWrite path fn value => Sys2Proof.Machine.execEndpointControlWrite path fn value s
  | .regionControlWrite path fn value => Sys2Proof.Machine.execRegionControlWrite path fn value s
  | .procedureControlWrite path fn value => Sys2Proof.Machine.execProcedureControlWrite path fn value s
  | .beatSend => Sys2Proof.Machine.execBeatSend s
  | .joinResend => Sys2Proof.Machine.execJoinResend s
  | .pbeatSend => Sys2Proof.Machine.execPbeatSend s
  | .timeReqSend => Sys2Proof.Machine.execTimeReqSend s
  | .missedBeatsDeclare device => Sys2Proof.Machine.execMissedBeatsDeclare device s
  | .selfFence => Sys2Proof.Machine.execSelfFence s
  | .standbyPromotion => Sys2Proof.Machine.execStandbyPromotion s
  | .masterListenExpiry => Sys2Proof.Machine.execMasterListenExpiry s
  | .viewRepeat => Sys2Proof.Machine.execViewRepeat s
  | .partnerUnprotectedTimeout => Sys2Proof.Machine.execPartnerUnprotectedTimeout s
  | .shipmentStart => Sys2Proof.Machine.execShipmentStart s
  | .cellsStop => Sys2Proof.Machine.execCellsStop s
  | .beat device epoch score fwState => Sys2Proof.Machine.execBeat device epoch score fwState s
  | .beatAck device epoch => Sys2Proof.Machine.execBeatAck device epoch s
  | .join device number identityOk => Sys2Proof.Machine.execJoin device number identityOk s
  | .view master standby epoch members copy rearm relay => Sys2Proof.Machine.execView master standby epoch members copy rearm relay s
  | .declare device cause epoch relay => Sys2Proof.Machine.execDeclare device cause epoch relay s
  | .fenceNotice epoch => Sys2Proof.Machine.execFenceNotice epoch s
  | .timeReq device t1 t2 => Sys2Proof.Machine.execTimeReq device t1 t2 s
  | .timeResp t1 t2 t3 t4 => Sys2Proof.Machine.execTimeResp t1 t2 t3 t4 s
  | .pbeat state frame => Sys2Proof.Machine.execPbeat state frame s
  | .pstate frame offset total data => Sys2Proof.Machine.execPstate frame offset total data s
  | .relinquish frame => Sys2Proof.Machine.execRelinquish frame s
  | .claim frame => Sys2Proof.Machine.execClaim frame s
  | .chunk index count version verified relay => Sys2Proof.Machine.execChunk index count version verified relay s
  | .bitmap device held => Sys2Proof.Machine.execBitmap device held s
  | .prepare version relay => Sys2Proof.Machine.execPrepare version relay s
  | .vote device yes => Sys2Proof.Machine.execVote device yes s
  | .commit version => Sys2Proof.Machine.execCommit version s
  | .abort version => Sys2Proof.Machine.execAbort version s
  | .commitTimeout => Sys2Proof.Machine.execCommitTimeout s
  | .dictReq header data relay => Sys2Proof.Machine.execDictReq header data relay s
  | .dictResp device header data => Sys2Proof.Machine.execDictResp device header data s
  | .handBackWrite path frame => Sys2Proof.Machine.execHandBackWrite path frame s
  | .expel path device => Sys2Proof.Machine.execExpel path device s
  | .readmit path device => Sys2Proof.Machine.execReadmit path device s
  | .configuredMasterWrite path value => Sys2Proof.Machine.execConfiguredMasterWrite path value s
  | .firmwareDistributionStart path length version => Sys2Proof.Machine.execFirmwareDistributionStart path length version s
  | .dictRead path sel index sub offset length => Sys2Proof.Machine.execDictRead path sel index sub offset length s
  | .dictInfo path sel index sub => Sys2Proof.Machine.execDictInfo path sel index sub s
  | .objectWrite path sel index sub length value => Sys2Proof.Machine.execObjectWrite path sel index sub length value s
  | .dictLatchExpiry path => Sys2Proof.Machine.execDictLatchExpiry path s
  | .storedWriteCommit flashOk => Sys2Proof.Machine.execStoredWriteCommit flashOk s
  | .remoteDictSubmit path header => Sys2Proof.Machine.execRemoteDictSubmit path header s
  | .remoteDictRetry => Sys2Proof.Machine.execRemoteDictRetry s
  | .remoteDictTimeout => Sys2Proof.Machine.execRemoteDictTimeout s
  | .mctpControlMessage path command value => Sys2Proof.Machine.execMctpControlMessage path command value s
  | .holderClaim path index sub sel => Sys2Proof.Machine.execHolderClaim path index sub sel s
  | .holderRelease path index sub => Sys2Proof.Machine.execHolderRelease path index sub s
  | .holderTakeAway path index sub value => Sys2Proof.Machine.execHolderTakeAway path index sub value s
  | .watchdogArm path timer setting => Sys2Proof.Machine.execWatchdogArm path timer setting s
  | .watchdogKick path timer => Sys2Proof.Machine.execWatchdogKick path timer s
  | .watchdogExpiry timer => Sys2Proof.Machine.execWatchdogExpiry timer s
  | .gpioControlWrite path pin value => Sys2Proof.Machine.execGpioControlWrite path pin value s
  | .ledgerRead path sel index sub => Sys2Proof.Machine.execLedgerRead path sel index sub s
  | .healthScoreUpdate => Sys2Proof.Machine.execHealthScoreUpdate s
  | .unitFence cal => Sys2Proof.Machine.execUnitFence cal s
  | .pcieLinkDown port => Sys2Proof.Machine.execPcieLinkDown port s
  | .hotReset port => Sys2Proof.Machine.execHotReset port s
  | .perstAssert port => Sys2Proof.Machine.execPerstAssert port s
  | .vfFlr fn => Sys2Proof.Machine.execVfFlr fn s
  | .pfFlr port => Sys2Proof.Machine.execPfFlr port s
  | .d3hotToD0 fn => Sys2Proof.Machine.execD3hotToD0 fn s
  | .vfEnableClear port => Sys2Proof.Machine.execVfEnableClear port s
  | .ptmEnableClear => Sys2Proof.Machine.execPtmEnableClear s
  | .msixUnmask fn vector => Sys2Proof.Machine.execMsixUnmask fn vector s
  | .noticeClear path fn bits => Sys2Proof.Machine.execNoticeClear path fn bits s
  | .correctableLinkError port => Sys2Proof.Machine.execCorrectableLinkError port s
  | .poisonedWrite fn target => Sys2Proof.Machine.execPoisonedWrite fn target s
  | .hostReadCompletionError port firmware cid => Sys2Proof.Machine.execHostReadCompletionError port firmware cid s
  | .fatalLinkError port => Sys2Proof.Machine.execFatalLinkError port s
  | .getVersion transport => Sys2Proof.Machine.execGetVersion transport s
  | .getCapabilities transport => Sys2Proof.Machine.execGetCapabilities transport s
  | .negotiateAlgorithms transport supported => Sys2Proof.Machine.execNegotiateAlgorithms transport supported s
  | .getDigests transport => Sys2Proof.Machine.execGetDigests transport s
  | .getCertificate transport slot offset length => Sys2Proof.Machine.execGetCertificate transport slot offset length s
  | .challenge transport slot => Sys2Proof.Machine.execChallenge transport slot s
  | .getMeasurements transport index signed => Sys2Proof.Machine.execGetMeasurements transport index signed s
  | .keyExchange transport => Sys2Proof.Machine.execKeyExchange transport s
  | .finish transport session macOk => Sys2Proof.Machine.execFinish transport session macOk s
  | .endSession transport session => Sys2Proof.Machine.execEndSession transport session s
  | .heartbeat transport session => Sys2Proof.Machine.execHeartbeat transport session s
  | .keyUpdate transport session => Sys2Proof.Machine.execKeyUpdate transport session s
  | .chunkSend transport last bytes => Sys2Proof.Machine.execChunkSend transport last bytes s
  | .chunkGet transport offset => Sys2Proof.Machine.execChunkGet transport offset s
  | .vendorDefinedRequest transport session protocol op arg => Sys2Proof.Machine.execVendorDefinedRequest transport session protocol op arg s
  | .lockInterface fn transport session stream => Sys2Proof.Machine.execLockInterface fn transport session stream s
  | .svnCommit path => Sys2Proof.Machine.execSvnCommit path s
  | .unlockNonceRead path => Sys2Proof.Machine.execUnlockNonceRead path s
  | .unlockTokenWrite path token => Sys2Proof.Machine.execUnlockTokenWrite path token s
  | .entropyFailure => Sys2Proof.Machine.execEntropyFailure s
  | .timingModeWrite path value => Sys2Proof.Machine.execTimingModeWrite path value s
  | .timingModeChange => Sys2Proof.Machine.execTimingModeChange s
  | .pwrGoodRise => Sys2Proof.Machine.execPwrGoodRise s
  | .pwrGoodFall => Sys2Proof.Machine.execPwrGoodFall s
  | .sysResetNDeassert => Sys2Proof.Machine.execSysResetNDeassert s
  | .resetRequestWarm path => Sys2Proof.Machine.execResetRequestWarm path s
  | .resetRequestCold path => Sys2Proof.Machine.execResetRequestCold path s
  | .resetStart => Sys2Proof.Machine.execResetStart s
  | .coldPriming result => Sys2Proof.Machine.execColdPriming result s
  | .warmPriming result => Sys2Proof.Machine.execWarmPriming result s
  | .railUndervoltage rail => Sys2Proof.Machine.execRailUndervoltage rail s
  | .serRefclkLoss => Sys2Proof.Machine.execSerRefclkLoss s
  | .thermalTrip => Sys2Proof.Machine.execThermalTrip s
  | .fronthaulLaneDown lane => Sys2Proof.Machine.execFronthaulLaneDown lane s
  | .fronthaulLaneTrained lane => Sys2Proof.Machine.execFronthaulLaneTrained lane s
  | .pcieLinkUp port speed width => Sys2Proof.Machine.execPcieLinkUp port speed width s
  | .perstDeassert port => Sys2Proof.Machine.execPerstDeassert port s
  | .sysResetNAssert => Sys2Proof.Machine.execSysResetNAssert s
  | .d3hotEntry fn => Sys2Proof.Machine.execD3hotEntry fn s
  | .numvfsWrite port num enable => Sys2Proof.Machine.execNumvfsWrite port num enable s
  | .entropyTestPass => Sys2Proof.Machine.execEntropyTestPass s
  | .vddIo18InTolerance => Sys2Proof.Machine.execVddIo18InTolerance s
  | .vddAonLoss => Sys2Proof.Machine.execVddAonLoss s

end Sys2Proof.Machine
end

