-- ==== Sys2Proof/Machine/Tick.lean ====
section
/-!
DEFINITION. The core clock: what passes by itself in one core cycle, which step performs on an empty queue (Table 1.4, R315,
R350, Table 10.6; log entry 4).
-/

namespace Sys2Proof.Machine

/-- What is at most n either way, from a free value. -/
def spread (n v : Nat) : Int := (v % (2 * n + 1) : Nat) - (n : Int)
/-- The rate of a time base in 10^-12 off nominal: its oscillator's own error and, but for TB2, the servo's last correction,
within 100 ppm in every state (R316, R318, R319). -/
def State.rate (s : State) (n : Nat) : Int :=
  max (-100000000) (min 100000000 (spread 100000000 (Config.oscillator n (s.tb2us / 1000000)) +
    (if n = 2 then 0 else s.oInt 1023 (0x4800 + n) 7 4)))
/-- The core clock's own error in 10^-12: SER_REFCLK is within 20 ppm of nominal (R319). -/
def State.coreRate (s : State) : Int := spread 20000000 (Config.oscillator 4 (s.tb2us / 1000000))
/-- Units of 2^-16 ns / (9 × 10^12) that a time base goes on in one core cycle of 5/9 ns: the product of its rate with the core
clock's error is left out (log entry 18). -/
def State.goes (s : State) (n : Nat) : Nat := (327680 * (1000000000000 + s.rate n - s.coreRate)).toNat
/-- The time bases advance by one core cycle. -/
def State.tickBases (s : State) : State :=
  let sums := (List.range 4).map (fun n => (s.servo.getD n {}).frac % 9000000000000 + s.goes n)
  { s with
    tb := s.tb.zipIdx.map (fun (e : Nat × Nat) => e.1 + sums.getD e.2 0 / 9000000000000)
    servo := s.servo.zipIdx.map (fun (e : Servo × Nat) => { e.1 with frac := sums.getD e.2 0 % 9000000000000 }) }

/-- Engines of a group that are in a fill interval now. -/
def State.inFill (s : State) (g : Nat) : Nat := ((groupClasses g).flatMap classCals).countP (fun id => s.kindNow id == 0)
/-- One more core cycle in fill intervals (R350). -/
def State.tickFill (s : State) : State :=
  { s with energy := { s.energy with
      fill := (List.range 4).foldl (fun (m : SMap Nat) g => SMap.set (fun _ => 0) m g (SMap.get (fun _ => 0) m g + s.inFill g)) s.energy.fill } }

/-- The engine by which a fill command has demand: one it runs on, or one it may run on while it is ready. -/
def State.demandOf (s : State) (c : Cmd) : Option Nat :=
  if s.modeOf c != 0 then none
  else if c.phase == .running then c.engines.head?
  else if s.isHead c then (s.candidates c).head? else none
/-- The classes with a ready or running fill command (R350). -/
def State.tickDemand (s : State) : List Cmd → State
  | [] => s
  | c :: cs => ((s.demandOf c).elim s (fun id => s.noteDemand c.fn id)).tickDemand cs

/-- A channel core idles inside a job: it has one, and no thread to issue from (Table 10.6). -/
def ChanCore.idle (c : ChanCore) : Bool := c.cid.isSome && c.threads.all (fun t => t.st != .running && t.st != .ready)
/-- The idle cycles of the channel cores. -/
def State.tickChans (s : State) : List (Nat × ChanCore) → State
  | [] => s
  | e :: l => (if e.2.idle then s.addG 0x4102 (e.1 + 1) 1 else s).tickChans l

/-- One core cycle: what follows from it in the same cycle is that heads which no gap fits end (R50), and that commands which
have retired are noted (R206). -/
def State.tick (s : State) : State :=
  if s.up then
    let t := ((s.tickFill.tickDemand s.cmds).tickChans s.chans).tickBases
    let t : State := { t with cycle := t.cycle + 1, clock := t.clock + 1, fAdds := [], fSets := [] }
    (t.checkHeads t.cmds).noteRetired
  else s

end Sys2Proof.Machine
end

