-- ==== Sys2Proof/WellFormed.lean ====
section
/-!
DEFINITION. Well-formed commands: operands that number units, ports, lanes, timers, devices and slots that the device has
(Table 1.3, Table 0.2, R34, R440), and message fields inside their widths (Tables 15.1, 16.1). Any other command cannot
reach the hardware (log entry 6).
-/

namespace Sys2Proof

open Sys2Proof.Machine

/-- A path that exists: two ports carry VDM, 514 functions have a window. -/
def Path.wf : Path → Bool
  | .vdm p => decide (p < 2)
  | .window f _ => isFn f
  | _ => true

/-- A path that carries MCTP (R530). -/
def Path.mctp : Path → Bool
  | .i3c => true
  | .vdm p => decide (p < 2)
  | _ => false

/-- Bits of a pair: pins and the unit intervals of its nine bursts (R390, Table 14.3). -/
def pairBits (l : List (Nat × Nat)) : Bool := l.all (fun x => decide (x.1 < 8) && decide (x.2 < 144))

/-- The operands of a command are in range. -/
def Instr.wf : Instr → Bool
  | .frameTick _ _ _ => true
  | .seamTimeout => true
  | .gutterStart cal => calOk cal
  | .preludeStart cal => calOk cal
  | .radioIntervalEnd cal => calOk cal
  | .engineOffer cal => calOk cal
  | .radioCommandStart _ => true
  | .exactCommandStart _ => true
  | .commandEnd _ => true
  | .swapArmAtFrame path => path.wf
  | .swapArmTakeover path => path.wf
  | .swapDisarm path => path.wf
  | .validationEnd => true
  | .pageSwap => true
  | .takeoverBoundary => true
  | .cellEntersCalendar cell => decide (cell < 1024)
  | .cellLeavesCalendar cell => decide (cell < 1024)
  | .latenessReport cal _ _ => calOk cal
  | .calendarWaitRelease _ => true
  | .windowWordWrite fn slot word _ _ _ => isFn fn && decide (slot < 1024) && decide (word < 16)
  | .recordConsume fn => isFn fn
  | .creditWrite fn _ _ _ => isFn fn
  | .completionWrite _ => true
  | .moderationDelayExpiry fn => isFn fn
  | .contextOpen path _ _ => path.wf
  | .contextClose path _ _ => path.wf
  | .contextNumberFreed _ => true
  | .folios _ => true
  | .combine _ => true
  | .vectorAdd _ => true
  | .vectorSub _ => true
  | .vectorMul _ => true
  | .vectorFma _ => true
  | .vectorMax _ => true
  | .vectorMin _ => true
  | .vectorAbs _ => true
  | .vectorNeg _ => true
  | .vectorCvt _ => true
  | .vectorCmp _ => true
  | .vectorSel _ => true
  | .vectorLogic _ => true
  | .vectorDiv _ => true
  | .vectorSqrt _ => true
  | .vectorRecip _ => true
  | .vectorRsqrt _ => true
  | .vectorExp _ => true
  | .vectorLog _ => true
  | .vectorSigmoid _ => true
  | .vectorTanh _ => true
  | .vectorSilu _ => true
  | .vectorGelu _ => true
  | .vectorSubexp _ => true
  | .vectorRsum _ => true
  | .vectorRprod _ => true
  | .vectorRmax _ => true
  | .vectorRmin _ => true
  | .vectorArgmax _ => true
  | .vectorArgmin _ => true
  | .vectorCount _ => true
  | .vectorPerm _ => true
  | .vectorGather _ => true
  | .vectorScatter _ => true
  | .quant _ => true
  | .pumpCopy _ => true
  | .pumpTranspose _ => true
  | .floatWait _ => true
  | .floatWaitMet _ => true
  | .floatWaitTimeout _ => true
  | .floatSignalAdd _ => true
  | .floatSignalSet _ => true
  | .fenceLocal _ => true
  | .fenceFabric _ => true
  | .fabricLoad _ => true
  | .fabricStore _ => true
  | .atomicAdd _ => true
  | .atomicMin _ => true
  | .atomicMax _ => true
  | .atomicSwap _ => true
  | .atomicCompareSwap _ => true
  | .copyIn _ => true
  | .copyOut _ => true
  | .fabricHandoff _ => true
  | .fabricRelease _ => true
  | .remoteProcedureTrigger _ => true
  | .fabricStepIssue _ => true
  | .kvStep _ => true
  | .sample _ => true
  | .gatherRows _ => true
  | .gatherRoute _ => true
  | .scatterOverwrite _ => true
  | .scatterAddFp32 _ => true
  | .scatterAddBf16 _ => true
  | .ldpcDecode _ => true
  | .ldpcEncode _ => true
  | .turboEncode _ => true
  | .polarDecode _ => true
  | .reedMullerDecode _ => true
  | .repetitionSimplexDecode _ => true
  | .polarEncode _ => true
  | .tbccEncode _ => true
  | .viterbiDecode _ => true
  | .turboDecode _ => true
  | .prachDetect _ => true
  | .pucchFormat0Detect _ => true
  | .pucchFormat1Detect _ => true
  | .srsMeasure _ => true
  | .despread _ => true
  | .demap _ => true
  | .harqCombine _ => true
  | .pilotTrack _ => true
  | .radioSpinePumpJob _ => true
  | .radioFabricPumpJob _ => true
  | .deliver _ => true
  | .uplaneTx _ => true
  | .cplaneTx _ => true
  | .rawTx _ => true
  | .channelCoreRun _ => true
  | .channelCoreFill _ => true
  | .channelCoreDrain _ => true
  | .calendarWait _ => true
  | .stamp _ => true
  | .calendarRelease _ => true
  | .calendarLoad _ _ => true
  | .pieceLand _ => true
  | .memoryReadArrival _ bits => pairBits bits
  | .bucketPresent _ => true
  | .cisternScrub => true
  | .floatRangeWrite path _ _ _ => path.wf
  | .landingZoneSizeWrite path _ _ => path.wf
  | .nop cc => decide (cc < 32)
  | .halt cc => decide (cc < 32)
  | .br cc => decide (cc < 32)
  | .loop cc => decide (cc < 32)
  | .loopx cc => decide (cc < 32)
  | .brk cc => decide (cc < 32)
  | .movi cc => decide (cc < 32)
  | .mov cc => decide (cc < 32)
  | .aluAdd cc => decide (cc < 32)
  | .aluSub cc => decide (cc < 32)
  | .aluAnd cc => decide (cc < 32)
  | .aluOr cc => decide (cc < 32)
  | .aluXor cc => decide (cc < 32)
  | .aluShl cc => decide (cc < 32)
  | .aluShrArithmetic cc => decide (cc < 32)
  | .aluShrLogical cc => decide (cc < 32)
  | .aluCmp cc => decide (cc < 32)
  | .cadd cc => decide (cc < 32)
  | .csub cc => decide (cc < 32)
  | .conj cc => decide (cc < 32)
  | .swapIq cc => decide (cc < 32)
  | .cneg cc => decide (cc < 32)
  | .ld cc => decide (cc < 32)
  | .st cc => decide (cc < 32)
  | .ldx cc => decide (cc < 32)
  | .ldxDataArrival cc thread => decide (cc < 32) && decide (thread < 4)
  | .stx cc => decide (cc < 32)
  | .stxLanding _ => true
  | .ldf cc => decide (cc < 32)
  | .ldfReply cc thread _ _ => decide (cc < 32) && decide (thread < 4)
  | .ldfWaitExpiry cc thread => decide (cc < 32) && decide (thread < 4)
  | .cmac cc => decide (cc < 32)
  | .cmac4 cc => decide (cc < 32)
  | .cmac4m cc => decide (cc < 32)
  | .ftap cc => decide (cc < 32)
  | .clra cc => decide (cc < 32)
  | .sta cc => decide (cc < 32)
  | .sta4 cc => decide (cc < 32)
  | .rda cc => decide (cc < 32)
  | .cellActivate path cell => path.wf && decide (cell < 1024)
  | .cellDeactivate path cell => path.wf && decide (cell < 1024)
  | .crbWrite path _ => path.wf
  | .cellRecordUpdate cell => decide (cell < 1024)
  | .standbyCellWrite path cell _ => path.wf && decide (cell < 1024)
  | .groupModeWrite path _ _ => path.wf
  | .uplaneSectionReceive lane _ => decide (lane < 16)
  | .cplaneReceive lane => decide (lane < 16)
  | .ecpriDelayRequestReceive lane _ _ => decide (lane < 16)
  | .ecpriDelayResponseReceive lane _ _ _ _ _ => decide (lane < 16)
  | .ptpReceive port _ => decide (port < 16)
  | .esmcReceive lane _ => decide (lane < 16)
  | .stagingExpiry lane => decide (lane < 16)
  | .frameDepart lane _ => decide (lane < 16)
  | .ppsEdge _ _ => true
  | .syncTransmit port => decide (port < 16)
  | .ptmExchange _ _ => true
  | .phaseMeasurement base _ => decide (base < 4)
  | .referenceLossTimeout base => decide (base < 4)
  | .servoRearm path base => path.wf && decide (base < 4)
  | .crossSnapshot path => path.wf
  | .grantCreate path _ => path.wf
  | .grantDestroy path _ => path.wf
  | .grantComponentWrite path _ _ _ => path.wf
  | .functionResetRequest path _ => path.wf
  | .functionResetEnd fn => isFn fn
  | .retireAckTimeout fn => isFn fn
  | .radioOwnerWrite path _ => path.wf
  | .coreAcquire _ => true
  | .coreRelease path _ _ => path.wf
  | .preemptRequest path _ => path.wf
  | .claimPreemption core => decide (core < 96)
  | .saveStart core => decide (core < 96)
  | .saveDone core => decide (core < 96)
  | .restoreDone core => decide (core < 96)
  | .energyWindowStart _ => true
  | .energyReport _ _ => true
  | .standingReserveRaise => true
  | .standingReserveLower => true
  | .powerLimitWrite path _ => path.wf
  | .refreshRun channel => decide (channel < 64)
  | .refreshOwedTick channel => decide (channel < 64)
  | .gddr7Scrub channel bits _ => decide (channel < 64) && pairBits bits
  | .fabricLaneDown lane => decide (lane < 64)
  | .fabricLaneTrained lane _ => decide (lane < 64)
  | .laneBlockReceive lane _ _ _ _ _ => decide (lane < 64)
  | .laneRoleWrite path _ _ => path.wf
  | .sessionKeying device _ => decide (device < 8192)
  | .loadReq _ => true
  | .loadData _ => true
  | .store _ => true
  | .atomic _ => true
  | .atomicResult _ => true
  | .atomicLineWriteBack _ => true
  | .copyReq _ => true
  | .copyData _ => true
  | .handoff _ => true
  | .ownerNotice _ => true
  | .trigger _ => true
  | .triggeredJobStart _ => true
  | .triggerDone _ => true
  | .ack _ => true
  | .refuse _ => true
  | .retire _ => true
  | .block _ => true
  | .resendTimeout fn device sub => isFn fn && decide (device < 8192) && decide (sub < 8)
  | .endpointControlWrite path _ _ => path.wf
  | .regionControlWrite path _ _ => path.wf
  | .procedureControlWrite path _ _ => path.wf
  | .beatSend => true
  | .joinResend => true
  | .pbeatSend => true
  | .timeReqSend => true
  | .missedBeatsDeclare device => decide (device < 8192)
  | .selfFence => true
  | .standbyPromotion => true
  | .masterListenExpiry => true
  | .viewRepeat => true
  | .partnerUnprotectedTimeout => true
  | .shipmentStart => true
  | .cellsStop => true
  | .beat device _ _ _ => decide (device < 8192)
  | .beatAck device epoch => decide (device < 8192) && decide (epoch < 2 ^ 32)
  | .join device number _ => decide (device < 8192) && decide (number < 8192)
  | .view master _ _ members _ _ _ => decide (master < 8192) && members.all (fun d => decide (d < 8192))
  | .declare device _ _ _ => decide (device < 8192)
  | .fenceNotice epoch => decide (epoch < 2 ^ 32)
  | .timeReq device _ _ => decide (device < 8192)
  | .timeResp _ _ _ _ => true
  | .pbeat state frame => decide (state ≤ 4) && decide (frame < 2 ^ 64)
  | .pstate _ offset total data => decide (data.length ≤ 4096) && decide (0 < total) && decide (total < 2 ^ 32) && decide (offset + data.length ≤ total)
  | .relinquish frame => decide (frame < 2 ^ 64)
  | .claim frame => decide (frame < 2 ^ 64)
  | .chunk index count _ _ _ => decide (count ≤ 1024) && decide (index < count)
  | .bitmap device _ => decide (device < 8192)
  | .prepare _ _ => true
  | .vote device _ => decide (device < 8192)
  | .commit _ => true
  | .abort _ => true
  | .commitTimeout => true
  | .dictReq _ _ _ => true
  | .dictResp device _ _ => decide (device < 8192)
  | .handBackWrite path _ => path.wf
  | .expel path _ => path.wf
  | .readmit path _ => path.wf
  | .configuredMasterWrite path _ => path.wf
  | .firmwareDistributionStart path _ _ => path.wf
  | .dictRead path _ _ _ _ _ => path.wf
  | .dictInfo path _ _ _ => path.wf
  | .objectWrite path _ _ _ _ _ => path.wf
  | .dictLatchExpiry path => path.wf
  | .storedWriteCommit _ => true
  | .remoteDictSubmit path _ => path.wf
  | .remoteDictRetry => true
  | .remoteDictTimeout => true
  | .mctpControlMessage path command value => path.mctp && decide (command < 256) && decide (value < 256)
  | .holderClaim path index sub _ => path.wf && holderAt index sub
  | .holderRelease path index sub => path.wf && holderAt index sub
  | .holderTakeAway path index sub _ => path.wf && holderAt index sub
  | .watchdogArm path _ _ => path.wf
  | .watchdogKick path _ => path.wf
  | .watchdogExpiry timer => decide (timer < 4)
  | .gpioControlWrite path _ _ => path.wf
  | .ledgerRead path _ _ _ => path.wf
  | .healthScoreUpdate => true
  | .unitFence cal => calOk cal && decide (calClass cal < 20)
  | .pcieLinkDown port => decide (port < 2)
  | .hotReset port => decide (port < 2)
  | .perstAssert port => decide (port < 2)
  | .vfFlr fn => decide (fn < 512)
  | .pfFlr port => decide (port < 2)
  | .d3hotToD0 fn => isFn fn
  | .vfEnableClear port => decide (port < 2)
  | .ptmEnableClear => true
  | .msixUnmask fn vector => isFn fn && decide (vector < vectorsOf fn)
  | .noticeClear path _ _ => path.wf
  | .correctableLinkError port => decide (port < 2)
  | .poisonedWrite fn target => isFn fn && decide (target < 3)
  | .hostReadCompletionError port _ _ => decide (port < 2)
  | .fatalLinkError port => decide (port < 2)
  | .getVersion transport => decide (transport < 5)
  | .getCapabilities transport => decide (transport < 5)
  | .negotiateAlgorithms transport _ => decide (transport < 5)
  | .getDigests transport => decide (transport < 5)
  | .getCertificate transport _ _ _ => decide (transport < 5)
  | .challenge transport _ => decide (transport < 5)
  | .getMeasurements transport _ _ => decide (transport < 5)
  | .keyExchange transport => decide (transport < 5)
  | .finish transport _ _ => decide (transport < 5)
  | .endSession transport _ => decide (transport < 5)
  | .heartbeat transport _ => decide (transport < 5)
  | .keyUpdate transport _ => decide (transport < 5)
  | .chunkSend transport _ _ => decide (transport < 5)
  | .chunkGet transport _ => decide (transport < 5)
  | .vendorDefinedRequest transport _ _ _ _ => decide (transport < 5)
  | .lockInterface _ transport _ _ => decide (transport < 5)
  | .svnCommit path => path.wf
  | .unlockNonceRead path => path.wf
  | .unlockTokenWrite path _ => path.wf
  | .entropyFailure => true
  | .timingModeWrite path _ => path.wf
  | .timingModeChange => true
  | .pwrGoodRise => true
  | .pwrGoodFall => true
  | .sysResetNDeassert => true
  | .resetRequestWarm path => path.wf
  | .resetRequestCold path => path.wf
  | .resetStart => true
  | .coldPriming result => decide (result.imageCheck ≤ 5 ∧ result.imageSvn ≤ 64)
  | .warmPriming result => decide (result.imageCheck ≤ 5 ∧ result.imageSvn ≤ 64)
  | .railUndervoltage rail => decide (rail < 8)
  | .serRefclkLoss => true
  | .thermalTrip => true
  | .fronthaulLaneDown lane => decide (lane < 16)
  | .fronthaulLaneTrained lane => decide (lane < 16)
  | .pcieLinkUp port speed width => decide (port < 2) && decide (0 < speed) && decide (speed ≤ 5) && decide (0 < width) && decide (width ≤ 16)
  | .perstDeassert port => decide (port < 2)
  | .sysResetNAssert => true
  | .d3hotEntry fn => isFn fn
  | .numvfsWrite port num _ => decide (port < 2) && decide (num ≤ 256)
  | .entropyTestPass => true
  | .vddIo18InTolerance => true
  | .vddAonLoss => true

end Sys2Proof
end

