-- ==== Sys2Proof/Safety.lean ====
section
/-!
DEFINITION. What counts as a good state and a safe run, in the terms the statements use.
-/

namespace Sys2Proof.Machine

/-- Every sparse store is in its canonical form: strictly rising keys, no entry that reads as an unlisted key does. -/
structure State.Canonical (s : State) : Prop where
  mem    : Memory.wf s = true
  obj    : SMap.wf objDflt s.obj = true
  floats : SMap.wf (fun _ => 0) s.floats = true

/-- Every waiting command has operands that the device has. -/
def State.queueWf (s : State) : Bool := s.pending.all Instr.wf

/-- A run of n steps that meets no fault and no refusal. -/
def State.runsSafely : Nat → State → Prop
  | 0, _ => True
  | n + 1, s => ∃ t, step s = .next t ∧ State.runsSafely n t

/-! ### When a command acts -/

/-- A write is let through to the rule of its object, whose row is r: the device is powered, the path is open and every
check before the rule passes (R522). -/
structure State.LetsWrite (s : State) (path : Path) (sel index sub : Nat) (length : Option Nat) (value : Nat) (r : ObjRow) : Prop where
  powered : s.powered = true
  gate    : s.gate path = none
  checks  : s.checkWrite path sel index sub length value = .ok r

/-- What a write leaves that its rule took to t: a stored object's value waits for the flash, any other write answers OK at
once (R526). -/
def State.written (s t : State) (r : ObjRow) (path : Path) (sel index sub value : Nat) : State :=
  if r.stored then s.queueStored path sel index sub value else t.respond path Status.ok 0 []

/-- Command c is the running command numbered cid whose own effect is still to come. -/
structure State.Due (s : State) (cid : Nat) (c : Cmd) : Prop where
  cmd     : s.cmd? cid = some c
  up      : s.up = true
  running : c.phase = .running
  fresh   : c.did = false

/-- Command c waits at its job's head for its context's thread, and a fill command's energy is at hand. -/
structure State.StartsFree (s : State) (cid : Nat) (c : Cmd) : Prop where
  cmd      : s.cmd? cid = some c
  canStart : s.canStart c = true
  energy   : s.modeOf c ≠ 0 ∨ s.energyFits c.fn c.due = true

/-- A command that needs no engine has started: its energy is paid and its thread taken (R179, R376). -/
def State.startedFree (s : State) (cid : Nat) (c : Cmd) : State :=
  ((s.payStart c).takeThread c.ctx).modCmd cid (fun (d : Cmd) =>
    { d with phase := .running, started := s.cycle, since := s.tb2us, paid := true })

/-- Thread t of channel core cc issues instruction i next, with the registers x (R270). -/
structure State.Issues (s : State) (cc t : Nat) (x : Thread) (i : CcInstr) : Prop where
  core   : cc < 32
  up     : s.up = true
  job    : (s.ccJob cc).isSome = true
  pick   : (s.chan cc).pick = some t
  thread : (s.chan cc).thread t = x
  word   : decodeCc (s.ccWord cc t) = some i

/-- A packet is the next request of its stream: its sender has no failure declared, its function and its endpoint entry
exist, and its sequence number is the one awaited (R414, R421). -/
structure State.Receives (s : State) (p : Packet) : Prop where
  up       : s.up = true
  alive    : s.domain.declared.contains p.src = false
  fn       : isFn p.dstFn = true
  present  : s.present p.dstFn = true
  endpoint : (s.endpointOf p.dstFn p.src p.srcFn).isSome = true
  expected : (s.stream (packetKey p)).expect = p.seq
  running  : s.resetting p.dstFn = false

/-- The state in which a received request is applied: its stream awaits the next number. -/
def State.stepped (s : State) (p : Packet) : State :=
  s.modStream (packetKey p) (fun (y : Stream) => { y with expect := y.expect + 1 })
/-- An applied request is acknowledged. -/
def State.ackedRequest (u : State) (p : Packet) : State := u.acknowledge p.dstFn p.src p.srcFn p.sub

/-! ### Rows of one shape -/

/-- The rows of the vector engine with their operation codes (Table 5.2). -/
def vectorRows : List (Nat × (Nat → Instr)) :=
  [(0x01, .vectorAdd), (0x02, .vectorSub), (0x03, .vectorMul), (0x04, .vectorFma), (0x05, .vectorMax), (0x06, .vectorMin),
   (0x07, .vectorAbs), (0x08, .vectorNeg), (0x09, .vectorCvt), (0x0A, .vectorCmp), (0x0B, .vectorSel), (0x0C, .vectorLogic),
   (0x10, .vectorDiv), (0x11, .vectorSqrt), (0x18, .vectorRecip), (0x19, .vectorRsqrt), (0x1A, .vectorExp), (0x1B, .vectorLog),
   (0x1C, .vectorSigmoid), (0x1D, .vectorTanh), (0x1E, .vectorSilu), (0x1F, .vectorGelu), (0x20, .vectorSubexp),
   (0x28, .vectorRsum), (0x29, .vectorRprod), (0x2A, .vectorRmax), (0x2B, .vectorRmin), (0x2C, .vectorArgmax),
   (0x2D, .vectorArgmin), (0x2E, .vectorCount), (0x30, .vectorPerm), (0x31, .vectorGather), (0x32, .vectorScatter), (0x34, .quant)]

/-- The flat address a lies in a stream of core k's well. -/
def VStream.holdsAddr (v : VStream) (k a : Nat) : Prop :=
  Mem.well k + v.region.1 ≤ a ∧ a < Mem.well k + v.region.1 + v.region.2

/-- What a vector command that no preemption divided leaves beside its status: its rows, from the sources as they were, in its destination, then the bound
bytes; the counts of its DETAIL. -/
def State.vectorDone (s : State) (c : Cmd) : State × List Nat :=
  let well := Mem.well c.onCore
  let rows := List.range c.vrows
  let bounds (t : State) : State := if c.vbounds then t.vwriteBounds c well rows else t
  if vopReduce c.vop then (bounds (s.vputs well c.vD (rows.map (fun r => (r, 0, s.vreduce c r (s.vrowLive c well r))))), [])
  else if c.vop = 0x32 then
    let parts := rows.map (fun r => s.vrowScatter c well r (fun _ => true))
    (bounds (s.vputs well c.vD (parts.flatMap (·.1))), [(parts.map (·.2)).sum, 0, 0])
  else if c.vop = 0x34 then
    let blocks := rows.flatMap (fun r => (List.range (c.vlen / 32)).map (fun b => (r, b, s.vquantBlock c well r b)))
    ((s.vputs well c.vD (blocks.flatMap (fun x => x.2.2.2.zipIdx.map (fun e => (x.1, 32 * x.2.1 + e.2, e.1))))).vputs well c.vScale
      (blocks.map (fun x => (x.1, x.2.1, x.2.2.1))), [])
  else
    (bounds (s.vputs well c.vD (rows.flatMap (fun r =>
      if c.vop = 0x0A then s.vrowCmp c well r
      else if c.vop = 0x0B then s.vrowSel c well r
      else if c.vop = 0x30 then s.vrowPerm c well r
      else if c.vop = 0x31 then s.vrowGather c well r
      else s.vrowElem c well r))), [])

/-- A radio job that reads a stream at IN and writes one at OUT: its row, engine class and modes, the bytes it reads, what it
writes, and what it does beside. -/
structure CodecRow where
  make   : Nat → Instr
  cls    : Nat
  modes  : Nat → Bool
  input  : Blk → Nat
  output : State → Cmd → Blk → List Byte → List Byte
  after  : Cmd → Blk → List Byte → State → State

/-- The rows of the coding and correlation engines (Table 9.4). -/
def codecRows : List CodecRow :=
  [⟨.ldpcDecode, 7, fun _ => true, fun b => b.n * columns (wd b 4) * zcOf (wd b 4), ldpcOut, nothing⟩,
   ⟨.ldpcEncode, 8, (· != 1), fun b => cdiv ((wd b 5).fld 0 24) 8, encodeOut 0, nothing⟩,
   ⟨.turboEncode, 8, (· == 1), fun b => cdiv ((wd b 5).fld 0 24) 8, encodeOut 1, nothing⟩,
   ⟨.polarDecode, 9, fun m => m != 1 && m != 2, fun b => b.input 9, polarOut 0, nothing⟩,
   ⟨.reedMullerDecode, 9, (· == 1), fun b => b.input 9, polarOut 1, nothing⟩,
   ⟨.repetitionSimplexDecode, 9, (· == 2), fun b => b.input 9, polarOut 2, nothing⟩,
   ⟨.polarEncode, 10, (· != 1), fun b => b.input 10, polarEncOut 0, nothing⟩,
   ⟨.tbccEncode, 10, (· == 1), fun b => b.input 10, polarEncOut 1, nothing⟩,
   ⟨.viterbiDecode, 11, (· != 1), trellisIn, trellisOut 0, nothing⟩,
   ⟨.turboDecode, 11, (· == 1), trellisIn, trellisOut 1, nothing⟩,
   ⟨.pucchFormat0Detect, 12, (· == 1), fun b => b.input 12, pucchOut 1, nothing⟩,
   ⟨.pucchFormat1Detect, 12, (· == 2), fun b => b.input 12, pucchOut 2, nothing⟩,
   ⟨.srsMeasure, 12, (· == 3), fun b => b.input 12, openOut 3, nothing⟩,
   ⟨.despread, 12, (· == 4), fun b => b.input 12, openOut 4, nothing⟩,
   ⟨.demap, 13, fun _ => true, fun b => b.input 13, demapOut, nothing⟩,
   ⟨.pilotTrack, 15, fun _ => true, fun b => b.input 15, pilotOut, fun c b d t => t.keepTracks c b d (List.range b.n)⟩]

/-- The ALU rows with their function codes and results (Table 10.4). -/
def aluRows : List (Nat × (Nat → Instr) × (W32 → W32 → W32)) :=
  [(0, .aluAdd, fun a b => a + b), (1, .aluSub, fun a b => a - b), (2, .aluAnd, fun a b => a &&& b),
   (3, .aluOr, fun a b => a ||| b), (4, .aluXor, fun a b => a ^^^ b), (5, .aluShl, fun a b => a <<< b.toNat),
   (6, .aluShrArithmetic, fun a b => a.sshiftRight b.toNat), (7, .aluShrLogical, fun a b => a >>> b.toNat)]

/-- The complex rows with their function codes and results, I and Q apart, each modulo 2^16 (Table 10.4). -/
def caluRows : List (Nat × (Nat → Instr) × (W32 → W32 → W32)) :=
  [(0, .cadd, fun a b => cPack (cI a + cI b) (cQ a + cQ b)), (1, .csub, fun a b => cPack (cI a - cI b) (cQ a - cQ b)),
   (2, .conj, fun a _ => cPack (cI a) (-cQ a)), (3, .swapIq, fun a _ => cPack (cQ a) (cI a)),
   (4, .cneg, fun a _ => cPack (-cI a) (-cQ a))]

end Sys2Proof.Machine
end

