-- ==== Sys2Proof/Certificates/Slice0/Obligations.lean ====
section
/-!
DEFINITION. The statements about the device: what each family of commands does, what never changes, and what is refused.
-/

open Sys2Proof
open Sys2Proof.Machine

/-! ### The machine -/

/-- A step with a command in front of the queue is that command's meaning on the state with the queue's rest. -/
def Obligations.StepTakesFrontCommand : Prop :=
  ∀ (i : Instr) (s : State), step (s.push i) = exec i s

/-- A step on an empty queue is one core cycle: while the device runs, the cycle count goes up by one and the four time bases
advance by 36,404 to 36,414 units of 2^-16 ns (log entry 4: the model's choice); where no fill command is at the head of its job,
which is where NO_GAP_FITS may end one in any cycle (R50), memory, floats, commands, engines, cores, contexts, functions and
everything the device has sent stay as they were; a device that is not up does nothing. -/
def Obligations.EmptyQueueIsOneCoreCycle : Prop :=
  ∀ s : State, s.pending = [] →
    (s.up = false → step s = .next s) ∧
    (s.up = true → ∃ t, step s = .next t ∧ t.cycle = s.cycle + 1 ∧ t.clock = s.clock + 1 ∧ t.tb.length = s.tb.length ∧
      (∀ n, n < s.tb.length → n < 4 → s.time n + 36404 ≤ t.time n ∧ t.time n ≤ s.time n + 36414) ∧
      ((∀ c ∈ s.cmds, s.isHead c = true → s.modeOf c ≠ 0) →
        t.mem = s.mem ∧ t.floats = s.floats ∧ t.cmds = s.cmds ∧ t.engines = s.engines ∧ t.cores = s.cores ∧
        t.chans = s.chans ∧ t.ctxs = s.ctxs ∧ t.fns = s.fns ∧ t.pieces = s.pieces ∧ t.reads = s.reads ∧
        t.sec = s.sec ∧ t.domain = s.domain ∧ t.power = s.power ∧ t.out = s.out ∧ t.answers = s.answers ∧ t.pending = s.pending))

/-- Every command whose operands the device has answers a next state, in every state; any other either does so too or stops
under the one name for a unit that does not exist (log entry 6: the model's choice). Nothing is refused. -/
def Obligations.OnlyMissingUnitsStop : Prop :=
  ∀ (i : Instr) (s : State),
    (i.wf = true → ∃ t, exec i s = .next t) ∧ ((∃ t, exec i s = .next t) ∨ exec i s = .fault .noSuchUnit)

/-- No command touches the queue of waiting commands. -/
def Obligations.CommandsLeaveTheQueue : Prop :=
  ∀ (i : Instr) (s t : State), exec i s = .next t → t.pending = s.pending

/-- A queue of commands whose operands the device has never stops the model, however many steps are taken. -/
def Obligations.WellFormedQueueRunsSafely : Prop :=
  ∀ (n : Nat) (s : State), s.queueWf = true → State.runsSafely n s

/-- Every step keeps memory, the objects and the floats in their canonical forms, so that equal contents are equal data. -/
def Obligations.StepKeepsCanonicalForm : Prop :=
  ∀ s t : State, s.Canonical → step s = .next t → t.Canonical

/-- The state after reset has an empty queue and every store in its canonical form. -/
def Obligations.ResetIsCanonical : Prop :=
  State.reset.Canonical ∧ State.reset.queueWf = true ∧ State.reset.pending = []

/-- After reset every object reads as the Default column of its table says, every float is 0 and no command, context or
transfer exists. -/
def Obligations.ResetHoldsDefaults : Prop :=
  (∀ sel index sub r, index < 65536 → sub < 256 → Dict.find sel index sub = some r → State.reset.o sel index sub = r.dflt) ∧
  (∀ f, State.reset.float f = 0) ∧
  State.reset.cmds = [] ∧ State.reset.ctxs = [] ∧ State.reset.pieces = [] ∧ State.reset.reads = [] ∧ State.reset.out = []

/-! ### The words of the channel cores -/

/-- Every channel-core instruction whose fields are in range decodes from its word as itself. -/
def Obligations.ChannelCoreWordsRoundTrip : Prop :=
  ∀ i : CcInstr, i.wf = true → decodeCc (encodeCc i) = some i

/-- The word of a decoded channel-core instruction is the word that was read: no bit of a word is passed over. -/
def Obligations.ChannelCoreWordsAreUnique : Prop :=
  ∀ (w : W32) (i : CcInstr), decodeCc w = some i → encodeCc i = w

/-! ### The object dictionary (20, 21) -/

/-- OBJECT_WRITE: a write that every check lets through and whose rule accepts the value leaves what the rule makes: a stored
object's value waits for the flash, any other write is answered OK at once. A write that a check turns away sets the status and
changes nothing but what every response changes: the counter of the refused accesses, the window's own count and, for
HARDWARE_ERROR, the log. -/
def Obligations.ObjectWritesTakeEffectOrChangeNothing : Prop :=
  (∀ (path : Path) (sel index sub length value : Nat) (s t : State) (r : ObjRow),
     ¬(sel = 1023 ∧ index = 0x1104 ∧ sub = 2) → ¬(sel = 1023 ∧ index = 0xF000 ∧ sub = 3) →
     s.LetsWrite path sel index sub (some length) value r → writeRule path sel index sub value r s = .ok t →
     exec (.objectWrite path sel index sub length value) s = .next (s.written t r path sel index sub value)) ∧
  (∀ (path : Path) (sel index sub length value : Nat) (s : State) (e : Refused),
     ¬(sel = 1023 ∧ index = 0xF000 ∧ sub = 3) → s.powered = true → s.gate path = none →
     s.checkWrite path sel index sub (some length) value = .error e →
     exec (.objectWrite path sel index sub length value) s = .next (s.respond path e.status e.detail []))

/-- An access that names an object that does not exist completes with ADDRESS_INVALID: no table defines it under the selector,
the selector is that of an absent function, or a radio object is named under another selector than the radio owner's. A
device-global object exists on every device, whatever its role in the domain. -/
def Obligations.MissingObjectIsAddressInvalid : Prop :=
  (∀ (path : Path) (sel index sub length value : Nat) (s : State),
    s.up = true → s.gate path = none → ¬(sel = 1023 ∧ index = 0xF000 ∧ sub = 3) →
    ((sub = 0 ∧ Dict.maxSub sel index = 0) ∨ (sub ≠ 0 ∧ Dict.find sel index sub = none) ∨
      (sel < 512 ∧ s.present sel = false ∧ index ≠ 0x3000 ∧ index ≠ 0x3020 ∧ index ≠ 0x3040) ∨
      (sub ≠ 0 ∧ ∃ r, Dict.find sel index sub = some r ∧ r.owner = .radio ∧ sel ≠ s.radioOwner)) →
    exec (.objectWrite path sel index sub length value) s = .next (s.respond path Status.addressInvalid 0 []) ∧
    exec (.dictRead path sel index sub 0 length) s = .next (s.respond path Status.addressInvalid 0 [])) ∧
  (∀ (path : Path) (index sub : Nat) (s : State) (r : ObjRow), sub ≠ 0 → Dict.find 1023 index sub = some r →
    s.reach path 1023 index sub = some r)

/-- Which role a path carries at which selector. A manager that addresses the other manager or a virtual function of the other port
has the reads of its P column and no writes. A virtual function's window has the V rights of its own selector and of the
device-global objects, and any other selector is ADDRESS_INVALID there, for reads and for writes, whatever that other function is. A
closed VDM path discards the message and counts it; the objects that open it are written on the I3C path alone. -/
def Obligations.RolesReachTheirSelectors : Prop :=
  let reads (path : Path) (sel index sub length : Nat) (s : State) (r : ObjRow) : Prop :=
    let b := s.readBytes r sel index sub
    let t : State := { b.2 with latches := b.2.latches.filter (fun l => l.1 != requester path) ++
      [(requester path, objKey sel index sub, b.2.tb2us, b.1)] }
    exec (.dictRead path sel index sub 0 length) s = .next (t.respond path Status.ok b.1.length (b.1.take length))
  (∀ (m : Nat) (tbit : Bool) (sel index sub length value : Nat) (s : State) (r : ObjRow),
    isMgr m = true → sel < 514 → mgrOf sel ≠ m → s.up = true → s.gate (.window m tbit) = none →
    s.reach (.window m tbit) sel index sub = some r →
    exec (.objectWrite (.window m tbit) sel index sub length value) s = .next (s.respond (.window m tbit) Status.accessDenied 0 []) ∧
    (fld r.acc 2 1 = 1 → index ≠ 0x1104 → length ≤ 2048 → reads (.window m tbit) sel index sub length s r) ∧
    (fld r.acc 2 1 = 0 →
      exec (.dictRead (.window m tbit) sel index sub 0 length) s = .next (s.respond (.window m tbit) Status.accessDenied 0 []))) ∧
  (∀ (f : Nat) (tbit : Bool) (sel index sub length value : Nat) (s : State) (r : ObjRow),
    f < 512 → (sel = f ∨ sel = 1023) → ¬(sel = 1023 ∧ index = 0xF000 ∧ sub = 3) → s.up = true → s.gate (.window f tbit) = none →
    s.reach (.window f tbit) sel index sub = some r →
    (fld r.acc 5 1 = 0 →
      exec (.objectWrite (.window f tbit) sel index sub length value) s = .next (s.respond (.window f tbit) Status.accessDenied 0 [])) ∧
    (fld r.acc 4 1 = 1 → index ≠ 0x1104 → length ≤ 2048 → reads (.window f tbit) sel index sub length s r) ∧
    (fld r.acc 4 1 = 0 →
      exec (.dictRead (.window f tbit) sel index sub 0 length) s = .next (s.respond (.window f tbit) Status.accessDenied 0 []))) ∧
  (∀ (f : Nat) (tbit : Bool) (sel index sub length value offset : Nat) (s : State),
    f < 512 → sel ≠ f → sel ≠ 1023 → s.up = true → s.gate (.window f tbit) = none →
    exec (.objectWrite (.window f tbit) sel index sub length value) s =
      .next (s.respond (.window f tbit) Status.addressInvalid 0 []) ∧
    exec (.dictRead (.window f tbit) sel index sub offset length) s =
      .next (s.respond (.window f tbit) Status.addressInvalid 0 [])) ∧
  (∀ (p sel index sub length value offset : Nat) (s : State), p < 2 → s.powered = true → s.g 0x1100 (p + 2) = 0 →
    exec (.objectWrite (.vdm p) sel index sub length value) s = .next (s.addG 0x1101 6 1) ∧
    exec (.dictRead (.vdm p) sel index sub offset length) s = .next (s.addG 0x1101 6 1)) ∧
  (∀ (path : Path) (sub value : Nat) (s : State) (r : ObjRow), (sub = 2 ∨ sub = 3) →
    s.LetsWrite path 1023 0x1100 sub (some 1) value r →
    (path = .i3c → exec (.objectWrite path 1023 0x1100 sub 1 value) s = .next (s.queueStored path 1023 0x1100 sub value)) ∧
    (path ≠ .i3c → exec (.objectWrite path 1023 0x1100 sub 1 value) s = .next (s.respond path Status.accessDenied 0 [])))

/-- STORED_WRITE_COMMIT: the oldest stored write is answered once the flash is done. Where the flash took it, the flash holds
the value and the object takes it; where it failed, the object keeps its old value, the failure is counted in G:0x1102.02 and
the access completes with HARDWARE_ERROR. -/
def Obligations.StoredWriteCommits : Prop :=
  ∀ (path : Path) (key value : Nat) (rest : List (Path × Nat × Nat)) (s : State),
    s.powered = true → s.sec.flashQ = (path, key, value) :: rest →
    let t := ({ s with sec := { s.sec with flashQ := rest } } : State).freeWindow path
    exec (.storedWriteCommit true) s = .next
      (((({ t with sec := { t.sec with flash := SMap.put key value t.sec.flash } } : State).commitStored key value).respond
        path Status.ok 0 []).closeRemote) ∧
    exec (.storedWriteCommit false) s = .next (((t.addG 0x1102 2 1).respond path Status.hardwareError 0 []).closeRemote)

/-- DICT_READ, LEDGER_READ, DICT_INFO and DICT_LATCH_EXPIRY: a read that the checks let through latches the object's bytes for
its requester and answers the part it asks for; a read at another offset is served from the requester's latch; INFO answers
the object's sixteen bytes; a latch lives one second. -/
def Obligations.ReadsAnswer : Prop :=
  (∀ (path : Path) (sel index sub length : Nat) (s : State) (r : ObjRow),
    s.powered = true → s.gate path = none → s.checkRead path sel index sub = .ok r → length ≤ 2048 →
    let b := s.readBytes r sel index sub
    let t : State := { b.2 with latches := b.2.latches.filter (fun l => l.1 != requester path) ++
      [(requester path, objKey sel index sub, b.2.tb2us, b.1)] }
    exec (.dictRead path sel index sub 0 length) s = .next (t.respond path Status.ok b.1.length (b.1.take length)) ∧
    exec (.ledgerRead path sel index sub) s = .next (t.respond path Status.ok b.1.length (b.1.take 272))) ∧
  (∀ (path : Path) (sel index sub offset length : Nat) (s : State) (r : ObjRow) (l : Path × Nat × Nat × List Byte),
    s.powered = true → s.gate path = none → s.checkRead path sel index sub = .ok r → length ≤ 2048 →
    offset % 4 = 0 → offset ≠ 0 →
    s.latches.find? (fun l => l.1 == requester path && l.2.1 == objKey sel index sub) = some l → offset < l.2.2.2.length →
    exec (.dictRead path sel index sub offset length) s =
      .next (s.respond path Status.ok l.2.2.2.length ((l.2.2.2.drop offset).take length))) ∧
  (∀ (path : Path) (sel index sub : Nat) (s : State) (r : ObjRow),
    s.powered = true → s.gate path = none → s.up = true → s.reach path sel index sub = some r →
    exec (.dictInfo path sel index sub) s = .next (s.respond path Status.ok 0 (infoBytes r))) ∧
  (∀ (path : Path) (s : State), ∃ t, exec (.dictLatchExpiry path) s = .next t ∧ s = { t with latches := s.latches } ∧
    (∀ l, l ∈ t.latches ↔ l ∈ s.latches ∧ (l.1 = requester path → s.tb2us < l.2.2.1 + 1000000)))

/-- HOLDER_CLAIM, HOLDER_RELEASE and HOLDER_TAKE_AWAY on every holder object but TB0 and radio ownership, which have rules of
their own: a free resource goes to the selector that a party named in the "May claim" column writes, the holder gives it back
with 0xFFFF, and a party of the "May take away" column takes it away where the condition holds. A claim of a held resource by a
party that may not take it away completes with RESOURCE_HELD, with the holder in DETAIL, and changes nothing; a write by the
holder of its own selector changes nothing and completes with OK. -/
def Obligations.HoldersChangeHands : Prop :=
  (∀ (path : Path) (index sub sel : Nat) (s : State) (r : ObjRow),
     holderAt index sub = true → index ≠ 0xA004 → index ≠ 0xA005 →
     (s.LetsWrite path 1023 index sub none sel r → isFn sel = true → s.g index sub = none16 → mayClaim path index sel = true →
       exec (.holderClaim path index sub sel) s = .next (s.written (s.putHolder index sub sel) r path 1023 index sub sel)) ∧
     (s.LetsWrite path 1023 index sub none none16 r → s.g index sub ≠ none16 → actsFor path (s.g index sub) = true →
       exec (.holderRelease path index sub) s =
         .next (s.written (s.putHolder index sub none16) r path 1023 index sub none16)) ∧
     (s.LetsWrite path 1023 index sub none sel r → (isFn sel = true ∨ sel = none16) → s.g index sub ≠ none16 →
       sel ≠ s.g index sub → mayTake path index (s.g index sub) = true → s.takeable index (s.g index sub) = true →
       exec (.holderTakeAway path index sub sel) s = .next (s.written (s.putHolder index sub sel) r path 1023 index sub sel))) ∧
  (∀ (path : Path) (index sub sel : Nat) (s : State) (r : ObjRow),
     holderAt index sub = true → index ≠ 0xA004 → index ≠ 0xA005 → s.LetsWrite path 1023 index sub none sel r →
     isFn sel = true → s.g index sub ≠ none16 →
     (sel ≠ s.g index sub → mayTake path index (s.g index sub) = false →
       exec (.holderClaim path index sub sel) s = .next (s.respond path Status.resourceHeld (s.g index sub) [])) ∧
     (sel = s.g index sub → exec (.holderClaim path index sub sel) s = .next (s.written s r path 1023 index sub sel)))

/-- GPIO_CONTROL_WRITE, WATCHDOG_ARM and WATCHDOG_KICK: the settings of a pin or a timer are its holder's. The holder's write
sets the pin, arms the timer and opens its window at this microsecond of TB2, or, inside the window, opens a new one; any other
writer gets RESOURCE_HELD. Only a manager holder may set action 2. WATCHDOG_EXPIRY: a timer whose window is over is counted in
G:0xA00D, its period becomes 0, which stops it, and its action is performed: a health event, a reset of the holder, or a warm
reset. -/
def Obligations.SettingsBelongToTheHolder : Prop :=
  (∀ (path : Path) (k value : Nat) (s : State) (r : ObjRow),
     (s.LetsWrite path 1023 0xA00C (k + 1) none value r →
       (pathWriter path = some (s.g 0xA008 (k + 1)) →
         exec (.gpioControlWrite path k value) s = .next (s.written (s.setG 0xA00C (k + 1) value) r path 1023 0xA00C (k + 1) value)) ∧
       (pathWriter path ≠ some (s.g 0xA008 (k + 1)) →
         exec (.gpioControlWrite path k value) s = .next (s.respond path Status.resourceHeld (s.g 0xA008 (k + 1)) []))) ∧
     (s.LetsWrite path 1023 0xA00A (k + 1) none value r →
       (pathWriter path = some (s.g 0xA009 (k + 1)) → (fld value 16 2 = 2 → isMgr (s.g 0xA009 (k + 1)) = true) →
         exec (.watchdogArm path k value) s =
           .next (s.written { s.setG 0xA00A (k + 1) value with wdog := SMap.put k s.tb2us s.wdog } r path 1023 0xA00A (k + 1) value)) ∧
       (pathWriter path = some (s.g 0xA009 (k + 1)) → fld value 16 2 = 2 → isMgr (s.g 0xA009 (k + 1)) = false →
         exec (.watchdogArm path k value) s = .next (s.respond path Status.accessDenied 0 [])) ∧
       (pathWriter path ≠ some (s.g 0xA009 (k + 1)) →
         exec (.watchdogArm path k value) s = .next (s.respond path Status.resourceHeld (s.g 0xA009 (k + 1)) []))) ∧
     (s.LetsWrite path 1023 0xA00B (k + 1) none 1 r → pathWriter path = some (s.g 0xA009 (k + 1)) →
       s.tb2us < s.windowEnd (k + 1) →
       exec (.watchdogKick path k) s = .next (s.written { s with wdog := SMap.put k s.tb2us s.wdog } r path 1023 0xA00B (k + 1) 1)) ∧
     (s.LetsWrite path 1023 0xA00B (k + 1) none 1 r → pathWriter path ≠ some (s.g 0xA009 (k + 1)) →
       exec (.watchdogKick path k) s = .next (s.respond path Status.resourceHeld (s.g 0xA009 (k + 1)) []))) ∧
  (∀ (k : Nat) (s : State), k < 4 → s.up = true → fld (s.g 0xA00A (k + 1)) 0 16 ≠ 0 → s.windowEnd (k + 1) ≤ s.tb2us →
     let v := s.g 0xA00A (k + 1)
     let t := (s.addG 0xA00D (k + 1) 1).setG 0xA00A (k + 1) (setFld v 0 16 0)
     exec (.watchdogExpiry k) s = .next
       (if fld v 16 2 = 0 then t.raise ErrCode.watchdog none16 none16 k
        else if fld v 16 2 = 1 then
          (if isFn (t.g 0xA009 (k + 1)) && t.present (t.g 0xA009 (k + 1)) then t.beginReset (t.g 0xA009 (k + 1)) false else t)
        else t.requestReset 1 (if t.g 0xA009 (k + 1) = 513 then 4 else 3)))

/-- The fabric path: the master submits one access at a time, repeats it once after 20 ms, and gives it up after 100 ms with
WAIT_TIMEOUT; a member applies a request of the master once and answers a repeated tag with the kept response; the answer
lands in G:0x1104.05 and .06. -/
def Obligations.RemoteAccessRuns : Prop :=
  (∀ (path : Path) (h : Nat) (s : State) (r : ObjRow),
    s.LetsWrite path 1023 0x1104 2 none h r → s.isMaster = true → s.domain.remote = none →
    s.g 0x1104 1 ≠ 0x2000 → s.g 0x1104 1 ≠ s.self → s.inView (s.g 0x1104 1) = true →
    exec (.remoteDictSubmit path h) s = .next (s.written
      ({ s with domain := { s.domain with remote := some (s.g 0x1104 1, h), remoteSent := s.tb2us, remoteTry := false, answers := [] } } : State).sendRemote
      r path 1023 0x1104 2 h)) ∧
  (∀ s : State, s.up = true → s.domain.remote.isSome = true → s.domain.remoteTry = false →
    s.domain.remoteSent + 20000 ≤ s.tb2us →
    exec .remoteDictRetry s = .next ({ s with domain := { s.domain with remoteTry := true } } : State).sendRemote) ∧
  (∀ (target h : Nat) (s : State), s.up = true → s.domain.remote = some (target, h) → target ≠ 0x2000 →
    s.domain.remoteSent + 100000 ≤ s.tb2us →
    exec .remoteDictTimeout s = .next (s.remoteOutcome (responseHeader h Status.waitTimeout 0 0) [])) ∧
  (∀ (h : Nat) (data : List Byte) (s : State), s.up = true → s.isMember = true → s.domain.applying = none →
    (∀ k, s.domain.kept = some k → reqTag k.1 ≠ reqTag h) →
    exec (.dictReq h data false) s = .next (s.applyRequest h data)) ∧
  (∀ (h : Nat) (data : List Byte) (s : State) (k : Nat × List Byte), s.up = true → s.isMember = true →
    s.domain.applying = none → s.domain.kept = some k → reqTag k.1 = reqTag h →
    exec (.dictReq h data false) s = .next (s.domainMsg s.dMaster 0x14 k.1 0 k.2)) ∧
  (∀ (d h q : Nat) (data : List Byte) (s : State), d < 8192 → s.up = true → s.isMaster = true →
    s.domain.remote = some (d, q) → reqTag h = reqTag q →
    exec (.dictResp d h data) s = .next
      ((({ s with domain := { s.domain with remote := none, answers := [] } } : State).setG 0x1104 5 h).setG 0x1104 6 (leNat data)))

/-- HEALTH_SCORE_UPDATE and MCTP_CONTROL_MESSAGE: at least every 100 ms of TB2 the score is 1000 less the deductions, which
G:0x8001 lists; Set Endpoint ID on the I3C path sets G:0x1100.01, on a VDM path the port's own, and both are answered. -/
def Obligations.HealthAndControlMessages : Prop :=
  (∀ s : State, s.up = true → s.healthAt + 100000 ≤ s.tb2us →
    let t : State := { s with
      hourly := rotate 24 3600000000 s.healthAt s.tb2us s.hourly
      minutely := rotate 60 60000000 s.healthAt s.tb2us s.minutely
      healthAt := s.tb2us }
    exec .healthScoreUpdate s = .next
      (((t.deductions.zipIdx).foldl (fun (u : State) (e : Nat × Nat) => u.setG 0x8001 (e.2 + 1) e.1) t).setG 0x8000 1
        (1000 - t.deductions.sum))) ∧
  (∀ (value : Nat) (s : State), value < 256 → s.powered = true →
    exec (.mctpControlMessage .i3c 1 value) s = .next ((s.setG 0x1100 1 value).send (.mctp .i3c 1 ((s.setG 0x1100 1 value).g 0x1100 1))) ∧
    exec (.mctpControlMessage .i3c 2 value) s = .next (s.send (.mctp .i3c 2 (s.g 0x1100 1)))) ∧
  (∀ (p value : Nat) (s : State), p < 2 → value < 256 → s.powered = true →
    exec (.mctpControlMessage (.vdm p) 1 value) s =
      .next (({ s with vdmEid := SMap.set (fun _ => 0) s.vdmEid p value } : State).send (.mctp (.vdm p) 1 value)))

/-! ### The calendar (02) -/

/-- FRAME_TICK: the tick of TB0 that comes 225 to 674 core cycles after the seam's start, or at any time of a seam that waits for
a step, starts the frame whose number is TB0's count of milliseconds, which the tick carries, at core cycle 0: the seam's length is in G:0x2406.03, the
releases and the radio charges of the old frame are gone, the correction mode written since is in force, and the sixteen GDDR7
temperatures are in G:0x6005. The pages, memory, the floats, the commands, the engines and the contexts stay as they are. A tick at
any other time is discarded. -/
def Obligations.FrameTickStartsAFrame : Prop :=
  ∀ (temps : List Int) (s : State), s.up = true → s.time 0 / 2 ^ 16 / 1000000 ≠ s.cal.lastTick →
    let f := s.time 0 / 2 ^ 16 / 1000000
    let seam := s.cycle - 1799550
    (f < 2 ^ 64 → 1799550 ≤ s.cycle → (if s.cal.stepSeam then seam < 1800450 else 225 ≤ seam ∧ seam < 675) →
      ∃ t, exec (.frameTick f seam temps) s = .next t ∧ t.frame = f ∧ t.cycle = 0 ∧ t.g 0x2406 3 = seam % 65536 ∧
        t.eccMode = s.g 0x6003 3 ∧ t.cal = { s.cal with released := [], charged := [], stepSeam := s.cal.stepNext, stepNext := false
                                                        freeRun := false, lastTick := f } ∧
        (∀ k, k < min 16 temps.length → t.g 0x6005 (k + 1) = unsgn 16 (temps.getD k 0)) ∧
        t.mem = s.mem ∧ t.floats = s.floats ∧ t.cmds = s.cmds ∧ t.engines = s.engines ∧ t.ctxs = s.ctxs) ∧
    ((s.cycle < 1799550 ∨ (if s.cal.stepSeam then 1800450 ≤ seam else seam < 225 ∨ 675 ≤ seam)) →
      exec (.frameTick f seam temps) s = .next { s with cal := { s.cal with lastTick := f } })

/-- SEAM_TIMEOUT, SWAP_ARM_AT_FRAME, SWAP_ARM_TAKEOVER, SWAP_DISARM, VALIDATION_END and TAKEOVER_BOUNDARY. Where no tick came in
the seam, the device starts a free-run frame 450 core cycles after the seam's start, or once a tick's window is over, or 1,800,450
where the seam waits for a step, with the two counts of G:0x2406 and, while a cell is active, a seam fault; at no other time. While no swap is armed a write of 1 or 2 starts the validation, in any other state but "refused" it completes with
ACCESS_DENIED; a write of 0 returns an armed page to "not armed" until the seam before its frame begins or its takeover is
accepted. A page that fails a check leaves the first failing check in G:0x2402 and the swap refused; one that passes is armed
and its pinned cores go to their functions. At the boundary of an accepted takeover the pages swap and the standby cells that the
last complete shipment lists become active. -/
def Obligations.SwapsAreArmedAndValidated : Prop :=
  (∀ s : State, s.up = true → s.time 0 / 2 ^ 16 / 1000000 = s.cal.lastTick →
     let seam := s.cycle - 1799550
     let t := s.closeShipment.beginFrame (s.frame + 1) seam
     let u := (({ t with cal := { t.cal with freeRun := true } } : State).addG 0x2406 1 1).addG 0x2406 2 1
     (1799550 ≤ s.cycle → (if s.cal.stepSeam then 1800450 ≤ seam else seam = 450 ∨ 675 ≤ seam) →
       exec .seamTimeout s = .next (if u.activeCells.isEmpty then u else u.lateness none16 3 [])) ∧
     ((s.cycle < 1799550 ∨ (if s.cal.stepSeam then seam < 1800450 else seam < 450 ∨ (450 < seam ∧ seam < 675))) → exec .seamTimeout s = .next s)) ∧
  (∀ (path : Path) (s : State) (r : ObjRow),
     let arm (mode : Nat) : State :=
       let t := (s.setG 0x2401 2 mode).swapState 2
       { t with cal := { t.cal with validating := mode } }
     (s.LetsWrite path 1023 0x2401 2 none 1 r →
       ((s.g 0x2401 3 = 0 ∨ s.g 0x2401 3 = 5) → exec (.swapArmAtFrame path) s = .next (s.written (arm 1) r path 1023 0x2401 2 1)) ∧
       (s.g 0x2401 3 ≠ 0 → s.g 0x2401 3 ≠ 5 → exec (.swapArmAtFrame path) s = .next (s.respond path Status.accessDenied 0 []))) ∧
     (s.LetsWrite path 1023 0x2401 2 none 2 r →
       ((s.g 0x2401 3 = 0 ∨ s.g 0x2401 3 = 5) → exec (.swapArmTakeover path) s = .next (s.written (arm 2) r path 1023 0x2401 2 2)) ∧
       (s.g 0x2401 3 ≠ 0 → s.g 0x2401 3 ≠ 5 → exec (.swapArmTakeover path) s = .next (s.respond path Status.accessDenied 0 []))) ∧
     (s.LetsWrite path 1023 0x2401 2 none 0 r →
       (s.g 0x2401 3 = 3 → s.swapDue = false →
         exec (.swapDisarm path) s = .next (s.written ((s.setG 0x2401 2 0).swapState 0) r path 1023 0x2401 2 0)) ∧
       (s.g 0x2401 3 = 4 → s.cal.takeoverAt = none →
         exec (.swapDisarm path) s = .next (s.written ((s.setG 0x2401 2 0).swapState 0) r path 1023 0x2401 2 0)) ∧
       (s.g 0x2401 3 = 3 → s.swapDue = true → exec (.swapDisarm path) s = .next (s.respond path Status.accessDenied 0 [])) ∧
       (s.g 0x2401 3 = 4 → s.cal.takeoverAt.isSome = true →
         exec (.swapDisarm path) s = .next (s.respond path Status.accessDenied 0 [])))) ∧
  (∀ s : State, s.up = true → s.g 0x2401 3 = 2 →
     let t : State := { s with cal := { s.cal with validating := 0 } }
     (∀ e, s.validate s.cal.validating = some e → exec .validationEnd s = .next (((t.setResult e).setG 0x2401 2 0).swapState 5)) ∧
     (s.validate s.cal.validating = none →
       exec .validationEnd s = .next (((t.setResult (0, 0, 0, 0)).swapState (2 + s.cal.validating)).pinCores (List.range 96)))) ∧
  (∀ (b : Nat) (s : State), s.cal.takeoverAt = some b → s.up = true → s.cycle = 0 → b ≤ s.frame → s.g 0x2401 3 = 4 →
     let t := (s.swapPages.activateCells s.takenCells).loadTracks s.domain.lastTracks
     let u : State := { t with cal := { t.cal with takeoverAt := none }
                               domain := { t.domain with holding := t.domain.holding ++ s.takenCells } }
     exec .takeoverBoundary s = .next ((((u.setG 0x5012 0x0D b).addG 0x5012 0x0B 1).setPartner 4).noticeAll 0))

/-- PAGE_SWAP: at the first core cycle of the frame named, or of the first one after it, the shadow page becomes the active
page and the active page the shadow; the swap counter goes up, nothing is armed, and every landing zone takes its new size. -/
def Obligations.PageSwapExchangesThePages : Prop :=
  ∀ s : State, s.up = true → s.g 0x2401 3 = 3 → s.cycle = 0 → s.g 0x2401 1 ≤ s.frame →
    ∃ t, exec .pageSwap s = .next t ∧ t.cal.active = s.cal.shadow ∧ t.cal.shadow = s.cal.active ∧
      t.g 0x2401 3 = 0 ∧ t.g 0x2401 2 = 0 ∧ t.g 0x2400 1 = 1 - s.g 0x2400 1 ∧ t.g 0x2401 4 = (s.g 0x2401 4 + 1) % 2 ^ 32 ∧
      (∀ c, c < 96 → t.zone c = (s.g 0x6101 (c + 1) * 65536, s.g 0xA010 (c + 1))) ∧
      t.floats = s.floats ∧ t.cmds = s.cmds ∧ t.engines = s.engines ∧ t.ctxs = s.ctxs ∧ t.cycle = s.cycle

/-- The cells: CELL_ACTIVATE, CELL_DEACTIVATE, STANDBY_CELL_WRITE, CELL_ENTERS_CALENDAR, CELL_LEAVES_CALENDAR. A cell that both
pages and the energy reserve can bear is admitted for the second frame after this one, and one that they cannot bear completes
with RADIO_BUDGET_EXCEEDED; a standby cell is weighed against the armed takeover page alone. CRB_WRITE, CELL_RECORD_UPDATE and
GROUP_MODE_WRITE: while no cell is live the record base may be set to memory of the radio owner, and every record is written at
the second frame after; the updates of a cell's record whose frame has come are made in the order of their writes; a lane
group's mode is written while no active or pending cell names a port of the group. -/
def Obligations.CellsComeAndGo : Prop :=
  (∀ (path : Path) (cell : Nat) (s : State) (r : ObjRow), cell < 1024 →
     (s.LetsWrite path s.radioSel (0x4400 + cell) 1 none 1 r →
       s.cellState cell = 0 → s.tb0Ready = true → s.crb ≠ 0 → s.costRow cell ≠ 0 →
       (s.pagesSeen.all (fun p => s.budgetHolds p (cell :: s.liveCells)) = true →
         s.g 0x2001 1 + s.eAdm (s.costU cell) + s.g 0x2001 4 ≤ s.eWinLow →
         exec (.cellActivate path cell) s = .next (s.written
           { s.setCellO cell 1 1 with cellsAt := SMap.put cell (s.frame + 2) (s.setCellO cell 1 1).cellsAt }
           r path s.radioSel (0x4400 + cell) 1 1)) ∧
       (s.pagesSeen.all (fun p => s.budgetHolds p (cell :: s.liveCells)) = false →
         exec (.cellActivate path cell) s = .next (s.respond path Status.radioBudgetExceeded 0 []))) ∧
     (s.LetsWrite path s.radioSel (0x4400 + cell) 1 none 0 r → (s.cellState cell = 1 ∨ s.cellState cell = 2) →
       exec (.cellDeactivate path cell) s = .next (s.written (s.deactivateCell cell) r path s.radioSel (0x4400 + cell) 1 0)) ∧
     (s.LetsWrite path s.radioSel (0x4400 + cell) 0x30 none 1 r → s.standby.contains cell = false → s.cellState cell = 0 →
       s.costRow cell ≠ 0 → s.g 0x2401 3 = 4 → s.budgetHolds s.cal.shadow (cell :: s.standby ++ s.liveCells) = true →
       s.g 0x2001 1 + s.eAdm (s.unitSum (cell :: s.standby)) + s.g 0x2001 4 ≤ s.eWinLow →
       exec (.standbyCellWrite path cell 1) s = .next (s.written
         { s.setCellO cell 0x30 1 with standby := s.standby ++ [cell] } r path s.radioSel (0x4400 + cell) 0x30 1)) ∧
     (s.LetsWrite path s.radioSel (0x4400 + cell) 0x30 none 0 r →
       exec (.standbyCellWrite path cell 0) s = .next (s.written
         { s.setCellO cell 0x30 0 with standby := s.standby.filter (· != cell) } r path s.radioSel (0x4400 + cell) 0x30 0)) ∧
     (s.up = true → s.cellState cell = 1 → (∃ e ∈ s.cellsAt, e.1 = cell ∧ e.2 ≤ s.frame) →
       exec (.cellEntersCalendar cell) s = .next (s.enterCell cell)) ∧
     (s.up = true → s.cellState cell = 3 → (∃ e ∈ s.cellsAt, e.1 = cell ∧ e.2 ≤ s.frame) →
       exec (.cellLeavesCalendar cell) s = .next (s.leaveCell cell))) ∧
  ((∀ (path : Path) (value : Nat) (s : State) (r : ObjRow), s.LetsWrite path s.radioSel 0x4000 1 none value r →
     (value = 0 ∨ ((devAddr value).bad = false ∧ (devAddr value).isMem = true ∧ s.addrOk s.radioSel (devAddr value) 65536 = true)) →
     s.liveCells = [] →
     let t := s.setO s.radioSel 0x4000 1 value
     exec (.crbWrite path value) s = .next (s.written
       { t with recs := if value = 0 then [] else (List.range 1024).map (fun c => (c, 16, s.frame + 2, 0)) } r path s.radioSel 0x4000 1 value)) ∧
   (∀ (cell : Nat) (s : State), cell < 1024 → s.up = true → s.crb ≠ 0 →
     let due (e : Nat × Nat × Nat × Nat) : Bool := e.1 == cell && decide (e.2.2.1 ≤ s.frame)
     exec (.cellRecordUpdate cell) s = .next
       { (s.recs.filter due).foldl (fun t e => t.putRec cell e) s with recs := s.recs.filter (fun e => !due e) }) ∧
   (∀ (path : Path) (k mode : Nat) (s : State) (r : ObjRow), s.LetsWrite path 1023 0x4200 (k + 1) none mode r →
     (s.cellsIn (fun st => st == 1 || st == 2)).any (fun c => s.cellPort c / 4 == k) = false →
     exec (.groupModeWrite path k mode) s = .next (s.written s r path 1023 0x4200 (k + 1) mode)))


/-! ### Engines, windows, contexts (02, 07) -/

/-- ENGINE_OFFER, RADIO_COMMAND_START and EXACT_COMMAND_START: a free engine in a fill interval offers its commands in the order
of R351; the first that fits before the next gutter, gets its cores, passes its checks, has its thread and its energy starts: its
energy is paid and it runs on its engines. A head that no gap of its engines fits ends with NO_GAP_FITS. A radio or exact command
that is next in its job, whose engine is in service, whose payload passes its checks and whose S + W fit the interval that its
engines and its path are in, starts; a radio one is metered against the demand of the cells, an exact one gets its cores. One that
fails a check ends with its status. -/
def Obligations.CommandsStartOnEngines : Prop :=
  (∀ (id : Nat) (c : Cmd) (rest : List Cmd) (s t : State), calOk id = true → s.up = true → (s.engine id).busy = none →
     s.kindNow id = 0 → (∀ d ∈ s.cmds, s.headless d = false) → s.offersBefore id = c :: rest → s.isHead c = true →
     s.isFenced id = false → s.fillFits c id = true → s.firstFit c id = true →
     s.giveCores c.fn (s.coresNeeded c id) = some t → t.checkStart c id = .ok () →
     t.canThread c = true → s.energyFits c.fn c.due = true →
     exec (.engineOffer id) s = .next
       (((((t.payFill c.fn c.due).debitIdle c.fn (membersOf c id)).startOn c id).served id c.fn).noteDemand c.fn id)) ∧
  (∀ (id : Nat) (c : Cmd) (s : State), calOk id = true → s.up = true → s.cmds = [c] → s.modeOf c = 0 → s.isHead c = true →
     s.resetting c.fn = false → s.candidates c ≠ [] →
     (∀ e ∈ s.candidates c, s.gapFor c e < startup (calClass e) + s.fitW c e) →
     let t := s.refuseStart c c.engine ⟨Status.noGapFits, 0⟩
     ((t.engine id).busy ≠ none → exec (.engineOffer id) s = .next t)) ∧
  (∀ (cid : Nat) (c : Cmd) (s : State), s.cmd? cid = some c → s.up = true → s.isHead c = true → s.resetting c.fn = false →
     engineClasses c.cls c.form ≠ [] → s.isFenced c.engine = false →
     (s.modeOf c = 2 → s.checkStart c c.engine = .ok () → (s.meter c c.engine).checkStart c c.engine = .ok () →
       s.reservedFits c c.engine = true → (s.meter c c.engine).canThread c = true →
       exec (.radioCommandStart cid) s = .next (((s.meter c c.engine).payStart c).startOn c c.engine)) ∧
     (s.modeOf c = 1 → s.reservedFits c c.engine = true →
       ∀ t, s.giveCores c.fn (s.coresNeeded c c.engine) = some t →
       (t.checkStart c c.engine = .ok () → t.canThread c = true →
         exec (.exactCommandStart cid) s = .next ((t.payStart c).startOn c c.engine)) ∧
       (∀ e, t.checkStart c c.engine = .error e → exec (.exactCommandStart cid) s = .next (s.refuseStart c c.engine e))) ∧
     (s.modeOf c = 1 → s.giveCores c.fn (s.coresNeeded c c.engine) = none → exec (.exactCommandStart cid) s = .next s) ∧
     (∀ e, s.checkStart c c.engine = .error e → s.modeOf c = 2 →
       exec (.radioCommandStart cid) s = .next (s.refuseStart c c.engine e)))

/-- COMMAND_END, PRELUDE_START, GUTTER_START, RADIO_INTERVAL_END and LATENESS_REPORT: a command whose effect is made leaves its
engines, a FILL or DRAIN once its pieces have landed; in the last 128 core cycles of a gutter an idle engine loads the first command
of what follows, and a busy one is late for a radio interval; at a gutter a fill or exact command still running is stopped with
OVERRUN and a NOIL hold ends; at the end of a radio interval a radio command still running is late, and is stopped; a cause of Table
2.6 that holds is reported. -/
def Obligations.EnginesAreLeft : Prop :=
  (∀ (cid : Nat) (c : Cmd) (s : State), s.cmd? cid = some c → s.up = true → c.phase = .running → c.did = true → c.engines ≠ [] →
    s.moving c = false → exec (.commandEnd cid) s = .next ((s.endCommand c).releaseEarly c)) ∧
  (∀ (id : Nat) (g e : CalEntry) (c : Cmd) (s : State), calOk id = true → s.up = true → s.entryAt id s.granule = some g →
    g.kind = 3 → g.stop * 450 ≤ s.cycle + 128 → s.entryFrom id g.stop = some e → s.firstOf id e = some c →
    ((s.engine id).busy = none →
      exec (.preludeStart id) s = .next (s.modEngine id (fun (x : Engine) => { x with ready := some c.id }))) ∧
    ((s.engine id).busy ≠ none → e.kind = 1 → exec (.preludeStart id) s = .next ((s.lateness id 2 [c.id]).endLate [c.id]))) ∧
  (∀ (id cid : Nat) (c : Cmd) (s : State), calOk id = true → s.up = true → s.kindNow id = 3 → (s.engine id).busy = some cid →
    s.cmd? cid = some c →
    (s.modeOf c ≠ 2 → exec (.gutterStart id) s = .next ((s.overrun c).endHold id)) ∧
    (s.modeOf c = 2 → exec (.gutterStart id) s = .next (s.endHold id))) ∧
  (∀ (id cid : Nat) (c : Cmd) (s : State), calOk id = true → s.up = true → (s.engine id).busy = some cid → s.cmd? cid = some c →
    s.modeOf c = 2 → s.intervalOver c id = true →
    exec (.radioIntervalEnd id) s = .next ((s.lateness id 1 [c.id]).endLate [c.id])) ∧
  (∀ (id cause : Nat) (cids : List Nat) (s : State), calOk id = true → s.up = true → s.causeHolds id cause = true →
    exec (.latenessReport id cause cids) s = .next ((s.lateness id cause cids).endLate ((s.radioCmds cids).map Cmd.id)))

/-- WINDOW_WORD_WRITE: a whole word written to a free slot below the depth of a live function's window is kept, the sixteenth
word fills the slot and counts in nWrite; a write to a filled or held slot, at or beyond the depth, with a byte disabled, or to
a window that is shut is discarded and adds one to the dropped-word counter. -/
def Obligations.WindowWordsFillSlots : Prop :=
  ∀ (f k i enables : Nat) (v : W32) (tbit : Bool) (s : State), f < 514 → k < 1024 → i < 16 → s.powered = true →
    s.visible f = true → s.tdiBars f tbit = false →
    (s.windowShut f = false → enables = 15 → k < s.depth f → (s.slot f k).st = .free →
      ∃ t, exec (.windowWordWrite f k i v enables tbit) s = .next t ∧
        SMap.get (fun _ => 0) (t.slot f k).words i = v ∧
        (∀ j, j ≠ i → SMap.get (fun _ => 0) (t.slot f k).words j = SMap.get (fun _ => 0) (s.slot f k).words j) ∧
        ((t.slot f k).st = .filled ↔ (SMap.put i v (s.slot f k).words).length = 16) ∧
        (t.fn f).nWrite = (s.fn f).nWrite + (if (SMap.put i v (s.slot f k).words).length = 16 then 1 else 0) ∧
        (∀ k', k' ≠ k → t.slot f k' = s.slot f k') ∧ (∀ f', f' ≠ f → t.fn f' = s.fn f') ∧
        t.obj = s.obj ∧ t.mem = s.mem ∧ t.floats = s.floats ∧ t.cmds = s.cmds ∧ t.out = s.out) ∧
    ((s.windowShut f = true ∨ enables ≠ 15 ∨ s.depth f ≤ k ∨ (s.slot f k).st ≠ .free) →
      exec (.windowWordWrite f k i v enables tbit) s = .next (s.addO f 0x3010 0x0A 1))

/-- RECORD_CONSUME, CREDIT_WRITE, MODERATION_DELAY_EXPIRY and COMPLETION_WRITE: the next slot in slot order, once filled, is held
and its record submitted; a credit write frees the slots of the oldest unreturned completions and counts what it gives back
beyond them; the delay of moderation raises the vector. A command that is over, whose writes have landed and whose packets are
answered, writes its completion record to its function's ring once it is the oldest that retired; a faulting status faults its
context, another closes the job of a JE record; an OK command with CQ 0 that closed no job retires without one. -/
def Obligations.RecordsAreConsumedAndCompleted : Prop :=
  ((∀ (f : Nat) (s : State), f < 514 → s.up = true → s.resetting f = false →
     let k := (s.fn f).nConsume % max 1 (s.depth f)
     (s.slot f k).st = .filled →
     exec (.recordConsume f) s = .next
       ((((s.setSlot f k { st := .held }).modFn f (fun (y : Fn) => { y with nConsume := y.nConsume + 1 })).addO f 0x3010 6 1).submit
         f (some k) none (s.slot f k).record)) ∧
   (∀ (f n : Nat) (tbit : Bool) (s : State), f < 514 → s.up = true → s.present f = true → s.visible f = true →
     s.tdiBars f tbit = false →
     let back := (s.fn f).unret.take (n % 2048)
     exec (.creditWrite f n 15 tbit) s = .next
       ((((s.freeSlots f back).modFn f (fun (y : Fn) => { y with unret := y.unret.drop back.length })).addO f 0x3010 9 back.length).addO
         f 0x3010 0x0B (n % 2048 - back.length))) ∧
   (∀ (f : Nat) (s : State), f < 514 → s.up = true → s.o f 0x3010 5 ≠ 0 → (s.fn f).unsig ≠ 0 →
     (s.fn f).oldest + s.o f 0x3010 5 ≤ s.tb2us → exec (.moderationDelayExpiry f) s = .next (s.signal f))) ∧
  (∀ (cid : Nat) (c : Cmd) (s : State), s.cmd? cid = some c → s.retirable c = true →
     (∀ k, c.slot = some k → c.silent = false → (s.endsJob c = false ∨ s.lastOfJob c = true) →
       let u := s.noteRetired
       let t := (if Status.faults c.status (s.modeOf c == 2) then (u.putCompletion c k).faultContext c
         else (u.putCompletion c k).closeJob c).dropCmd cid
       (u.nextRetired c.fn = some cid →
         exec (.completionWrite cid) s = .next { t with retired := t.retired.filter (· != cid) }) ∧
       (u.nextRetired c.fn ≠ some cid → exec (.completionWrite cid) s = .next u)) ∧
     ((c.slot = none ∨ c.silent = true) → exec (.completionWrite cid) s = .next (s.settle cid)))

/-- CONTEXT_OPEN, CONTEXT_CLOSE and CONTEXT_NUMBER_FREED: the lowest free number opens with the next epoch, the seed and the home
core; a close cancels the jobs and ends the queued commands; the number returns once the old epoch's traffic is gone. -/
def Obligations.ContextsOpenAndClose : Prop :=
  (∀ (path : Path) (f home n core : Nat) (s : State) (r : ObjRow), s.LetsWrite path f 0x3050 1 none (home * 4) r →
    (home ≤ 95 ∨ home = 0x7F) → s.homeFor f 0 home = some core → s.o f 0x3050 5 < s.o f 0x3020 8 → s.freeCtx = some n →
    let epoch := ((s.ctx n).epoch + 1) % 2 ^ 16
    exec (.contextOpen path f (home * 4)) s = .next (s.written
      ((((s.setCtx n { fn := f, mode := 0, seed := s.o f 0x3050 6, epoch := epoch, home := core, st := .idle, rate := 0 }).setO
        f 0x3050 2 n).setO f 0x3050 3 epoch).addO f 0x3050 5 1) r path f 0x3050 1 (home * 4))) ∧
  (∀ (path : Path) (f n : Nat) (s : State) (r : ObjRow), s.LetsWrite path f 0x3050 4 none n r →
    (n < 4096 → (s.ctx n).fn = f → (s.ctx n).st ≠ .free → (s.ctx n).closed = false →
      exec (.contextClose path f n) s = .next (s.written (s.closeCtx f n) r path f 0x3050 4 n)) ∧
    ((4096 ≤ n ∨ (s.ctx n).fn ≠ f ∨ (s.ctx n).st = .free ∨ (s.ctx n).closed = true) →
      exec (.contextClose path f n) s = .next (s.respond path Status.contextInvalid 0 []))) ∧
  (∀ (n : Nat) (s : State), s.up = true → (s.ctx n).closed = true → s.drained n = true → (s.ctx n).mode ≠ 1 →
    exec (.contextNumberFreed n) s = .next (s.setCtx n { epoch := (s.ctx n).epoch }))

/-! ### Commands without an engine (06, 07) -/

/-- FLOAT_WAIT, FLOAT_WAIT_MET, FLOAT_WAIT_TIMEOUT, FLOAT_SIGNAL_ADD, FLOAT_SIGNAL_SET, FENCE_LOCAL and FENCE_FABRIC: a wait
passes when its float is at least its threshold, holds its thread while it is not, and ends with WAIT_TIMEOUT after TIMEOUT
microseconds; a signal adds to its float or replaces it, with AFTER once the earlier commands of its job are done; a fence
completes once the earlier commands of its job have completed and landed; a FABRIC one records the unacknowledged SEQs toward
DEST and ships the marked landing pages when it starts, and completes when all of it is acknowledged. -/
def Obligations.WaitsSignalsAndFences : Prop :=
  (∀ (cid : Nat) (c : Cmd) (s : State), c.cls = 3 →
     (s.StartsFree cid c → (s.startedFree cid c).floatOf c.fn ((c.w 4).fld 0 16) ≠ none →
       exec (.floatWait cid) s = .next
         (if (s.startedFree cid c).waitMet c then (s.startedFree cid c).conclude cid Status.ok else s.startedFree cid c)) ∧
     (s.StartsFree cid c → (s.startedFree cid c).floatOf c.fn ((c.w 4).fld 0 16) = none →
       exec (.floatWait cid) s = .next ((s.startedFree cid c).conclude cid Status.floatInvalid)) ∧
     (s.cmd? cid = some c → c.phase = .running → s.up = true → s.resetting c.fn = false →
       ((s.ctx c.ctx).st = .running → s.waitMet c = true → exec (.floatWaitMet cid) s = .next (s.conclude cid Status.ok)) ∧
       ((c.w 7).toNat ≠ 0 → c.since + (c.w 7).toNat ≤ s.tb2us →
         exec (.floatWaitTimeout cid) s = .next (s.conclude cid Status.waitTimeout)))) ∧
  (∀ (cid f : Nat) (c : Cmd) (s : State), s.StartsFree cid c → c.cls = 4 →
     ((c.w 4).bit 17 = false ∨ s.earlierDone c = true) → (s.startedFree cid c).floatOf c.fn ((c.w 4).fld 0 16) = some f →
     ((c.w 4).fld 16 1 = 0 → exec (.floatSignalAdd cid) s =
       .next (((s.startedFree cid c).addFloat f (wd64 c.words 5)).conclude cid Status.ok)) ∧
     ((c.w 4).fld 16 1 = 1 → exec (.floatSignalSet cid) s =
       .next (((s.startedFree cid c).putFloat ((s.startedFree cid c).sequencer c) f (wd64 c.words 5)).conclude cid Status.ok))) ∧
  (∀ (cid : Nat) (c : Cmd) (s : State), s.cmd? cid = some c → c.cls = 5 → c.phase = .running → s.up = true →
     s.resetting c.fn = false → (s.ctx c.ctx).st = .running →
     (c.form = 0 → exec (.fenceLocal cid) s = .next (if s.earlierDone c then s.conclude cid Status.ok else s)) ∧
     (c.form = 1 → exec (.fenceFabric cid) s = .next (if s.fenceMet c then s.conclude cid Status.ok else s))) ∧
  (∀ (cid : Nat) (c : Cmd) (s : State), s.StartsFree cid c → c.cls = 5 → c.form = 1 → s.stepsOut c = true → c.dest ≤ 0x2000 →
     s.domain.declared.contains c.dest = false →
     let t := s.startedFree cid c
     let u := (t.modCmd cid (fun (d : Cmd) => { d with cuts := t.fenceCuts c })).shipPages c (t.dirtyPages c)
     exec (.fenceFabric cid) s = .next (match u.held? cid isFabricFence with
       | some d => if u.fenceMet d then u.conclude cid Status.ok else u
       | none => u))

/-- A float that is added to wraps modulo 2^64, a float that is set takes the value, and every other float keeps its own. Of the
updates of one float in one core cycle a SET comes before the ADDs, and of two SETs that of the higher requester comes last. -/
def Obligations.FloatsHoldWhatIsWritten : Prop :=
  ∀ (f n : Nat) (v : W64) (s : State),
    (s.addFloat f n).float f = BitVec.ofNat 64 ((s.float f).toNat + n) ∧ (s.setFloat f v).float f = v ∧
    (∀ g, g ≠ f → (s.addFloat f n).float g = s.float g ∧ (s.setFloat f v).float g = s.float g) ∧
    (∀ r w, (∀ e ∈ s.fSets, e.1 ≠ f) →
      (s.putFloat r f w).float f = BitVec.ofNat 64 (w + SMap.get (fun _ => 0) s.fAdds f) ∧
      ((s.addFloat f n).putFloat r f w).float f = ((s.putFloat r f w).addFloat f n).float f ∧
      (∀ g, g ≠ f → (s.putFloat r f w).float g = s.float g) ∧
      (∀ q x, q < r → ((s.putFloat r f w).putFloat q f x).float f = (s.putFloat r f w).float f) ∧
      (∀ q x, r ≤ q → ((s.putFloat r f w).putFloat q f x).float f = BitVec.ofNat 64 (x + SMap.get (fun _ => 0) s.fAdds f))) ∧
    (∀ lo len, (∀ g, lo ≤ g → g < lo + len → (s.zeroFloats lo len).float g = 0) ∧
      (∀ g, (g < lo ∨ lo + len ≤ g) → (s.zeroFloats lo len).float g = s.float g))

/-- CALENDAR_WAIT, CALENDAR_WAIT_RELEASE, STAMP, CALENDAR_RELEASE and CALENDAR_LOAD: a WAIT holds its thread until its granule and
completes with the frame and granule; a STAMP completes with them at once; a RELEASE turns the REL radio interval in progress to
fill; a LOAD replaces the shadow page. -/
def Obligations.CalendarMarkersAct : Prop :=
  ∀ (cid : Nat) (c : Cmd) (s : State), c.cls = 10 →
    (s.StartsFree cid c → c.form = 0 → (c.w 6).fld 0 12 < 4000 → (s.startedFree cid c).waitOver c = true →
      exec (.calendarWait cid) s = .next ((s.startedFree cid c).conclude cid Status.ok (s.startedFree cid c).stampWords)) ∧
    (s.StartsFree cid c → c.form = 0 → (c.w 6).fld 0 12 < 4000 → (s.startedFree cid c).waitOver c = false →
      exec (.calendarWait cid) s = .next (s.startedFree cid c)) ∧
    (s.cmd? cid = some c → c.form = 0 → c.phase = .running → s.up = true → s.resetting c.fn = false →
      (s.ctx c.ctx).st = .running → s.waitOver c = true →
      exec (.calendarWaitRelease cid) s = .next (s.conclude cid Status.ok s.stampWords)) ∧
    (s.StartsFree cid c → c.form = 1 →
      exec (.stamp cid) s = .next ((s.startedFree cid c).conclude cid Status.ok (s.startedFree cid c).stampWords)) ∧
    (s.StartsFree cid c → c.form = 2 → calOk ((c.w 7).fld 0 16) = true →
      let t := s.startedFree cid c
      (∃ e ∈ t.liveEntries ((c.w 7).fld 0 16), e.kind = 1 ∧ e.rel = true ∧ e.start = (c.w 6).fld 0 12 ∧ e.covers t.granule = true) →
      exec (.calendarRelease cid) s = .next (({ t with cal := { t.cal with
        released := t.cal.released ++ [((c.w 7).fld 0 16, t.granule)] } } : State).conclude cid Status.ok)) ∧
    (∀ image : List Byte, s.StartsFree cid c → c.form = 3 → (c.w 10).toNat = image.length →
      let t := s.startedFree cid c
      let u : State := { t with cal := { t.cal with shadow := parseImage image.length image } }
      ((t.g 0x2401 3 < 2 ∨ 4 < t.g 0x2401 3) →
        exec (.calendarLoad cid image) s = .next (((u.swapState 1).swapState 0).conclude cid Status.ok)) ∧
      (2 ≤ t.g 0x2401 3 → t.g 0x2401 3 ≤ 4 → exec (.calendarLoad cid image) s = .next (t.conclude cid Status.accessDenied)))

/-! ### Vector, matrix, pump and serving engines (03, 04, 05, 06, 08) -/

/-- Every vector command: with its checks passed it writes its rows, or after a preemption those that are left, from the sources as
they were, and completes with OK; a failed check gives its status and DETAIL and changes nothing else but what an uncorrectable word
counts. -/
def Obligations.VectorCommandsComplete : Prop :=
  ∀ row ∈ vectorRows, ∀ (cid : Nat) (c : Cmd) (s : State), s.Due cid c → c.cls = 1 → c.vop = row.1 →
    (s.checkVector c c.onEngine = .ok () →
      (c.part = 0 → c.detail = [] →
        exec (row.2 cid) s = .next ((s.vectorDone c).1.did cid Status.ok (s.vectorDone c).2)) ∧
      (let r := s.vectorPart c (Mem.well c.onCore) c.part c.vtotal
       exec (row.2 cid) s = .next (r.1.did cid Status.ok (if c.vop = 0x32 then [c.detail.headD 0 + r.2, 0, 0] else [])))) ∧
    (∀ e, s.checkVector c c.onEngine = .error e → exec (row.2 cid) s =
      .next ((s.noteBad c e).did cid e.status [e.detail % 2 ^ 32, e.detail / 2 ^ 32 % 2 ^ 32, 0]))

/-- A vector command changes no byte of memory outside its destination, its scales and its bound bytes, and no float, context,
engine or core; nor does a row whose command is not there. -/
def Obligations.VectorCommandsStoreInTheirDestination : Prop :=
  ∀ row ∈ vectorRows, ∀ (cid : Nat) (s t : State), exec (row.2 cid) s = .next t →
    (∀ a, (∀ c, s.cmd? cid = some c → ∀ v ∈ c.vD :: c.vextra, ¬ v.holdsAddr c.onCore a) → t.rd a = s.rd a) ∧
    t.floats = s.floats ∧ t.ctxs = s.ctxs ∧ t.engines = s.engines ∧ t.cores = s.cores ∧ t.cal = s.cal ∧ t.pieces = s.pieces

/-- The elements that vector rows write: an unmasked element of an elementwise operation is the operation on the elements of its
operands, converted to the destination format; a bit of CMP is its comparison, 0 where masked; RMAX and RMIN of no element are
minus and plus infinity, RSUM +0, COUNT 0 and ARGMAX and ARGMIN 0xFFFFFFFF. -/
def Obligations.VectorElementsAreComputed : Prop :=
  ∀ (c : Cmd) (well r i : Nat) (s : State), i < c.vlen →
    let a := (s.vaAt c well r i).1
    let b := s.vbAt c well r i
    let d := (s.vcAt c well r i).1
    let out (v : Machine.Num) : Nat := vconvert c (isInt c.vfa) (s.vdraw c r i) v
    let hit (v : Nat) : Prop := s.vlive c well r i a = true → (r, i, v) ∈ s.vrowElem c well r
    (c.vop = 0x01 → hit (out (a.add b))) ∧ (c.vop = 0x02 → hit (out (a.sub b))) ∧ (c.vop = 0x03 → hit (out (a.mul b))) ∧
    (c.vop = 0x04 → hit (out ((a.mul b).add d))) ∧ (c.vop = 0x05 → hit (out (vmax a b))) ∧ (c.vop = 0x06 → hit (out (vmin a b))) ∧
    (c.vop = 0x07 → hit (out (if a.isNeg then a.neg else a))) ∧ (c.vop = 0x08 → hit (out a.neg)) ∧ (c.vop = 0x09 → hit (out a)) ∧
    (c.vop = 0x10 → isInt c.vfa = false → hit (out (a.div b))) ∧ (c.vop = 0x11 → hit (out a.sqrt)) ∧
    (s.vlive c well r i a = false → ∀ v, (r, i, v) ∉ s.vrowElem c well r) ∧
    (r, i, (s.vlive c well r i a && vcompare c.vpred a b).toNat) ∈ s.vrowCmp c well r ∧
    (c.vop = 0x28 → s.vreduce c r [] = vconvert c (isInt c.vfa) (s.vdraw c r 0) Machine.Num.zero) ∧
    ((c.vop = 0x2C ∨ c.vop = 0x2D) → s.vreduce c r [] = 0xFFFFFFFF) ∧ (c.vop = 0x2E → s.vreduce c r [] = 0) ∧
    (c.vop = 0x2A → isInt c.vfd = false → s.vreduce c r [] = vconvert c (isInt c.vfa) (s.vdraw c r 0) (.inf true)) ∧
    (c.vop = 0x2B → isInt c.vfd = false → s.vreduce c r [] = vconvert c (isInt c.vfa) (s.vdraw c r 0) (.inf false))

/-- FOLIOS and COMBINE: with the checks passed, FOLIOS runs its folios in order and counts its steps and stalls, COMBINE, once
its float is ready, writes its sums, and each completes with OK; a failed check gives its status. PUMP_COPY and PUMP_TRANSPOSE:
with the checks passed the bytes leave as pieces of at most 4 KiB, through reads where the source is GDDR7, or into the sump;
nothing of the destination changes before a piece lands. The serving commands KV_STEP, SAMPLE, GATHER and SCATTER: with the
checks passed each emits what it computes and completes with OK and its counts; a check that fails without an uncorrectable word
gives its status and changes nothing else. What a preemption left of FOLIOS or of a pump command is what then runs. -/
def Obligations.MatrixPumpAndServingCommandsComplete : Prop :=
  (∀ (cid : Nat) (c : Cmd) (s : State), s.Due cid c → c.cls = 0 →
     let bad (e : Refused) : State := (s.noteBad c e).did cid e.status [e.detail % 2 ^ 32, e.detail / 2 ^ 32 % 2 ^ 32, 0]
     (c.form = 0 →
       (∀ fs, s.checkFolios c c.onEngine = .ok fs → exec (.folios cid) s = .next
         (((s.runFolios c c.part (fs.drop c.part)).countStalls c (memberArrays c).length
           (matrixTime ((pairing ((c.w 4).fld 12 5) ((c.w 4).fld 17 5)).getD 1) ((c.w 4).fld 3 1)
           ((c.w 4).fld 0 3) (scaledOp ((c.w 4).fld 12 5) ((c.w 11).bit 6) || scaledOp ((c.w 4).fld 17 5) ((c.w 11).bit 7))
           (fs.drop c.part))).did cid Status.ok [])) ∧
       (∀ e, s.checkFolios c c.onEngine = .error e → exec (.folios cid) s = .next (bad e))) ∧
     (c.form = 1 → s.combineReady c = true →
       (∀ t, combineEffect c s = .ok (t, []) → exec (.combine cid) s = .next (t.did cid Status.ok [])) ∧
       (∀ e, combineEffect c s = .error e → exec (.combine cid) s = .next (bad e)))) ∧
  (∀ (cid : Nat) (c : Cmd) (s : State), s.Due cid c → c.cls = 2 →
     (c.form = 0 → c.isFab = false → ∀ float, s.checkCopy c c.onEngine = .ok float →
       let t := s.moveBytes c (c.w 8).toNat float
       exec (.pumpCopy cid) s = .next (t.did cid Status.ok []) ∧ (∀ a, (t.did cid Status.ok []).rd a = s.rd a)) ∧
     (c.form = 1 → ∀ float, s.checkTranspose c = .ok float →
       let t := s.moveParts c (paceOf c.onEngine (c.addr 4) (c.addr 6)) float (s.transParts c.fn (c.addr 4) (c.addr 6) (transOf c))
       exec (.pumpTranspose cid) s = .next (t.did cid Status.ok []) ∧ (∀ a, (t.did cid Status.ok []).rd a = s.rd a))) ∧
  (∀ (cid : Nat) (c : Cmd) (s : State), s.Due cid c → c.cls = 8 →
     let runs (i : Instr) (k : Cmd → State → Except Refused (State × List Nat)) : Prop :=
       (∀ t d, k c s = .ok (t, d) → exec i s = .next (t.did cid Status.ok d)) ∧
       (∀ e, k c s = .error e → e.status ≠ Status.eccUncorrectable →
         exec i s = .next (s.did cid e.status [e.detail % 2 ^ 32, e.detail / 2 ^ 32 % 2 ^ 32, 0]))
     (c.form = 0 → runs (.kvStep cid) kvEffect) ∧ (c.form = 1 → runs (.sample cid) sampleEffect) ∧
     (c.form = 2 → s.gsMode c ≠ 1 → runs (.gatherRows cid) gatherRowsEffect) ∧
     (c.form = 2 → s.gsMode c = 1 → runs (.gatherRoute cid) gatherRouteEffect) ∧
     (c.form = 3 → (s.gsMode c = 0 ∨ s.gsMode c = 3) → runs (.scatterOverwrite cid) (scatterEffect none)) ∧
     (c.form = 3 → s.gsMode c = 1 → runs (.scatterAddFp32 cid) (scatterEffect (some 0))) ∧
     (c.form = 3 → s.gsMode c = 2 → runs (.scatterAddBf16 cid) (scatterEffect (some 1))))

/-- The radio engines: a job whose block and addresses pass the checks of R245 and R246 asks for its inputs; when all of them have
been presented, or where it has none at once, it emits its output, which it computes from memory as those reads brought it, and
completes with OK and TB_ID in DETAIL. A failed check that faults gives its status at once. A pump's job issues its transfer at once. -/
def Obligations.RadioJobsComplete : Prop :=
  ∀ (cid : Nat) (c : Cmd) (s : State), s.Due cid c → c.cls = 9 →
    let done (t : State) : State := (t.did cid Status.ok []).modCmd cid (fun (e : Cmd) => { e with detail := [c.tbId, 0, 0] })
    (c.asked = none → (s.codecInputs c).filter (fun e => e.2 != 0) ≠ [] →
      let asks (i : Instr) (k : Cmd → State → Except Refused (State × List Nat)) : Prop :=
        (∀ e, k c s = .error e → e.status = Status.eccUncorrectable) →
          exec i s = .next (s.askInputs c ((s.codecInputs c).filter (fun e => e.2 != 0)))
      (∀ row ∈ codecRows, calClass c.onEngine = row.cls → row.modes (s.blkMode c) = true →
        asks (row.make cid) (codecEffect row.output row.after)) ∧
      (calClass c.onEngine = 12 → (s.blkMode c = 0 ∨ 4 < s.blkMode c) → asks (.prachDetect cid) (codecEffect
        (fun t c b d => (prachReports t c b d).flatten) (fun c b d t => t.countDetections c.cell (prachReports t c b d).length))) ∧
      (calClass c.onEngine = 14 → asks (.harqCombine cid) harqEffect)) ∧
    (c.asked = none → (s.codecInputs c).filter (fun e => e.2 != 0) = [] →
      (∀ row ∈ codecRows, calClass c.onEngine = row.cls → row.modes (s.blkMode c) = true →
        ∀ t d, codecEffect row.output row.after c s = .ok (t, d) → exec (row.make cid) s = .next (done t)) ∧
      (calClass c.onEngine = 14 → ∀ t d, harqEffect c s = .ok (t, d) → exec (.harqCombine cid) s = .next (done t))) ∧
    (∀ row ∈ codecRows, c.asked = none → calClass c.onEngine = row.cls → row.modes (s.blkMode c) = true →
      ∀ e, codecEffect row.output row.after c s = .error e → Status.faults e.status true = true →
        exec (row.make cid) s = .next ((s.noteBad c e).did cid e.status (s.radioDetail c))) ∧
    (∀ due, c.asked = some due → due ≤ s.clock → s.reading cid none = false →
      let seen := s.asSeen cid none
      let done (t : State) : State := State.takeReads { done t with mem := s.mem, garbled := s.garbled, ecc := s.ecc } cid none
      (∀ row ∈ codecRows, ∀ (b : Blk) (float : Option Nat), calClass c.onEngine = row.cls → row.modes (s.blkMode c) = true →
        seen.openBlk c (Blk.fieldsOk row.cls) = .ok (b, float) → seen.needInput c (c.addr 4) (row.input b) = .ok () →
        let data := softInput row.cls (seen.readAt c.fn (c.addr 4) (row.input b))
        let out := row.output seen c b data
        seen.needOutput c (c.addr 6) out.length = .ok () →
        exec (row.make cid) s = .next (done (row.after c b data (seen.emitData c float (c.addr 6) out)))) ∧
      (calClass c.onEngine = 12 → (s.blkMode c = 0 ∨ 4 < s.blkMode c) → ∀ b float, seen.openBlk c (Blk.fieldsOk 12) = .ok (b, float) →
        seen.needInput c (c.addr 4) (b.input 12) = .ok () →
        let data := seen.readAt c.fn (c.addr 4) (b.input 12)
        let found := prachReports seen c b data
        seen.needOutput c (c.addr 6) found.flatten.length = .ok () →
        exec (.prachDetect cid) s =
          .next (done ((seen.emitData c float (c.addr 6) found.flatten).countDetections c.cell
            (prachReports (seen.emitData c float (c.addr 6) found.flatten) c b data).length))) ∧
      (calClass c.onEngine = 14 → ∀ t d, harqEffect c seen = .ok (t, d) → exec (.harqCombine cid) s = .next (done t))) ∧
    (c.asked = none →
      (calClass c.onEngine = 18 → ∀ t d, radioPumpEffect 18 c s = .ok (t, d) → exec (.radioSpinePumpJob cid) s = .next (done t)) ∧
      (calClass c.onEngine = 19 → ∀ t d, radioPumpEffect 19 c s = .ok (t, d) → exec (.radioFabricPumpJob cid) s = .next (done t)))

/-! ### Memory, floats and transfers (06, 14) -/

/-- A byte that is written reads back, and every other byte reads as before; a range of a well that is zeroed reads as 0 where no
key rotated under it; a page whose key rotates reads as the old ciphertext under the new key, which nothing constrains (log
entries 1 and 2: the model's choice for bytes that nothing has written). -/
def Obligations.MemoryHoldsWhatIsWritten : Prop :=
  ∀ (s : State) (a : Nat),
    (∀ b, (s.wr a b).rd a = b) ∧ (∀ b c, c ≠ a → (s.wr a b).rd c = s.rd c) ∧
    (∀ bs i, i < bs.length → (s.wrN a bs).rd (a + i) = bs.getD i 0) ∧
    (∀ bs c, (c < a ∨ a + bs.length ≤ c) → (s.wrN a bs).rd c = s.rd c) ∧
    (∀ n c, a ≤ c → c < a + n → (s.zeroMem a n).rd c = memDflt s.garbled c) ∧
    (∀ n c, (c < a ∨ a + n ≤ c) → (s.zeroMem a n).rd c = s.rd c) ∧
    (∀ pages, (a / Mem.page) ∈ pages → (s.rotatePages pages).rd a = Config.garble (a / Mem.page) s.sec.keyCount (a % Mem.page)) ∧
    (∀ pages, (a / Mem.page) ∉ pages → (s.rotatePages pages).rd a = s.rd a)

/-- PIECE_LAND and STX_LANDING: a piece that may land writes its bytes at its destination and nowhere else, adds their number to
its float modulo 2^64 and to no other, and is gone; a piece of an old epoch, of a stopped command or for the sump writes nothing and
is counted as sumped. In a radio or exact interval it lands at its time, not before. -/
def Obligations.PiecesLandWithTheirFloat : Prop :=
  ∀ (pid : Nat) (p : Piece) (s : State), s.pieces.find? (fun q => q.id == pid) = some p →
    let lands (i : Instr) : Prop := ∃ t, exec i s = .next t ∧ (∀ q ∈ t.pieces, q.id ≠ p.id) ∧
      ((p.sump = true ∨ (s.ctx p.ctx).epoch ≠ p.epoch ∨ (p.bad = none ∧ Mem.sump ≤ p.dst)) →
        t = (s.sumpBytes p.data.length).dropPiece p) ∧
      (p.sump = false → (s.ctx p.ctx).epoch = p.epoch → p.bad = none → p.dst < Mem.sump → s.partialBad p.dst p.data.length = false →
        t = ((s.store p.dst p.data).countLanding p.float p.data.length).dropPiece p)
    (s.mayLand p = true → lands (.pieceLand pid)) ∧
    (s.up = true → p.stx = true → p.due ≤ s.clock → s.lineBusy p.dst p.data.length = false → lands (.stxLanding pid)) ∧
    (s.clock < p.due → exec (.pieceLand pid) s = .next s ∧ exec (.stxLanding pid) s = .next s) ∧
    (∀ a, (a < p.dst ∨ p.dst + p.data.length ≤ a) → (s.store p.dst p.data).rd a = s.rd a) ∧
    (∀ i, i < p.data.length → (s.store p.dst p.data).rd (p.dst + i) = p.data.getD i 0) ∧
    (∀ f, (s.countLanding p.float p.data.length).float f =
      if p.float = some f then s.float f + BitVec.ofNat 64 p.data.length else s.float f)

/-- MEMORY_READ_ARRIVAL, BUCKET_PRESENT and CISTERN_SCRUB: a block whose bits came undisturbed and hold no error is good; one that
decodes to a correction is delivered and counted, one that decodes as uncorrectable is counted and delivers nothing; a bucket read
whose data comes after issue + L_max is a path fault, another waits for that time and is presented then, or is a path fault where
its data has not come. FLOAT_RANGE_WRITE and LANDING_ZONE_SIZE_WRITE: a range of an absent virtual function, free of every other
present function's, is stored; a manager's range is exchanged with the pool at once and its floats are zeroed; a range that another
holds completes with RESOURCE_HELD and its selector; a zone size is stored for the next swap. -/
def Obligations.ReadsArriveAndRangesAreSet : Prop :=
  ((∀ (rid : Nat) (bits : List (Nat × Nat)) (r : ReadReq) (s : State), s.reads.find? (fun r => r.id == rid) = some r → s.up = true →
     r.arrived = false → r.issue ≤ s.clock →
     (r.bucket = true → r.issue + r.lmax < s.clock → exec (.memoryReadArrival rid bits) s = .next (s.pathFault r)) ∧
     ((r.bucket = false ∨ s.clock ≤ r.issue + r.lmax) →
       (r.bad = false → (∀ e ∈ s.ecc, e.1 ≠ r.src / 64) → exec (.memoryReadArrival rid []) s = .next (s.arrive r false none)) ∧
       (r.bad = false → s.blockOutcome r.mode r.src bits = .clean →
         exec (.memoryReadArrival rid bits) s = .next (s.arrive r false none)) ∧
       (r.bad = false → s.blockOutcome r.mode r.src bits = .corrected →
         exec (.memoryReadArrival rid bits) s = .next ((s.addG 0x6000 (r.chan + 1) 1).arrive r false none)) ∧
       ((r.bad = true ∨ s.blockOutcome r.mode r.src bits = .uncorrectable) →
         exec (.memoryReadArrival rid bits) s = .next ((s.countUncorrectable r.src 0).arrive r true none)) ∧
       (∀ moved, r.bad = false → s.blockOutcome r.mode r.src bits = .miscorrected moved →
         exec (.memoryReadArrival rid bits) s =
           .next ((s.fresh.2.addG 0x6000 (r.chan + 1) moved.toNat).arrive r false (some (freeBytes s.fresh.1 64)))))) ∧
   (∀ (rid : Nat) (r : ReadReq) (s : State), s.reads.find? (fun r => r.id == rid) = some r → s.up = true → r.bucket = true →
     r.shown = false →
     (r.issue + r.lmax ≤ s.clock →
       exec (.bucketPresent rid) s = .next (if r.arrived = false then s.pathFault r
         else if r.bad then s.failRead r Status.eccUncorrectable else s.presentRead r)) ∧
     (s.clock < r.issue + r.lmax → exec (.bucketPresent rid) s = .next s)) ∧
   (∀ s : State, s.up = true → ∃ t, exec .cisternScrub s = .next t ∧ t.cscrub = s.cscrub + 1 ∧ t.mem = s.mem ∧ t.obj = s.obj ∧
     (∀ e ∈ t.ecc, e ∈ s.ecc) ∧ (∀ e ∈ s.ecc, e.2 ≠ 1 → e ∈ t.ecc))) ∧
  (∀ (path : Path) (f sub value : Nat) (s : State) (r : ObjRow),
     let base := if sub = 1 then value else s.o f 0x3040 1
     let count := if sub = 1 then s.o f 0x3040 2 else value
     (s.LetsWrite path f 0x3040 sub none value r → base + count ≤ 65536 →
       (∀ g, s.floatClash f base count = some g →
         exec (.floatRangeWrite path f sub value) s = .next (s.respond path Status.resourceHeld g [])) ∧
       (s.floatClash f base count = none → isMgr f = false → s.present f = false →
         exec (.floatRangeWrite path f sub value) s = .next (s.written (s.setO f 0x3040 sub value) r path f 0x3040 sub value)) ∧
       (s.floatClash f base count = none → isMgr f = true → s.o f 0x3050 5 = 0 → count ≤ s.g 0x3001 8 + s.o f 0x3040 2 →
         exec (.floatRangeWrite path f sub value) s = .next (s.written
           (((s.setG 0x3001 8 (s.g 0x3001 8 + s.o f 0x3040 2 - count)).setO f 0x3040 sub value).zeroFloats base count)
           r path f 0x3040 sub value))) ∧
     (∀ k, s.LetsWrite path 1023 0x6101 (k + 1) none value r →
       exec (.landingZoneSizeWrite path k value) s = .next (s.written (s.setG 0x6101 (k + 1) value) r path 1023 0x6101 (k + 1) value)))


/-! ### Channel cores (10) -/

/-- NOP, HALT, BR, LOOP, LOOPX, BRK, MOVI and MOV: what each does to the thread that issues it. A branch that is not taken costs
one cycle, a taken one two; a repeat that may not open ends the job with OPERATION_UNSUPPORTED; the last HALT ends the job. The
ALU and complex rows: XD takes the result of its row and FLAGS its zero and sign, CMP writes FLAGS alone, the complex rows leave
FLAGS; a shift by 32 or more writes a value that nothing constrains and takes the flags from it (log entry 9). -/
def Obligations.ThreadsRunTheirProgram : Prop :=
  (∀ (cc t : Nat) (x : Thread) (s : State),
     (s.Issues cc t x .nop → exec (.nop cc) s = .next (s.ccPut cc t 1 x.advance)) ∧
     (s.Issues cc t x .halt →
       let u := s.ccOut cc t { x.advance with st := .halted }
       exec (.halt cc) s = .next (if (u.chan cc).threads.all (fun y => decide (y.st = .halted)) then u.ccFinish cc else u)) ∧
     (∀ cond off, s.Issues cc t x (.br cond off) →
       exec (.br cc) s = .next (if x.taken cond then s.ccPut cc t 2 (x.branch (unsgn 18 (x.pc.toNat + 4 * sgn 16 off)))
         else s.ccPut cc t 1 x.advance)) ∧
     (∀ body count, s.Issues cc t x (.loop body count) →
       (∀ y, x.openLoop body count = some y → exec (.loop cc) s = .next (s.ccPut cc t 1 y)) ∧
       (x.openLoop body count = none → exec (.loop cc) s = .next (s.ccEnd cc Status.operationUnsupported))) ∧
     (∀ body r, s.Issues cc t x (.loopx body r) →
       (∀ y, x.openLoop body ((x.xr r).fld 0 16) = some y → exec (.loopx cc) s = .next (s.ccPut cc t 1 y)) ∧
       (x.openLoop body ((x.xr r).fld 0 16) = none → exec (.loopx cc) s = .next (s.ccEnd cc Status.operationUnsupported))) ∧
     (s.Issues cc t x .brk → exec (.brk cc) s = .next (s.ccPut cc t 2 x.breakLoop)) ∧
     (∀ dst part imm, s.Issues cc t x (.movi dst part imm) →
       exec (.movi cc) s = .next (s.ccPut cc t 1 (x.writeReg dst (moviValue (x.readReg 0 t dst) part imm)).advance)) ∧
     (∀ dst src, s.Issues cc t x (.mov dst src) →
       exec (.mov cc) s = .next (s.ccPut cc t 1 (x.writeReg dst (x.readReg (s.chan cc).satc t src)).advance))) ∧
  (∀ (cc t xd xa xb : Nat) (x : Thread) (s : State),
     (∀ row ∈ aluRows, s.Issues cc t x (.alu row.1 xd xa xb) →
       ((5 ≤ row.1 → (x.xr xb).toNat < 32) →
         let v := row.2.2 (x.xr xa) (x.xr xb)
         exec (row.2.1 cc) s = .next (s.ccPut cc t 1 { x.setX xd v with flags := BitVec.ofNat 2 ((v == 0).toNat + 2 * v.msb.toNat) }.advance)) ∧
       (5 ≤ row.1 → 32 ≤ (x.xr xb).toNat →
         let v := BitVec.ofNat 32 (Config.free s.freeCtr)
         exec (row.2.1 cc) s = .next (({ s with freeCtr := s.freeCtr + 1 } : State).ccPut cc t 1
           { x.setX xd v with flags := BitVec.ofNat 2 ((v == 0).toNat + 2 * v.msb.toNat) }.advance))) ∧
     (s.Issues cc t x (.alu 8 xd xa xb) →
       let v := x.xr xa - x.xr xb
       exec (.aluCmp cc) s = .next (s.ccPut cc t 1 { x with flags := BitVec.ofNat 2 ((v == 0).toNat + 2 * v.msb.toNat) }.advance)) ∧
     (∀ row ∈ caluRows, s.Issues cc t x (.calu row.1 xd xa xb) →
       exec (row.2.1 cc) s = .next (s.ccPut cc t 1 (x.setX xd (row.2.2 (x.xr xa) (x.xr xb))).advance)))

/-- LD and ST: a load puts the words at its address in XD and the registers after it, a store writes them there, and both
post-modify An; a store changes no byte but its own, and neither changes another core's memory. -/
def Obligations.LocalLoadsAndStores : Prop :=
  ∀ (cc t xd an mm pmod size disp : Nat) (x : Thread) (s : State), size < 3 →
    let n := 4 * 2 ^ size
    let a := Mem.chan cc + x.ea an (sgn 11 disp) n
    (s.Issues cc t x (.ld xd an mm pmod size disp) →
      let r := s.ccPost x an mm pmod n
      exec (.ld cc) s = .next (r.1.ccPut cc t 1 (r.2.setXs xd (s.rdWords a (2 ^ size))).advance) ∧
      ∀ u, exec (.ld cc) s = .next u → ∀ b, u.rd b = s.rd b) ∧
    (s.Issues cc t x (.st xd an mm pmod size disp) →
      let w := s.wrN a (wordsToBytes (x.xs xd (2 ^ size)))
      let r := w.ccPost x an mm pmod n
      exec (.st cc) s = .next (r.1.ccPut cc t 1 r.2.advance) ∧
      ∀ u, exec (.st cc) s = .next u → (∀ b, (b < a ∨ a + n ≤ b) → u.rd b = s.rd b) ∧
        (∀ i, i < n → u.rd (a + i) = (wordsToBytes (x.xs xd (2 ^ size))).getD i 0))

/-- LDX, LDX_DATA_ARRIVAL, STX, LDF, LDF_REPLY and LDF_WAIT_EXPIRY: a load of the function's memory makes its thread wait until
issue + L_max, and its data then fills the registers; a store issues one piece and goes on; a remote load waits for its reply or for
FWAIT, and a miss gives zeros and is counted. An address outside the grant ends the job with ADDRESS_INVALID. The multiplier instructions:
products of complex 16-bit values added to the 40-bit accumulators, which wrap, with AOV noting a sum that left them; FTAP also
moves the delay line; CLRA clears; STA, STA4 and RDA round, saturate and count what saturated. CHANNEL_CORE_RUN, FILL and DRAIN:
a RUN job starts its threads with cleared accumulators; a FILL issues LEN bytes of IN for local memory and a DRAIN LEN bytes of it for
OUT, in pieces of at most 32 bytes, both with OK and TB_ID; they are counted as jobs completed when their last piece has landed
(log entry 77). -/
def Obligations.ChannelCoresLoadAccumulateAndEnd : Prop :=
  (∀ (cc t : Nat) (x : Thread) (c : Cmd) (s : State), s.ccJob cc = some c →
     (∀ xd en xo pinc size, s.Issues cc t x (.ldx xd en xo pinc size) →
       let n := 4 * 2 ^ size
       let a := (s.chan cc).extAddr x en xo
       let gddr := a.space == 2
       let u := (s.askBlocks { s.readOf c 240 with thread := some (cc, t) } 256 [] s.clock
         (s.blocksAt c.fn (if gddr then (List.range n).map a.plus else []))).1
       ((a.isMem && s.addrOk c.fn a n) = true → exec (.ldx cc) s = .next
         (u.ccOut cc t { (x.pinc xo pinc n).advance with
           st := .waiting, xd := xd, size := n, addr := a.word, due := s.clock + (if gddr then 240 else 20), far := false })) ∧
       ((a.isMem && s.addrOk c.fn a n) = false → exec (.ldx cc) s = .next (s.ccEnd cc Status.addressInvalid))) ∧
     (cc < 32 → t < 4 → s.up = true → (s.chan cc).thread t = x → x.st = .waiting → x.far = false → x.due ≤ s.clock →
       s.reading c.id (some (cc, t)) = false →
       let v := s.asSeen c.id (some (cc, t))
       v.readBad c.fn (devAddr x.addr) x.size = none →
       exec (.ldxDataArrival cc t) s = .next ((s.takeReads c.id (some (cc, t))).setChan cc ((s.chan cc).setThread t
         { x.setXs x.xd (bytesToWords (v.readAt c.fn (devAddr x.addr) x.size)) with st := .ready }))) ∧
     (∀ xd en xo pinc size, s.Issues cc t x (.stx xd en xo pinc size) →
       let n := 4 * 2 ^ size
       let a := (s.chan cc).extAddr x en xo
       (a.isMem && s.addrOk c.fn a n) = true → s.ownedElsewhere c.fn a n = false →
       let p : Piece := { c.piece s.nextId { dst := a.word, flat := s.flat c.fn a 0, data := wordsToBytes (x.xs xd (2 ^ size)) }
         ((s.float12 c).toOption.getD none) with stx := true, due := s.clock + landLatency false a.space }
       exec (.stx cc) s = .next ((({ s with pieces := s.pieces ++ [p], nextId := s.nextId + 1 } : State).addTerm Term.issued n).ccPut
         cc t 1 (x.pinc xo pinc n).advance)) ∧
     (∀ xd en xo pinc, s.Issues cc t x (.ldf xd en xo pinc) →
       let u := s.ccOut cc t { (x.pinc xo pinc 8).advance with
         st := .waiting, xd := xd, size := 8, due := s.clock + (s.chan cc).fwait, far := true }
       (∀ v, u.ccLoad cc t c (x.domainAt xo) = .ok v → exec (.ldf cc) s = .next v) ∧
       (∀ e, u.ccLoad cc t c (x.domainAt xo) = .error e → exec (.ldf cc) s = .next (s.ccEnd cc e))) ∧
     (∀ (a : Await), cc < 32 → t < 4 → s.up = true → s.ccAwait cc t = some a → (s.chan cc).thread t = x → x.st = .waiting →
       x.far = true →
       (∀ data, s.clock ≤ x.due → exec (.ldfReply cc t Status.ok data) s = .next ((s.dropAwait a.id).setChan cc
         (((s.dropAwait a.id).chan cc).setThread t
           { x.setXs x.xd (bytesToWords (takeBytes 8 data)) with st := .ready, far := false }))) ∧
       (x.due ≤ s.clock → exec (.ldfWaitExpiry cc t) s = .next ((s.dropAwait a.id).ccMiss cc t x)) ∧
       (s.clock < x.due → exec (.ldfWaitExpiry cc t) s = .next s))) ∧
  (∀ (cc t k an ab ma mb pa pb conj sub : Nat) (x : Thread) (s : State),
     (s.Issues cc t x (.cmac k an ab ma mb pa pb conj sub) → exec (.cmac cc) s = .next
       ((s.modChan cc (fun c => c.mac k (cProduct (x.xr an) (x.xr ab) (conj == 1) (sub == 1)))).ccPut cc t 1 x.advance)) ∧
     (s.Issues cc t x (.cmac4 k an ab ma mb pa pb conj sub) → exec (.cmac4 cc) s = .next
       ((s.modChan cc (fun c => c.macs k (quadProducts (x.xs (4 * an) 4) (x.xr ab) conj sub))).ccPut cc t 1 x.advance)) ∧
     (s.Issues cc t x (.cmac4m k an ab ma mb pa pb conj sub) →
       exec (.cmac4m cc) s = .next (s.ccTap cc t x false k an ab ma mb pa pb conj sub)) ∧
     (s.Issues cc t x (.ftap k an ab ma mb pa pb conj sub) →
       exec (.ftap cc) s = .next (s.ccTap cc t x true k an ab ma mb pa pb conj sub)) ∧
     (∀ mask, s.Issues cc t x (.clra mask) → exec (.clra cc) s = .next
       ((s.modChan cc (fun c => c.clear ((List.range 8).filter (fun k => fld mask k 1 == 1)))).ccPut cc t 1 x.advance)) ∧
     (∀ mm pm fmt shift rnd clr, s.Issues cc t x (.sta k an mm pm fmt shift rnd clr) →
       exec (.sta cc) s = .next (s.ccStore cc t x [k] an mm pm fmt shift rnd clr)) ∧
     (∀ mm pm fmt shift rnd clr, s.Issues cc t x (.sta4 k an mm pm fmt shift rnd clr) →
       exec (.sta4 cc) s = .next (s.ccStore cc t x (span k 4) an mm pm fmt shift rnd clr)) ∧
     (∀ xd mm pm shift rnd clr, s.Issues cc t x (.rda k xd mm pm shift rnd clr) →
       let r := (s.chan cc).convert [k] 16 shift rnd
       exec (.rda cc) s = .next ((s.modChan cc (fun c => c.stored [k] r.2 clr)).ccPut cc t 1
         (x.setX xd (cPack (r.1.getD 0 0) (r.1.getD 1 0))).advance)) ∧
     (∀ (a b : W32) (conj' sub' : Bool), cProduct a b conj' sub' =
       let q := if conj' then -cQ b else cQ b
       let m : Int := if sub' then -1 else 1
       (m * (cI a * cI b - cQ a * q), m * (cI a * q + cQ a * cI b))) ∧
     (∀ (v : BitVec 40) (d : Int), (accAdd v d).1 = v + BitVec.ofInt 40 d ∧
       ((accAdd v d).2 = true ↔ (v.toInt + d < -(2 ^ 39) ∨ 2 ^ 39 ≤ v.toInt + d)))) ∧
  (∀ (cid : Nat) (c : Cmd) (b : Blk) (float : Option Nat) (s : State), s.Due cid c → c.cls = 9 → calClass c.onEngine = 17 →
     s.openChan c = .ok (b, float) →
     let local' := Mem.chan (calInst c.onEngine) + (wd b 4).toNat
     let done (t : State) : State := (t.did cid Status.ok []).modCmd cid (fun (e : Cmd) => { e with detail := [c.tbId, 0, 0] })
     (s.blkMode c ≠ 1 → s.blkMode c ≠ 2 → (s.chan (calInst c.onEngine)).cid ≠ some cid →
       exec (.channelCoreRun cid) s = .next (s.startRun c b)) ∧
     let pieces (a : DevAddr) (k : Nat × Nat → Part) : List Part := (cuts32 a.off b.len).map k
     (c.asked = none → s.blkMode c = 1 → exec (.channelCoreFill cid) s = .next (done (s.chanPieces c
       (if (c.addr 4).space = 2 then 240 else 20) 0 float
       (pieces (c.addr 4) (fun x => s.partOf c.fn 0 (local' + x.1) ((span x.1 x.2).map (c.addr 4).plus)))))) ∧
     (c.asked = none → s.blkMode c = 2 → exec (.channelCoreDrain cid) s = .next (done (s.chanPieces c
       0 (landLatency false (c.addr 6).space) float
       (pieces (c.addr 6) (fun x => { dst := ((c.addr 6).plus x.1).word, flat := s.flat c.fn (c.addr 6) x.1
                                      data := s.rdN (local' + x.1) x.2 }))))))

/-! ### Fronthaul and time (11) -/

/-- UPLANE_SECTION_RECEIVE, CPLANE_RECEIVE, ECPRI_DELAY_REQUEST_RECEIVE, ECPRI_DELAY_RESPONSE_RECEIVE, STAGING_EXPIRY and the lane
events: a frame that reaches an up port is counted; a section of an active cell is judged by its sequence number and its window, one
of no cell or with a field its cell does not accept is discarded and counted, as C-plane messages are; a frame for an engine out of
service fills the lane's receive queue and is then an overflow; a delay Request is answered with its stamp and the signed ingress
correction, a Response to a Request that was sent gives the one-way delay; staged data whose window closed 10 ms ago is discarded.
-/
def Obligations.FramesAreReceivedAndCounted : Prop :=
  ∀ (lane p : Nat) (s : State), lane < 16 → s.up = true →
    (s.portOfLane lane = some p → s.portUp p = true →
      let t := s.addG 0x4210 (p + 1) 1
      let engine (f : UFrame) : Nat := s.engineFor p f.eaxc
      (∀ (f : UFrame) (c : Nat), s.isFenced (calId 16 (engine f)) = false → f.wellFormed = true → f.ebit = true → f.subseq = 0 →
        s.cellOfFrame p f = some c →
        exec (.uplaneSectionReceive lane f) s = .next (if s.sectionOk c f then t.judgeSection p c f else t.addG 0x4215 (p + 1) 1)) ∧
      (∀ f : UFrame, s.isFenced (calId 16 (engine f)) = false → f.wellFormed = true → f.ebit = true → f.subseq = 0 →
        s.cellOfFrame p f = none → exec (.uplaneSectionReceive lane f) s = .next (t.addG 0x4214 (p + 1) 1)) ∧
      (∀ f : UFrame, s.isFenced (calId 16 (engine f)) = true →
        exec (.uplaneSectionReceive lane f) s = .next (t.overflow (engine f))) ∧
      (s.isFenced (calId 16 p) = false →
        exec (.cplaneReceive lane) s = .next (t.addG 0x4215 (p + 1) 1) ∧
        (∀ m skew, exec (.ecpriDelayRequestReceive lane m skew) s =
          .next ((t.send (.ecpri p m (s.stampAt 0x4203 p skew) (s.oInt 1023 0x4203 (p + 1) 4))).addG 0x4211 (p + 1) 1)) ∧
        (∀ (m t1 t2 : Nat) (tcv1 tcv2 : Int) (e : Nat × Int), s.delaySent.find? (fun e => e.1 == p * 256 + m % 256) = some e →
          exec (.ecpriDelayResponseReceive lane m t1 tcv1 t2 tcv2) s =
            .next (t.setG 0x4220 (p + 1) (m % 256 + unsgn 56 ((t2 : Int) - tcv2 - e.2) * 256))))) ∧
    (let old (x : Filed) : Bool := decide (x.closes + nanos 10000000 ≤ s.time 0)
     exec (.stagingExpiry lane) s = .next ((s.setStage lane ((s.stage lane).filter (fun x => !old x))).addG 0x4216 (lane + 1)
       ((s.stage lane).filter (fun x => old x && !x.moved)).length)) ∧
    exec (.fronthaulLaneDown lane) s = .next (s.setG 0x4202 (lane + 1) 0) ∧
    (s.groupMode lane ≠ 0 → s.g 0x4202 (lane + 1) ≠ 2 → exec (.fronthaulLaneTrained lane) s = .next (s.setG 0x4202 (lane + 1) 2))

/-- DELIVER, UPLANE_TX, CPLANE_TX, RAW_TX and FRAME_DEPART: a job whose checks pass asks for its inputs, and when they have been
presented does its effect and completes with OK and TB_ID; a queued frame leaves inside its window of TB0 with its stamp inserted,
and at or after its window's end is discarded, counted, and late. -/
def Obligations.FronthaulJobsAndFrames : Prop :=
  (∀ (cid : Nat) (c : Cmd) (s : State), s.Due cid c → c.cls = 9 → calClass c.onEngine = 16 →
    let inputs := (s.fhInputs c).filter (fun e => e.2 != 0)
    let seen := s.asSeen cid none
    let done (t : State) : State := State.takeReads
      { (t.did cid Status.ok []).modCmd cid (fun (e : Cmd) => { e with detail := [c.tbId, 0, 0] }) with
        mem := s.mem, garbled := s.garbled, ecc := s.ecc } cid none
    let runs (i : Instr) (k : Cmd → State → Except Refused (State × List Nat)) : Prop :=
      (c.asked = none → inputs ≠ [] → (∀ e, k c s = .error e → e.status = Status.eccUncorrectable) →
        exec i s = .next (s.askInputs c inputs)) ∧
      (∀ due t, c.asked = some due → due ≤ s.clock → s.reading cid none = false → k c seen = .ok (t, []) → exec i s = .next (done t)) ∧
      (∀ due, c.asked = some due → s.clock < due → exec i s = .next s)
    ((s.blkMode c = 0 ∨ 3 < s.blkMode c) → runs (.deliver cid) deliverEffect) ∧
    (s.blkMode c = 1 → runs (.uplaneTx cid) uplaneEffect) ∧
    (s.blkMode c = 2 → runs (.cplaneTx cid) cplaneEffect) ∧
    (s.blkMode c = 3 → runs (.rawTx cid) rawEffect)) ∧
  (∀ (lane p : Nat) (skew : Int) (f : TxFrame) (s : State), lane < 16 → s.up = true → s.portOfLane lane = some p → s.portUp p = true →
    (s.txOf p).find? (fun f => f.window.all (fun w => decide (w.1 ≤ s.time 0))) = some f →
    let t := s.setTx p ((s.txOf p).erase f)
    let stamp := s.stampAt 0x4204 p skew
    let bytes := insertStamp f.insert stamp f.bytes
    ((∀ w, f.window = some w → s.time 0 < w.2) → exec (.frameDepart lane skew) s =
      .next (((t.send (.frame p bytes stamp)).addG 0x4211 (p + 1) 1).noteRequest p f.insert bytes)) ∧
    (∀ w, f.window = some w → w.2 ≤ s.time 0 → exec (.frameDepart lane skew) s =
      .next ((t.addG 0x4217 (p + 1) 1).lateFrame f (calId 16 lane))))

/-- PHASE_MEASUREMENT, REFERENCE_LOSS_TIMEOUT, SERVO_REARM, CROSS_SNAPSHOT, PPS_EDGE, PTM_EXCHANGE, PTP_RECEIVE, SYNC_TRANSMIT and
ESMC_RECEIVE: a base with a reference takes its phase error and steps, steers or enters Holdover, also when its reference is lost,
and not before; the owner re-arms its base; a snapshot takes all four counts at one instant, a PPS event stamp those of TB0 and TB2;
an Announce of the parent at the slave port sets the parent's values, a Delay_Req at a master port is answered with its stamp, and a
master port sends Sync with its stamp while TB0 is Locked or in Holdover. -/
def Obligations.TimeBasesFollowTheirReferences : Prop :=
  (∀ (n : Nat) (error : Int) (s : State), n < 4 → s.up = true → s.hasReference n = true →
    exec (.phaseMeasurement n error) s = .next (s.measure n error)) ∧
  (∀ (n : Nat) (s : State), n < 4 → n ≠ 2 → s.up = true → (n ≠ 1 ∨ s.isMaster = false) →
    (s.servoState n = 2 → s.referenceLost n = true →
      exec (.referenceLossTimeout n) s = .next (if n = 0 ∧ (s.servo.getD 0 {}).heard + nanos announceLimit ≤ s.time 2
        then ({ s with parent := none } : State).holdover n else s.holdover n)) ∧
    (s.referenceLost n = false → exec (.referenceLossTimeout n) s = .next s)) ∧
  (∀ (path : Path) (n : Nat) (s : State) (r : ObjRow), (n = 0 ∨ n = 3) → s.LetsWrite path 1023 (0x4800 + n) 5 none 1 r →
    pathWriter path = some (if n = 0 then s.g 0xA004 1 else 512) → s.servoState n ≠ 2 →
    exec (.servoRearm path n) s = .next (s.written ((s.setG (0x4800 + n) 2 4).setServo n
      (fun x => { x with errs := [], outside := 0 })) r path 1023 (0x4800 + n) 5 1)) ∧
  (∀ (path : Path) (s : State) (r : ObjRow), s.LetsWrite path 1023 0x4804 1 none 1 r →
    exec (.crossSnapshot path) s = .next (s.written ((((s.setG 0x4804 2 (timeWord (s.time 0))).setG 0x4804 3 (timeWord (s.time 1))).setG
      0x4804 4 (timeWord (s.time 2))).setG 0x4804 5 (timeWord (s.time 3))) r path 1023 0x4804 1 1)) ∧
  (∀ s : State, s.up = true → s.g 0xA001 2 = 2 →
    let stamp (t : Nat) : Nat := ((t : Int) - s.oInt 1023 0x4807 2 4).toNat
    exec (.ppsEdge (s.time 0) (s.time 2)) s = .next ((s.setG 0x4804 2 (timeWord (stamp (s.time 0)))).setG 0x4804 4 (timeWord (stamp (s.time 2))))) ∧
  (∀ (master roundTrip : Nat) (s : State), s.up = true → s.ptmOn = true → exec (.ptmExchange master roundTrip) s =
    .next (((s.send .ptm).setServo 3 (fun x => { x with seen := s.time 2 })).measure 3
      ((s.time 3 : Int) - nanos (master + roundTrip / 2)))) ∧
  (∀ (port p : Nat) (msg : PtpMsg) (s : State), port < 16 → s.portOfLane port = some p → s.up = true → s.portUp p = true →
    s.isFenced (calId 16 p) = false → msg.domain = s.g 0x4805 2 →
    let t := s.addG 0x4210 (p + 1) 1
    let stamp := s.stampAt 0x4203 p msg.skew
    (msg.kind = 1 → p = s.g 0x4805 1 → (∀ d, s.parent = some d → d = msg.dataset) →
      exec (.ptpReceive port msg) s = .next (((({ t with parent := some msg.dataset } : State).setServo 0
        (fun x => { x with heard := s.time 2 })).setG 0x4805 3 msg.clockClass).setG 0x4805 4 msg.utcOffset)) ∧
    (msg.kind = 0 → p = s.g 0x4805 1 → s.g 0x4800 3 ≤ 2 →
      exec (.ptpReceive port msg) s = .next (t.setServo 0 (fun x => { x with seen := s.time 2 }))) ∧
    (msg.kind = 3 → s.masterPort p = true →
      exec (.ptpReceive port msg) s = .next ((t.send (.ptp p 2 msg.seq 0 (stamp / 2 ^ 16) (stamp % 2 ^ 16))).addG 0x4211 (p + 1) 1))) ∧
  (∀ (port : Nat) (s : State), port < 16 → s.up = true → s.masterPort port = true → (s.servoState 0 = 2 ∨ s.servoState 0 = 3) →
    let seq := SMap.get (fun _ => 0) s.ptpSeq port
    let stamp := s.stampAt 0x4204 port 0
    exec (.syncTransmit port) s = .next (State.sendAnnounce
      ((({ s with ptpSeq := SMap.set (fun _ => 0) s.ptpSeq port ((seq + 1) % 65536) } : State).send
        (.ptp port 0 seq s.clockClass (stamp / 2 ^ 16) (stamp % 2 ^ 16))).addG 0x4211 (port + 1) 1) port seq)) ∧
  (∀ (lane p quality : Nat) (s : State), lane < 16 → s.portOfLane lane = some p → s.up = true → s.portUp p = true →
    s.isFenced (calId 16 p) = false →
    exec (.esmcReceive lane quality) s = .next (if lane = s.g 0x4806 1 then (s.addG 0x4210 (p + 1) 1).setG 0x4806 2 quality
      else (s.addG 0x4210 (p + 1) 1).addG 0x4215 (p + 1) 1))

/-! ### The fabric (15) -/

/-- LOAD, STORE, the ATOMIC operations, COPY_IN, COPY_OUT, HANDOFF, RELEASE and the trigger as records: with the checks passed the
record does what it does at once and keeps its steps; FABRIC_STEP_ISSUE sends the next step once the pump is free or holds the
record, the step fits, the credits cover it and fewer than 256 packets of its sub-stream are unacknowledged. A reply is a step of its
home function: it goes out on the first fabric pump whose turn is its, debits that function's share and is gone from the queue. -/
def Obligations.FabricRecordsIssueTheirSteps : Prop :=
  (∀ (cid : Nat) (c : Cmd) (s : State), s.Due cid c →
    let runs (i : Instr) : Prop := (∀ t d, fabricEffect c s = .ok (t, d) → exec i s = .next (t.did cid Status.ok d)) ∧
      (∀ e, fabricEffect c s = .error e → exec i s =
        .next ((s.noteBad c e).did cid e.status [e.detail % 2 ^ 32, e.detail / 2 ^ 32 % 2 ^ 32, 0]))
    (c.cls = 6 →
      (c.form = 0 → runs (.fabricLoad cid)) ∧ (c.form = 1 → runs (.fabricStore cid)) ∧ (c.form = 3 → runs (.copyIn cid)) ∧
      (c.form = 4 → runs (.copyOut cid)) ∧ (c.form = 5 → runs (.fabricHandoff cid)) ∧ (c.form = 6 → runs (.fabricRelease cid)) ∧
      (c.form = 2 →
        ((c.w 9).fld 17 3 = 0 → runs (.atomicAdd cid)) ∧ ((c.w 9).fld 17 3 = 1 → runs (.atomicMin cid)) ∧
        ((c.w 9).fld 17 3 = 2 → runs (.atomicMax cid)) ∧ ((c.w 9).fld 17 3 = 3 → runs (.atomicSwap cid)) ∧
        (4 ≤ (c.w 9).fld 17 3 → runs (.atomicCompareSwap cid)))) ∧
    (c.cls = 7 → runs (.remoteProcedureTrigger cid))) ∧
  (∀ (cid l : Nat) (c : Cmd) (o : FabOp) (st : FabStep) (rest : List FabStep) (e : Endpoint) (s : State),
    s.answers.find? (fun h => h.id == cid) = none → s.cmd? cid = some c → fabOpOf c = some o → c.steps = st :: rest → s.endpointDev c.fn o.dev = some e → s.up = true →
    c.phase = .running → c.did = true → c.status = Status.ok →
    (c.engines ≠ [] ∨ ((s.engine c.onEngine).busy = none ∧ (s.engine c.onEngine).hold.all (fun h => h == (c.ctx, c.job)) = true)) →
    s.laneFor o.dev e.fn st.sub = some l →
    s.canSend l (creditClass st.type false) (packetSlots st.type (s.stepPacket c o st e.fn)) o.dev = true →
    s.fitsNow c c.onEngine ((if c.engines.isEmpty then startup 19 else 0) + s.stepLength c o st) = true →
    (s.stream (streamKey c.fn o.dev e.fn st.sub)).unacked.length < 256 →
    exec (.fabricStepIssue cid) s = .next (s.issueStep c o st e.fn ((s.fabFloat c).toOption.getD none))) ∧
  (∀ (id i : Nat) (h : HomeStep) (s : State), s.answers.find? (fun x => x.id == id) = some h → s.up = true → i < 8 →
    s.answerTurn h (calId 19 i) = true → (∀ j, j < i → s.answerTurn h (calId 19 j) = false) →
    exec (.fabricStepIssue id) s = .next (((((({ s with answers := s.answers.filter (fun x => x.id != h.id) } : State).emit h.dev h.type true
      h.packet).debit h.fn 19 (startup 19 + h.len)).served (calId 19 i) h.fn)).noteDemand h.fn (calId 19 i)))

/-- LOAD_REQ, STORE, COPY_REQ, COPY_DATA, ATOMIC, BLOCK, HANDOFF, OWNER_NOTICE and TRIGGER at their home: the next request of a
stream that may touch its region, and whose target takes it now, is applied and acknowledged, one that may not is refused with its
status and acknowledged; what it answers joins the steps of the home function. An earlier one is counted as a duplicate, answered
again from what was kept, and acknowledged. -/
def Obligations.RequestsAreAppliedOnce : Prop :=
  ∀ (p : Packet) (s : State),
    (s.Receives p →
      let t := s.stepped p
      let refusal (status : Nat) : State := (t.refuse p status).ackedRequest p
      (s.homeBusy p p.len = false → ∀ r, s.homeRegion p p.len = .ok r →
        (∀ data, (r.ownedBy p || r.shared) = true → s.homeRead p r p.len = .ok data →
          exec (.loadReq p) s = .next ((t.answer p 0x02 data p.addr r.readLmax).ackedRequest p) ∧
          exec (.copyReq p) s = .next ((t.sendPieces p data r.readLmax (cutsOf (domOff p.addr) p.len)).ackedRequest p)) ∧
        ((r.ownedBy p || r.shared) = false →
          exec (.loadReq p) s = .next (refusal Status.accessDenied) ∧ exec (.copyReq p) s = .next (refusal Status.accessDenied))) ∧
      (s.inboundWaits p p.data.length = false → ∀ r, s.homeRegion p p.data.length = .ok r →
        (∀ u, r.ownedBy p = true → t.homeLand p (s.homeFlat p r) p.data = .ok u →
          exec (.store p) s = .next (u.ackedRequest p) ∧ (p.reply = false → exec (.copyData p) s = .next (u.ackedRequest p))) ∧
        (r.ownedBy p = false → exec (.store p) s = .next (refusal Status.ownershipFault) ∧
          (p.reply = false → exec (.copyData p) s = .next (refusal Status.ownershipFault)))) ∧
      (∀ r data, s.homeRegion p 8 = .ok r → s.atomicFull (s.homeFlat p r / 64) = false → s.homeRead p r 8 = .ok data →
        ((r.ownedBy p || r.atomic) = true → (p.exact && (p.aop == 3 || p.aop == 4) && r.atomic) = false →
          exec (.atomic p) s = .next (({ t.holdSeq p with atomics := s.atomics ++ [(s.homeFlat p r, p)] } : State).ackedRequest p)) ∧
        ((r.ownedBy p || r.atomic) = true → (p.exact && (p.aop == 3 || p.aop == 4) && r.atomic) = true →
          exec (.atomic p) s = .next (refusal Status.multiWriterRejected))) ∧
      (s.inboundWaits p 4096 = false → ∀ r u, s.homeRegion p 4096 = .ok r → r.ownedBy p = true →
        t.writeMarks p (s.homeFlat p r) p.marks = .ok u → exec (.block p) s = .next (u.ackedRequest p)) ∧
      (∀ r, s.homeRegion p 0 = .ok r →
        (r.ownedBy p = false → exec (.handoff p) s = .next (refusal Status.ownershipFault)) ∧
        (r.ownedBy p = true → p.newOwner = s.self →
          exec (.handoff p) s = .next ((t.setRegion p.dstFn { r with dev := s.self, owner := p.dstFn }).ackedRequest p)) ∧
        (∀ e, r.ownedBy p = true → p.newOwner ≠ s.self → s.endpointDev p.dstFn p.newOwner = some e →
          exec (.handoff p) s = .next ((((t.setRegion p.dstFn { r with dev := p.newOwner, owner := e.fn }).holdSeq p).ask
            { id := 0, cid := 0, fn := p.dstFn, dev := p.newOwner, kind := 9, back := some ((packetKey p), p.seq) } 0x09
            { dstFn := e.fn, sub := p.sub, addr := domAddr s.self r.number 0 }).ackedRequest p))) ∧
      (∀ e, s.endpointOf p.dstFn p.src p.srcFn = some e →
        exec (.ownerNotice p) s = .next (((t.landReceipt p.dstFn e (receipt (domRegion p.addr) p.src)).modFn p.dstFn
          (fun (x : Fn) => { x with owned := (x.owned.filter (· != (p.src, domRegion p.addr))) ++ [(p.src, domRegion p.addr)] })).ackedRequest p)) ∧
      (∀ q, s.procOpen p = some q → q.queue.length < q.depth →
        let a : TrigReq := { dev := p.src, fn := p.srcFn, sub := p.sub, seq := p.seq, req := p.req, args := p.data.take 32 }
        exec (.trigger p) s = .next (((t.setProc (fld p.addr 0 16) { q with queue := q.queue ++ [a] }).addO q.fn 0x5050 9 1).ackedRequest p)) ∧
      (s.procOpen p = none → exec (.trigger p) s = .next (refusal Status.triggerUnregistered))) ∧
    (s.up = true → s.domain.declared.contains p.src = false → isFn p.dstFn = true → s.present p.dstFn = true →
      (s.endpointOf p.dstFn p.src p.srcFn).isSome = true → p.seq < (s.stream (packetKey p)).expect →
      (p.seq < (s.stream (packetKey p)).cutFrom ∨ (s.stream (packetKey p)).cut ≤ p.seq) →
      s.homeBusy p p.len = false → s.inboundWaits p p.data.length = false → s.inboundWaits p 4096 = false → p.reply = false →
      (∀ r, s.homeRegion p 8 = .ok r → s.atomicFull (s.homeFlat p r / 64) = false) →
      (∀ q, s.procOpen p = some q → q.queue.length < q.depth) →
      ∀ i ∈ [Instr.loadReq p, .store p, .copyReq p, .copyData p, .atomic p, .block p, .handoff p, .ownerNotice p, .trigger p],
        exec i s = .next ((((s.addG 0x5005 3 1).answerAgain p.dstFn p.src ((s.stream (packetKey p)).kept.filter (fun e => e.1 == p.seq))).acknowledge
          p.dstFn p.src p.srcFn p.sub)))

/-- LOAD_DATA, ATOMIC_RESULT, COPY_DATA, TRIGGER_DONE, ACK, REFUSE and RETIRE at the sender, ATOMIC_LINE_WRITE_BACK,
TRIGGERED_JOB_START and RESEND_TIMEOUT: an answer that is awaited lands and is acknowledged, one that nothing waits for goes to
the sump; RF_ADD is applied once; an ACK frees every packet up to its SEQ; a line's queued operations are applied in arrival
order; packets without an ACK in time are sent again; every packet of a device declared failed is discarded and counted. -/
def Obligations.AnswersReachTheirSenders : Prop :=
  ∀ (p : Packet) (s : State), s.up = true →
    (s.domain.declared.contains p.src = false →
      (∀ a, s.await? p = some a →
        (a.kind = 1 → exec (.loadData p) s = .next ((s.landAnswer a p.data).acknowledgeReply p.dstFn p)) ∧
        (a.kind = 4 → exec (.atomicResult p) s = .next ((s.landAnswer a p.data).acknowledgeReply p.dstFn p)) ∧
        (a.kind = 6 → p.reply = true → exec (.copyData p) s = .next ((s.landAnswer a p.data).acknowledgeReply p.dstFn p)) ∧
        (a.kind = 0x11 → p.reply = true → exec (.copyData p) s = .next ((s.landFetch a p.data).acknowledgeReply p.dstFn p)) ∧
        (a.kind ≠ 9 → a.kind ≠ 0x12 →
          let t := (s.dropAwait a.id).modStream (packetKey p) (fun (x : Stream) => { x with unacked := x.unacked.filter (fun e => e.2.1 != a.id) })
          exec (.refuse p) s = .next ((({ t with triggers := SMap.del a.id t.triggers } : State).refused a.cid p.status).acknowledgeReply p.dstFn p))) ∧
      (s.await? p = none →
        exec (.loadData p) s = .next ((s.issueSump p.data.length).acknowledgeReply p.dstFn p) ∧
        exec (.atomicResult p) s = .next ((s.issueSump p.data.length).acknowledgeReply p.dstFn p) ∧
        exec (.refuse p) s = .next (s.acknowledgeReply p.dstFn p)) ∧
      (∀ k float n, s.triggers.find? (fun e => e.1 == p.req) = some (k, p.dstFn, float, n) →
        exec (.triggerDone p) s = .next ((({ s with triggers := SMap.del p.req s.triggers } : State).addFloat float n).acknowledgeReply p.dstFn p)) ∧
      (p.req ≠ 1 → p.req ≠ 2 →
        exec (.ack p) s = .next ((s.modStream (packetKey p) (fun (y : Stream) =>
          { y with unacked := y.unacked.filter (fun e => decide (p.seq < e.1)), acked := max y.acked p.seq, sentAt := s.tb2us })).ackedAll
          ((s.stream (packetKey p)).unacked.filter (fun e => decide (e.1 ≤ p.seq))))) ∧
      exec (.retire p) s = .next ((s.retireSubs p (List.range 8)).emit p.src 0x0C false
        { src := s.self, srcFn := p.dstFn, dstFn := p.srcFn, req := 2 })) ∧
    (s.domain.declared.contains p.src = true → ∀ i ∈ [Instr.loadData p, .atomicResult p, .triggerDone p, .ack p, .refuse p, .retire p,
        .handoff p, .ownerNotice p],
      exec i s = .next (s.addG 0x5005 4 1)) ∧
    (∀ line, s.atomics.filter (fun e => e.1 / 64 == line) ≠ [] →
      let t := s.applyAtomics (s.atomics.filter (fun e => e.1 / 64 == line))
      exec (.atomicLineWriteBack line) s = .next { t with atomics := t.atomics.filter (fun e => e.1 / 64 != line) }) ∧
    (∀ n q a rest, s.proc n = some q → q.queue = a :: rest → s.resetting q.fn = false → q.active = none →
      (s.ctx q.ctx).fn = q.fn → (s.ctx q.ctx).st ≠ .free → (s.ctx q.ctx).st ≠ .faulted → (s.ctx q.ctx).closed = false →
      (s.ctx q.ctx).openJob = none →
      exec (.triggeredJobStart n) s = .next (((s.setProc n { q with queue := rest, active := some a }).store
        ((s.setProc n { q with queue := rest, active := some a }).flat q.fn (devAddr q.arg) 0) a.args).submitList q n 0 q.count)) ∧
    (∀ f dev sub, f < 514 → dev < 8192 → sub < 8 →
      exec (.resendTimeout f dev sub) s = .next (s.resendStreams ((s.streams.filter (fun e => streamFn e.1 == f && streamDev e.1 == dev &&
        streamSub e.1 == sub && !e.2.unacked.isEmpty && decide (e.2.sentAt + s.g 0x5005 1 ≤ s.tb2us))).map (·.1))))

/-- FABRIC_LANE_DOWN, FABRIC_LANE_TRAINED, LANE_BLOCK_RECEIVE, SESSION_KEYING and LANE_ROLE_WRITE, and the endpoint, region and
procedure controls: a lane that trained joins with its credits, a lane that is lost resends what it carried; a block that cannot
be corrected is asked for again and the eighth in a row takes the lane down; a peer with good identity gets a session. -/
def Obligations.LanesSessionsAndControls : Prop :=
  (∀ (l : Nat) (s : State), l < 64 → s.up = true →
    (s.g 0x5002 (l + 1) ≠ 0 → exec (.fabricLaneDown l) s = .next (s.laneDown l)) ∧
    (s.g 0x5001 (l + 1) ≠ 0 → s.g 0x5002 (l + 1) ≠ 3 →
      let grant := (List.range 4).map Config.laneGrant
      exec (.fabricLaneTrained l true) s = .next ((s.setG 0x5002 (l + 1) 3).setLane l { held := grant, received := grant, peer := grant, buffer := grant }) ∧
      exec (.fabricLaneTrained l false) s = .next ((s.setG 0x5002 (l + 1) 4).addG 0x5005 6 1)) ∧
    (s.g 0x5002 (l + 1) = 3 → ∀ bseq back credits packets,
      (let t := (s.addG 0x5004 (l + 1) 1).setLane l { s.lane l with bad := true, replays := (s.lane l).replays + 1 }
       exec (.laneBlockReceive l .uncorrectable bseq back credits packets) s =
        .next (if 8 ≤ (s.lane l).replays + 1 then t.laneDown l else t)) ∧
      ((s.lane l).expect = bseq →
        exec (.laneBlockReceive l .clean bseq back credits packets) s = .next (s.takeBlock l bseq back credits packets) ∧
        exec (.laneBlockReceive l .corrected bseq back credits packets) s =
          .next ((s.addG 0x5003 (l + 1) 1).takeBlock l bseq back credits packets)) ∧
      ((s.lane l).expect ≠ bseq → exec (.laneBlockReceive l .clean bseq back credits packets) s = .next s))) ∧
  (∀ (dev : Nat) (s : State), dev < 8192 → s.up = true → s.hasSession dev = false → s.sec.delta = false → s.sec.entropyOk = true →
    exec (.sessionKeying dev true) s = .next ((s.setSession dev {}).flushLanes (List.range 64))) ∧
  (∀ (path : Path) (l role : Nat) (s : State) (r : ObjRow), s.LetsWrite path 1023 0x5001 (l + 1) none role r →
    (s.g 0xA007 (l + 1) ≠ 1023 ∨ role = 2 ∨ s.g 0x5012 1 = 0) →
    exec (.laneRoleWrite path l role) s = .next (s.written s r path 1023 0x5001 (l + 1) role)) ∧
  (∀ (path : Path) (f value : Nat) (s t : State) (r : ObjRow),
    (s.LetsWrite path f 0x5020 5 none value r → endpointRule f value r s = .ok t →
      exec (.endpointControlWrite path f value) s = .next (s.written t r path f 0x5020 5 value)) ∧
    (s.LetsWrite path f 0x5030 6 none value r → regionRule f value r s = .ok t →
      exec (.regionControlWrite path f value) s = .next (s.written t r path f 0x5030 6 value)) ∧
    (s.LetsWrite path f 0x5050 7 none value r → procedureRule f value r s = .ok t →
      exec (.procedureControlWrite path f value) s = .next (s.written t r path f 0x5050 7 value)))

/-! ### The domain (16) -/

/-- BEAT_SEND, BEAT, BEAT_ACK, JOIN_RESEND, JOIN, TIME_REQ_SEND, TIME_REQ, TIME_RESP, FENCE_NOTICE and SELF_FENCE: a member
sends its beat and its time request to the master; the master answers a member's, and answers a non-member with a fence notice;
a device with a requested number that no view lists joins again; the master admits a free number and refuses a held or expelled
one, counting it; a fence notice takes the device out of the domain; a member that hears neither master nor partner for
G:0x5011.03 stops its cells at the next frame. -/
def Obligations.MembersBeatJoinAndFence : Prop :=
  ∀ (s : State), s.up = true →
    (s.isMember = true →
      exec .beatSend s = .next (s.domainMsg s.dMaster 1 s.dEpoch (s.g 0x8000 1 + s.g 0x5018 1 * 2 ^ 16) []) ∧
      exec .timeReqSend s = .next (s.domainMsg s.dMaster 7 (s.time 1) 0 []) ∧
      (∀ epoch, epoch < 2 ^ 32 → s.dMaster < 8192 → exec (.beatAck s.dMaster epoch) s = .next (s.mark clockAck)) ∧
      (∀ t1 t2 t3 t4 : Nat, exec (.timeResp t1 t2 t3 t4) s = .next (s.measure 1 ((((t2 : Int) - t1) - ((t4 : Int) - t3)) / 2))) ∧
      (s.domain.stopAt = none → s.elapsed clockAck (s.g 0x5011 3) = true → s.elapsed clockPartner (s.g 0x5011 3) = true →
        exec .selfFence s = .next (s.stopBy (s.frame + 1)))) ∧
    (s.isMaster = true → ∀ d, d < 8192 →
      (∀ epoch score fw, s.inView d = true →
        exec (.beat d epoch score fw) s = .next (if laterMod 32 s.dEpoch epoch
          then ((s.recordBeat d score fw).domainMsg d 2 s.dEpoch 0 []).sendViewTo d
          else (s.recordBeat d score fw).domainMsg d 2 s.dEpoch 0 [])) ∧
      (∀ t1 t2, s.inView d = true → exec (.timeReq d t1 t2) s = .next (s.domainMsg d 8 t2 (s.time 1) (leBytes 12 t1))) ∧
      (s.inView d = false → (∀ epoch score fw, exec (.beat d epoch score fw) s = .next (s.domainMsg d 6 s.dEpoch 0 [])) ∧
        (∀ t1 t2, exec (.timeReq d t1 t2) s = .next (s.domainMsg d 6 s.dEpoch 0 []))) ∧
      (∀ number, number < 8192 →
        ((s.inView number || s.domain.expelled.contains number) = true →
          exec (.join d number true) s = .next ((s.domainMsg d 6 s.dEpoch 0 []).addG 0x5011 6 1)) ∧
        ((s.inView number || s.domain.expelled.contains number) = false →
          exec (.join d number true) s = .next ((s.mark (clockBeat number)).changeView (insertNat number s.domain.members))))) ∧
    (s.wanted ≠ none16 → s.g 0x5010 4 = 1 ∨ s.g 0x5010 4 = 3 → exec .joinResend s = .next s.sendJoin) ∧
    (s.wanted ≠ none16 → s.g 0x5010 4 = 0 → exec .joinResend s = .next (s.setG 0x5010 4 1).sendJoin) ∧
    (∀ epoch, epoch < 2 ^ 32 → s.g 0x5010 4 ≠ 0 → exec (.fenceNotice epoch) s = .next s.enterFenced)

/-- VIEW, VIEW_REPEAT, DECLARE, MISSED_BEATS_DECLARE, STANDBY_PROMOTION, MASTER_LISTEN_EXPIRY, EXPEL, READMIT and
CONFIGURED_MASTER_WRITE: a member takes a later view that lists it and is fenced by one that omits it; a device that asks for a
number takes the view that lists it; the standby keeps the master's records that a view copies to it; the master in force repeats
its view every 100 ms by the next relay, declares a member whose beats were missed, and expels and readmits; the standby that hears
no master names itself; the configured master that hears no view forms the domain alone at epoch 1. -/
def Obligations.ViewsDecideTheDomain : Prop :=
  (∀ (s : State), s.up = true →
    (∀ master standby epoch members copy rearm, master < 8192 → epoch < 2 ^ 32 → (∀ d ∈ members, d < 8192) →
      exec (.view master standby epoch members copy rearm false) s = .next ((s.hearView master epoch members rearm).keepCopy master epoch copy) ∧
      (s.isMember = false → s.isMaster = false → members.contains s.wanted = true →
        s.hearView master epoch members rearm = s.takeView master epoch members) ∧
      (s.isMember = true → laterMod 32 epoch s.dEpoch = true → members.contains s.self = true → master ≠ s.self →
        ∃ t, exec (.view master standby epoch members copy false false) s = .next t ∧ t.g 0x5010 4 = 2 ∧ t.g 0x5010 5 = epoch ∧
          t.g 0x5010 6 = master ∧ t.domain.members = members ∧
          (s.self = s.g 0x5010 2 → s.self < 8192 → t.g 0x5013 2 = copy.spares % 2 ^ 16)) ∧
      (s.isMember = true → laterMod 32 epoch s.dEpoch = true → members.contains s.self = false →
        exec (.view master standby epoch members copy rearm false) s = .next
          ((((s.setG 0x5010 5 epoch).setG 0x5010 6 master).fencePeers
            (s.domain.members.filter (fun d => !members.contains d && d != s.self))).enterFenced))) ∧
    (∀ d cause epoch, d < 8192 → d ≠ s.self → d ≠ s.partner →
      exec (.declare d cause epoch false) s = .next (if laterMod 32 s.dEpoch epoch then s else s.fencePeer d)) ∧
    (∀ d cause epoch, d < 8192 → d ≠ s.self → d = s.partner → s.self ≠ none16 →
      exec (.declare d cause epoch false) s = .next ((s.fencePeer d).acceptTakeover none)) ∧
    (s.isMaster = true →
      (s.elapsed clockView 100000 = true → exec .viewRepeat s =
        .next (({ s with domain := { s.domain with relay := s.domain.relay + 1 } } : State).sendView (s.domain.relay + 1))) ∧
      (∀ d, d < 8192 → s.inView d = true → d ≠ s.self → s.elapsed (clockBeat d) (s.g 0x5011 1 * s.g 0x5011 2) = true →
        exec (.missedBeatsDeclare d) s = .next (s.declareDevice d 0))) ∧
    (s.isMember = true → s.self = s.g 0x5010 2 → s.elapsed clockAck (s.g 0x5011 4) = true →
      exec .standbyPromotion s = .next
        ((s.domain.members.foldl (fun (u : State) d => u.mark (clockBeat d))
          (((s.setG 0x5010 4 4).setG 0x5010 6 s.self).setG 0x4801 2 2)).declareDevice s.dMaster 0)) ∧
    (s.wanted ≠ none16 → s.g 0x5010 1 = s.wanted → s.g 0x5010 4 ≤ 1 → s.dMaster = none16 →
      s.elapsed clockListen (s.g 0x5011 4) = true → exec .masterListenExpiry s = .next (s.takeView s.wanted 1 [s.wanted]))) ∧
  (∀ (path : Path) (d : Nat) (s : State) (r : ObjRow),
    (s.LetsWrite path 1023 0x5013 4 none d r → s.isMaster = true → s.inView d = true → d ≠ s.self →
      let t := (s.setG 0x5013 2 (s.g 0x5013 2 - 1)).declareDevice d 1
      exec (.expel path d) s = .next (s.written { t with domain := { t.domain with
        expelled := if t.domain.expelled.contains d then t.domain.expelled else t.domain.expelled ++ [d] } } r path 1023 0x5013 4 d)) ∧
    (s.LetsWrite path 1023 0x5013 5 none d r → s.isMaster = true → s.domain.expelled.contains d = true →
      exec (.readmit path d) s = .next (s.written (({ s with domain := { s.domain with
        expelled := s.domain.expelled.filter (· != d) } } : State).changeView s.domain.members) r path 1023 0x5013 5 d)) ∧
    (s.LetsWrite path 1023 0x5013 4 none d r → s.isMaster = false →
      exec (.expel path d) s = .next (s.respond path Status.accessDenied 0 [])) ∧
    (s.LetsWrite path 1023 0x5010 1 none d r → r.stored = true →
      exec (.configuredMasterWrite path d) s = .next (s.queueStored path 1023 0x5010 1 d)))

/-- PBEAT_SEND, PBEAT, PARTNER_UNPROTECTED_TIMEOUT, SHIPMENT_START, PSTATE, RELINQUISH, CLAIM, CELLS_STOP and HAND_BACK_WRITE:
a protected device beats on every up partner lane and is protected while it hears its partner, unprotected after 300 us without;
from granule 3,200 it ships its state once a frame in pieces; a piece of the current frame's shipment is taken; a device with an
armed takeover page and standby cells accepts a RELINQUISH for its boundary, one with no armed page refuses it; a CLAIM stops the
cells at its boundary, or at an earlier one (log entry 74), but for the claim of a hand-back, whose own frame stops the cells taken
over; a hand-back names a frame at least three ahead. -/
def Obligations.PartnersShipAndTakeOver : Prop :=
  (∀ (s : State), s.up = true →
    (s.protection = true →
      exec .pbeatSend s = .next (s.onPartnerLanes 9 (s.g 0x5012 2) (s.g 0x5012 7) [] s.upPartners) ∧
      (∀ state frame, state ≤ 4 → frame < 2 ^ 64 → s.g 0x5012 2 = 0 ∨ s.g 0x5012 2 = 2 →
        exec (.pbeat state frame) s = .next ((s.mark clockPartner).setPartner 1)) ∧
      (s.g 0x5012 2 = 0 ∨ s.g 0x5012 2 = 1 → s.elapsed clockPartner 300 = true →
        exec .partnerUnprotectedTimeout s = .next ((s.setPartner 2).raise ErrCode.partnerUnprotected none16 none16 0)) ∧
      (s.upPartners ≠ [] → s.shipCells ≠ [] → 3200 ≤ s.granule → s.g 0x5012 7 ≠ s.frame →
        exec .shipmentStart s = .next ((s.shipPieces s.upPartners s.shipment.length
          (chunksOf 4096 (s.shipment.length / 4096 + 1) s.shipment).zipIdx).setG 0x5012 7 s.frame)) ∧
      (∀ offset total data, data.length ≤ 4096 → 0 < total → total < 2 ^ 32 → offset + data.length ≤ total → s.cycle < seamStart →
        s.domain.rxFrame = s.frame → exec (.pstate s.frame offset total data) s = .next (s.takePiece offset total data))) ∧
    (∀ frame, frame < 2 ^ 64 →
      (s.self ≠ none16 → s.cal.takeoverAt = none → s.g 0x2401 3 = 4 → s.standby ≠ [] →
        exec (.relinquish frame) s = .next (({ s with cal := { s.cal with takeoverAt := some (if s.nextBoundary ≤ frame then frame else s.nextBoundary) } } : State).toPartner 0x0C
            (if s.nextBoundary ≤ frame then frame else s.nextBoundary))) ∧
      (s.self ≠ none16 → s.cal.takeoverAt = none → s.g 0x2401 3 ≠ 4 →
        exec (.relinquish frame) s = .next (s.raise ErrCode.takeoverRefused none16 none16 s.partner)) ∧
      (s.domain.handBack = none → exec (.claim frame) s = .next (s.stopBy frame)) ∧
      (∀ h, s.domain.handBack = some h → exec (.claim frame) s = .next (if h ≤ frame then s else s.stopBy frame))) ∧
    (∀ b, s.domain.stopAt = none → s.domain.handBack = some b → b ≤ s.frame → exec .cellsStop s = .next s.stopHeld) ∧
    (∀ b, s.domain.stopAt = some b → b ≤ s.frame →
      (s.sec.unlocking = false → exec .cellsStop s = .next s.stopCells) ∧
      (s.sec.unlocking = true → exec .cellsStop s = .next s.stopCells.finishUnlock))) ∧
  (∀ (path : Path) (frame : Nat) (s : State) (r : ObjRow), s.LetsWrite path 1023 0x5012 0x0A none frame r →
    (s.g 0x5012 2 = 4 → s.frame + 3 ≤ frame →
      exec (.handBackWrite path frame) s = .next (s.written
        (({ s with domain := { s.domain with handBack := some frame } } : State).toPartner 0x0B frame) r path 1023 0x5012 0x0A frame)) ∧
    (frame < s.frame + 3 → exec (.handBackWrite path frame) s = .next (s.respond path Status.accessDenied 0 [])))

/-- FIRMWARE_DISTRIBUTION_START, CHUNK, BITMAP, PREPARE, VOTE, COMMIT, ABORT and COMMIT_TIMEOUT: the master sends the chunks of an
image to every member; a member that is receiving holds each chunk that comes; missing chunks go again for three rounds, then the
member is missed; a member with a verified copy of that image votes yes, and gives up ten seconds after; a yes voter gets COMMIT, a
missed one ABORT; COMMIT makes the image its boot image in the slot that was not the boot slot; ABORT ends it. -/
def Obligations.FirmwareIsDistributed : Prop :=
  (∀ (path : Path) (length version : Nat) (s : State) (r : ObjRow), s.LetsWrite path 1023 0x5018 7 none length r → s.isMaster = true →
    let t := s.setG 0x5018 7 length
    let t : State := { t with domain := { t.domain with fwCount := cdiv length 65536, fwVersion := version, fwRounds := [], fwDone := [], fwPrepared := false } }
    exec (.firmwareDistributionStart path length version) s = .next (s.written
      ((t.setFwResults 0 t.fwMembers).sendChunks (List.range (cdiv length 65536))) r path 1023 0x5018 7 length)) ∧
  (∀ (s : State), s.up = true →
    (s.isMember = true →
      (∀ index count version verified, count ≤ 1024 → index + 1 < count →
        (s.g 0x5018 1 = 1 → s.g 0x5018 2 = version → s.domain.fwHeld.contains index = false → s.domain.fwHeld.length + 1 < count →
          ∃ t, exec (.chunk index count version verified false) s = .next t ∧ t.domain.fwHeld = insertNat index s.domain.fwHeld ∧
            t.g 0x5018 1 = 1) ∧
        (s.g 0x5018 1 = 0 → ∃ t, exec (.chunk index count version verified false) s = .next t ∧ t.domain.fwHeld = [index] ∧
            t.g 0x5018 1 = 1)) ∧
      (∀ version, (s.g 0x5018 1 = 2 ∨ s.g 0x5018 1 = 3) → s.g 0x5018 2 = version →
        exec (.prepare version false) s = .next (((s.setG 0x5018 1 3).mark clockPrepare).domainMsg ((s.setG 0x5018 1 3).mark clockPrepare).dMaster 0x10 version 1 [])) ∧
      (∀ version, s.g 0x5018 1 ≠ 2 → s.g 0x5018 1 ≠ 3 →
        exec (.prepare version false) s = .next (s.domainMsg s.dMaster 0x10 version 0 []))) ∧
    (s.isMaster = true → ∀ d, d < 8192 → s.inView d = true →
      (∀ held, s.domain.fwDone.contains d = false → s.domain.fwCount ≠ 0 →
        let missing := (List.range s.domain.fwCount).filter (fun i => !held.contains i)
        let rounds := SMap.get (fun _ => 0) s.domain.fwRounds d
        (missing = [] → exec (.bitmap d held) s = .next (s.fwFinish d)) ∧
        (missing ≠ [] → rounds < 3 → exec (.bitmap d held) s = .next
          (({ s with domain := { s.domain with fwRounds := SMap.put d (rounds + 1) s.domain.fwRounds } } : State).resendChunks d missing)) ∧
        (missing ≠ [] → 3 ≤ rounds → exec (.bitmap d held) s = .next ((s.setFwResult d 2).fwFinish d))) ∧
      (s.domain.fwPrepared = true →
        exec (.vote d true) s = .next (s.domainMsg d 0x11 s.domain.fwVersion 0 []) ∧
        (s.g (0x5120 + d % 4096 / 128) (d % 128 + 1) = 2 → exec (.vote d false) s = .next (s.domainMsg d 0x12 s.domain.fwVersion 0 [])))) ∧
    (∀ version, s.g 0x5018 2 = version →
      (s.g 0x5018 1 = 3 →
        let t := (s.setG 0x5018 1 4).storeG 0x9002 1 (1 - s.g 0x9002 1)
        exec (.commit version) s = .next { t with sec := { t.sec with images := SMap.set (fun _ => 0) t.sec.images (1 - s.g 0x9002 1) (version + 1) } }) ∧
      (s.g 0x5018 1 = 1 ∨ s.g 0x5018 1 = 2 ∨ s.g 0x5018 1 = 3 → exec (.abort version) s = .next (s.setG 0x5018 1 5))) ∧
    (s.g 0x5018 1 = 3 → s.elapsed clockPrepare 10000000 = true → exec .commitTimeout s = .next (s.setG 0x5018 1 5)))

/-! ### Tenancy (12) -/

/-- GRANT_CREATE, GRANT_DESTROY, GRANT_COMPONENT_WRITE, FUNCTION_RESET_REQUEST, RETIRE_ACK_TIMEOUT, FUNCTION_RESET_END and
RADIO_OWNER_WRITE: a create takes the components from pools that hold them and makes the function live, with quota exhausted where a
pool does not; a reset or a destroy stops the function's work, a destroy of a function in reset turns that reset into one, and at its
end the function is live again or absent with its components returned; a free radio owner is designated by the manager of the function's port, and given up, while no cell lives and no radio context
is open. -/
def Obligations.GrantsAndFunctionResets : Prop :=
  (∀ (path : Path) (f : Nat) (s : State) (r : ObjRow),
    (s.LetsWrite path f 0x3000 1 none 1 r → f < 512 → s.fnState f = 0 → s.sec.entropyOk = true →
      (s.poolsHold f = true → s.floatClash f (s.o f 0x3040 1) (s.o f 0x3040 2) = none →
        exec (.grantCreate path f) s = .next (s.written ((s.takeGrant f).setFnState f 1) r path f 0x3000 1 1)) ∧
      (s.poolsHold f = false → exec (.grantCreate path f) s = .next (s.respond path Status.quotaExhausted 0 [])) ∧
      (∀ g, s.poolsHold f = true → s.floatClash f (s.o f 0x3040 1) (s.o f 0x3040 2) = some g →
        exec (.grantCreate path f) s = .next (s.respond path Status.resourceHeld g []))) ∧
    (s.LetsWrite path f 0x3000 1 none 1 r → s.fnState f ≠ 0 → exec (.grantCreate path f) s = .next (s.respond path Status.accessDenied 0 [])) ∧
    (s.LetsWrite path f 0x3000 1 none 0 r → f < 512 → s.present f = true → (s.resetting f = true ∨ f ≠ s.radioOwner ∨ s.liveCells = []) →
      exec (.grantDestroy path f) s = .next (s.written (s.beginReset f true) r path f 0x3000 1 0)) ∧
    (s.LetsWrite path f 0x3000 1 none 0 r → s.resetting f = false → f = s.radioOwner → s.liveCells ≠ [] →
      exec (.grantDestroy path f) s = .next (s.respond path Status.accessDenied 0 [])) ∧
    (s.LetsWrite path f 0x3000 2 none 1 r → s.present f = true →
      exec (.functionResetRequest path f) s = .next (s.written (s.beginReset f false) r path f 0x3000 2 1))) ∧
  (∀ (path : Path) (f sub value : Nat) (s : State) (r : ObjRow), s.LetsWrite path f 0x3020 sub none value r → f < 512 →
    (s.present f = false ∨ sub = 3 ∨ sub = 4 → exec (.grantComponentWrite path f sub value) s =
      .next (s.written (s.setO f 0x3020 sub value) r path f 0x3020 sub value)) ∧
    (s.present f = true → sub < 3 ∨ 5 < sub → exec (.grantComponentWrite path f sub value) s =
      .next (s.respond path Status.accessDenied 0 [])) ∧
    (s.present f = true → sub = 5 → value ≤ s.g 0x3001 9 + s.comp f 5 → exec (.grantComponentWrite path f sub value) s =
      .next (s.written ((s.setG 0x3001 9 (s.g 0x3001 9 + s.comp f 5 - value)).setO f 0x3020 5 value) r path f 0x3020 sub value)) ∧
    (s.present f = true → sub = 5 → s.g 0x3001 9 + s.comp f 5 < value → exec (.grantComponentWrite path f sub value) s =
      .next (s.respond path Status.quotaExhausted 0 []))) ∧
  (∀ (f : Nat) (s : State), isFn f = true → s.up = true → s.resetting f = true → (s.fn f).resetStop = true →
    exec (.retireAckTimeout f) s = .next (s.modFn f (fun (x : Fn) => { x with acksLeft := [] })) ∧
    ((s.fn f).acksLeft = [] → (∀ c ∈ s.cmds, c.fn ≠ f) →
      let t := (s.wipeFn f).setO f 0x3000 2 0
      let t : State := { (if t.o f 0x9011 1 = 3 then t.setO f 0x9011 1 0 else t) with
        sec := { t.sec with tdiBound := SMap.del f t.sec.tdiBound } }
      exec (.functionResetEnd f) s =
        .next (if s.fnState f = 3 then t.returnGrant f else if isMgr f then t else t.setFnState f 1))) ∧
  (∀ (path : Path) (value : Nat) (s : State) (r : ObjRow), s.LetsWrite path 1023 0xA005 1 none value r →
    (s.radioOwner = none16 ∨ s.radioOwner = value → value < 512 → s.fnState value = 1 → (pathWriter path = none ∨ pathWriter path = some (mgrOf value)) →
      s.liveCells = [] → (∀ e ∈ s.ctxs, e.2.mode = 2 → e.2.st = .free ∨ e.2.closed = true) →
      exec (.radioOwnerWrite path value) s =
        .next (s.written (if value = s.radioOwner then s else (s.setG 0xA005 1 value).zeroChans) r path 1023 0xA005 1 value)) ∧
    (value = none16 → s.liveCells = [] → (∀ e ∈ s.ctxs, e.2.mode = 2 → e.2.st = .free ∨ e.2.closed = true) →
      exec (.radioOwnerWrite path value) s =
        .next (s.written (if value = s.radioOwner then s else (s.setG 0xA005 1 value).zeroChans) r path 1023 0xA005 1 value)) ∧
    (s.liveCells ≠ [] → value = none16 ∨ s.radioOwner = none16 ∨ s.radioOwner = value →
      exec (.radioOwnerWrite path value) s = .next (s.respond path Status.accessDenied 0 [])) ∧
    (value ≠ none16 → value ≠ s.radioOwner → s.radioOwner ≠ none16 →
      exec (.radioOwnerWrite path value) s = .next (s.respond path Status.resourceHeld s.radioOwner [])))

/-- CORE_ACQUIRE, CORE_RELEASE, PREEMPT_REQUEST, CLAIM_PREEMPTION, SAVE_START, SAVE_DONE and RESTORE_DONE: a core that nobody
holds goes to the first command that needs it, with its saved state restored first; a holder gives back an idle core; at a window
start a claim takes a core whose holder has had it for the lease; a chosen holder's state is saved when its commands have reached
their boundary and nothing more is under way into the well, the core is zeroed and goes to the claimant; a restore brings the
accumulators and the flag planes back, starts the lease and uses the saved state up. -/
def Obligations.CoresPassBetweenFunctions : Prop :=
  (∀ (cid k : Nat) (c : Cmd) (s : State), s.cmd? cid = some c → s.up = true → s.resetting c.fn = false →
    (s.waitsFor c).find? (fun k => s.mayGive c.fn k) = some k →
    (s.savedOn c.fn k = false → exec (.coreAcquire cid) s = .next (s.giveCore c.fn k)) ∧
    (s.savedOn c.fn k = true → exec (.coreAcquire cid) s = .next
      ((((s.zeroCore k).setHolder k c.fn).payMove k).modCore k (fun (x : Core) => { x with restore := some c.fn })))) ∧
  (∀ (path : Path) (f core : Nat) (s : State) (r : ObjRow),
    (s.LetsWrite path f 0x3000 5 none core r → core ≤ 95 →
      (s.coreHolder core = f → s.coreBusy f core = false →
        exec (.coreRelease path f core) s = .next (s.written ((s.vacate core).dropSaved f core) r path f 0x3000 5 core)) ∧
      (s.coreHolder core = f → s.coreBusy f core = true →
        exec (.coreRelease path f core) s = .next (s.respond path Status.accessDenied 0 [])) ∧
      (s.coreHolder core ≠ f → exec (.coreRelease path f core) s = .next (s.written (s.dropSaved f core) r path f 0x3000 5 core))) ∧
    (s.LetsWrite path f 0x3000 3 none 1 r → exec (.preemptRequest path f) s = .next (s.written
      (((List.range 96).filter (fun c => s.coreHolder c == f && (s.pinned c).all (· != f) && !s.exactThread c)).foldl
        (fun (t : State) c => t.choose c none16) s) r path f 0x3000 3 1))) ∧
  (∀ (core : Nat) (s : State), core < 96 → s.up = true →
    (∀ f, s.coreHolder core ≠ none16 → s.coreQuiet core = true → s.pinned core = none → s.exactThread core = false →
      s.energy.began = some s.clock → (s.core core).since + nanos (100000 * s.g 0x3002 1) ≤ s.time 2 → s.bestClaim (s.claimants core) = some f →
      exec (.claimPreemption core) s = .next
        (if s.shareClass f = s.shareClass (s.coreHolder core) ∨
            s.balance (s.shareClass (s.coreHolder core)) 0 < s.balance (s.shareClass f) 0 then
          (s.modCore core (fun (x : Core) => { x with preempt := some (s.coreHolder core, f) })).addG 0x3061 1 1 else s)) ∧
    (∀ g heir, (s.core core).preempt = some (g, heir) →
      ((s.core core).saving = false → (s.core core).restore = none → (∀ c ∈ s.onCore g core, s.atBoundary c = true) →
        s.kvOn g core = false → (s.requeue (s.onCore g core)).wellPieces g core = false →
        let t := s.requeue (s.onCore g core)
        let t : State := { t with ctxs := t.ctxs.map (fun (e : Nat × Ctx) => if takenBy g core e.2 then (e.1, { e.2 with st := .preempted }) else e) }
        exec (.saveStart core) s = .next ((t.payMove core).modCore core (fun (x : Core) => { x with saving := true }))) ∧
      ((s.core core).saving = true →
        let t := s.modCore core (fun (x : Core) =>
          { x with saved := x.saved.filter (fun e => e.fn != g) ++ [s.snapshot g core], preempt := none, saving := false
                   threads := x.threads.map (fun t => t.filter (fun n => (s.ctx n).fn != g)) })
        let t := ((t.zeroCore core).setHolder core none16).addO g 0x3000 6 1
        exec (.saveDone core) s = .next (if isFn heir && t.mayGive heir core then t.grantCore heir core else t))) ∧
    (∀ f v, (s.core core).restore = some f → (s.core core).saved.find? (fun e => e.fn == f) = some v →
      ∃ t, exec (.restoreDone core) s = .next t ∧ (t.core core).restore = none ∧ (t.core core).acc = v.acc ∧
        (t.core core).flags = v.flags ∧ (t.core core).since = s.time 2 ∧ (t.core core).saved = (s.core core).saved.filter (fun e => e.fn != v.fn)))


/-! ### Energy, refresh and fencing (13, 14, 18) -/

/-- ENERGY_WINDOW_START, ENERGY_REPORT, STANDING_RESERVE_RAISE, STANDING_RESERVE_LOWER and POWER_LIMIT_WRITE: at a new window the
share classes, the pending power limit and the thermal level are taken over and E_win is divided; a report adds to the ledgers
and, for an over-spend, to the debt; sixteen over-spends in a row raise the standing reserve, 1,024 windows without one lower it; a
power limit below what is admitted is denied. -/
def Obligations.EnergyWindowsAreDivided : Prop :=
  (∀ (junction : Int) (s : State), s.up = true → s.windowIndex ≠ s.g 0x2000 3 →
    let t := ((((s.adoptClasses.updateShares).setG 0x2000 3 s.windowIndex).adoptEnergy).thermal junction).divide.evaluateAll
    exec (.energyWindowStart junction) s = .next { t with energy := { t.energy with began := some s.clock } }) ∧
  (∀ (window measured : Nat) (s : State) (k e : Nat), s.energy.budgets.find? (fun b => b.1 == window) = some (k, e) →
    s.up = true → window ≠ s.g 0x2000 3 →
    let t := ((((s.addG 0x2002 1 e).addG 0x2002 2 measured).addG 0x2002 3 (e - measured)).addG 0x2002 4 (measured - e)).addG
      0x2001 6 (measured - e)
    (measured ≤ e → exec (.energyReport window measured) s = .next { t with energy := { t.energy with
      budgets := SMap.del window t.energy.budgets, overs := [], calm := t.energy.calm + 1 } }) ∧
    (e < measured → exec (.energyReport window measured) s = .next { t with energy := { t.energy with
      budgets := SMap.del window t.energy.budgets, overs := (measured - e) :: t.energy.overs, calm := 0 } })) ∧
  (∀ (s : State), s.up = true →
    (16 ≤ s.energy.overs.length → exec .standingReserveRaise s = .next { s with energy := { s.energy with
      stdNext := some (s.stdAhead + cdiv (s.energy.overs.take 16).sum 1600 * 100), overs := [], calm := 0 } }) ∧
    (1024 ≤ s.energy.calm → exec .standingReserveLower s = .next { s with energy := { s.energy with
      stdNext := some (max (s.g 0x2001 2) (s.stdAhead - 100)), overs := [], calm := 0 } })) ∧
  (∀ (path : Path) (value : Nat) (s : State) (r : ObjRow), s.LetsWrite path 1023 0x2000 1 none value r → r.stored = true →
    (s.g 0x2001 1 + s.eAdm + s.g 0x2001 4 ≤ 100 * value →
      exec (.powerLimitWrite path value) s = .next (s.queueStored path 1023 0x2000 1 value)) ∧
    (100 * value < s.g 0x2001 1 + s.eAdm + s.g 0x2001 4 →
      exec (.powerLimitWrite path value) s = .next (s.respond path Status.accessDenied 0 [])))

/-- REFRESH_RUN, REFRESH_OWED_TICK, GDDR7_SCRUB and UNIT_FENCE: at the first granule of a run a channel is refreshed eight times,
in compatible mode as often as it owes; the scrubber counts a pair whose blocks decode to corrections and writes it back, reports an
uncorrectable block, and goes on to the next pair; a unit of a class that can be fenced is fenced while the fence list has room. -/
def Obligations.RefreshScrubAndFencing : Prop :=
  (∀ (ch : Nat) (s : State), ch < 64 → s.up = true →
    (s.granule % 125 = 116 → s.inCompatible = false → exec (.refreshRun ch) s = .next (s.addG 0x6007 (ch + 1) 8)) ∧
    (s.granule % 125 = 116 → s.inCompatible = true → 8 ≤ SMap.get (fun _ => 0) s.owed ch →
      exec (.refreshRun ch) s = .next { (s.addG 0x6007 (ch + 1) 8) with
        owed := SMap.set (fun _ => 0) s.owed ch (SMap.get (fun _ => 0) s.owed ch - 8) }) ∧
    (s.granule % 125 = 116 → s.inCompatible = true → SMap.get (fun _ => 0) s.owed ch = 0 → s.runHolds ch s.granule = false →
      ∃ t, exec (.refreshRun ch) s = .next t ∧ t.cal.released = s.cal.released ++ [(calId 21 ch, s.granule)]) ∧
    (s.longSeam = true → exec (.refreshOwedTick ch) s = .next (s.addG 0x6007 (ch + 1) 1)) ∧
    (s.longSeam = false → s.inCompatible = true → exec (.refreshOwedTick ch) s =
      .next { s with owed := SMap.set (fun _ => 0) s.owed ch (SMap.get (fun _ => 0) s.owed ch + 1) }) ∧
    (s.kindNow (calId 21 ch) = 0 →
      let a := pairAddr ch (SMap.get (fun _ => (0, 0)) s.scrub ch).1
      (∀ bits w,
        let o (b : Nat) : Rs.Outcome :=
          a.elim (Rs.decode s.eccMode (Rs.errorOf b bits)) (fun x => s.blockOutcome s.eccMode (x + 64 * b) bits)
        exec (.gddr7Scrub ch bits w) s = .next (s.scrubPair ch a w [(0, o 0), (1, o 1)]) ∧
        (o 0 = .clean → o 1 = .clean → exec (.gddr7Scrub ch bits w) s = .next (s.scrubNext ch 0)) ∧
        ((o 0 = .corrected ∧ o 1 = .clean) ∨ (o 0 = .clean ∧ o 1 = .corrected) →
          exec (.gddr7Scrub ch bits w) s = .next (((s.addG 0x6000 (ch + 1) 1).writeBack ch a w []).scrubNext ch 1)) ∧
        (o 0 = .uncorrectable → o 1 = .clean → exec (.gddr7Scrub ch bits w) s = .next ((s.scrubBad ch a).scrubNext ch 0)) ∧
        (o 0 = .clean → o 1 = .uncorrectable →
          exec (.gddr7Scrub ch bits w) s = .next ((s.scrubBad ch (a.map (· + 64))).scrubNext ch 0))) ∧
      (∀ w x, a = some x → (∀ e ∈ s.ecc, e.1 ≠ x / 64 ∧ e.1 ≠ (x + 64) / 64) →
        exec (.gddr7Scrub ch [] w) s = .next (s.scrubNext ch 0)))) ∧
  (∀ (id : Nat) (s : State), calOk id = true → calClass id < 20 → s.up = true → s.isFenced id = false → s.fenced.length < 254 →
    exec (.unitFence id) s = .next (s.fenceUnit id))

/-! ### The host ports (22) -/

/-- The events of a port and its functions: a link that is lost, a hot reset, PERST_N and a fatal error reset the port, with a
function reset of its manager and its virtual functions; a link that trained is reported; FLR and the leaving of D3hot reset a
function; NumVFs, VF Enable, PTM Enable, vectors and notices are kept; link errors are counted and reported. -/
def Obligations.HostPortsActAndReport : Prop :=
  (∀ (p : Nat) (s : State), p < 2 → s.powered = true →
    (s.linkUp p = true → exec (.pcieLinkDown p) s = .next (s.portReset p) ∧ exec (.hotReset p) s = .next (s.portReset p)) ∧
    exec (.perstAssert p) s = .next ((s.portReset p).setPort p { s.port p with perst := true, vfEnable := false, numVfs := 0, ptm := false }) ∧
    exec (.perstDeassert p) s = .next (s.setPort p { s.port p with perst := false }) ∧
    (∀ speed width, 0 < speed → speed ≤ 5 → 0 < width → width ≤ 16 → (s.port p).perst = false →
      exec (.pcieLinkUp p speed width) s = .next ((s.setG 0x1130 (p + 1) (speed + 16 * width)).setPort p { s.port p with ptm := p == 0 })) ∧
    (∀ num enable, num ≤ 256 →
      exec (.numvfsWrite p num enable) s = .next (s.setPort p { s.port p with numVfs := num, vfEnable := (s.port p).vfEnable || enable })) ∧
    (s.up = true → exec (.pfFlr p) s = .next ((s.clearPort p).resetFns (portFns p))) ∧
    (s.up = true → (s.port p).vfEnable = true →
      exec (.vfEnableClear p) s = .next ((s.setPort p { s.port p with vfEnable := false }).resetFns (span (256 * p) 256))) ∧
    exec (.correctableLinkError p) s = .next ((s.addG 0x1131 (p + 1) 1).send (.aer p (512 + p) 0)) ∧
    exec (.fatalLinkError p) s = .next (((s.addG 0x1132 (p + 1) 1).send (.aer p (512 + p) 2)).portReset p) ∧
    (∀ cid, s.up = true →
      let t := (s.addG 0x1132 (p + 1) 1).send (.aer p (512 + p) 1)
      exec (.hostReadCompletionError p true cid) s =
        .next (({ t with domain := { t.domain with fwCount := 0 } } : State).setG 0x5018 1 5) ∧
      (∀ c, t.StartsFree cid c → isMarker 3 c = true →
        exec (.hostReadCompletionError p false cid) s = .next ((t.startedFree cid c).conclude cid Status.addressInvalid)))) ∧
  (∀ (f : Nat) (s : State), isFn f = true → s.powered = true →
    (s.visible f = true →
      (f < 512 → s.up = true → exec (.vfFlr f) s = .next (s.resetFns [f])) ∧
      exec (.d3hotEntry f) s = .next (s.modFn f (fun (x : Fn) => { x with d3hot := true })) ∧
      (∀ target, target < 3 → exec (.poisonedWrite f target) s =
        .next ((s.addG 0x1132 (portOf f + 1) 1).send (.aer (portOf f) f 1)))) ∧
    ((s.fn f).d3hot = true → s.up = true → exec (.d3hotToD0 f) s = .next (s.resetFns [f])) ∧
    (∀ v, v < vectorsOf f →
      let t := s.modFn f (fun (x : Fn) => { x with msixMask := x.msixMask.filter (· != v), msixPend := x.msixPend.filter (· != v) })
      ((s.fn f).msixPend.contains v = true → exec (.msixUnmask f v) s = .next (t.msix f v)) ∧
      ((s.fn f).msixPend.contains v = false → exec (.msixUnmask f v) s = .next t))) ∧
  (∀ s : State, exec .ptmEnableClear s = .next (s.setPort 0 { s.port 0 with ptm := false })) ∧
  (∀ (path : Path) (f bits : Nat) (s : State) (r : ObjRow), s.LetsWrite path f 0x1120 1 none bits r →
    exec (.noticeClear path f bits) s = .next (s.written
      (s.setO f 0x1120 1 (s.o f 0x1120 1 - (s.o f 0x1120 1 &&& bits))) r path f 0x1120 1 bits))

/-! ### Identity and security (19) -/

/-- The SPDM responder, TDISP and IDE, the fused SVN, the debug unlock and the entropy test: each request that its connection is
ready for is answered, one in a finished session acts, one out of order gets an error; the SVN rises to the running image's where
that is above it; a token that verifies, with no cell live, unlocks, and one that does not is denied and counted; a failure of the
entropy test is a hardware error, and no session key is made before it passes. -/
def Obligations.SecurityCommandsAnswer : Prop :=
  (∀ (t : Nat) (s : State), t < 5 → s.up = true →
    let x := s.spdm t
    exec (.getVersion t) s = .next ((s.setSpdm t { x with version := true, caps := false, negotiated := false, chunkIn := 0, chunkOut := 0 }).send
      (.spdm t SpdmRsp.versionRsp [0x13])) ∧
    (x.version = true → exec (.getCapabilities t) s = .next ((s.setSpdm t { x with caps := true }).send (.spdm t SpdmRsp.capabilities []))) ∧
    (x.caps = true →
      (∀ b, exec (.negotiateAlgorithms t b) s =
        .next ((s.setSpdm t { x with negotiated := b }).send (.spdm t SpdmRsp.algorithms [b.toNat]))) ∧
      (∀ last bytes, exec (.chunkSend t last bytes) s = .next ((s.setSpdm t { x with chunkIn := if last then 0 else x.chunkIn + bytes }).send
        (.spdm t SpdmRsp.chunkSendAck [x.chunkIn + bytes]))) ∧
      (∀ offset, exec (.chunkGet t offset) s =
        .next ((s.setSpdm t { x with chunkOut := offset }).send (.spdm t SpdmRsp.chunkResponse [offset])))) ∧
    (x.negotiated = true →
      exec (.getDigests t) s = .next (s.send (.spdm t SpdmRsp.digests (1 :: (cryptoBytes 8 s.aliasId 64).map (·.toNat)))) ∧
      (∀ offset length, offset < s.chain.length →
        let portion := (s.chain.drop offset).take length
        exec (.getCertificate t 0 offset length) s = .next (s.send (.spdm t SpdmRsp.certificate
          (portion.length :: (s.chain.length - offset - portion.length) :: portion.map (·.toNat))))) ∧
      exec (.challenge t 0) s = .next (s.fresh.2.send (.spdm t SpdmRsp.challengeAuth [0, s.fresh.1])) ∧
      (∀ i, 1 ≤ i → i ≤ 9 →
        exec (.getMeasurements t i false) s = .next (s.send (.spdm t SpdmRsp.measurements (i :: s.measurement i))) ∧
        exec (.getMeasurements t i true) s = .next (s.fresh.2.send (.spdm t SpdmRsp.measurements (i :: s.measurement i ++ [s.fresh.1])))) ∧
      (s.sec.entropyOk = true → x.sessions.length < 4 → exec (.keyExchange t) s = .next
        (((s.setSpdm t { x with sessions := x.sessions ++ [(x.nextId, false)], nextId := x.nextId + 1 }).fresh.2).send
          (.spdm t SpdmRsp.keyExchangeRsp [x.nextId, (s.setSpdm t { x with sessions := x.sessions ++ [(x.nextId, false)], nextId := x.nextId + 1 }).fresh.1]))) ∧
      (s.sec.entropyOk = false → exec (.keyExchange t) s =
        .next ((s.raise ErrCode.other none16 none16 0).send (.spdm t SpdmRsp.error [SpdmErr.unspecified]))) ∧
      (s.sec.entropyOk = true → 4 ≤ x.sessions.length → exec (.keyExchange t) s = .next (s.send (.spdm t SpdmRsp.error [SpdmErr.sessionLimit]))) ∧
      (∀ session, x.sessions.contains (session, false) = true →
        let sessions := x.sessions.map (fun (e : Nat × Bool) => if e.1 = session then (session, true) else e)
        exec (.finish t session true) s = .next ((s.setSpdm t { x with sessions := sessions }).send (.spdm t SpdmRsp.finishRsp [session]))) ∧
      (∀ session, x.sessions.contains (session, true) = true →
        exec (.endSession t session) s = .next ((s.setSpdm t { x with sessions := x.sessions.filter (fun e => e.1 != session) }).send
          (.spdm t SpdmRsp.endSessionAck [session])) ∧
        exec (.heartbeat t session) s = .next (s.send (.spdm t SpdmRsp.heartbeatAck [session])) ∧
        exec (.keyUpdate t session) s = .next (s.send (.spdm t SpdmRsp.keyUpdateAck [session])) ∧
        (t < 2 → ∀ op arg, exec (.vendorDefinedRequest t session 0 op arg) s = .next (s.ideKm t op arg) ∧
          exec (.vendorDefinedRequest t session 1 op arg) s = .next (s.tdisp t op arg)) ∧
        (t < 2 → ∀ f stream, f < 512 → portOf f = t → s.fnState f = 1 → s.o f 0x9011 1 = 0 → stream < 4 →
          let u := (s.setO f 0x9011 1 1).send (.spdm t SpdmRsp.vendorDefined [1, 2, f])
          exec (.lockInterface f t session stream) s = .next { u with sec := { u.sec with tdiBound := SMap.put f (stream + 1) u.sec.tdiBound } }))) ∧
    (x.negotiated = false → exec (.getDigests t) s = .next (s.send (.spdm t SpdmRsp.error [SpdmErr.unexpected])) ∧
      exec (.keyExchange t) s = .next (s.send (.spdm t SpdmRsp.error [SpdmErr.unexpected])))) ∧
  (∀ (path : Path) (s : State) (r : ObjRow), s.LetsWrite path 1023 0x9001 3 none 1 r →
    (s.g 0x9001 1 < s.imageSvn → s.g 0xF000 1 = 0 → s.g 0x5018 1 ≠ 3 → (s.isMaster && s.domain.fwPrepared) = false →
      exec (.svnCommit path) s = .next (s.written
        (({ s with sec := { s.sec with svnRaised := true } } : State).setG 0x9001 1 s.imageSvn).rebuildColophon r path 1023 0x9001 3 1)) ∧
    (s.imageSvn ≤ s.g 0x9001 1 → exec (.svnCommit path) s = .next (s.respond path Status.accessDenied 0 []))) ∧
  (∀ (path : Path) (s : State) (r : ObjRow), s.powered = true → s.gate path = none → s.up = true →
    s.reach path 1023 0xF000 2 = some r → s.hasRight path r 0 = true →
    let t := s.fresh.2.setG 0xF000 2 (s.fresh.1 % 2 ^ 128)
    exec (.unlockNonceRead path) s = .next (({ t with sec := { t.sec with nonceLive := true } } : State).respond path Status.ok 16
      (leBytes 16 (s.fresh.1 % 2 ^ 128)))) ∧
  (∀ (path : Path) (k : UnlockToken) (s : State) (r : ObjRow), s.LetsWrite path 1023 0xF000 3 none 0 r → tokenShaped k = true →
    (s.tokenOk k = true → s.liveCells = [] →
      let t := s.setG 0x5018 1 5
      let t : State := { t with sec := { t.sec with nonceLive := false, unlocking := true, unlockScope := k.scope } }
      exec (.unlockTokenWrite path k) s = .next (s.written t.finishUnlock r path 1023 0xF000 3 0)) ∧
    (s.tokenOk k = false → exec (.unlockTokenWrite path k) s = .next ((s.respond path Status.accessDenied 0 []).addG 0xF000 5 1))) ∧
  (∀ s : State,
    (s.powered = true → exec .entropyFailure s =
      .next (({ s with sec := { s.sec with entropyOk := false } } : State).raise ErrCode.entropy none16 none16 0)) ∧
    exec .entropyTestPass s = .next { s with sec := { s.sec with entropyOk := true } })

/-! ### Modes, power, reset and priming (17, 18, 23) -/

/-- TIMING_MODE_WRITE and TIMING_MODE_CHANGE, the stops, the power and reset pins, the reset requests, RESET_START, COLD_PRIMING
and WARM_PRIMING: a mode is taken over two frames after its commit; a stop leaves its cause in G:0x2004.03; PWR_GOOD and SYS_RESET_N
lead to a cold reset, SYS_RESET_N only while PWR_GOOD is high; a cold reset during priming restarts it at its first step, where a warm
request is denied and a port reset retrains the link alone; a requested reset happens at its boundary, with its source in G:0x7000.04; a priming runs
to its end, which is unusable with its cause where a fatal check failed. -/
def Obligations.PowerResetAndPriming : Prop :=
  (∀ (path : Path) (value : Nat) (s : State) (r : ObjRow), s.LetsWrite path 1023 0x7800 1 none value r → r.stored = true →
    (value = 0 ∨ s.exactOpen = false → exec (.timingModeWrite path value) s = .next (s.queueStored path 1023 0x7800 1 value)) ∧
    (value ≠ 0 → s.exactOpen = true → exec (.timingModeWrite path value) s = .next (s.respond path Status.accessDenied 0 []))) ∧
  (∀ (f : Nat) (s : State), s.up = true → s.modeAt = some f → f ≤ s.frame →
    (s.g 0x7800 1 = s.g 0x7800 2 → exec .timingModeChange s = .next { s with modeAt := none }) ∧
    (s.g 0x7800 1 ≠ s.g 0x7800 2 →
      let t := ((({ s with modeAt := none } : State).setG 0x7800 2 (s.g 0x7800 1)).setG 0x7800 3 s.frame).addG 0x7800 4 1
      exec .timingModeChange s = .next ({ t with owed := [] } : State).rebuildColophon)) ∧
  (∀ (s : State), s.power.good = true →
    (s.power.stopped = false →
      (∀ rail, rail < 8 → ∃ t, exec (.railUndervoltage rail) s = .next t ∧ t.g 0x2004 3 = 2 ∧ t.power.stopped = true) ∧
      (∃ t, exec .serRefclkLoss s = .next t ∧ t.g 0x2004 3 = 3 ∧ t.power.stopped = true)) ∧
    (s.power.aon = true → ∃ t, exec .thermalTrip s = .next t ∧ t.g 0x2004 3 = 1 ∧ t.power.stopped = true ∧ t.power.trip = true) ∧
    exec .pwrGoodFall s = .next (({ s with power := { s.power with good := false } } : State).coldReset 0) ∧
    exec .sysResetNAssert s = .next { s with power := { s.power with sysrst := true, spiHigh := true } } ∧
    (s.power.sysrst = true →
      exec .sysResetNDeassert s = .next (({ s with power := { s.power with sysrst := false } } : State).coldReset 1))) ∧
  (∀ (s : State),
    (s.power.good = false → s.power.aon = true → s.power.io18 = true →
      exec .pwrGoodRise s = .next (({ s with power := { s.power with good := true } } : State).coldReset 0)) ∧
    (s.power.good = false → exec .sysResetNAssert s = .next s ∧
      (s.power.sysrst = true → exec .sysResetNDeassert s = .next { s with power := { s.power with sysrst := false } })) ∧
    exec .vddIo18InTolerance s = .next { s with power := { s.power with aon := true, io18 := true } } ∧
    ∃ t, exec .vddAonLoss s = .next t ∧ t.g 0x2004 3 = 0 ∧ t.power.good = false ∧ t.power.aon = false) ∧
  (∀ (path : Path) (s : State) (r : ObjRow),
    (s.LetsWrite path 1023 0x7000 2 none 1 r → s.up = true → exec (.resetRequestWarm path) s =
      .next (s.written (s.requestReset 1 (resetSource path)) r path 1023 0x7000 2 1)) ∧
    (s.LetsWrite path 1023 0x7000 2 none 2 r →
      (s.up = true → exec (.resetRequestCold path) s = .next (s.written (s.requestReset 2 (resetSource path)) r path 1023 0x7000 2 2)) ∧
      (s.up = false → exec (.resetRequestCold path) s = .next (s.written (s.coldReset (resetSource path)) r path 1023 0x7000 2 2)))) ∧
  (∀ (path : Path) (source p : Nat) (s : State), s.powered = true → s.up = false →
    (s.coldReset source).g 0x7000 1 = 0 ∧ (s.coldReset source).power.warm = false ∧
    (s.gate path = none → exec (.resetRequestWarm path) s = .next (s.respond path Status.accessDenied 0 [])) ∧
    (p < 2 → s.linkUp p = true → exec (.hotReset p) s = .next ((s.dropLink p).clearPort p))) ∧
  (∀ (s : State) (source b : Nat), s.up = true → b ≤ s.frame → source ≤ 4 →
    (s.power.request = some (1, source, b) →
      ∃ t, exec .resetStart s = .next t ∧ t.g 0x7000 3 = 1 ∧ t.g 0x7000 4 = source ∧ t.tb = s.tb ∧ t.mem = []) ∧
    (s.power.request = some (2, source, b) →
      ∃ t, exec .resetStart s = .next t ∧ t.g 0x7000 3 = 0 ∧ t.g 0x7000 4 = source ∧ t.tb = State.reset.tb ∧ t.mem = [])) ∧
  (∀ (r : PrimeResult) (s : State), r.imageCheck ≤ 5 → r.imageSvn ≤ 64 → s.priming = true →
    (s.power.warm = false → exec (.coldPriming r) s = .next (s.prime r false)) ∧
    (s.power.warm = true → exec (.warmPriming r) s = .next (s.prime r true)) ∧
    (∀ n, s.unusableCause r = n → n ≠ 0 →
      (s.power.warm = false → ∃ t, exec (.coldPriming r) s = .next t ∧ t.g 0x7000 1 = 7 ∧ t.g 0x7000 9 = n) ∧
      (s.power.warm = true → ∃ t, exec (.warmPriming r) s = .next t ∧ t.g 0x7000 1 = 7 ∧ t.g 0x7000 9 = n)))
end

