-- ==== Sys2Proof/Laws/Dict.lean ====
section
/-!
SUPPORT. The tables of the object dictionary: the upper bytes under which a table is listed are those of its rows.
-/

namespace Sys2Proof

/-- The upper bytes of the first and the last index of a row, and all between. -/
def ObjRow.uppers (r : ObjRow) : List Nat :=
  let a := r.index / 256
  (List.range ((r.index + (r.count - 1) * r.stride) / 256 - a + 1)).map (a + ·)

/-- No row is hidden by the upper bytes of its table, and every row has a stride. -/
theorem Dict.tables_uppers :
    (Dict.tables.all (fun t => t.2.all (fun r => r.uppers.all t.1.contains && r.stride != 0))) = true := by decide +kernel

theorem ObjRow.index_of_covers {r : ObjRow} {index sub : Nat} (h : r.covers index sub = true) :
    r.index ≤ index ∧ (r.stride ≠ 0 → index ≤ r.index + (r.count - 1) * r.stride) := by
  simp only [ObjRow.covers, Bool.and_eq_true, decide_eq_true_eq, beq_iff_eq] at h
  obtain ⟨⟨⟨⟨_, _⟩, h1⟩, h2⟩, h3⟩ := h
  refine ⟨h1, fun hs => ?_⟩
  have h4 : (index - r.index) / r.stride ≤ r.count - 1 := by omega
  have h5 : (index - r.index) / r.stride * r.stride = index - r.index := Nat.div_mul_cancel (Nat.dvd_of_mod_eq_zero h3)
  have h6 := Nat.mul_le_mul_right r.stride h4
  omega

/-- A row that covers an index stands under the index's upper byte: `Dict.find` misses no row of `Dict.rows`. -/
theorem Dict.mem_rowsAt {r : ObjRow} {index sub : Nat} (hr : r ∈ Dict.rows) (h : r.covers index sub = true) :
    r ∈ Dict.rowsAt index := by
  obtain ⟨t, ht, hrt⟩ := List.mem_flatMap.1 hr
  have hu := List.all_eq_true.1 (List.all_eq_true.1 Dict.tables_uppers t ht) r hrt
  simp only [Bool.and_eq_true, bne_iff_ne] at hu
  obtain ⟨hu, hs⟩ := hu
  obtain ⟨h1, h2⟩ := ObjRow.index_of_covers h
  have h2 := h2 hs
  refine List.mem_flatMap.2 ⟨t, List.mem_filter.2 ⟨ht, ?_⟩, hrt⟩
  refine List.all_eq_true.1 hu _ (List.mem_map.2 ⟨index / 256 - r.index / 256, List.mem_range.2 ?_, ?_⟩)
  · have := Nat.div_le_div_right (c := 256) h2
    omega
  · have := Nat.div_le_div_right (c := 256) h1
    omega

end Sys2Proof
end

