-- ==== Sys2Proof/Laws/SMap.lean ====
section
/-!
SUPPORT. The laws of the sparse maps: what a read gives after a write, after a removal and after a filter, and that each keeps
the canonical form.
-/

namespace Sys2Proof

variable {α : Type}

/-- Every key of a map is above a bound. -/
def SMap.above (k : Nat) (m : SMap α) : Prop := ∀ e ∈ m, k < e.1

theorem SMap.rising_cons {j : Nat} {v : α} {m : SMap α} :
    SMap.rising ((j, v) :: m) = true ↔ SMap.above j m ∧ SMap.rising m = true := by
  simp [SMap.rising, SMap.above, List.all_eq_true]

theorem SMap.get_above {d : Nat → α} {k : Nat} {m : SMap α} (h : SMap.above k m) : SMap.get d m k = d k := by
  induction m with
  | nil => rfl
  | cons e m ih =>
    obtain ⟨j, v⟩ := e
    have h1 : k < j := h (j, v) (by simp)
    have h2 : SMap.above k m := fun e he => h e (by simp [he])
    simp [SMap.get, Nat.ne_of_gt h1, ih h2]

@[simp] theorem SMap.get_nil {d : Nat → α} (k : Nat) : SMap.get d ([] : SMap α) k = d k := rfl

/-- A read after a write of the same key. -/
@[simp] theorem SMap.get_put_same {d : Nat → α} (m : SMap α) (k : Nat) (v : α) : SMap.get d (SMap.put k v m) k = v := by
  induction m with
  | nil => simp [SMap.put, SMap.get]
  | cons e m ih =>
    obtain ⟨j, w⟩ := e
    simp only [SMap.put]
    split
    · simp [SMap.get]
    · split
      · simp [SMap.get]
      · rename_i h1 h2
        have : j ≠ k := fun e => h2 e.symm
        simp [SMap.get, this, ih]

/-- A write leaves every other key alone. -/
theorem SMap.get_put_other {d : Nat → α} (m : SMap α) {k j : Nat} (v : α) (h : j ≠ k) :
    SMap.get d (SMap.put k v m) j = SMap.get d m j := by
  induction m with
  | nil => simp [SMap.put, SMap.get, Ne.symm h]
  | cons e m ih =>
    obtain ⟨i, w⟩ := e
    simp only [SMap.put]
    split
    · simp [SMap.get, Ne.symm h]
    · split
      · rename_i h1 h2; subst h2
        simp [SMap.get, Ne.symm h]
      · simp [SMap.get, ih]

@[simp] theorem SMap.get_del_same {d : Nat → α} (m : SMap α) (k : Nat) : SMap.get d (SMap.del k m) k = d k := by
  induction m with
  | nil => rfl
  | cons e m ih =>
    obtain ⟨j, w⟩ := e
    simp only [SMap.del]
    split
    · exact ih
    · rename_i h; simp [SMap.get, h, ih]

theorem SMap.get_del_other {d : Nat → α} (m : SMap α) {k j : Nat} (h : j ≠ k) :
    SMap.get d (SMap.del k m) j = SMap.get d m j := by
  induction m with
  | nil => rfl
  | cons e m ih =>
    obtain ⟨i, w⟩ := e
    simp only [SMap.del]
    split
    · rename_i h1; subst h1
      simp [SMap.get, Ne.symm h, ih]
    · simp [SMap.get, ih]

/-- A read after a write of the same key, with the default written too. -/
@[simp] theorem SMap.get_set_same [DecidableEq α] {d : Nat → α} (m : SMap α) (k : Nat) (v : α) :
    SMap.get d (SMap.set d m k v) k = v := by
  unfold SMap.set
  split
  · rename_i h; simp [h]
  · simp

theorem SMap.get_set_other [DecidableEq α] {d : Nat → α} (m : SMap α) {k j : Nat} (v : α) (h : j ≠ k) :
    SMap.get d (SMap.set d m k v) j = SMap.get d m j := by
  unfold SMap.set
  split
  · exact SMap.get_del_other m h
  · exact SMap.get_put_other m v h

theorem SMap.mem_put {k : Nat} {v : α} {m : SMap α} {e : Nat × α} (h : e ∈ SMap.put k v m) : e = (k, v) ∨ e ∈ m := by
  induction m with
  | nil => simp [SMap.put] at h; exact .inl h
  | cons a m ih =>
    obtain ⟨j, w⟩ := a
    simp only [SMap.put] at h
    split at h
    · simpa using h
    · split at h
      · rcases List.mem_cons.1 h with h | h
        · exact .inl h
        · exact .inr (by simp [h])
      · rcases List.mem_cons.1 h with h | h
        · exact .inr (by simp [h])
        · rcases ih h with h | h
          · exact .inl h
          · exact .inr (by simp [h])

theorem SMap.mem_del {k : Nat} {m : SMap α} {e : Nat × α} (h : e ∈ SMap.del k m) : e ∈ m := by
  induction m with
  | nil => exact h
  | cons a m ih =>
    obtain ⟨j, w⟩ := a
    simp only [SMap.del] at h
    split at h
    · exact List.mem_cons_of_mem _ (ih h)
    · rcases List.mem_cons.1 h with h | h
      · simp [h]
      · exact List.mem_cons_of_mem _ (ih h)

theorem SMap.rising_put {k : Nat} {v : α} {m : SMap α} (h : SMap.rising m = true) : SMap.rising (SMap.put k v m) = true := by
  induction m with
  | nil => simp [SMap.put, SMap.rising]
  | cons a m ih =>
    obtain ⟨j, w⟩ := a
    obtain ⟨h1, h2⟩ := SMap.rising_cons.1 h
    simp only [SMap.put]
    split
    · rename_i hk
      refine SMap.rising_cons.2 ⟨?_, h⟩
      intro e he
      rcases List.mem_cons.1 he with he | he
      · rw [he]; exact hk
      · exact Nat.lt_trans hk (h1 e he)
    · split
      · rename_i hk; subst hk
        exact SMap.rising_cons.2 ⟨h1, h2⟩
      · rename_i a b
        refine SMap.rising_cons.2 ⟨?_, ih h2⟩
        intro e he
        rcases SMap.mem_put he with he | he
        · rw [he]; simp only; omega
        · exact h1 e he

theorem SMap.rising_del {k : Nat} {m : SMap α} (h : SMap.rising m = true) : SMap.rising (SMap.del k m) = true := by
  induction m with
  | nil => rfl
  | cons a m ih =>
    obtain ⟨j, w⟩ := a
    obtain ⟨h1, h2⟩ := SMap.rising_cons.1 h
    simp only [SMap.del]
    split
    · exact ih h2
    · exact SMap.rising_cons.2 ⟨fun e he => h1 e (SMap.mem_del he), ih h2⟩

theorem SMap.rising_filter {p : Nat × α → Bool} {m : SMap α} (h : SMap.rising m = true) : SMap.rising (List.filter p m) = true := by
  induction m with
  | nil => rfl
  | cons a m ih =>
    obtain ⟨j, w⟩ := a
    obtain ⟨h1, h2⟩ := SMap.rising_cons.1 h
    simp only [List.filter]
    split
    · exact SMap.rising_cons.2 ⟨fun e he => h1 e (List.mem_filter.1 he).1, ih h2⟩
    · exact ih h2

theorem SMap.wf_iff [DecidableEq α] {d : Nat → α} {m : SMap α} :
    SMap.wf d m = true ↔ SMap.rising m = true ∧ ∀ e ∈ m, e.2 ≠ d e.1 := by
  simp [SMap.wf, List.all_eq_true]

@[simp] theorem SMap.wf_nil [DecidableEq α] {d : Nat → α} : SMap.wf d ([] : SMap α) = true := by
  simp [SMap.wf_iff, SMap.rising]

/-- A write keeps the canonical form. -/
theorem SMap.wf_set [DecidableEq α] {d : Nat → α} {m : SMap α} (k : Nat) (v : α) (h : SMap.wf d m = true) :
    SMap.wf d (SMap.set d m k v) = true := by
  obtain ⟨h1, h2⟩ := SMap.wf_iff.1 h
  unfold SMap.set
  split
  · exact SMap.wf_iff.2 ⟨SMap.rising_del h1, fun e he => h2 e (SMap.mem_del he)⟩
  · rename_i hv
    refine SMap.wf_iff.2 ⟨SMap.rising_put h1, fun e he => ?_⟩
    rcases SMap.mem_put he with he | he
    · rw [he]; exact hv
    · exact h2 e he

/-- Dropping entries keeps the canonical form. -/
theorem SMap.wf_filter [DecidableEq α] {d : Nat → α} {m : SMap α} (p : Nat × α → Bool) (h : SMap.wf d m = true) :
    SMap.wf d (List.filter p m) = true := by
  obtain ⟨h1, h2⟩ := SMap.wf_iff.1 h
  exact SMap.wf_iff.2 ⟨SMap.rising_filter h1, fun e he => h2 e (List.mem_filter.1 he).1⟩

/-- The canonical form depends on the defaults of the listed keys only. -/
theorem SMap.wf_dflt [DecidableEq α] {d d' : Nat → α} {m : SMap α} (hd : ∀ e ∈ m, d' e.1 = d e.1) (h : SMap.wf d m = true) :
    SMap.wf d' m = true := by
  obtain ⟨h1, h2⟩ := SMap.wf_iff.1 h
  exact SMap.wf_iff.2 ⟨h1, fun e he => by rw [hd e he]; exact h2 e he⟩

/-- Writes in a row keep the canonical form. -/
theorem SMap.wf_foldl [DecidableEq α] {d : Nat → α} (l : List (Nat × α)) : ∀ m : SMap α, SMap.wf d m = true →
    SMap.wf d (l.foldl (fun (m : SMap α) e => SMap.set d m e.1 e.2) m) = true := by
  induction l with
  | nil => intro m h; exact h
  | cons e l ih => intro m h; exact ih _ (SMap.wf_set _ _ h)

end Sys2Proof
end

