-- ==== Sys2Proof/Laws/Kept.lean ====
section
/-!
SUPPORT. What no operation of the model ever does: touch the queue, or take a sparse store out of its canonical form. `Kept s t`
says it of two states; the lemmas below carry it through the ways in which operations are built.
-/

namespace Sys2Proof.Machine

/-- t has the queue of s, and the canonical form of its stores follows from that of s. -/
structure Kept (s t : State) : Prop where
  pending : t.pending = s.pending
  canon   : s.Canonical → t.Canonical

theorem Kept.rfl {s : State} : Kept s s := ⟨Eq.refl _, id⟩

theorem Kept.trans {s t u : State} (h : Kept s t) (k : Kept t u) : Kept s u :=
  ⟨k.pending.trans h.pending, fun c => k.canon (h.canon c)⟩

/-- A change of fields other than the queue and the stores. -/
theorem Kept.upd {s t u : State} (hp : u.pending = t.pending) (hm : u.mem = t.mem) (hg : u.garbled = t.garbled)
    (ho : u.obj = t.obj) (hf : u.floats = t.floats) (h : Kept s t) : Kept s u := by
  refine ⟨hp.trans h.pending, fun c => ?_⟩
  have k := h.canon c
  exact ⟨by have := k.mem; simpa [Memory.wf, hm, hg] using this, by rw [ho]; exact k.obj, by rw [hf]; exact k.floats⟩

/-- The same for a state whose fields are written out. -/
theorem Kept.fields {s t : State} {x_obj : SMap Nat} {x_mem : SMap Byte} {x_garbled : SMap Nat} {x_ecc : SMap Nat}
    {x_floats : SMap W64} {x_fAdds : SMap Nat} {x_fSets : SMap Nat} {x_cycle : Nat} {x_clock : Nat} {x_tb : List Nat}
    {x_servo : List Servo} {x_tb0Ready : Bool} {x_cal : Cal} {x_ctxs : SMap Ctx} {x_fns : SMap Fn} {x_cmds : List Cmd}
    {x_nextId : Nat} {x_retired : List Nat} {x_engines : SMap Engine} {x_pieces : List Piece} {x_reads : List ReadReq}
    {x_cores : SMap Core} {x_chans : SMap ChanCore} {x_cellsAt : SMap Nat} {x_recs : List (Nat × Nat × Nat × Nat)} {x_inCal
    : List Nat} {x_standby : List Nat} {x_tracks : SMap (Nat × Nat)} {x_failedTb : List (Nat × Nat)} {x_staging : SMap (List
    Filed)} {x_txq : SMap (List TxFrame)} {x_seqRx : SMap Nat} {x_seqTx : SMap Nat} {x_ptpSeq : SMap Nat} {x_parent : Option
    (List Nat)} {x_rxHeld : SMap Nat} {x_delaySent : SMap Int} {x_energy : Energy} {x_modeAt : Option Nat} {x_eccMode : Nat}
    {x_owed : SMap Nat} {x_scrub : SMap (Nat × Nat)} {x_cscrub : Nat} {x_lanes : SMap Lane} {x_sessions : SMap Session}
    {x_streams : SMap Stream} {x_awaits : List Await} {x_answers : List HomeStep} {x_atomics : List (Nat × Packet)} {x_procs
    : SMap Proc} {x_triggers : SMap (Nat × Nat × Nat)} {x_domain : Domain} {x_sec : Sec} {x_latches : List (Path × Nat × Nat
    × List Byte)} {x_vdmEid : SMap Nat} {x_healthAt : Nat} {x_wdog : SMap Nat} {x_hourly : List Nat} {x_minutely : List Nat}
    {x_logNext : Nat} {x_debits : SMap Nat} {x_harvest : List Nat} {x_badPhys : List Nat} {x_fenced : List (Nat × Nat)}
    {x_ports : SMap Port} {x_host : SMap Byte} {x_power : Power} {x_out : List Out} {x_pending : List Instr} {x_freeCtr :
    Nat} (hp : x_pending = t.pending) (hm : x_mem = t.mem) (hg : x_garbled = t.garbled) (ho : x_obj = t.obj) (hf : x_floats
    = t.floats) (h : Kept s t) : Kept s (State.mk x_obj x_mem x_garbled x_ecc x_floats x_fAdds x_fSets x_cycle x_clock x_tb
    x_servo x_tb0Ready x_cal x_ctxs x_fns x_cmds x_nextId x_retired x_engines x_pieces x_reads x_cores x_chans x_cellsAt
    x_recs x_inCal x_standby x_tracks x_failedTb x_staging x_txq x_seqRx x_seqTx x_ptpSeq x_parent x_rxHeld x_delaySent
    x_energy x_modeAt x_eccMode x_owed x_scrub x_cscrub x_lanes x_sessions x_streams x_awaits x_answers x_atomics x_procs
    x_triggers x_domain x_sec x_latches x_vdmEid x_healthAt x_wdog x_hourly x_minutely x_logNext x_debits x_harvest
    x_badPhys x_fenced x_ports x_host x_power x_out x_pending x_freeCtr) :=
  Kept.upd hp hm hg ho hf h

theorem Kept.cond {s t u : State} {c : Prop} [Decidable c] (h : Kept s t) (k : Kept s u) :
    Kept s (if c then t else u) := by
  split <;> assumption

theorem Kept.foldl {α : Type} {s : State} {f : State → α → State} (l : List α)
    (h : ∀ t x, Kept s t → Kept s (f t x)) : ∀ t, Kept s t → Kept s (l.foldl f t) := by
  induction l with
  | nil => intro t k; exact k
  | cons x xs ih => intro t k; exact ih _ (h _ _ k)

theorem Kept.elim {α : Type} {s d : State} {f : α → State} (o : Option α) (h : Kept s d) (k : ∀ x, Kept s (f x)) :
    Kept s (o.elim d f) := by
  cases o with
  | none => exact h
  | some x => exact k x

/-- The state that a check answers, if it answers one. -/
def KeptE {ε : Type} (s : State) (e : Except ε State) : Prop := ∀ t, e = .ok t → Kept s t

theorem KeptE.get {ε : Type} {s t : State} {e : Except ε State} (h : KeptE s e) (k : e = .ok t) : Kept s t := h t k
theorem KeptE.ok {ε : Type} {s t : State} (h : Kept s t) : KeptE (ε := ε) s (.ok t) := by
  intro u e; cases e; exact h
theorem KeptE.error {ε : Type} {s : State} {e : ε} : KeptE s (.error e) := by
  intro u h; cases h
theorem KeptE.bind {ε α : Type} {s : State} {x : Except ε α} {f : α → Except ε State} (h : ∀ a, KeptE s (f a)) :
    KeptE s (x >>= f) := by
  intro u k
  cases x with
  | error e => cases k
  | ok a => exact h a u k
theorem KeptE.bindS {ε : Type} {s : State} {x : Except ε State} {f : State → Except ε State} (hx : KeptE s x)
    (h : ∀ t, Kept s t → KeptE s (f t)) : KeptE s (x >>= f) := by
  intro u k
  cases x with
  | error e => cases k
  | ok a => exact h a (hx a (Eq.refl _)) u k

/-- The state that a command's effect answers beside its detail words. -/
def KeptP {α ε : Type} (s : State) (e : Except ε (State × α)) : Prop := ∀ p, e = .ok p → Kept s p.1

theorem KeptP.get {α ε : Type} {s : State} {p : State × α} {e : Except ε (State × α)} (h : KeptP s e) (k : e = .ok p) :
    Kept s p.1 := h p k
theorem KeptP.ok {α ε : Type} {s : State} {p : State × α} (h : Kept s p.1) : KeptP (ε := ε) s (.ok p) := by
  intro u e; cases e; exact h
theorem KeptP.error {α ε : Type} {s : State} {e : ε} : KeptP (α := α) s (.error e) := by
  intro u h; cases h
theorem KeptP.bind {α β ε : Type} {s : State} {x : Except ε β} {f : β → Except ε (State × α)} (h : ∀ a, KeptP s (f a)) :
    KeptP s (x >>= f) := by
  intro u k
  cases x with
  | error e => cases k
  | ok a => exact h a u k
theorem KeptP.bindS {α ε : Type} {s : State} {x : Except ε State} {f : State → Except ε (State × α)} (hx : KeptE s x)
    (h : ∀ t, Kept s t → KeptP s (f t)) : KeptP s (x >>= f) := by
  intro u k
  cases x with
  | error e => cases k
  | ok a => exact h a (hx a (Eq.refl _)) u k
theorem KeptP.bindP {α β ε : Type} {s : State} {x : Except ε (State × β)} {f : State × β → Except ε (State × α)} (hx : KeptP s x)
    (h : ∀ t, Kept s t.1 → KeptP s (f t)) : KeptP s (x >>= f) := by
  intro u k
  cases x with
  | error e => cases k
  | ok a => exact h a (hx a (Eq.refl _)) u k

theorem KeptP.map {α β ε : Type} {s t : State} {l : α} {x : Except ε β} (h : Kept s t) :
    KeptP s (x.map (fun _ => (t, l))) := by
  intro u k
  cases x with
  | error e => cases k
  | ok a => cases k; exact h

/-- The state of an optional answer. -/
def KeptS (s : State) (o : Option State) : Prop := ∀ t, o = some t → Kept s t

theorem KeptS.get {s t : State} {o : Option State} (h : KeptS s o) (k : o = some t) : Kept s t := h t k
theorem KeptS.some {s t : State} (h : Kept s t) : KeptS s (some t) := by
  intro u e; cases e; exact h
theorem KeptS.none {s : State} : KeptS s none := by
  intro u e; cases e

/-- The state of a channel-core instruction's outcome. -/
def KeptC (s : State) (o : Option CcOut) : Prop := ∀ t, o = some (.ok t) → Kept s t

theorem KeptC.some {s : State} {o : CcOut} (h : KeptE s o) : KeptC s (some o) := by
  intro u e; cases e; exact h u (Eq.refl _)
theorem KeptC.none {s : State} : KeptC s none := by
  intro u e; cases e

/-- The next state of an outcome, if it answers one. -/
def KeptO (s : State) (o : Host.Outcome State Fault Refusal) : Prop := ∀ t, o = .next t → Kept s t

theorem KeptO.next {s t : State} (h : Kept s t) : KeptO s (.next t) := by
  intro u e; cases e; exact h
theorem KeptO.fault {s : State} {f : Fault} : KeptO s (.fault f) := by
  intro u e; cases e
theorem KeptO.refused {s : State} {r : Refusal} : KeptO s (.refused r) := by
  intro u e; cases e

end Sys2Proof.Machine
end

