-- ==== Sys2Proof/Laws/KeptOps.lean ====
section
/-!
SUPPORT. The operations of Machine/Ops, Machine/Engines, Machine/Operands, Machine/Lanes, Machine/Access,
    Machine/Cells, Machine/Jobs, Machine/Transfers keep the queue and the canonical form.
-/

namespace Sys2Proof.Machine

theorem State.setO_kept {s0 s : State} (sel index sub v : Nat) (h : Kept s0 s) : Kept s0 (s.setO sel index sub v) := by
  refine ⟨h.pending, fun c => ?_⟩
  have k := h.canon c
  exact ⟨k.mem, SMap.wf_set _ _ k.obj, k.floats⟩

theorem State.addO_kept {s0 s : State} (sel index sub n : Nat) (hs : Kept s0 s) : Kept s0 (State.addO s sel index sub
    n) := by
  unfold State.addO
  try dsimp only
  repeat' (first | with_reducible assumption | with_reducible intro _ | with_reducible apply State.setO_kept)

theorem State.setG_kept {s0 s : State} (index sub v : Nat) (hs : Kept s0 s) : Kept s0 (State.setG s index sub v) := by
  unfold State.setG
  try dsimp only
  repeat' (first | with_reducible assumption | with_reducible intro _ | with_reducible apply State.setO_kept)

theorem State.addG_kept {s0 s : State} (index sub n : Nat) (hs : Kept s0 s) : Kept s0 (State.addG s index sub n) := by
  unfold State.addG
  try dsimp only
  repeat' (first | with_reducible assumption | with_reducible intro _ | with_reducible apply State.addO_kept)

theorem State.setFn_kept {s0 s : State} (f : Nat) (x : Fn) (hs : Kept s0 s) : Kept s0 (State.setFn s f x) := by
  unfold State.setFn
  try dsimp only
  repeat' (first
    | with_reducible assumption | with_reducible intro _ | split
    | (refine Kept.fields rfl rfl rfl rfl rfl ?_; first
      | with_reducible assumption))

theorem State.modFn_kept {s0 s : State} (f : Nat) (k : Fn → Fn) (hs : Kept s0 s) : Kept s0 (State.modFn s f k) := by
  unfold State.modFn
  try dsimp only
  repeat' (first | with_reducible assumption | with_reducible intro _ | with_reducible apply State.setFn_kept)

theorem State.setCtx_kept {s0 s : State} (c : Nat) (x : Ctx) (hs : Kept s0 s) : Kept s0 (State.setCtx s c x) := by
  unfold State.setCtx
  try dsimp only
  repeat' (first
    | with_reducible assumption | with_reducible intro _ | split
    | (refine Kept.fields rfl rfl rfl rfl rfl ?_; first
      | with_reducible assumption))

theorem State.modCtx_kept {s0 s : State} (c : Nat) (k : Ctx → Ctx) (hs : Kept s0 s) : Kept s0 (State.modCtx s c k) := by
  unfold State.modCtx
  try dsimp only
  repeat' (first | with_reducible assumption | with_reducible intro _ | with_reducible apply State.setCtx_kept)

theorem State.setEngine_kept {s0 s : State} (e : Nat) (x : Engine) (hs : Kept s0 s) : Kept s0 (State.setEngine s e x) := by
  unfold State.setEngine
  try dsimp only
  repeat' (first
    | with_reducible assumption | with_reducible intro _ | split
    | (refine Kept.fields rfl rfl rfl rfl rfl ?_; first
      | with_reducible assumption))

theorem State.modEngine_kept {s0 s : State} (e : Nat) (k : Engine → Engine) (hs : Kept s0 s) : Kept s0
    (State.modEngine s e k) := by
  unfold State.modEngine
  try dsimp only
  repeat' (first | with_reducible assumption | with_reducible intro _ | with_reducible apply State.setEngine_kept)

theorem State.setCore_kept {s0 s : State} (c : Nat) (x : Core) (hs : Kept s0 s) : Kept s0 (State.setCore s c x) := by
  unfold State.setCore
  try dsimp only
  repeat' (first
    | with_reducible assumption | with_reducible intro _ | split
    | (refine Kept.fields rfl rfl rfl rfl rfl ?_; first
      | with_reducible assumption))

theorem State.modCore_kept {s0 s : State} (c : Nat) (k : Core → Core) (hs : Kept s0 s) : Kept s0 (State.modCore s c
    k) := by
  unfold State.modCore
  try dsimp only
  repeat' (first | with_reducible assumption | with_reducible intro _ | with_reducible apply State.setCore_kept)

theorem State.setChan_kept {s0 s : State} (c : Nat) (x : ChanCore) (hs : Kept s0 s) : Kept s0 (State.setChan s c x) := by
  unfold State.setChan
  try dsimp only
  repeat' (first
    | with_reducible assumption | with_reducible intro _ | split
    | (refine Kept.fields rfl rfl rfl rfl rfl ?_; first
      | with_reducible assumption))

theorem State.setLane_kept {s0 s : State} (l : Nat) (x : Lane) (hs : Kept s0 s) : Kept s0 (State.setLane s l x) := by
  unfold State.setLane
  try dsimp only
  repeat' (first
    | with_reducible assumption | with_reducible intro _ | split
    | (refine Kept.fields rfl rfl rfl rfl rfl ?_; first
      | with_reducible assumption))

theorem State.setPort_kept {s0 s : State} (p : Nat) (x : Port) (hs : Kept s0 s) : Kept s0 (State.setPort s p x) := by
  unfold State.setPort
  try dsimp only
  repeat' (first
    | with_reducible assumption | with_reducible intro _ | split
    | (refine Kept.fields rfl rfl rfl rfl rfl ?_; first
      | with_reducible assumption))

theorem State.fresh_kept {s0 s : State}  (hs : Kept s0 s) : Kept s0 (State.fresh s).2 := by
  unfold State.fresh
  try dsimp only
  repeat' (first
    | with_reducible assumption | with_reducible intro _ | split
    | (refine Kept.fields rfl rfl rfl rfl rfl ?_; first
      | with_reducible assumption))

theorem State.wr_kept {s0 s : State} (a : Nat) (b : Byte) (h : Kept s0 s) : Kept s0 (s.wr a b) := by
  refine ⟨h.pending, fun c => ?_⟩
  have k := h.canon c
  exact ⟨SMap.wf_set _ _ k.mem, k.obj, k.floats⟩

theorem State.wrN_kept {s0 s : State} (a : Nat) (xs : List Byte) (hs : Kept s0 s) : Kept s0 (State.wrN s a xs) := by
  induction xs generalizing s a with
  | nil =>
    unfold State.wrN
    try dsimp only
    repeat' (first | with_reducible assumption) | cons e es ih =>
    unfold State.wrN
    try dsimp only
    repeat' (first
      | with_reducible assumption | with_reducible intro _ | with_reducible apply ih
      | with_reducible apply State.wr_kept)

theorem State.zeroMem_kept {s0 s : State} (lo n : Nat) (h : Kept s0 s) : Kept s0 (s.zeroMem lo n) := by
  refine ⟨h.pending, fun c => ?_⟩
  have k := h.canon c
  exact ⟨SMap.wf_filter _ k.mem, k.obj, k.floats⟩

/-- The generation of a page that is not among those whose key rotates. -/
theorem get_rotated (gen : Nat) (pages : List Nat) : ∀ (m : SMap Nat) (p : Nat), ¬ p ∈ pages →
    SMap.get (fun _ => 0) (pages.foldl (fun m p => SMap.set (fun _ => 0) m p (gen + 1)) m) p = SMap.get (fun _ => 0) m
        p := by
  induction pages with
  | nil => intro m p _; rfl
  | cons q qs ih =>
    intro m p hp
    simp only [List.mem_cons, not_or] at hp
    exact (ih _ p hp.2).trans (SMap.get_set_other m _ hp.1)

theorem State.rotatePages_kept {s0 s : State} (pages : List Nat) (h : Kept s0 s) : Kept s0 (s.rotatePages pages) := by
  refine ⟨h.pending, fun c => ?_⟩
  have k := h.canon c
  refine ⟨?_, k.obj, k.floats⟩
  refine SMap.wf_dflt ?_ (SMap.wf_filter _ k.mem)
  intro e he
  have hp : ¬ e.1 / Mem.page ∈ pages := by
    have := (List.mem_filter.1 he).2
    simpa using this
  simp only [memDflt, State.rotatePages, get_rotated _ _ _ _ hp]

theorem State.setFloat_kept {s0 s : State} (f : Nat) (v : W64) (h : Kept s0 s) : Kept s0 (s.setFloat f v) := by
  refine ⟨h.pending, fun c => ?_⟩
  have k := h.canon c
  exact ⟨k.mem, k.obj, SMap.wf_set _ _ k.floats⟩

theorem State.addFloat_kept {s0 s : State} (f n : Nat) (hs : Kept s0 s) : Kept s0 (State.addFloat s f n) := by
  unfold State.addFloat
  try dsimp only
  repeat' (first
    | with_reducible assumption | with_reducible intro _ | with_reducible apply State.setFloat_kept | split
    | (refine Kept.fields rfl rfl rfl rfl rfl ?_; first
      | with_reducible assumption | with_reducible intro _ | with_reducible apply State.setFloat_kept | split))

theorem State.putFloat_kept {s0 s : State} (requester f v : Nat) (hs : Kept s0 s) : Kept s0 (State.putFloat s
    requester f v) := by
  unfold State.putFloat
  try dsimp only
  repeat' (first
    | with_reducible assumption | with_reducible intro _ | with_reducible apply State.setFloat_kept
    | with_reducible apply Kept.cond | split
    | (refine Kept.fields rfl rfl rfl rfl rfl ?_; first
      | with_reducible assumption | with_reducible intro _ | with_reducible apply State.setFloat_kept
      | with_reducible apply Kept.cond | split))

theorem State.zeroFloats_kept {s0 s : State} (lo n : Nat) (h : Kept s0 s) : Kept s0 (s.zeroFloats lo n) := by
  refine ⟨h.pending, fun c => ?_⟩
  have k := h.canon c
  exact ⟨k.mem, k.obj, SMap.wf_filter _ k.floats⟩

theorem State.setTerm_kept {s0 s : State} (t v : Nat) (hs : Kept s0 s) : Kept s0 (State.setTerm s t v) := by
  unfold State.setTerm
  try dsimp only
  repeat' (first
    | with_reducible assumption | with_reducible intro _ | split
    | (refine Kept.fields rfl rfl rfl rfl rfl ?_; first
      | with_reducible assumption))

theorem State.addTerm_kept {s0 s : State} (t n : Nat) (hs : Kept s0 s) : Kept s0 (State.addTerm s t n) := by
  unfold State.addTerm
  try dsimp only
  repeat' (first | with_reducible assumption | with_reducible intro _ | with_reducible apply State.setTerm_kept)

theorem State.send_kept {s0 s : State} (m : Out) (hs : Kept s0 s) : Kept s0 (State.send s m) := by
  unfold State.send
  try dsimp only
  repeat' (first
    | with_reducible assumption | with_reducible intro _ | split
    | (refine Kept.fields rfl rfl rfl rfl rfl ?_; first
      | with_reducible assumption))

theorem State.msix_kept {s0 s : State} (f v : Nat) (hs : Kept s0 s) : Kept s0 (State.msix s f v) := by
  unfold State.msix
  try dsimp only
  repeat' (first
    | with_reducible assumption | with_reducible intro _ | with_reducible apply ih
    | with_reducible apply State.addG_kept | with_reducible apply State.modFn_kept
    | with_reducible apply State.send_kept | with_reducible apply Kept.cond
    | (refine Kept.fields rfl rfl rfl rfl rfl ?_; first
      | with_reducible assumption | with_reducible intro _ | with_reducible apply ih
      | with_reducible apply State.addG_kept | with_reducible apply State.modFn_kept
      | with_reducible apply State.send_kept | with_reducible apply Kept.cond | split))

theorem State.notice_kept {s0 s : State} (f bit : Nat) (hs : Kept s0 s) : Kept s0 (State.notice s f bit) := by
  unfold State.notice
  try dsimp only
  repeat' (first
    | with_reducible assumption | with_reducible intro _ | with_reducible apply State.setO_kept
    | with_reducible apply State.msix_kept | with_reducible apply Kept.cond)

theorem State.noticeMgrs_kept {s0 s : State} (bit : Nat) (hs : Kept s0 s) : Kept s0 (State.noticeMgrs s bit) := by
  unfold State.noticeMgrs
  try dsimp only
  repeat' (first | with_reducible assumption | with_reducible intro _ | with_reducible apply State.notice_kept)

theorem State.noticeAll_kept {s0 s : State} (bit : Nat) (hs : Kept s0 s) : Kept s0 (State.noticeAll s bit) := by
  unfold State.noticeAll
  try dsimp only
  repeat' (first
    | with_reducible assumption | with_reducible intro _ | with_reducible apply State.notice_kept
    | with_reducible apply State.noticeMgrs_kept | with_reducible apply Kept.cond)

theorem State.swapState_kept {s0 s : State} (v : Nat) (hs : Kept s0 s) : Kept s0 (State.swapState s v) := by
  unfold State.swapState
  try dsimp only
  repeat' (first
    | with_reducible assumption | with_reducible intro _ | with_reducible apply State.setG_kept
    | with_reducible apply State.noticeMgrs_kept | with_reducible apply Kept.cond)

theorem State.setFnState_kept {s0 s : State} (f v : Nat) (hs : Kept s0 s) : Kept s0 (State.setFnState s f v) := by
  unfold State.setFnState
  try dsimp only
  repeat' (first
    | with_reducible assumption | with_reducible intro _ | with_reducible apply State.setO_kept
    | with_reducible apply State.notice_kept)

theorem State.countError_kept {s0 s : State} (code : Nat) (hs : Kept s0 s) : Kept s0 (State.countError s code) := by
  unfold State.countError
  try dsimp only
  repeat' (first
    | with_reducible assumption | with_reducible intro _ | with_reducible apply State.addG_kept
    | with_reducible apply Kept.cond | split
    | (refine Kept.fields rfl rfl rfl rfl rfl ?_; first
      | with_reducible assumption))

theorem State.raise_kept {s0 s : State} (code source func detail : Nat) (hs : Kept s0 s) : Kept s0 (State.raise s code
    source func detail) := by
  unfold State.raise
  try dsimp only
  repeat' (first
    | with_reducible assumption | with_reducible intro _ | with_reducible apply State.setG_kept
    | with_reducible apply State.addG_kept | with_reducible apply State.send_kept
    | with_reducible apply State.msix_kept | with_reducible apply State.countError_kept
    | with_reducible apply Kept.cond | split
    | (refine Kept.fields rfl rfl rfl rfl rfl ?_; first
      | with_reducible assumption | with_reducible intro _ | with_reducible apply State.setG_kept))

theorem State.modCmd_kept {s0 s : State} (cid : Nat) (k : Cmd → Cmd) (hs : Kept s0 s) : Kept s0 (State.modCmd s cid
    k) := by
  unfold State.modCmd
  try dsimp only
  repeat' (first
    | with_reducible assumption | with_reducible intro _ | with_reducible apply Kept.cond | split
    | (refine Kept.fields rfl rfl rfl rfl rfl ?_; first
      | with_reducible assumption))

theorem State.dropCmd_kept {s0 s : State} (cid : Nat) (hs : Kept s0 s) : Kept s0 (State.dropCmd s cid) := by
  unfold State.dropCmd
  try dsimp only
  repeat' (first
    | with_reducible assumption | with_reducible intro _ | split
    | (refine Kept.fields rfl rfl rfl rfl rfl ?_; first
      | with_reducible assumption))

theorem State.mapCmds_kept {s0 s : State} (k : Cmd → Cmd) (hs : Kept s0 s) : Kept s0 (State.mapCmds s k) := by
  unfold State.mapCmds
  try dsimp only
  repeat' (first
    | with_reducible assumption | with_reducible intro _ | split
    | (refine Kept.fields rfl rfl rfl rfl rfl ?_; first
      | with_reducible assumption))

theorem State.sumpWhere_kept {s0 s : State} (test : Piece → Bool) (hs : Kept s0 s) : Kept s0 (State.sumpWhere s test) := by
  unfold State.sumpWhere
  try dsimp only
  repeat' (first
    | with_reducible assumption | with_reducible intro _ | with_reducible apply Kept.cond | split
    | (refine Kept.fields rfl rfl rfl rfl rfl ?_; first
      | with_reducible assumption))

theorem State.countJob_kept {s0 s : State} (fn sub : Nat) (n : Nat) (hs : Kept s0 s) : Kept s0 (State.countJob s fn
    sub n) := by
  unfold State.countJob
  try dsimp only
  repeat' (first | with_reducible assumption | with_reducible intro _ | with_reducible apply State.addO_kept)

theorem State.finish_kept {s0 s : State} (cid status : Nat) (detail : List Nat) (hs : Kept s0 s) : Kept s0
    (State.finish s cid status detail) := by
  unfold State.finish
  try dsimp only
  repeat' (first
    | with_reducible assumption | with_reducible intro _ | with_reducible apply State.modCmd_kept
    | (refine Kept.fields rfl rfl rfl rfl rfl ?_; first
      | with_reducible assumption | with_reducible intro _ | with_reducible apply State.modCmd_kept
      | with_reducible apply Kept.cond | split))

theorem State.did_kept {s0 s : State} (cid status : Nat) (detail : List Nat) (hs : Kept s0 s) : Kept s0 (State.did s
    cid status detail) := by
  unfold State.did
  try dsimp only
  repeat' (first
    | with_reducible assumption | with_reducible intro _ | with_reducible apply State.modCmd_kept
    | (refine Kept.fields rfl rfl rfl rfl rfl ?_; first
      | with_reducible assumption | with_reducible intro _ | with_reducible apply State.modCmd_kept
      | with_reducible apply Kept.cond | split))

theorem State.freeThreads_kept {s0 s : State} (ctx : Nat) (hs : Kept s0 s) : Kept s0 (State.freeThreads s ctx) := by
  unfold State.freeThreads
  try dsimp only
  repeat' (first
    | with_reducible assumption | with_reducible intro _ | with_reducible apply Kept.cond | split
    | (refine Kept.fields rfl rfl rfl rfl rfl ?_; first
      | with_reducible assumption))

theorem State.setBalance_kept {s0 s : State} (c g : Nat) (v : Int) (hs : Kept s0 s) : Kept s0 (State.setBalance s c g
    v) := by
  unfold State.setBalance
  try dsimp only
  repeat' (first | with_reducible assumption | with_reducible intro _ | with_reducible apply State.setG_kept)

theorem State.debit_kept {s0 s : State} (f k n : Nat) (hs : Kept s0 s) : Kept s0 (State.debit s f k n) := by
  unfold State.debit
  try dsimp only
  repeat' (first
    | with_reducible assumption | with_reducible intro _ | with_reducible apply State.addG_kept
    | with_reducible apply State.setBalance_kept | split
    | (refine Kept.fields rfl rfl rfl rfl rfl ?_; first
      | with_reducible assumption | with_reducible intro _ | with_reducible apply State.addG_kept
      | with_reducible apply State.setBalance_kept | split))

theorem State.endHold_kept {s0 s : State} (e : Nat) (hs : Kept s0 s) : Kept s0 (State.endHold s e) := by
  unfold State.endHold
  try dsimp only
  repeat' (first
    | with_reducible assumption | with_reducible intro _ | with_reducible apply State.setEngine_kept
    | with_reducible apply State.debit_kept | with_reducible apply Kept.cond | split
    | (refine Kept.fields rfl rfl rfl rfl rfl ?_; first
      | with_reducible assumption | with_reducible intro _ | with_reducible apply State.setEngine_kept
      | with_reducible apply State.debit_kept | with_reducible apply Kept.cond | split))

theorem State.endHoldList_kept {s0 s : State}  (xs : List Nat) (hs : Kept s0 s) : Kept s0 (State.endHoldList s xs) := by
  induction xs generalizing s  with
  | nil =>
    unfold State.endHoldList
    try dsimp only
    repeat' (first | with_reducible assumption) | cons e es ih =>
    unfold State.endHoldList
    try dsimp only
    repeat' (first
      | with_reducible assumption | with_reducible intro _ | with_reducible apply ih
      | with_reducible apply State.endHold_kept)

theorem State.endHolds_kept {s0 s : State} (ctx : Nat) (job : Nat → Bool) (hs : Kept s0 s) : Kept s0 (State.endHolds s
    ctx job) := by
  unfold State.endHolds
  try dsimp only
  repeat' (first | with_reducible assumption | with_reducible intro _ | with_reducible apply State.endHoldList_kept)

theorem State.endJob_kept {s0 s : State} (ctx job : Nat) (hs : Kept s0 s) : Kept s0 (State.endJob s ctx job) := by
  unfold State.endJob
  try dsimp only
  repeat' (first
    | with_reducible assumption | with_reducible intro _ | with_reducible apply State.modCtx_kept
    | with_reducible apply State.freeThreads_kept | with_reducible apply State.endHolds_kept
    | with_reducible apply Kept.cond
    | (refine Kept.fields rfl rfl rfl rfl rfl ?_; first
      | with_reducible assumption | with_reducible intro _ | with_reducible apply State.modCtx_kept
      | with_reducible apply State.freeThreads_kept | with_reducible apply State.endHolds_kept
      | with_reducible apply Kept.cond | split))

theorem State.setSlot_kept {s0 s : State} (f k : Nat) (x : Slot) (hs : Kept s0 s) : Kept s0 (State.setSlot s f k x) := by
  unfold State.setSlot
  try dsimp only
  repeat' (first
    | with_reducible assumption | with_reducible intro _ | with_reducible apply State.modFn_kept
    | (refine Kept.fields rfl rfl rfl rfl rfl ?_; first
      | with_reducible assumption | with_reducible intro _ | with_reducible apply State.modFn_kept | split))

theorem State.freeSlot_kept {s0 s : State} (f k : Nat) (hs : Kept s0 s) : Kept s0 (State.freeSlot s f k) := by
  unfold State.freeSlot
  try dsimp only
  repeat' (first | with_reducible assumption | with_reducible intro _ | with_reducible apply State.setSlot_kept)

theorem State.setSession_kept {s0 s : State} (dev : Nat) (x : Session) (hs : Kept s0 s) : Kept s0 (State.setSession s
    dev x) := by
  unfold State.setSession
  try dsimp only
  repeat' (first
    | with_reducible assumption | with_reducible intro _ | split
    | (refine Kept.fields rfl rfl rfl rfl rfl ?_; first
      | with_reducible assumption))

theorem State.setStream_kept {s0 s : State} (k : Nat) (x : Stream) (hs : Kept s0 s) : Kept s0 (State.setStream s k x) := by
  unfold State.setStream
  try dsimp only
  repeat' (first
    | with_reducible assumption | with_reducible intro _ | split
    | (refine Kept.fields rfl rfl rfl rfl rfl ?_; first
      | with_reducible assumption))

theorem State.modStream_kept {s0 s : State} (k : Nat) (f : Stream → Stream) (hs : Kept s0 s) : Kept s0
    (State.modStream s k f) := by
  unfold State.modStream
  try dsimp only
  repeat' (first | with_reducible assumption | with_reducible intro _ | with_reducible apply State.setStream_kept)

theorem State.spend_kept {s0 s : State} (l cls n dst : Nat) (m : Out) (hs : Kept s0 s) : Kept s0 (State.spend s l cls
    n dst m) := by
  unfold State.spend
  try dsimp only
  repeat' (first
    | with_reducible assumption | with_reducible intro _ | with_reducible apply State.setLane_kept
    | with_reducible apply State.send_kept | with_reducible apply State.setSession_kept
    | (refine Kept.fields rfl rfl rfl rfl rfl ?_; first
      | with_reducible assumption | with_reducible intro _ | with_reducible apply State.setLane_kept
      | with_reducible apply State.send_kept | with_reducible apply State.setSession_kept | split))

theorem State.transmit_kept {s0 s : State} (l cls n dst : Nat) (m : Out) (hs : Kept s0 s) : Kept s0 (State.transmit s
    l cls n dst m) := by
  unfold State.transmit
  try dsimp only
  repeat' (first
    | with_reducible assumption | with_reducible intro _ | with_reducible apply State.setLane_kept
    | with_reducible apply State.spend_kept | with_reducible apply Kept.cond
    | (refine Kept.fields rfl rfl rfl rfl rfl ?_; first
      | with_reducible assumption | with_reducible intro _ | with_reducible apply State.setLane_kept
      | with_reducible apply State.spend_kept | with_reducible apply Kept.cond | split))

theorem State.flushList_kept {s0 s : State} (l : Nat) (xs : List (Nat × Nat × Out)) (hs : Kept s0 s) : Kept s0
    (State.flushList s l xs) := by
  induction xs generalizing s l with
  | nil =>
    unfold State.flushList
    try dsimp only
    repeat' (first | with_reducible assumption) | cons e es ih =>
    unfold State.flushList
    try dsimp only
    repeat' (first
      | with_reducible assumption | with_reducible intro _ | with_reducible apply ih
      | with_reducible apply State.transmit_kept)

theorem State.flushLane_kept {s0 s : State} (l : Nat) (hs : Kept s0 s) : Kept s0 (State.flushLane s l) := by
  unfold State.flushLane
  try dsimp only
  repeat' (first
    | with_reducible assumption | with_reducible intro _ | with_reducible apply State.setLane_kept
    | with_reducible apply State.flushList_kept
    | (refine Kept.fields rfl rfl rfl rfl rfl ?_; first
      | with_reducible assumption | with_reducible intro _ | with_reducible apply State.setLane_kept
      | with_reducible apply State.flushList_kept | split))

theorem State.emit_kept {s0 s : State} (dst type : Nat) (reply : Bool) (p : Packet) (hs : Kept s0 s) : Kept s0
    (State.emit s dst type reply p) := by
  unfold State.emit
  try dsimp only
  repeat' (first
    | with_reducible assumption | with_reducible intro _ | with_reducible apply State.transmit_kept | split
    | (refine Kept.fields rfl rfl rfl rfl rfl ?_; first
      | with_reducible assumption | with_reducible intro _ | with_reducible apply State.transmit_kept | split))

theorem State.domainOn_kept {s0 s : State} (l dst kind a b : Nat) (data : List Byte) (hs : Kept s0 s) : Kept s0
    (State.domainOn s l dst kind a b data) := by
  unfold State.domainOn
  try dsimp only
  repeat' (first | with_reducible assumption | with_reducible intro _ | with_reducible apply State.transmit_kept)

theorem State.domainMsg_kept {s0 s : State} (dst kind a b : Nat) (data : List Byte) (hs : Kept s0 s) : Kept s0
    (State.domainMsg s dst kind a b data) := by
  unfold State.domainMsg
  try dsimp only
  repeat' (first
    | with_reducible assumption | with_reducible intro _ | with_reducible apply State.domainOn_kept | split
    | (refine Kept.fields rfl rfl rfl rfl rfl ?_; first
      | with_reducible assumption | with_reducible intro _ | with_reducible apply State.domainOn_kept | split))

theorem State.onPartnerLanes_kept {s0 s : State} (kind a b : Nat) (data : List Byte) (xs : List Nat) (hs : Kept s0 s)
    : Kept s0 (State.onPartnerLanes s kind a b data xs) := by
  induction xs generalizing s kind a b data with
  | nil =>
    unfold State.onPartnerLanes
    try dsimp only
    repeat' (first | with_reducible assumption) | cons e es ih =>
    unfold State.onPartnerLanes
    try dsimp only
    repeat' (first
      | with_reducible assumption | with_reducible intro _ | with_reducible apply ih
      | with_reducible apply State.domainOn_kept)

theorem State.toPartner_kept {s0 s : State} (kind a : Nat) (hs : Kept s0 s) : Kept s0 (State.toPartner s kind a) := by
  unfold State.toPartner
  try dsimp only
  repeat' (first
    | with_reducible assumption | with_reducible intro _ | with_reducible apply State.domainMsg_kept
    | with_reducible apply State.onPartnerLanes_kept)

theorem State.domainEach_kept {s0 s : State} (kind a b : Nat) (data : List Byte) (xs : List Nat) (hs : Kept s0 s) :
    Kept s0 (State.domainEach s kind a b data xs) := by
  induction xs generalizing s kind a b data with
  | nil =>
    unfold State.domainEach
    try dsimp only
    repeat' (first | with_reducible assumption) | cons e es ih =>
    unfold State.domainEach
    try dsimp only
    repeat' (first
      | with_reducible assumption | with_reducible intro _ | with_reducible apply ih
      | with_reducible apply State.domainMsg_kept)

theorem State.setRegion_kept {s0 s : State} (f : Nat) (r : Region) (hs : Kept s0 s) : Kept s0 (State.setRegion s f r) := by
  unfold State.setRegion
  try dsimp only
  repeat' (first
    | with_reducible assumption | with_reducible intro _ | with_reducible apply State.modFn_kept
    | (refine Kept.fields rfl rfl rfl rfl rfl ?_; first
      | with_reducible assumption | with_reducible intro _ | with_reducible apply State.modFn_kept
      | with_reducible apply Kept.cond | split))

theorem State.request_kept {s0 s : State} (f dev tag type : Nat) (p : Packet) (hs : Kept s0 s) : Kept s0
    (State.request s f dev tag type p) := by
  unfold State.request
  try dsimp only
  repeat' (first
    | with_reducible assumption | with_reducible intro _ | with_reducible apply State.modStream_kept
    | with_reducible apply State.emit_kept
    | (refine Kept.fields rfl rfl rfl rfl rfl ?_; first
      | with_reducible assumption | with_reducible intro _ | with_reducible apply State.modStream_kept
      | with_reducible apply State.emit_kept | with_reducible apply Kept.cond | split))

theorem State.ask_kept {s0 s : State} (a : Await) (type : Nat) (p : Packet) (hs : Kept s0 s) : Kept s0 (State.ask s a
    type p) := by
  unfold State.ask
  try dsimp only
  repeat' (first
    | with_reducible assumption | with_reducible intro _ | with_reducible apply State.request_kept | split
    | (refine Kept.fields rfl rfl rfl rfl rfl ?_; first
      | with_reducible assumption))

theorem State.queueAnswer_kept {s0 s : State} (f dev type lmax : Nat) (p : Packet) (hs : Kept s0 s) : Kept s0
    (State.queueAnswer s f dev type lmax p) := by
  unfold State.queueAnswer
  try dsimp only
  repeat' (first
    | with_reducible assumption | with_reducible intro _ | with_reducible apply Kept.cond | split
    | (refine Kept.fields rfl rfl rfl rfl rfl ?_; first
      | with_reducible assumption | with_reducible intro _ | with_reducible apply Kept.cond | split))

theorem State.reply_kept {s0 s : State} (f dev type seq : Nat) (p : Packet) (lmax : Nat) (hs : Kept s0 s) : Kept s0
    (State.reply s f dev type seq p lmax) := by
  unfold State.reply
  try dsimp only
  repeat' (first
    | with_reducible assumption | with_reducible intro _ | with_reducible apply State.modStream_kept
    | with_reducible apply State.queueAnswer_kept | split
    | (refine Kept.fields rfl rfl rfl rfl rfl ?_; first
      | with_reducible assumption | with_reducible intro _ | with_reducible apply State.modStream_kept
      | with_reducible apply State.queueAnswer_kept | split))

theorem State.acknowledge_kept {s0 s : State} (f dev fn sub : Nat) (hs : Kept s0 s) : Kept s0 (State.acknowledge s f
    dev fn sub) := by
  unfold State.acknowledge
  try dsimp only
  repeat' (first | with_reducible assumption | with_reducible intro _ | with_reducible apply State.emit_kept)

theorem State.acknowledgeReply_kept {s0 s : State} (f : Nat) (p : Packet) (hs : Kept s0 s) : Kept s0
    (State.acknowledgeReply s f p) := by
  unfold State.acknowledgeReply
  try dsimp only
  repeat' (first | with_reducible assumption | with_reducible intro _ | with_reducible apply State.emit_kept)

theorem State.respond_kept {s0 s : State} (path : Path) (status detail : Nat) (data : List Byte) (hs : Kept s0 s) :
    Kept s0 (State.respond s path status detail data) := by
  unfold State.respond
  try dsimp only
  repeat' (first
    | with_reducible assumption | with_reducible intro _ | with_reducible apply State.addO_kept
    | with_reducible apply State.addG_kept | with_reducible apply State.send_kept
    | with_reducible apply State.raise_kept | with_reducible apply State.domainMsg_kept
    | with_reducible apply Kept.cond | split
    | (refine Kept.fields rfl rfl rfl rfl rfl ?_; first
      | with_reducible assumption | with_reducible intro _ | with_reducible apply State.addO_kept
      | with_reducible apply State.addG_kept | with_reducible apply State.send_kept
      | with_reducible apply State.raise_kept))

theorem State.gate_kept {s0 s : State} (path : Path) (hs : Kept s0 s) : KeptS s0 (State.gate s path) := by
  unfold State.gate
  try dsimp only
  repeat' (first
    | with_reducible assumption | with_reducible intro _ | with_reducible apply State.addO_kept
    | with_reducible apply State.addG_kept | with_reducible apply KeptS.some | with_reducible apply KeptS.none
    | with_reducible apply Kept.cond | split
    | (refine Kept.fields rfl rfl rfl rfl rfl ?_; first
      | with_reducible assumption | with_reducible intro _ | with_reducible apply State.addO_kept
      | with_reducible apply State.addG_kept | with_reducible apply KeptS.some | with_reducible apply KeptS.none
      | with_reducible apply Kept.cond | split))

theorem State.queueStored_kept {s0 s : State} (path : Path) (sel index sub value : Nat) (hs : Kept s0 s) : Kept s0
    (State.queueStored s path sel index sub value) := by
  unfold State.queueStored
  try dsimp only
  repeat' (first
    | with_reducible assumption | with_reducible intro _ | with_reducible apply State.addG_kept
    | with_reducible apply State.modFn_kept | split
    | (refine Kept.fields rfl rfl rfl rfl rfl ?_; first
      | with_reducible assumption))

theorem State.access_kept {s0 s : State} (path : Path) (sel index sub : Nat) (length : Option Nat) (value : Nat)
    (rule : ObjRow → State → Except Refused State) (hr : ∀ r t, Kept s0 t → KeptE s0 (rule r t)) (h : Kept s0 s) :
    Kept s0 (s.access path sel index sub length value rule) := by
  unfold State.access
  split
  · exact h
  · split
    · exact State.gate_kept path h _ ‹_›
    · split
      · exact State.respond_kept _ _ _ _ h
      · rename_i r t he
        have ht : Kept s0 t := by
          cases hc : s.checkWrite path sel index sub length value with
          | error e => rw [hc] at he; cases he
          | ok q =>
            rw [hc] at he
            cases hq : rule q s with
            | error e => simp [bind, Except.bind, hq, Except.map] at he
            | ok u =>
              simp only [bind, Except.bind, hq, Except.map, Except.ok.injEq, Prod.mk.injEq] at he
              exact he.2 ▸ hr q s h u hq
        split
        · exact State.queueStored_kept _ _ _ _ _ h
        · exact State.respond_kept _ _ _ _ ht

theorem storeRule_kept {s0 s : State} (sel index sub value : Nat) (_u1 : ObjRow) (hs : Kept s0 s) : KeptE s0
    (storeRule sel index sub value _u1 s) := by
  unfold storeRule
  try dsimp only
  repeat' (first
    | with_reducible assumption | with_reducible intro _ | with_reducible apply State.setO_kept
    | with_reducible apply KeptE.ok)

theorem State.putHolder_kept {s0 s : State} (index sub v : Nat) (hs : Kept s0 s) : Kept s0 (State.putHolder s index
    sub v) := by
  unfold State.putHolder
  try dsimp only
  repeat' (first
    | with_reducible assumption | with_reducible intro _ | with_reducible apply State.setG_kept
    | with_reducible apply Kept.cond)

theorem State.setCellO_kept {s0 s : State} (c sub v : Nat) (hs : Kept s0 s) : Kept s0 (State.setCellO s c sub v) := by
  unfold State.setCellO
  try dsimp only
  repeat' (first
    | with_reducible assumption | with_reducible intro _ | with_reducible apply State.setO_kept
    | with_reducible apply Kept.cond)

theorem State.addCellO_kept {s0 s : State} (c sub n : Nat) (hs : Kept s0 s) : Kept s0 (State.addCellO s c sub n) := by
  unfold State.addCellO
  try dsimp only
  repeat' (first | with_reducible assumption | with_reducible intro _ | with_reducible apply State.setCellO_kept)

theorem State.updateRadioReserve_kept {s0 s : State}  (hs : Kept s0 s) : Kept s0 (State.updateRadioReserve s) := by
  unfold State.updateRadioReserve
  try dsimp only
  repeat' (first | with_reducible assumption | with_reducible intro _ | with_reducible apply State.setG_kept)

theorem State.enterCell_kept {s0 s : State} (c : Nat) (hs : Kept s0 s) : Kept s0 (State.enterCell s c) := by
  unfold State.enterCell
  try dsimp only
  repeat' (first
    | with_reducible assumption | with_reducible intro _ | with_reducible apply State.setCellO_kept
    | with_reducible apply State.updateRadioReserve_kept | with_reducible apply Kept.cond | split
    | (refine Kept.fields rfl rfl rfl rfl rfl ?_; first
      | with_reducible assumption | with_reducible intro _ | with_reducible apply State.setCellO_kept))

theorem State.leaveCell_kept {s0 s : State} (c : Nat) (hs : Kept s0 s) : Kept s0 (State.leaveCell s c) := by
  unfold State.leaveCell
  try dsimp only
  repeat' (first
    | with_reducible assumption | with_reducible intro _ | with_reducible apply State.setCellO_kept
    | with_reducible apply State.updateRadioReserve_kept | split
    | (refine Kept.fields rfl rfl rfl rfl rfl ?_; first
      | with_reducible assumption | with_reducible intro _ | with_reducible apply State.setCellO_kept))

theorem State.deactivateCell_kept {s0 s : State} (c : Nat) (hs : Kept s0 s) : Kept s0 (State.deactivateCell s c) := by
  unfold State.deactivateCell
  try dsimp only
  repeat' (first
    | with_reducible assumption | with_reducible intro _ | with_reducible apply State.setCellO_kept | split
    | (refine Kept.fields rfl rfl rfl rfl rfl ?_; first
      | with_reducible assumption | with_reducible intro _ | with_reducible apply State.setCellO_kept))

theorem State.deactivateCells_kept {s0 s : State}  (xs : List Nat) (hs : Kept s0 s) : Kept s0 (State.deactivateCells s
    xs) := by
  induction xs generalizing s  with
  | nil =>
    unfold State.deactivateCells
    try dsimp only
    repeat' (first | with_reducible assumption) | cons e es ih =>
    unfold State.deactivateCells
    try dsimp only
    repeat' (first
      | with_reducible assumption | with_reducible intro _ | with_reducible apply ih
      | with_reducible apply State.deactivateCell_kept)

theorem State.leaveCells_kept {s0 s : State}  (xs : List Nat) (hs : Kept s0 s) : Kept s0 (State.leaveCells s xs) := by
  induction xs generalizing s  with
  | nil =>
    unfold State.leaveCells
    try dsimp only
    repeat' (first | with_reducible assumption) | cons e es ih =>
    unfold State.leaveCells
    try dsimp only
    repeat' (first
      | with_reducible assumption | with_reducible intro _ | with_reducible apply ih
      | with_reducible apply State.leaveCell_kept)

theorem State.setPartner_kept {s0 s : State} (v : Nat) (hs : Kept s0 s) : Kept s0 (State.setPartner s v) := by
  unfold State.setPartner
  try dsimp only
  repeat' (first
    | with_reducible assumption | with_reducible intro _ | with_reducible apply State.setG_kept
    | with_reducible apply State.noticeMgrs_kept | with_reducible apply Kept.cond)

theorem State.stopBy_kept {s0 s : State} (b : Nat) (hs : Kept s0 s) : Kept s0 (State.stopBy s b) := by
  unfold State.stopBy
  try dsimp only
  repeat' (first
    | with_reducible assumption | (refine Kept.fields rfl rfl rfl rfl rfl ?_; first
      | with_reducible assumption))

theorem State.relinquish_kept {s0 s : State} (b : Nat) (hs : Kept s0 s) : Kept s0 (State.relinquish s b) := by
  unfold State.relinquish
  try dsimp only
  repeat' (first
    | with_reducible assumption | with_reducible intro _ | with_reducible apply State.toPartner_kept
    | with_reducible apply State.stopBy_kept)

theorem State.dropCells_kept {s0 s : State} (cells : List Nat) (hs : Kept s0 s) : Kept s0 (State.dropCells s cells) := by
  unfold State.dropCells
  try dsimp only
  repeat' (first
    | with_reducible assumption | with_reducible intro _ | with_reducible apply State.noticeAll_kept
    | with_reducible apply State.leaveCells_kept | with_reducible apply State.setPartner_kept
    | with_reducible apply Kept.cond | split
    | (refine Kept.fields rfl rfl rfl rfl rfl ?_; first
      | with_reducible assumption | with_reducible intro _ | with_reducible apply State.noticeAll_kept
      | with_reducible apply State.leaveCells_kept))

theorem State.stopCells_kept {s0 s : State}  (hs : Kept s0 s) : Kept s0 (State.stopCells s) := by
  unfold State.stopCells
  try dsimp only
  repeat' (first
    | with_reducible assumption | with_reducible apply State.dropCells_kept
    | (refine Kept.fields rfl rfl rfl rfl rfl ?_; first
      | with_reducible assumption))

theorem State.stopHeld_kept {s0 s : State}  (hs : Kept s0 s) : Kept s0 (State.stopHeld s) := by
  unfold State.stopHeld
  try dsimp only
  repeat' (first
    | with_reducible assumption | with_reducible apply State.dropCells_kept
    | (refine Kept.fields rfl rfl rfl rfl rfl ?_; first
      | with_reducible assumption))

theorem State.closeShipment_kept {s0 s : State}  (hs : Kept s0 s) : Kept s0 (State.closeShipment s) := by
  unfold State.closeShipment
  try dsimp only
  repeat' (first
    | with_reducible assumption | with_reducible intro _ | with_reducible apply State.addG_kept
    | with_reducible apply Kept.cond | split
    | (refine Kept.fields rfl rfl rfl rfl rfl ?_; first
      | with_reducible assumption))

theorem State.failTb_kept {s0 s : State} (c : Cmd) (hs : Kept s0 s) : Kept s0 (State.failTb s c) := by
  unfold State.failTb
  try dsimp only
  repeat' (first
    | with_reducible assumption | with_reducible intro _ | with_reducible apply Kept.cond | split
    | (refine Kept.fields rfl rfl rfl rfl rfl ?_; first
      | with_reducible assumption | with_reducible intro _ | with_reducible apply Kept.cond | split))

theorem State.failTbs_kept {s0 s : State}  (xs : List Cmd) (hs : Kept s0 s) : Kept s0 (State.failTbs s xs) := by
  induction xs generalizing s  with
  | nil =>
    unfold State.failTbs
    try dsimp only
    repeat' (first
      | with_reducible assumption | with_reducible intro _ | with_reducible apply ih
      | with_reducible apply State.failTb_kept | split)
  | cons e es ih =>
    unfold State.failTbs
    try dsimp only
    repeat' (first
      | with_reducible assumption | with_reducible intro _ | with_reducible apply ih
      | with_reducible apply State.failTb_kept | split)

theorem State.noteLate_kept {s0 s : State} (cal cause : Nat) (hs : Kept s0 s) : Kept s0 (State.noteLate s cal cause) := by
  unfold State.noteLate
  try dsimp only
  repeat' (first
    | with_reducible assumption | with_reducible intro _ | with_reducible apply State.setG_kept
    | with_reducible apply State.addG_kept | with_reducible apply State.raise_kept
    | with_reducible apply State.relinquish_kept | with_reducible apply Kept.cond)

theorem State.lateness_kept {s0 s : State} (cal cause : Nat) (cids : List Nat) (hs : Kept s0 s) : Kept s0
    (State.lateness s cal cause cids) := by
  unfold State.lateness
  try dsimp only
  repeat' (first
    | with_reducible assumption | with_reducible intro _ | with_reducible apply State.addG_kept
    | with_reducible apply State.mapCmds_kept | with_reducible apply State.sumpWhere_kept
    | with_reducible apply State.failTbs_kept | with_reducible apply State.noteLate_kept
    | with_reducible apply Kept.cond | split)

theorem State.setProc_kept {s0 s : State} (n : Nat) (p : Proc) (hs : Kept s0 s) : Kept s0 (State.setProc s n p) := by
  unfold State.setProc
  try dsimp only
  repeat' (first
    | with_reducible assumption | with_reducible intro _ | with_reducible apply Kept.cond | split
    | (refine Kept.fields rfl rfl rfl rfl rfl ?_; first
      | with_reducible assumption))

theorem State.endTrigger_kept {s0 s : State} (n status : Nat) (hs : Kept s0 s) : Kept s0 (State.endTrigger s n
    status) := by
  unfold State.endTrigger
  try dsimp only
  repeat' (first
    | with_reducible assumption | with_reducible intro _ | with_reducible apply State.setO_kept
    | with_reducible apply State.reply_kept | with_reducible apply State.setProc_kept | with_reducible apply Kept.cond
    | split
    | (refine Kept.fields rfl rfl rfl rfl rfl ?_; first
      | with_reducible assumption | with_reducible intro _ | with_reducible apply State.setO_kept
      | with_reducible apply State.reply_kept | with_reducible apply State.setProc_kept
      | with_reducible apply Kept.cond | split))

theorem State.closeJob_kept {s0 s : State} (c : Cmd) (hs : Kept s0 s) : Kept s0 (State.closeJob s c) := by
  unfold State.closeJob
  try dsimp only
  repeat' (first
    | with_reducible assumption | with_reducible intro _ | with_reducible apply State.countJob_kept
    | with_reducible apply State.endJob_kept | with_reducible apply State.endTrigger_kept
    | with_reducible apply Kept.cond | split
    | (refine Kept.fields rfl rfl rfl rfl rfl ?_; first
      | with_reducible assumption | with_reducible intro _ | with_reducible apply State.countJob_kept
      | with_reducible apply State.endJob_kept | with_reducible apply State.endTrigger_kept
      | with_reducible apply Kept.cond | split))

theorem State.retireSilently_kept {s0 s : State} (c : Cmd) (hs : Kept s0 s) : Kept s0 (State.retireSilently s c) := by
  unfold State.retireSilently
  try dsimp only
  repeat' (first
    | with_reducible assumption | with_reducible intro _ | with_reducible apply State.addO_kept
    | with_reducible apply State.dropCmd_kept | with_reducible apply State.freeSlot_kept
    | with_reducible apply State.closeJob_kept | split
    | (refine Kept.fields rfl rfl rfl rfl rfl ?_; first
      | with_reducible assumption | with_reducible intro _ | with_reducible apply State.addO_kept
      | with_reducible apply State.dropCmd_kept | with_reducible apply State.freeSlot_kept
      | with_reducible apply State.closeJob_kept | split))

theorem State.faultContext_kept {s0 s : State} (c : Cmd) (hs : Kept s0 s) : Kept s0 (State.faultContext s c) := by
  unfold State.faultContext
  try dsimp only
  repeat' (first
    | with_reducible assumption | with_reducible intro _ | with_reducible apply State.setO_kept
    | with_reducible apply State.modCtx_kept | with_reducible apply State.countJob_kept
    | with_reducible apply State.freeThreads_kept | with_reducible apply State.endHolds_kept
    | with_reducible apply State.endTrigger_kept | with_reducible apply Kept.cond | split
    | (refine Kept.fields rfl rfl rfl rfl rfl ?_; first
      | with_reducible assumption | with_reducible intro _ | with_reducible apply State.setO_kept
      | with_reducible apply State.modCtx_kept | with_reducible apply State.countJob_kept
      | with_reducible apply State.freeThreads_kept))

theorem State.retireTriggered_kept {s0 s : State} (c : Cmd) (hs : Kept s0 s) : Kept s0 (State.retireTriggered s c) := by
  unfold State.retireTriggered
  try dsimp only
  repeat' (first
    | with_reducible assumption | with_reducible intro _ | with_reducible apply State.dropCmd_kept
    | with_reducible apply State.retireSilently_kept | with_reducible apply State.faultContext_kept
    | with_reducible apply Kept.cond)

theorem State.settle_kept {s0 s : State} (cid : Nat) (hs : Kept s0 s) : Kept s0 (State.settle s cid) := by
  unfold State.settle
  try dsimp only
  repeat' (first
    | with_reducible assumption | with_reducible intro _ | with_reducible apply State.retireSilently_kept
    | with_reducible apply State.retireTriggered_kept | with_reducible apply Kept.cond | split
    | (refine Kept.fields rfl rfl rfl rfl rfl ?_; first
      | with_reducible assumption | with_reducible intro _ | with_reducible apply State.retireSilently_kept
      | with_reducible apply State.retireTriggered_kept | with_reducible apply Kept.cond | split))

theorem State.settleAll_kept {s0 s : State}  (xs : List Nat) (hs : Kept s0 s) : Kept s0 (State.settleAll s xs) := by
  induction xs generalizing s  with
  | nil =>
    unfold State.settleAll
    try dsimp only
    repeat' (first | with_reducible assumption) | cons e es ih =>
    unfold State.settleAll
    try dsimp only
    repeat' (first
      | with_reducible assumption | with_reducible intro _ | with_reducible apply ih
      | with_reducible apply State.settle_kept)

theorem State.conclude_kept {s0 s : State} (cid status : Nat) (detail : List Nat) (hs : Kept s0 s) : Kept s0
    (State.conclude s cid status detail) := by
  unfold State.conclude
  try dsimp only
  repeat' (first
    | with_reducible assumption | with_reducible intro _ | with_reducible apply State.finish_kept
    | with_reducible apply State.settle_kept)

theorem State.sumpBytes_kept {s0 s : State} (n : Nat) (hs : Kept s0 s) : Kept s0 (State.sumpBytes s n) := by
  unfold State.sumpBytes
  try dsimp only
  repeat' (first
    | with_reducible assumption | with_reducible intro _ | with_reducible apply State.addG_kept
    | with_reducible apply State.addTerm_kept)

theorem State.issueSump_kept {s0 s : State} (n : Nat) (hs : Kept s0 s) : Kept s0 (State.issueSump s n) := by
  unfold State.issueSump
  try dsimp only
  repeat' (first
    | with_reducible assumption | with_reducible intro _ | with_reducible apply State.addTerm_kept
    | with_reducible apply State.sumpBytes_kept)

theorem State.store_kept {s0 s : State} (a : Nat) (data : List Byte) (hs : Kept s0 s) : Kept s0 (State.store s a
    data) := by
  unfold State.store
  try dsimp only
  repeat' (first
    | with_reducible assumption | with_reducible intro _ | with_reducible apply State.wrN_kept | split
    | (refine Kept.fields rfl rfl rfl rfl rfl ?_; first
      | with_reducible assumption | with_reducible intro _ | with_reducible apply State.wrN_kept))

theorem State.countUncorrectable_kept {s0 s : State} (a source : Nat) (hs : Kept s0 s) : Kept s0
    (State.countUncorrectable s a source) := by
  unfold State.countUncorrectable
  try dsimp only
  repeat' (first
    | with_reducible assumption | with_reducible intro _ | with_reducible apply State.setG_kept
    | with_reducible apply State.addG_kept | with_reducible apply Kept.cond)

theorem State.failPiece_kept {s0 s : State} (p : Piece) (status : Nat) (addr : Nat) (hs : Kept s0 s) : Kept s0
    (State.failPiece s p status addr) := by
  unfold State.failPiece
  try dsimp only
  repeat' (first
    | with_reducible assumption | with_reducible intro _ | with_reducible apply State.modCmd_kept
    | with_reducible apply State.sumpWhere_kept | with_reducible apply State.failTb_kept
    | with_reducible apply Kept.cond | split
    | (refine Kept.fields rfl rfl rfl rfl rfl ?_; first
      | with_reducible assumption | with_reducible intro _ | with_reducible apply State.modCmd_kept
      | with_reducible apply State.sumpWhere_kept | with_reducible apply State.failTb_kept
      | with_reducible apply Kept.cond | split))

theorem State.dropPiece_kept {s0 s : State} (p : Piece) (hs : Kept s0 s) : Kept s0 (State.dropPiece s p) := by
  unfold State.dropPiece
  try dsimp only
  repeat' (first
    | with_reducible assumption | with_reducible intro _ | with_reducible apply State.settle_kept | split
    | (refine Kept.fields rfl rfl rfl rfl rfl ?_; first
      | with_reducible assumption))

theorem State.countLanding_kept {s0 s : State} (float : Option Nat) (n : Nat) (hs : Kept s0 s) : Kept s0
    (State.countLanding s float n) := by
  unfold State.countLanding
  try dsimp only
  repeat' (first
    | with_reducible assumption | with_reducible intro _ | with_reducible apply State.addFloat_kept
    | with_reducible apply State.addTerm_kept | split
    | (refine Kept.fields rfl rfl rfl rfl rfl ?_; first
      | with_reducible assumption | with_reducible intro _ | with_reducible apply State.addFloat_kept
      | with_reducible apply State.addTerm_kept | split))

theorem State.raiseCistern_kept {s0 s : State} (p : Piece) (addr : Nat) (hs : Kept s0 s) : Kept s0 (State.raiseCistern
    s p addr) := by
  unfold State.raiseCistern
  try dsimp only
  repeat' (first
    | with_reducible assumption | with_reducible intro _ | with_reducible apply State.raise_kept | split
    | (refine Kept.fields rfl rfl rfl rfl rfl ?_; first
      | with_reducible assumption | with_reducible intro _ | with_reducible apply State.raise_kept | split))

theorem State.landPiece_kept {s0 s : State} (p : Piece) (hs : Kept s0 s) : Kept s0 (State.landPiece s p) := by
  unfold State.landPiece
  try dsimp only
  repeat' (first
    | with_reducible assumption | with_reducible intro _ | with_reducible apply State.sumpBytes_kept
    | with_reducible apply State.store_kept | with_reducible apply State.countUncorrectable_kept
    | with_reducible apply State.failPiece_kept | with_reducible apply State.dropPiece_kept
    | with_reducible apply State.countLanding_kept | with_reducible apply State.raiseCistern_kept
    | with_reducible apply Kept.cond | split
    | (refine Kept.fields rfl rfl rfl rfl rfl ?_; first
      | with_reducible assumption | with_reducible intro _ | with_reducible apply State.sumpBytes_kept
      | with_reducible apply State.store_kept | with_reducible apply State.countUncorrectable_kept
      | with_reducible apply State.failPiece_kept | with_reducible apply State.dropPiece_kept
      | with_reducible apply State.countLanding_kept | with_reducible apply State.raiseCistern_kept
      | with_reducible apply Kept.cond | split))

theorem State.askBlocks_kept {s0 s : State} (q : ReadReq) (rate : Nat) (slots : SMap Nat) (last : Nat) (xs : List
    Block) (hs : Kept s0 s) : Kept s0 (State.askBlocks s q rate slots last xs).1 := by
  induction xs generalizing s q rate slots last with
  | nil =>
    unfold State.askBlocks
    try dsimp only
    repeat' (first
      | with_reducible assumption | with_reducible intro _ | with_reducible apply ih | with_reducible apply Kept.cond
      | split
      | (refine Kept.fields rfl rfl rfl rfl rfl ?_; first
        | with_reducible assumption | with_reducible intro _ | with_reducible apply ih
        | with_reducible apply Kept.cond | split))
  | cons e es ih =>
    unfold State.askBlocks
    try dsimp only
    repeat' (first
      | with_reducible assumption | with_reducible intro _ | with_reducible apply ih | with_reducible apply Kept.cond
      | split
      | (refine Kept.fields rfl rfl rfl rfl rfl ?_; first
        | with_reducible assumption | with_reducible intro _ | with_reducible apply ih
        | with_reducible apply Kept.cond | split))

theorem State.issueFrom_kept {s0 s : State} (c : Cmd) (pace : Pace) (float : Option Nat) (slots : SMap Nat) (off idx :
    Nat) (xs : List Part) (hs : Kept s0 s) : Kept s0 (State.issueFrom s c pace float slots off idx xs) := by
  induction xs generalizing s c pace float slots off idx with
  | nil =>
    unfold State.issueFrom
    try dsimp only
    repeat' (first
      | with_reducible assumption | with_reducible intro _ | with_reducible apply ih
      | with_reducible apply State.addTerm_kept | with_reducible apply State.askBlocks_kept
      | with_reducible apply Kept.cond | split
      | (refine Kept.fields rfl rfl rfl rfl rfl ?_; first
        | with_reducible assumption | with_reducible intro _ | with_reducible apply ih
        | with_reducible apply State.addTerm_kept | with_reducible apply State.askBlocks_kept
        | with_reducible apply Kept.cond | split))
  | cons e es ih =>
    unfold State.issueFrom
    try dsimp only
    repeat' (first
      | with_reducible assumption | with_reducible intro _ | with_reducible apply ih
      | with_reducible apply State.addTerm_kept | with_reducible apply State.askBlocks_kept
      | with_reducible apply Kept.cond | split
      | (refine Kept.fields rfl rfl rfl rfl rfl ?_; first
        | with_reducible assumption | with_reducible intro _ | with_reducible apply ih
        | with_reducible apply State.addTerm_kept | with_reducible apply State.askBlocks_kept
        | with_reducible apply Kept.cond | split))

theorem State.emitData_kept {s0 s : State} (c : Cmd) (float : Option Nat) (dst : DevAddr) (data : List Byte) (hs :
    Kept s0 s) : Kept s0 (State.emitData s c float dst data) := by
  unfold State.emitData
  try dsimp only
  repeat' (first
    | with_reducible assumption | with_reducible intro _ | with_reducible apply State.issueFrom_kept | split)

theorem State.dropRead_kept {s0 s : State} (r : ReadReq) (hs : Kept s0 s) : Kept s0 (State.dropRead s r) := by
  unfold State.dropRead
  try dsimp only
  repeat' (first
    | with_reducible assumption | with_reducible intro _ | with_reducible apply State.settle_kept | split
    | (refine Kept.fields rfl rfl rfl rfl rfl ?_; first
      | with_reducible assumption))

theorem State.presentRead_kept {s0 s : State} (r : ReadReq) (hs : Kept s0 s) : Kept s0 (State.presentRead s r) := by
  unfold State.presentRead
  try dsimp only
  repeat' (first
    | with_reducible assumption | with_reducible intro _ | with_reducible apply State.dropRead_kept
    | with_reducible apply Kept.cond | split
    | (refine Kept.fields rfl rfl rfl rfl rfl ?_; first
      | with_reducible assumption | with_reducible intro _ | with_reducible apply State.dropRead_kept
      | with_reducible apply Kept.cond | split))

theorem State.overlay_kept {s0 s : State}  (xs : List ReadReq) (hs : Kept s0 s) : Kept s0 (State.overlay s xs) := by
  induction xs generalizing s  with
  | nil =>
    unfold State.overlay
    try dsimp only
    repeat' (first
      | with_reducible assumption | with_reducible intro _ | with_reducible apply ih
      | with_reducible apply State.wrN_kept | split | (with_reducible refine Kept.elim _ ?_ (fun _ => ?_)))
  | cons e es ih =>
    unfold State.overlay
    try dsimp only
    repeat' (first
      | with_reducible assumption | with_reducible intro _ | with_reducible apply ih
      | with_reducible apply State.wrN_kept | split | (with_reducible refine Kept.elim _ ?_ (fun _ => ?_)))

theorem State.asSeen_kept {s0 s : State} (cid : Nat) (thread : Option (Nat × Nat)) (hs : Kept s0 s) : Kept s0
    (State.asSeen s cid thread) := by
  unfold State.asSeen
  try dsimp only
  repeat' (first
    | with_reducible assumption | with_reducible intro _ | with_reducible apply State.overlay_kept | split
    | (refine Kept.fields rfl rfl rfl rfl rfl ?_; first
      | with_reducible assumption | with_reducible intro _ | with_reducible apply State.overlay_kept | split))

theorem State.takeReads_kept {s0 s : State} (cid : Nat) (thread : Option (Nat × Nat)) (hs : Kept s0 s) : Kept s0
    (State.takeReads s cid thread) := by
  unfold State.takeReads
  try dsimp only
  repeat' (first
    | with_reducible assumption | with_reducible intro _ | split
    | (refine Kept.fields rfl rfl rfl rfl rfl ?_; first
      | with_reducible assumption | with_reducible intro _ | split))

theorem State.unissue_kept {s0 s : State} (gone : List Piece) (hs : Kept s0 s) : Kept s0 (State.unissue s gone) := by
  unfold State.unissue
  try dsimp only
  repeat' (first
    | with_reducible assumption | with_reducible intro _ | with_reducible apply State.setTerm_kept | split
    | (refine Kept.fields rfl rfl rfl rfl rfl ?_; first
      | with_reducible assumption | with_reducible intro _ | with_reducible apply State.setTerm_kept | split))

theorem State.cutPieces_kept {s0 s : State} (cid : Nat) (sump : Bool) (hs : Kept s0 s) : Kept s0 (State.cutPieces s
    cid sump) := by
  unfold State.cutPieces
  try dsimp only
  repeat' (first
    | with_reducible assumption | with_reducible intro _ | with_reducible apply State.fresh_kept
    | with_reducible apply State.sumpWhere_kept | with_reducible apply State.unissue_kept
    | with_reducible apply Kept.cond | split)

theorem State.noteBad_kept {s0 s : State} (c : Cmd) (e : Refused) (hs : Kept s0 s) : Kept s0 (State.noteBad s c e) := by
  unfold State.noteBad
  try dsimp only
  repeat' (first
    | with_reducible assumption | with_reducible intro _ | with_reducible apply State.raise_kept
    | with_reducible apply State.countUncorrectable_kept | with_reducible apply Kept.cond)

theorem State.perform_kept {s0 s : State} (cid : Nat) (is : Cmd → Bool) (k : Cmd → State → Except Refused (State ×
    List Nat))
    (hk : ∀ c t, Kept s0 t → KeptP s0 (k c t)) (h : Kept s0 s) : Kept s0 (s.perform cid is k) := by
  unfold State.perform
  split
  · split
    · split
      · exact State.did_kept _ _ _ (hk _ _ h _ ‹_›)
      · exact State.did_kept _ _ _ (State.noteBad_kept _ _ h)
    · exact h
  · exact h

end Sys2Proof.Machine
end

