-- ==== Sys2Proof/Laws/KeptCompute.lean ====
section
/-!
SUPPORT. The operations of Machine/Formats, Machine/Matrix, Machine/Vector, Machine/Commands, Machine/Heads keep the
    queue and the canonical form.
-/

namespace Sys2Proof.Machine

theorem State.writeOutputs_kept {s0 s : State} (base width : Nat) (xs : List (Nat × Option Nat)) (h : Kept s0 s) :
    Kept s0 (s.writeOutputs base width xs) := by
  induction xs generalizing s with
  | nil => exact h
  | cons e es ih =>
    obtain ⟨off, v⟩ := e
    cases v with
    | none => exact ih h
    | some v => exact ih (State.wrN_kept _ _ h)

theorem State.writeBounds_kept {s0 s : State} (well fmt out pitch n bound : Nat) (xs : List Nat) (hs : Kept s0 s) :
    Kept s0 (State.writeBounds s well fmt out pitch n bound xs) := by
  induction xs generalizing s well fmt out pitch n bound with
  | nil =>
    unfold State.writeBounds
    try dsimp only
    repeat' (first | with_reducible assumption) | cons e es ih =>
    unfold State.writeBounds
    try dsimp only
    repeat' (first
      | with_reducible assumption | with_reducible intro _ | with_reducible apply ih
      | with_reducible apply State.wrN_kept)

theorem State.setAccs_kept {s0 s : State} (core : Nat) (arrays : List Nat) (l : List (Nat × BitVec 96 × BitVec 3)) (hs
    : Kept s0 s) : Kept s0 (State.setAccs s core arrays l) := by
  unfold State.setAccs
  try dsimp only
  repeat' (first
    | with_reducible assumption | with_reducible intro _ | with_reducible apply State.modCore_kept | split
    | (with_reducible refine Kept.foldl _ (fun _ _ _ => ?_) _ ?_)
    | (refine Kept.fields rfl rfl rfl rfl rfl ?_; first
      | with_reducible assumption | with_reducible intro _ | with_reducible apply State.modCore_kept | split
      | (with_reducible refine Kept.foldl _ (fun _ _ _ => ?_) _ ?_)))

theorem State.loadAct_kept {s0 s : State} (c : Cmd) (f : Folio) (core well cls array : Nat) (rows : List (Nat × Nat))
    (p : Nat × Nat) (hs : Kept s0 s) : Kept s0 (State.loadAct s c f core well cls array rows p) := by
  unfold State.loadAct
  try dsimp only
  repeat' (first
    | with_reducible assumption | with_reducible intro _ | with_reducible apply State.modCore_kept | split
    | (with_reducible refine Kept.foldl _ (fun _ _ _ => ?_) _ ?_)
    | (refine Kept.fields rfl rfl rfl rfl rfl ?_; first
      | with_reducible assumption | with_reducible intro _ | with_reducible apply State.modCore_kept | split
      | (with_reducible refine Kept.foldl _ (fun _ _ _ => ?_) _ ?_)))

theorem State.loadActs_kept {s0 s : State} (c : Cmd) (f : Folio) (core well : Nat) (rows : List Nat) (hs : Kept s0 s)
    : Kept s0 (State.loadActs s c f core well rows) := by
  unfold State.loadActs
  try dsimp only
  repeat' (first
    | with_reducible assumption | with_reducible intro _ | with_reducible apply State.loadAct_kept
    | with_reducible apply Kept.cond | split | (with_reducible refine Kept.foldl _ (fun _ _ _ => ?_) _ ?_))

theorem State.runFolio_kept {s0 s : State} (c : Cmd) (index : Nat) (f : Folio) (hs : Kept s0 s) : Kept s0
    (State.runFolio s c index f) := by
  unfold State.runFolio
  try dsimp only
  repeat' (first
    | with_reducible assumption | with_reducible intro _ | with_reducible apply State.addG_kept
    | with_reducible apply State.modCmd_kept | with_reducible apply State.writeOutputs_kept
    | with_reducible apply State.writeBounds_kept | with_reducible apply State.setAccs_kept
    | with_reducible apply State.loadActs_kept | with_reducible apply Kept.cond | split
    | (refine Kept.fields rfl rfl rfl rfl rfl ?_; first
      | with_reducible assumption | with_reducible intro _ | with_reducible apply State.addG_kept
      | with_reducible apply State.modCmd_kept | with_reducible apply State.writeOutputs_kept
      | with_reducible apply State.writeBounds_kept | with_reducible apply State.setAccs_kept
      | with_reducible apply State.loadActs_kept | with_reducible apply Kept.cond | split))

theorem State.runFolios_kept {s0 s : State} (c : Cmd) (index : Nat) (xs : List Folio) (hs : Kept s0 s) : Kept s0
    (State.runFolios s c index xs) := by
  induction xs generalizing s c index with
  | nil =>
    unfold State.runFolios
    try dsimp only
    repeat' (first | with_reducible assumption) | cons e es ih =>
    unfold State.runFolios
    try dsimp only
    repeat' (first
      | with_reducible assumption | with_reducible intro _ | with_reducible apply ih
      | with_reducible apply State.runFolio_kept)

theorem State.countStalls_kept {s0 s : State} (c : Cmd) (arrays t : Nat) (hs : Kept s0 s) : Kept s0 (State.countStalls
    s c arrays t) := by
  unfold State.countStalls
  try dsimp only
  repeat' (first
    | with_reducible assumption | with_reducible intro _ | with_reducible apply State.addG_kept
    | with_reducible apply State.fresh_kept | with_reducible apply Kept.cond | split)

theorem State.foliosPart_kept {s0 s : State} (c : Cmd) (index : Nat) (fs : List Folio) (hs : Kept s0 s) : Kept s0
    (State.foliosPart s c index fs) := by
  unfold State.foliosPart
  try dsimp only
  repeat' (first
    | with_reducible assumption | with_reducible intro _ | with_reducible apply State.runFolios_kept
    | with_reducible apply State.countStalls_kept | split)

theorem foliosEffect_kept {s0 s : State} (c : Cmd) (hs : Kept s0 s) : KeptP s0 (foliosEffect c s) := by
  unfold foliosEffect
  try dsimp only
  repeat' (first
    | with_reducible assumption | with_reducible intro _ | with_reducible apply State.foliosPart_kept
    | with_reducible apply KeptP.ok | with_reducible apply KeptP.map | with_reducible apply KeptP.error
    | (with_reducible refine KeptP.bindP ?_ (fun _ _ => ?_)) | (with_reducible refine KeptP.bindS ?_ (fun _ _ => ?_))
    | (with_reducible refine KeptP.bind (fun _ => ?_)) | with_reducible apply KeptE.ok
    | with_reducible apply KeptE.error | (with_reducible refine KeptE.bindS ?_ (fun _ _ => ?_))
    | (with_reducible refine KeptE.bind (fun _ => ?_)) | split)

theorem execFolios_kept {s0 s : State} (cid : Nat) (hs : Kept s0 s) : KeptO s0 (execFolios cid s) := by
  unfold execFolios
  try dsimp only
  repeat' (first
    | with_reducible assumption | with_reducible intro _ | with_reducible apply State.perform_kept
    | with_reducible apply foliosEffect_kept
    | (with_reducible refine KeptP.get (foliosEffect_kept _  ?_) (by assumption)) | with_reducible apply KeptO.next)

theorem combineEffect_kept {s0 s : State} (c : Cmd) (hs : Kept s0 s) : KeptP s0 (combineEffect c s) := by
  unfold combineEffect
  try dsimp only
  repeat' (first
    | with_reducible assumption | with_reducible intro _ | with_reducible apply State.writeOutputs_kept
    | with_reducible apply State.countStalls_kept | with_reducible apply KeptP.ok | with_reducible apply KeptP.map
    | with_reducible apply KeptP.error | (with_reducible refine KeptP.bindP ?_ (fun _ _ => ?_))
    | (with_reducible refine KeptP.bindS ?_ (fun _ _ => ?_)) | (with_reducible refine KeptP.bind (fun _ => ?_))
    | with_reducible apply KeptE.ok | with_reducible apply KeptE.error
    | (with_reducible refine KeptE.bindS ?_ (fun _ _ => ?_)) | (with_reducible refine KeptE.bind (fun _ => ?_))
    | with_reducible apply Kept.cond | split)

theorem execCombine_kept {s0 s : State} (cid : Nat) (hs : Kept s0 s) : KeptO s0 (execCombine cid s) := by
  unfold execCombine
  try dsimp only
  repeat' (first
    | with_reducible assumption | with_reducible intro _ | with_reducible apply State.perform_kept
    | with_reducible apply combineEffect_kept
    | (with_reducible refine KeptP.get (combineEffect_kept _  ?_) (by assumption)) | with_reducible apply KeptO.next)

theorem State.vput_kept {s0 s : State} (well : Nat) (v : VStream) (r i x : Nat) (hs : Kept s0 s) : Kept s0 (State.vput
    s well v r i x) := by
  unfold State.vput
  try dsimp only
  repeat' (first | with_reducible assumption | with_reducible intro _ | with_reducible apply State.wrN_kept)

theorem State.vputs_kept {s0 s : State} (well : Nat) (v : VStream) (xs : List (Nat × Nat × Nat)) (hs : Kept s0 s) :
    Kept s0 (State.vputs s well v xs) := by
  induction xs generalizing s well v with
  | nil =>
    unfold State.vputs
    try dsimp only
    repeat' (first | with_reducible assumption) | cons e es ih =>
    unfold State.vputs
    try dsimp only
    repeat' (first
      | with_reducible assumption | with_reducible intro _ | with_reducible apply ih
      | with_reducible apply State.vput_kept)

theorem State.vwriteBounds_kept {s0 s : State} (c : Cmd) (well : Nat) (xs : List Nat) (hs : Kept s0 s) : Kept s0
    (State.vwriteBounds s c well xs) := by
  induction xs generalizing s c well with
  | nil =>
    unfold State.vwriteBounds
    try dsimp only
    repeat' (first | with_reducible assumption) | cons e es ih =>
    unfold State.vwriteBounds
    try dsimp only
    repeat' (first
      | with_reducible assumption | with_reducible intro _ | with_reducible apply ih
      | with_reducible apply State.vputs_kept)

theorem State.vectorPart_kept {s0 s : State} (c : Cmd) (well lo hi : Nat) (hs : Kept s0 s) : Kept s0 (State.vectorPart
    s c well lo hi).1 := by
  unfold State.vectorPart
  try dsimp only
  repeat' (first
    | with_reducible assumption | with_reducible intro _ | with_reducible apply State.vputs_kept
    | with_reducible apply State.vwriteBounds_kept | with_reducible apply Kept.cond | split)

theorem vectorEffect_kept {s0 s : State} (c : Cmd) (hs : Kept s0 s) : KeptP s0 (vectorEffect c s) := by
  unfold vectorEffect
  try dsimp only
  repeat' (first
    | with_reducible assumption | with_reducible intro _ | with_reducible apply State.vectorPart_kept
    | with_reducible apply KeptP.ok | with_reducible apply KeptP.map | with_reducible apply KeptP.error
    | (with_reducible refine KeptP.bindP ?_ (fun _ _ => ?_)) | (with_reducible refine KeptP.bindS ?_ (fun _ _ => ?_))
    | (with_reducible refine KeptP.bind (fun _ => ?_)) | with_reducible apply KeptE.ok
    | with_reducible apply KeptE.error | (with_reducible refine KeptE.bindS ?_ (fun _ _ => ?_))
    | (with_reducible refine KeptE.bind (fun _ => ?_)) | with_reducible apply Kept.cond | split)

theorem vectorRun_kept {s0 s : State} (op cid : Nat) (hs : Kept s0 s) : Kept s0 (vectorRun op cid s) := by
  unfold vectorRun
  try dsimp only
  repeat' (first
    | with_reducible assumption | with_reducible intro _ | with_reducible apply State.perform_kept
    | with_reducible apply vectorEffect_kept)

theorem execVectorAdd_kept {s0 s : State} (cid : Nat) (hs : Kept s0 s) : KeptO s0 (execVectorAdd cid s) := by
  unfold execVectorAdd
  try dsimp only
  repeat' (first
    | with_reducible assumption | with_reducible intro _ | with_reducible apply vectorRun_kept
    | with_reducible apply KeptO.next)

theorem execVectorSub_kept {s0 s : State} (cid : Nat) (hs : Kept s0 s) : KeptO s0 (execVectorSub cid s) := by
  unfold execVectorSub
  try dsimp only
  repeat' (first
    | with_reducible assumption | with_reducible intro _ | with_reducible apply vectorRun_kept
    | with_reducible apply KeptO.next)

theorem execVectorMul_kept {s0 s : State} (cid : Nat) (hs : Kept s0 s) : KeptO s0 (execVectorMul cid s) := by
  unfold execVectorMul
  try dsimp only
  repeat' (first
    | with_reducible assumption | with_reducible intro _ | with_reducible apply vectorRun_kept
    | with_reducible apply KeptO.next)

theorem execVectorFma_kept {s0 s : State} (cid : Nat) (hs : Kept s0 s) : KeptO s0 (execVectorFma cid s) := by
  unfold execVectorFma
  try dsimp only
  repeat' (first
    | with_reducible assumption | with_reducible intro _ | with_reducible apply vectorRun_kept
    | with_reducible apply KeptO.next)

theorem execVectorMax_kept {s0 s : State} (cid : Nat) (hs : Kept s0 s) : KeptO s0 (execVectorMax cid s) := by
  unfold execVectorMax
  try dsimp only
  repeat' (first
    | with_reducible assumption | with_reducible intro _ | with_reducible apply vectorRun_kept
    | with_reducible apply KeptO.next)

theorem execVectorMin_kept {s0 s : State} (cid : Nat) (hs : Kept s0 s) : KeptO s0 (execVectorMin cid s) := by
  unfold execVectorMin
  try dsimp only
  repeat' (first
    | with_reducible assumption | with_reducible intro _ | with_reducible apply vectorRun_kept
    | with_reducible apply KeptO.next)

theorem execVectorAbs_kept {s0 s : State} (cid : Nat) (hs : Kept s0 s) : KeptO s0 (execVectorAbs cid s) := by
  unfold execVectorAbs
  try dsimp only
  repeat' (first
    | with_reducible assumption | with_reducible intro _ | with_reducible apply vectorRun_kept
    | with_reducible apply KeptO.next)

theorem execVectorNeg_kept {s0 s : State} (cid : Nat) (hs : Kept s0 s) : KeptO s0 (execVectorNeg cid s) := by
  unfold execVectorNeg
  try dsimp only
  repeat' (first
    | with_reducible assumption | with_reducible intro _ | with_reducible apply vectorRun_kept
    | with_reducible apply KeptO.next)

theorem execVectorCvt_kept {s0 s : State} (cid : Nat) (hs : Kept s0 s) : KeptO s0 (execVectorCvt cid s) := by
  unfold execVectorCvt
  try dsimp only
  repeat' (first
    | with_reducible assumption | with_reducible intro _ | with_reducible apply vectorRun_kept
    | with_reducible apply KeptO.next)

theorem execVectorCmp_kept {s0 s : State} (cid : Nat) (hs : Kept s0 s) : KeptO s0 (execVectorCmp cid s) := by
  unfold execVectorCmp
  try dsimp only
  repeat' (first
    | with_reducible assumption | with_reducible intro _ | with_reducible apply vectorRun_kept
    | with_reducible apply KeptO.next)

theorem execVectorSel_kept {s0 s : State} (cid : Nat) (hs : Kept s0 s) : KeptO s0 (execVectorSel cid s) := by
  unfold execVectorSel
  try dsimp only
  repeat' (first
    | with_reducible assumption | with_reducible intro _ | with_reducible apply vectorRun_kept
    | with_reducible apply KeptO.next)

theorem execVectorLogic_kept {s0 s : State} (cid : Nat) (hs : Kept s0 s) : KeptO s0 (execVectorLogic cid s) := by
  unfold execVectorLogic
  try dsimp only
  repeat' (first
    | with_reducible assumption | with_reducible intro _ | with_reducible apply vectorRun_kept
    | with_reducible apply KeptO.next)

theorem execVectorDiv_kept {s0 s : State} (cid : Nat) (hs : Kept s0 s) : KeptO s0 (execVectorDiv cid s) := by
  unfold execVectorDiv
  try dsimp only
  repeat' (first
    | with_reducible assumption | with_reducible intro _ | with_reducible apply vectorRun_kept
    | with_reducible apply KeptO.next)

theorem execVectorSqrt_kept {s0 s : State} (cid : Nat) (hs : Kept s0 s) : KeptO s0 (execVectorSqrt cid s) := by
  unfold execVectorSqrt
  try dsimp only
  repeat' (first
    | with_reducible assumption | with_reducible intro _ | with_reducible apply vectorRun_kept
    | with_reducible apply KeptO.next)

theorem execVectorRecip_kept {s0 s : State} (cid : Nat) (hs : Kept s0 s) : KeptO s0 (execVectorRecip cid s) := by
  unfold execVectorRecip
  try dsimp only
  repeat' (first
    | with_reducible assumption | with_reducible intro _ | with_reducible apply vectorRun_kept
    | with_reducible apply KeptO.next)

theorem execVectorRsqrt_kept {s0 s : State} (cid : Nat) (hs : Kept s0 s) : KeptO s0 (execVectorRsqrt cid s) := by
  unfold execVectorRsqrt
  try dsimp only
  repeat' (first
    | with_reducible assumption | with_reducible intro _ | with_reducible apply vectorRun_kept
    | with_reducible apply KeptO.next)

theorem execVectorExp_kept {s0 s : State} (cid : Nat) (hs : Kept s0 s) : KeptO s0 (execVectorExp cid s) := by
  unfold execVectorExp
  try dsimp only
  repeat' (first
    | with_reducible assumption | with_reducible intro _ | with_reducible apply vectorRun_kept
    | with_reducible apply KeptO.next)

theorem execVectorLog_kept {s0 s : State} (cid : Nat) (hs : Kept s0 s) : KeptO s0 (execVectorLog cid s) := by
  unfold execVectorLog
  try dsimp only
  repeat' (first
    | with_reducible assumption | with_reducible intro _ | with_reducible apply vectorRun_kept
    | with_reducible apply KeptO.next)

theorem execVectorSigmoid_kept {s0 s : State} (cid : Nat) (hs : Kept s0 s) : KeptO s0 (execVectorSigmoid cid s) := by
  unfold execVectorSigmoid
  try dsimp only
  repeat' (first
    | with_reducible assumption | with_reducible intro _ | with_reducible apply vectorRun_kept
    | with_reducible apply KeptO.next)

theorem execVectorTanh_kept {s0 s : State} (cid : Nat) (hs : Kept s0 s) : KeptO s0 (execVectorTanh cid s) := by
  unfold execVectorTanh
  try dsimp only
  repeat' (first
    | with_reducible assumption | with_reducible intro _ | with_reducible apply vectorRun_kept
    | with_reducible apply KeptO.next)

theorem execVectorSilu_kept {s0 s : State} (cid : Nat) (hs : Kept s0 s) : KeptO s0 (execVectorSilu cid s) := by
  unfold execVectorSilu
  try dsimp only
  repeat' (first
    | with_reducible assumption | with_reducible intro _ | with_reducible apply vectorRun_kept
    | with_reducible apply KeptO.next)

theorem execVectorGelu_kept {s0 s : State} (cid : Nat) (hs : Kept s0 s) : KeptO s0 (execVectorGelu cid s) := by
  unfold execVectorGelu
  try dsimp only
  repeat' (first
    | with_reducible assumption | with_reducible intro _ | with_reducible apply vectorRun_kept
    | with_reducible apply KeptO.next)

theorem execVectorSubexp_kept {s0 s : State} (cid : Nat) (hs : Kept s0 s) : KeptO s0 (execVectorSubexp cid s) := by
  unfold execVectorSubexp
  try dsimp only
  repeat' (first
    | with_reducible assumption | with_reducible intro _ | with_reducible apply vectorRun_kept
    | with_reducible apply KeptO.next)

theorem execVectorRsum_kept {s0 s : State} (cid : Nat) (hs : Kept s0 s) : KeptO s0 (execVectorRsum cid s) := by
  unfold execVectorRsum
  try dsimp only
  repeat' (first
    | with_reducible assumption | with_reducible intro _ | with_reducible apply vectorRun_kept
    | with_reducible apply KeptO.next)

theorem execVectorRprod_kept {s0 s : State} (cid : Nat) (hs : Kept s0 s) : KeptO s0 (execVectorRprod cid s) := by
  unfold execVectorRprod
  try dsimp only
  repeat' (first
    | with_reducible assumption | with_reducible intro _ | with_reducible apply vectorRun_kept
    | with_reducible apply KeptO.next)

theorem execVectorRmax_kept {s0 s : State} (cid : Nat) (hs : Kept s0 s) : KeptO s0 (execVectorRmax cid s) := by
  unfold execVectorRmax
  try dsimp only
  repeat' (first
    | with_reducible assumption | with_reducible intro _ | with_reducible apply vectorRun_kept
    | with_reducible apply KeptO.next)

theorem execVectorRmin_kept {s0 s : State} (cid : Nat) (hs : Kept s0 s) : KeptO s0 (execVectorRmin cid s) := by
  unfold execVectorRmin
  try dsimp only
  repeat' (first
    | with_reducible assumption | with_reducible intro _ | with_reducible apply vectorRun_kept
    | with_reducible apply KeptO.next)

theorem execVectorArgmax_kept {s0 s : State} (cid : Nat) (hs : Kept s0 s) : KeptO s0 (execVectorArgmax cid s) := by
  unfold execVectorArgmax
  try dsimp only
  repeat' (first
    | with_reducible assumption | with_reducible intro _ | with_reducible apply vectorRun_kept
    | with_reducible apply KeptO.next)

theorem execVectorArgmin_kept {s0 s : State} (cid : Nat) (hs : Kept s0 s) : KeptO s0 (execVectorArgmin cid s) := by
  unfold execVectorArgmin
  try dsimp only
  repeat' (first
    | with_reducible assumption | with_reducible intro _ | with_reducible apply vectorRun_kept
    | with_reducible apply KeptO.next)

theorem execVectorCount_kept {s0 s : State} (cid : Nat) (hs : Kept s0 s) : KeptO s0 (execVectorCount cid s) := by
  unfold execVectorCount
  try dsimp only
  repeat' (first
    | with_reducible assumption | with_reducible intro _ | with_reducible apply vectorRun_kept
    | with_reducible apply KeptO.next)

theorem execVectorPerm_kept {s0 s : State} (cid : Nat) (hs : Kept s0 s) : KeptO s0 (execVectorPerm cid s) := by
  unfold execVectorPerm
  try dsimp only
  repeat' (first
    | with_reducible assumption | with_reducible intro _ | with_reducible apply vectorRun_kept
    | with_reducible apply KeptO.next)

theorem execVectorGather_kept {s0 s : State} (cid : Nat) (hs : Kept s0 s) : KeptO s0 (execVectorGather cid s) := by
  unfold execVectorGather
  try dsimp only
  repeat' (first
    | with_reducible assumption | with_reducible intro _ | with_reducible apply vectorRun_kept
    | with_reducible apply KeptO.next)

theorem execVectorScatter_kept {s0 s : State} (cid : Nat) (hs : Kept s0 s) : KeptO s0 (execVectorScatter cid s) := by
  unfold execVectorScatter
  try dsimp only
  repeat' (first
    | with_reducible assumption | with_reducible intro _ | with_reducible apply vectorRun_kept
    | with_reducible apply KeptO.next)

theorem execQuant_kept {s0 s : State} (cid : Nat) (hs : Kept s0 s) : KeptO s0 (execQuant cid s) := by
  unfold execQuant
  try dsimp only
  repeat' (first
    | with_reducible assumption | with_reducible intro _ | with_reducible apply vectorRun_kept
    | with_reducible apply KeptO.next)

theorem State.fillWord_kept {s0 s : State} (f k i : Nat) (v : W32) (hs : Kept s0 s) : Kept s0 (State.fillWord s f k i
    v) := by
  unfold State.fillWord
  try dsimp only
  repeat' (first
    | with_reducible assumption | with_reducible intro _ | with_reducible apply State.modFn_kept
    | with_reducible apply State.setSlot_kept | with_reducible apply Kept.cond
    | (refine Kept.fields rfl rfl rfl rfl rfl ?_; first
      | with_reducible assumption | with_reducible intro _ | with_reducible apply State.modFn_kept
      | with_reducible apply State.setSlot_kept | with_reducible apply Kept.cond | split))

theorem execWindowWordWrite_kept {s0 s : State} (f k i : Nat) (v : W32) (enables : Nat) (tbit : Bool) (hs : Kept s0 s)
    : KeptO s0 (execWindowWordWrite f k i v enables tbit s) := by
  unfold execWindowWordWrite
  try dsimp only
  repeat' (first
    | with_reducible assumption | with_reducible intro _ | with_reducible apply State.addO_kept
    | with_reducible apply State.fillWord_kept | with_reducible apply KeptO.next | with_reducible apply KeptO.fault
    | with_reducible apply Kept.cond | split)

theorem State.enterJob_kept {s0 s : State} (c : Cmd) (hs : Kept s0 s) : Kept s0 (State.enterJob s c).1 := by
  unfold State.enterJob
  try dsimp only
  repeat' (first
    | with_reducible assumption | with_reducible intro _ | with_reducible apply State.setCtx_kept
    | with_reducible apply State.countJob_kept | with_reducible apply Kept.cond | split
    | (refine Kept.fields rfl rfl rfl rfl rfl ?_; first
      | with_reducible assumption | with_reducible intro _ | with_reducible apply State.setCtx_kept
      | with_reducible apply State.countJob_kept | with_reducible apply Kept.cond | split))

theorem State.submit_kept {s0 s : State} (f : Nat) (slot trig : Option Nat) (words : List W32) (hs : Kept s0 s) : Kept
    s0 (State.submit s f slot trig words) := by
  unfold State.submit
  try dsimp only
  repeat' (first
    | with_reducible assumption | with_reducible intro _ | with_reducible apply State.enterJob_kept
    | with_reducible apply Kept.cond | split
    | (refine Kept.fields rfl rfl rfl rfl rfl ?_; first
      | with_reducible assumption | with_reducible intro _ | with_reducible apply State.enterJob_kept))

theorem execRecordConsume_kept {s0 s : State} (f : Nat) (hs : Kept s0 s) : KeptO s0 (execRecordConsume f s) := by
  unfold execRecordConsume
  try dsimp only
  repeat' (first
    | with_reducible assumption | with_reducible intro _ | with_reducible apply State.addO_kept
    | with_reducible apply State.modFn_kept | with_reducible apply State.setSlot_kept
    | with_reducible apply State.submit_kept | with_reducible apply KeptO.next | with_reducible apply KeptO.fault
    | with_reducible apply Kept.cond | split
    | (refine Kept.fields rfl rfl rfl rfl rfl ?_; first
      | with_reducible assumption | with_reducible intro _ | with_reducible apply State.addO_kept
      | with_reducible apply State.modFn_kept | with_reducible apply State.setSlot_kept
      | with_reducible apply State.submit_kept | with_reducible apply KeptO.next | with_reducible apply KeptO.fault
      | with_reducible apply Kept.cond | split))

theorem State.freeSlots_kept {s0 s : State} (f : Nat) (xs : List Nat) (hs : Kept s0 s) : Kept s0 (State.freeSlots s f
    xs) := by
  induction xs generalizing s f with
  | nil =>
    unfold State.freeSlots
    try dsimp only
    repeat' (first | with_reducible assumption) | cons e es ih =>
    unfold State.freeSlots
    try dsimp only
    repeat' (first
      | with_reducible assumption | with_reducible intro _ | with_reducible apply ih
      | with_reducible apply State.freeSlot_kept)

theorem execCreditWrite_kept {s0 s : State} (f n enables : Nat) (tbit : Bool) (hs : Kept s0 s) : KeptO s0
    (execCreditWrite f n enables tbit s) := by
  unfold execCreditWrite
  try dsimp only
  repeat' (first
    | with_reducible assumption | with_reducible intro _ | with_reducible apply State.addO_kept
    | with_reducible apply State.modFn_kept | with_reducible apply State.freeSlots_kept
    | with_reducible apply KeptO.next | with_reducible apply KeptO.fault | with_reducible apply Kept.cond | split
    | (refine Kept.fields rfl rfl rfl rfl rfl ?_; first
      | with_reducible assumption | with_reducible intro _ | with_reducible apply State.addO_kept
      | with_reducible apply State.modFn_kept | with_reducible apply State.freeSlots_kept
      | with_reducible apply KeptO.next | with_reducible apply KeptO.fault | with_reducible apply Kept.cond | split))

theorem State.hostWrite_kept {s0 s : State} (f a : Nat) (bytes : List Byte) (hs : Kept s0 s) : Kept s0
    (State.hostWrite s f a bytes) := by
  unfold State.hostWrite
  try dsimp only
  repeat' (first
    | with_reducible assumption | with_reducible intro _ | with_reducible apply State.addG_kept
    | with_reducible apply Kept.cond | split | (with_reducible refine Kept.foldl _ (fun _ _ _ => ?_) _ ?_)
    | (refine Kept.fields rfl rfl rfl rfl rfl ?_; first
      | with_reducible assumption))

theorem State.signal_kept {s0 s : State} (f : Nat) (hs : Kept s0 s) : Kept s0 (State.signal s f) := by
  unfold State.signal
  try dsimp only
  repeat' (first
    | with_reducible assumption | with_reducible intro _ | with_reducible apply State.modFn_kept
    | with_reducible apply State.msix_kept
    | (refine Kept.fields rfl rfl rfl rfl rfl ?_; first
      | with_reducible assumption | with_reducible intro _ | with_reducible apply State.modFn_kept
      | with_reducible apply State.msix_kept | split))

theorem State.noteRetired_kept {s0 s : State}  (hs : Kept s0 s) : Kept s0 (State.noteRetired s) := by
  unfold State.noteRetired
  try dsimp only
  repeat' (first
    | with_reducible assumption | with_reducible intro _ | split
    | (refine Kept.fields rfl rfl rfl rfl rfl ?_; first
      | with_reducible assumption | with_reducible intro _ | split))

theorem State.putCompletion_kept {s0 s : State} (c : Cmd) (slot : Nat) (hs : Kept s0 s) : Kept s0 (State.putCompletion
    s c slot) := by
  unfold State.putCompletion
  try dsimp only
  repeat' (first
    | with_reducible assumption | with_reducible intro _ | with_reducible apply State.addO_kept
    | with_reducible apply State.modFn_kept | with_reducible apply State.raise_kept
    | with_reducible apply State.hostWrite_kept | with_reducible apply State.signal_kept
    | with_reducible apply Kept.cond
    | (refine Kept.fields rfl rfl rfl rfl rfl ?_; first
      | with_reducible assumption | with_reducible intro _ | with_reducible apply State.addO_kept
      | with_reducible apply State.modFn_kept | with_reducible apply State.raise_kept
      | with_reducible apply State.hostWrite_kept | with_reducible apply State.signal_kept
      | with_reducible apply Kept.cond | split))

theorem execCompletionWrite_kept {s0 s : State} (cid : Nat) (hs : Kept s0 s) : KeptO s0 (execCompletionWrite cid s) := by
  unfold execCompletionWrite
  try dsimp only
  repeat' (first
    | with_reducible assumption | with_reducible intro _ | with_reducible apply State.dropCmd_kept
    | with_reducible apply State.closeJob_kept | with_reducible apply State.faultContext_kept
    | with_reducible apply State.settle_kept | with_reducible apply State.putCompletion_kept
    | with_reducible apply KeptO.next | with_reducible apply KeptO.fault | with_reducible apply Kept.cond | split
    | (refine Kept.fields rfl rfl rfl rfl rfl ?_; first
      | with_reducible assumption | with_reducible intro _ | with_reducible apply State.dropCmd_kept
      | with_reducible apply State.closeJob_kept | with_reducible apply State.faultContext_kept
      | with_reducible apply State.settle_kept | with_reducible apply State.putCompletion_kept
      | with_reducible apply KeptO.next | with_reducible apply KeptO.fault | with_reducible apply Kept.cond | split))

theorem execModerationDelayExpiry_kept {s0 s : State} (f : Nat) (hs : Kept s0 s) : KeptO s0 (execModerationDelayExpiry
    f s) := by
  unfold execModerationDelayExpiry
  try dsimp only
  repeat' (first
    | with_reducible assumption | with_reducible intro _ | with_reducible apply State.signal_kept
    | with_reducible apply KeptO.next | with_reducible apply KeptO.fault | with_reducible apply Kept.cond | split)

theorem State.openRule_kept {s0 s : State} (f request : Nat) (_u1 : ObjRow) (hs : Kept s0 s) : KeptE s0
    (State.openRule f request _u1 s) := by
  unfold State.openRule
  try dsimp only
  repeat' (first
    | with_reducible assumption | with_reducible intro _ | with_reducible apply State.setO_kept
    | with_reducible apply State.addO_kept | with_reducible apply State.addG_kept
    | with_reducible apply State.setCtx_kept | with_reducible apply KeptE.ok | with_reducible apply KeptE.error
    | (with_reducible refine KeptE.bindS ?_ (fun _ _ => ?_)) | (with_reducible refine KeptE.bind (fun _ => ?_))
    | with_reducible apply Kept.cond | split
    | (refine Kept.fields rfl rfl rfl rfl rfl ?_; first
      | with_reducible assumption | with_reducible intro _ | with_reducible apply State.setO_kept
      | with_reducible apply State.addO_kept | with_reducible apply State.addG_kept
      | with_reducible apply State.setCtx_kept | with_reducible apply KeptE.ok | with_reducible apply KeptE.error
      | (with_reducible refine KeptE.bindS ?_ (fun _ _ => ?_)) | (with_reducible refine KeptE.bind (fun _ => ?_))
      | with_reducible apply Kept.cond | split))

theorem execContextOpen_kept {s0 s : State} (path : Path) (f request : Nat) (hs : Kept s0 s) : KeptO s0
    (execContextOpen path f request s) := by
  unfold execContextOpen
  try dsimp only
  repeat' (first
    | with_reducible assumption | with_reducible intro _ | with_reducible apply State.access_kept
    | with_reducible apply State.openRule_kept
    | (with_reducible refine KeptE.get (State.openRule_kept _ _ _  ?_) (by assumption))
    | with_reducible apply KeptO.next)

theorem State.closeCtx_kept {s0 s : State} (f n : Nat) (hs : Kept s0 s) : Kept s0 (State.closeCtx s f n) := by
  unfold State.closeCtx
  try dsimp only
  repeat' (first
    | with_reducible assumption | with_reducible intro _ | with_reducible apply State.setO_kept
    | with_reducible apply State.setCtx_kept | with_reducible apply State.countJob_kept
    | with_reducible apply State.freeThreads_kept | with_reducible apply State.endHolds_kept | split
    | (refine Kept.fields rfl rfl rfl rfl rfl ?_; first
      | with_reducible assumption | with_reducible intro _ | with_reducible apply State.setO_kept
      | with_reducible apply State.setCtx_kept | with_reducible apply State.countJob_kept
      | with_reducible apply State.freeThreads_kept))

theorem State.closeRule_kept {s0 s : State} (f n : Nat) (_u1 : ObjRow) (hs : Kept s0 s) : KeptE s0 (State.closeRule f
    n _u1 s) := by
  unfold State.closeRule
  try dsimp only
  repeat' (first
    | with_reducible assumption | with_reducible intro _ | with_reducible apply State.closeCtx_kept
    | with_reducible apply KeptE.ok | with_reducible apply KeptE.error
    | (with_reducible refine KeptE.bindS ?_ (fun _ _ => ?_)) | (with_reducible refine KeptE.bind (fun _ => ?_)))

theorem execContextClose_kept {s0 s : State} (path : Path) (f n : Nat) (hs : Kept s0 s) : KeptO s0 (execContextClose
    path f n s) := by
  unfold execContextClose
  try dsimp only
  repeat' (first
    | with_reducible assumption | with_reducible intro _ | with_reducible apply State.access_kept
    | with_reducible apply State.closeRule_kept
    | (with_reducible refine KeptE.get (State.closeRule_kept _ _ _  ?_) (by assumption))
    | with_reducible apply KeptO.next)

theorem execContextNumberFreed_kept {s0 s : State} (n : Nat) (hs : Kept s0 s) : KeptO s0 (execContextNumberFreed n s) := by
  unfold execContextNumberFreed
  try dsimp only
  repeat' (first
    | with_reducible assumption | with_reducible intro _ | with_reducible apply State.setCtx_kept
    | with_reducible apply KeptO.next | with_reducible apply KeptO.fault | with_reducible apply Kept.cond | split
    | (refine Kept.fields rfl rfl rfl rfl rfl ?_; first
      | with_reducible assumption | with_reducible intro _ | with_reducible apply State.setCtx_kept))

theorem State.takeThread_kept {s0 s : State} (ctx : Nat) (hs : Kept s0 s) : Kept s0 (State.takeThread s ctx) := by
  unfold State.takeThread
  try dsimp only
  repeat' (first
    | with_reducible assumption | with_reducible intro _ | with_reducible apply State.modCtx_kept
    | with_reducible apply State.modCore_kept | with_reducible apply Kept.cond | split
    | (refine Kept.fields rfl rfl rfl rfl rfl ?_; first
      | with_reducible assumption | with_reducible intro _ | with_reducible apply State.modCtx_kept
      | with_reducible apply State.modCore_kept | with_reducible apply Kept.cond | split))

theorem State.zeroCore_kept {s0 s : State} (c : Nat) (hs : Kept s0 s) : Kept s0 (State.zeroCore s c) := by
  unfold State.zeroCore
  try dsimp only
  repeat' (first
    | with_reducible assumption | with_reducible intro _ | with_reducible apply State.modCore_kept
    | with_reducible apply State.zeroMem_kept
    | (refine Kept.fields rfl rfl rfl rfl rfl ?_; first
      | with_reducible assumption | with_reducible intro _ | with_reducible apply State.modCore_kept
      | with_reducible apply State.zeroMem_kept | split))

theorem State.setHolder_kept {s0 s : State} (c f : Nat) (hs : Kept s0 s) : Kept s0 (State.setHolder s c f) := by
  unfold State.setHolder
  try dsimp only
  repeat' (first
    | with_reducible assumption | with_reducible intro _ | with_reducible apply State.setO_kept
    | with_reducible apply State.addO_kept | with_reducible apply State.setG_kept
    | with_reducible apply State.modCore_kept | with_reducible apply Kept.cond
    | (refine Kept.fields rfl rfl rfl rfl rfl ?_; first
      | with_reducible assumption | with_reducible intro _ | with_reducible apply State.setO_kept
      | with_reducible apply State.addO_kept | with_reducible apply State.setG_kept
      | with_reducible apply State.modCore_kept | with_reducible apply Kept.cond | split))

theorem State.giveCore_kept {s0 s : State} (f c : Nat) (hs : Kept s0 s) : Kept s0 (State.giveCore s f c) := by
  unfold State.giveCore
  try dsimp only
  repeat' (first
    | with_reducible assumption | with_reducible intro _ | with_reducible apply State.zeroCore_kept
    | with_reducible apply State.setHolder_kept)

theorem State.payFill_kept {s0 s : State} (f e : Nat) (hs : Kept s0 s) : Kept s0 (State.payFill s f e) := by
  unfold State.payFill
  try dsimp only
  repeat' (first
    | with_reducible assumption | with_reducible intro _ | with_reducible apply State.setO_kept
    | with_reducible apply Kept.cond | split
    | (refine Kept.fields rfl rfl rfl rfl rfl ?_; first
      | with_reducible assumption | with_reducible intro _ | with_reducible apply State.setO_kept))

theorem State.payRadio_kept {s0 s : State} (e : Nat) (hs : Kept s0 s) : Kept s0 (State.payRadio s e) := by
  unfold State.payRadio
  try dsimp only
  repeat' (first
    | with_reducible assumption | with_reducible intro _ | with_reducible apply State.addG_kept | split
    | (refine Kept.fields rfl rfl rfl rfl rfl ?_; first
      | with_reducible assumption | with_reducible intro _ | with_reducible apply State.addG_kept))

theorem State.payExact_kept {s0 s : State} (c : Cmd) (hs : Kept s0 s) : Kept s0 (State.payExact s c) := by
  unfold State.payExact
  try dsimp only
  repeat' (first
    | with_reducible assumption | with_reducible intro _ | with_reducible apply State.addO_kept | split
    | (refine Kept.fields rfl rfl rfl rfl rfl ?_; first
      | with_reducible assumption | with_reducible intro _ | with_reducible apply State.addO_kept))

theorem State.payStart_kept {s0 s : State} (c : Cmd) (hs : Kept s0 s) : Kept s0 (State.payStart s c) := by
  unfold State.payStart
  try dsimp only
  repeat' (first
    | with_reducible assumption | with_reducible intro _ | with_reducible apply State.payFill_kept
    | with_reducible apply State.payRadio_kept | with_reducible apply State.payExact_kept | split
    | (refine Kept.fields rfl rfl rfl rfl rfl ?_; first
      | with_reducible assumption | with_reducible intro _ | with_reducible apply State.payFill_kept
      | with_reducible apply State.payRadio_kept | with_reducible apply State.payExact_kept | split))

end Sys2Proof.Machine
end

