-- ==== Sys2Proof/Laws/KeptFabric.lean ====
section
/-!
SUPPORT. The operations of Machine/FabricSend, Machine/FabricReceive, Machine/FabricLanes keep the queue and the
    canonical form.
-/

namespace Sys2Proof.Machine

theorem State.setPages_kept {s0 s : State} (f w : Nat) (m : SMap LandPage) (hs : Kept s0 s) : Kept s0 (State.setPages
    s f w m) := by
  unfold State.setPages
  try dsimp only
  repeat' (first
    | with_reducible assumption | with_reducible intro _ | with_reducible apply State.setO_kept
    | with_reducible apply State.modFn_kept
    | (refine Kept.fields rfl rfl rfl rfl rfl ?_; first
      | with_reducible assumption | with_reducible intro _ | with_reducible apply State.setO_kept
      | with_reducible apply State.modFn_kept | split))

theorem State.setPage_kept {s0 s : State} (f w i : Nat) (p : LandPage) (hs : Kept s0 s) : Kept s0 (State.setPage s f w
    i p) := by
  unfold State.setPage
  try dsimp only
  repeat' (first | with_reducible assumption | with_reducible intro _ | with_reducible apply State.setPages_kept)

theorem State.takePages_kept {s0 s : State} (f w : Nat) (xs : List Nat) (hs : Kept s0 s) : KeptE s0 (State.takePages s
    f w xs) := by
  induction xs generalizing s f w with
  | nil =>
    unfold State.takePages
    try dsimp only
    repeat' (first
      | with_reducible assumption | with_reducible intro _ | with_reducible apply ih
      | with_reducible apply State.setPage_kept | with_reducible apply KeptE.ok
      | (refine Kept.fields rfl rfl rfl rfl rfl ?_; first
        | with_reducible assumption | with_reducible intro _ | with_reducible apply ih
        | with_reducible apply State.setPage_kept | with_reducible apply KeptE.ok | with_reducible apply KeptE.error
        | (with_reducible refine KeptE.bindS ?_ (fun _ _ => ?_)) | (with_reducible refine KeptE.bind (fun _ => ?_))
        | split)) | cons e es ih =>
    unfold State.takePages
    try dsimp only
    repeat' (first
      | with_reducible assumption | with_reducible intro _ | with_reducible apply ih
      | with_reducible apply State.setPage_kept | with_reducible apply KeptE.ok | with_reducible apply KeptE.error
      | (with_reducible refine KeptE.bindS ?_ (fun _ _ => ?_)) | (with_reducible refine KeptE.bind (fun _ => ?_))
      | split
      | (refine Kept.fields rfl rfl rfl rfl rfl ?_; first
        | with_reducible assumption | with_reducible intro _ | with_reducible apply ih
        | with_reducible apply State.setPage_kept | with_reducible apply KeptE.ok | with_reducible apply KeptE.error
        | (with_reducible refine KeptE.bindS ?_ (fun _ _ => ?_)) | (with_reducible refine KeptE.bind (fun _ => ?_))
        | split))

theorem State.markBytes_kept {s0 s : State} (f w a : Nat) (xs : List Byte) (hs : Kept s0 s) : Kept s0 (State.markBytes
    s f w a xs) := by
  induction xs generalizing s f w a with
  | nil =>
    unfold State.markBytes
    try dsimp only
    repeat' (first
      | with_reducible assumption
      | (refine Kept.fields rfl rfl rfl rfl rfl ?_; first
        | with_reducible assumption | with_reducible intro _ | with_reducible apply ih
        | with_reducible apply State.wr_kept | with_reducible apply State.setPage_kept
        | with_reducible apply Kept.cond | split)) | cons e es ih =>
    unfold State.markBytes
    try dsimp only
    repeat' (first
      | with_reducible assumption | with_reducible intro _ | with_reducible apply ih
      | with_reducible apply State.wr_kept | with_reducible apply State.setPage_kept | with_reducible apply Kept.cond
      | split
      | (refine Kept.fields rfl rfl rfl rfl rfl ?_; first
        | with_reducible assumption | with_reducible intro _ | with_reducible apply ih
        | with_reducible apply State.wr_kept | with_reducible apply State.setPage_kept
        | with_reducible apply Kept.cond | split))

theorem State.setSteps_kept {s0 s : State} (cid : Nat) (l : List FabStep) (hs : Kept s0 s) : Kept s0 (State.setSteps s
    cid l) := by
  unfold State.setSteps
  try dsimp only
  repeat' (first
    | with_reducible assumption | with_reducible intro _ | with_reducible apply State.modCmd_kept
    | (refine Kept.fields rfl rfl rfl rfl rfl ?_; first
      | with_reducible assumption | with_reducible intro _ | with_reducible apply State.modCmd_kept | split))

theorem fabricGo_kept {s0 s : State} (c : Cmd) (o : FabOp) (hs : Kept s0 s) : KeptP s0 (fabricGo c o s) := by
  unfold fabricGo
  try dsimp only
  repeat' (first
    | with_reducible assumption | with_reducible intro _ | with_reducible apply State.emitData_kept
    | with_reducible apply State.setPages_kept | with_reducible apply State.takePages_kept
    | with_reducible apply State.markBytes_kept | with_reducible apply State.setSteps_kept
    | (with_reducible refine KeptE.get (State.takePages_kept _ _ _  ?_) (by assumption))
    | with_reducible apply KeptP.ok | with_reducible apply KeptP.map | with_reducible apply KeptP.error
    | (with_reducible refine KeptP.bindP ?_ (fun _ _ => ?_)) | (with_reducible refine KeptP.bindS ?_ (fun _ _ => ?_))
    | (with_reducible refine KeptP.bind (fun _ => ?_)) | with_reducible apply KeptE.ok
    | with_reducible apply KeptE.error | (with_reducible refine KeptE.bindS ?_ (fun _ _ => ?_))
    | (with_reducible refine KeptE.bind (fun _ => ?_)) | with_reducible apply Kept.cond | split
    | (refine Kept.fields rfl rfl rfl rfl rfl ?_; first
      | with_reducible assumption | with_reducible intro _ | with_reducible apply State.emitData_kept
      | with_reducible apply State.setPages_kept | with_reducible apply State.takePages_kept
      | with_reducible apply State.markBytes_kept | with_reducible apply State.setSteps_kept
      | (with_reducible refine KeptE.get (State.takePages_kept _ _ _  ?_) (by assumption))
      | with_reducible apply KeptP.ok | with_reducible apply KeptP.map | with_reducible apply KeptP.error
      | (with_reducible refine KeptP.bindP ?_ (fun _ _ => ?_))
      | (with_reducible refine KeptP.bindS ?_ (fun _ _ => ?_)) | (with_reducible refine KeptP.bind (fun _ => ?_))
      | with_reducible apply KeptE.ok | with_reducible apply KeptE.error
      | (with_reducible refine KeptE.bindS ?_ (fun _ _ => ?_)) | (with_reducible refine KeptE.bind (fun _ => ?_))
      | with_reducible apply Kept.cond | split))

theorem fabricEffect_kept {s0 s : State} (c : Cmd) (hs : Kept s0 s) : KeptP s0 (fabricEffect c s) := by
  unfold fabricEffect
  try dsimp only
  repeat' (first
    | with_reducible assumption | with_reducible intro _ | with_reducible apply fabricGo_kept
    | (with_reducible refine KeptP.get (fabricGo_kept _ _  ?_) (by assumption)) | with_reducible apply KeptP.ok
    | with_reducible apply KeptP.map | with_reducible apply KeptP.error
    | (with_reducible refine KeptP.bindP ?_ (fun _ _ => ?_)) | (with_reducible refine KeptP.bindS ?_ (fun _ _ => ?_))
    | (with_reducible refine KeptP.bind (fun _ => ?_)) | with_reducible apply KeptE.ok
    | with_reducible apply KeptE.error | (with_reducible refine KeptE.bindS ?_ (fun _ _ => ?_))
    | (with_reducible refine KeptE.bind (fun _ => ?_)) | split
    | (refine Kept.fields rfl rfl rfl rfl rfl ?_; first
      | with_reducible assumption | with_reducible intro _ | with_reducible apply fabricGo_kept
      | (with_reducible refine KeptP.get (fabricGo_kept _ _  ?_) (by assumption)) | with_reducible apply KeptP.ok
      | with_reducible apply KeptP.map | with_reducible apply KeptP.error
      | (with_reducible refine KeptP.bindP ?_ (fun _ _ => ?_))
      | (with_reducible refine KeptP.bindS ?_ (fun _ _ => ?_)) | (with_reducible refine KeptP.bind (fun _ => ?_))
      | with_reducible apply KeptE.ok | with_reducible apply KeptE.error
      | (with_reducible refine KeptE.bindS ?_ (fun _ _ => ?_)) | (with_reducible refine KeptE.bind (fun _ => ?_))
      | split))

theorem execFabricLoad_kept {s0 s : State} (cid : Nat) (hs : Kept s0 s) : KeptO s0 (execFabricLoad cid s) := by
  unfold execFabricLoad
  try dsimp only
  repeat' (first
    | with_reducible assumption | with_reducible intro _ | with_reducible apply State.perform_kept
    | with_reducible apply fabricEffect_kept
    | (with_reducible refine KeptP.get (fabricEffect_kept _  ?_) (by assumption)) | with_reducible apply KeptO.next)

theorem execFabricStore_kept {s0 s : State} (cid : Nat) (hs : Kept s0 s) : KeptO s0 (execFabricStore cid s) := by
  unfold execFabricStore
  try dsimp only
  repeat' (first
    | with_reducible assumption | with_reducible intro _ | with_reducible apply State.perform_kept
    | with_reducible apply fabricEffect_kept
    | (with_reducible refine KeptP.get (fabricEffect_kept _  ?_) (by assumption)) | with_reducible apply KeptO.next)

theorem execAtomicAdd_kept {s0 s : State} (cid : Nat) (hs : Kept s0 s) : KeptO s0 (execAtomicAdd cid s) := by
  unfold execAtomicAdd
  try dsimp only
  repeat' (first
    | with_reducible assumption | with_reducible intro _ | with_reducible apply State.perform_kept
    | with_reducible apply fabricEffect_kept
    | (with_reducible refine KeptP.get (fabricEffect_kept _  ?_) (by assumption)) | with_reducible apply KeptO.next)

theorem execAtomicMin_kept {s0 s : State} (cid : Nat) (hs : Kept s0 s) : KeptO s0 (execAtomicMin cid s) := by
  unfold execAtomicMin
  try dsimp only
  repeat' (first
    | with_reducible assumption | with_reducible intro _ | with_reducible apply State.perform_kept
    | with_reducible apply fabricEffect_kept
    | (with_reducible refine KeptP.get (fabricEffect_kept _  ?_) (by assumption)) | with_reducible apply KeptO.next)

theorem execAtomicMax_kept {s0 s : State} (cid : Nat) (hs : Kept s0 s) : KeptO s0 (execAtomicMax cid s) := by
  unfold execAtomicMax
  try dsimp only
  repeat' (first
    | with_reducible assumption | with_reducible intro _ | with_reducible apply State.perform_kept
    | with_reducible apply fabricEffect_kept
    | (with_reducible refine KeptP.get (fabricEffect_kept _  ?_) (by assumption)) | with_reducible apply KeptO.next)

theorem execAtomicSwap_kept {s0 s : State} (cid : Nat) (hs : Kept s0 s) : KeptO s0 (execAtomicSwap cid s) := by
  unfold execAtomicSwap
  try dsimp only
  repeat' (first
    | with_reducible assumption | with_reducible intro _ | with_reducible apply State.perform_kept
    | with_reducible apply fabricEffect_kept
    | (with_reducible refine KeptP.get (fabricEffect_kept _  ?_) (by assumption)) | with_reducible apply KeptO.next)

theorem execAtomicCompareSwap_kept {s0 s : State} (cid : Nat) (hs : Kept s0 s) : KeptO s0 (execAtomicCompareSwap cid
    s) := by
  unfold execAtomicCompareSwap
  try dsimp only
  repeat' (first
    | with_reducible assumption | with_reducible intro _ | with_reducible apply State.perform_kept
    | with_reducible apply fabricEffect_kept
    | (with_reducible refine KeptP.get (fabricEffect_kept _  ?_) (by assumption)) | with_reducible apply KeptO.next)

theorem execCopyIn_kept {s0 s : State} (cid : Nat) (hs : Kept s0 s) : KeptO s0 (execCopyIn cid s) := by
  unfold execCopyIn
  try dsimp only
  repeat' (first
    | with_reducible assumption | with_reducible intro _ | with_reducible apply State.perform_kept
    | with_reducible apply fabricEffect_kept
    | (with_reducible refine KeptP.get (fabricEffect_kept _  ?_) (by assumption)) | with_reducible apply KeptO.next)

theorem execCopyOut_kept {s0 s : State} (cid : Nat) (hs : Kept s0 s) : KeptO s0 (execCopyOut cid s) := by
  unfold execCopyOut
  try dsimp only
  repeat' (first
    | with_reducible assumption | with_reducible intro _ | with_reducible apply State.perform_kept
    | with_reducible apply fabricEffect_kept
    | (with_reducible refine KeptP.get (fabricEffect_kept _  ?_) (by assumption)) | with_reducible apply KeptO.next)

theorem execFabricHandoff_kept {s0 s : State} (cid : Nat) (hs : Kept s0 s) : KeptO s0 (execFabricHandoff cid s) := by
  unfold execFabricHandoff
  try dsimp only
  repeat' (first
    | with_reducible assumption | with_reducible intro _ | with_reducible apply State.perform_kept
    | with_reducible apply fabricEffect_kept
    | (with_reducible refine KeptP.get (fabricEffect_kept _  ?_) (by assumption)) | with_reducible apply KeptO.next)

theorem execFabricRelease_kept {s0 s : State} (cid : Nat) (hs : Kept s0 s) : KeptO s0 (execFabricRelease cid s) := by
  unfold execFabricRelease
  try dsimp only
  repeat' (first
    | with_reducible assumption | with_reducible intro _ | with_reducible apply State.perform_kept
    | with_reducible apply fabricEffect_kept
    | (with_reducible refine KeptP.get (fabricEffect_kept _  ?_) (by assumption)) | with_reducible apply KeptO.next)

theorem execRemoteProcedureTrigger_kept {s0 s : State} (cid : Nat) (hs : Kept s0 s) : KeptO s0
    (execRemoteProcedureTrigger cid s) := by
  unfold execRemoteProcedureTrigger
  try dsimp only
  repeat' (first
    | with_reducible assumption | with_reducible intro _ | with_reducible apply State.perform_kept
    | with_reducible apply fabricEffect_kept
    | (with_reducible refine KeptP.get (fabricEffect_kept _  ?_) (by assumption)) | with_reducible apply KeptO.next)

theorem State.noteTrigger_kept {s0 s : State} (c : Cmd) (float : Option Nat) (hs : Kept s0 s) : Kept s0
    (State.noteTrigger s c float) := by
  unfold State.noteTrigger
  try dsimp only
  repeat' (first
    | with_reducible assumption | with_reducible intro _ | with_reducible apply Kept.cond | split
    | (refine Kept.fields rfl rfl rfl rfl rfl ?_; first
      | with_reducible assumption))

theorem State.stepsDone_kept {s0 s : State} (cid : Nat) (hs : Kept s0 s) : Kept s0 (State.stepsDone s cid) := by
  unfold State.stepsDone
  try dsimp only
  repeat' (first
    | with_reducible assumption | with_reducible intro _ | with_reducible apply State.modCmd_kept
    | with_reducible apply State.did_kept | with_reducible apply State.settle_kept
    | (refine Kept.fields rfl rfl rfl rfl rfl ?_; first
      | with_reducible assumption | with_reducible intro _ | with_reducible apply State.modCmd_kept
      | with_reducible apply State.did_kept | with_reducible apply State.settle_kept | with_reducible apply Kept.cond
      | split))

theorem State.issueStep_kept {s0 s : State} (c : Cmd) (o : FabOp) (st : FabStep) (fn : Nat) (float : Option Nat) (hs :
    Kept s0 s) : Kept s0 (State.issueStep s c o st fn float) := by
  unfold State.issueStep
  try dsimp only
  repeat' (first
    | with_reducible assumption | with_reducible intro _ | with_reducible apply State.modCmd_kept
    | with_reducible apply State.debit_kept | with_reducible apply State.ask_kept
    | with_reducible apply State.setPages_kept | with_reducible apply State.noteTrigger_kept
    | with_reducible apply State.stepsDone_kept | with_reducible apply Kept.cond | split
    | (refine Kept.fields rfl rfl rfl rfl rfl ?_; first
      | with_reducible assumption | with_reducible intro _ | with_reducible apply State.modCmd_kept
      | with_reducible apply State.debit_kept | with_reducible apply State.ask_kept
      | with_reducible apply State.setPages_kept | with_reducible apply State.noteTrigger_kept
      | with_reducible apply State.stepsDone_kept | with_reducible apply Kept.cond | split))

theorem State.recordStep_kept {s0 s : State} (cid : Nat) (hs : Kept s0 s) : Kept s0 (State.recordStep s cid) := by
  unfold State.recordStep
  try dsimp only
  repeat' (first
    | with_reducible assumption | with_reducible intro _ | with_reducible apply State.did_kept
    | with_reducible apply State.issueStep_kept | with_reducible apply Kept.cond | split
    | (refine Kept.fields rfl rfl rfl rfl rfl ?_; first
      | with_reducible assumption | with_reducible intro _ | with_reducible apply State.did_kept
      | with_reducible apply State.issueStep_kept | with_reducible apply Kept.cond | split))

theorem State.refuseLoose_kept {s0 s : State} (p : Packet) (status : Nat) (hs : Kept s0 s) : Kept s0
    (State.refuseLoose s p status) := by
  unfold State.refuseLoose
  try dsimp only
  repeat' (first | with_reducible assumption | with_reducible intro _ | with_reducible apply State.emit_kept)

theorem State.refuse_kept {s0 s : State} (p : Packet) (status : Nat) (hs : Kept s0 s) : Kept s0 (State.refuse s p
    status) := by
  unfold State.refuse
  try dsimp only
  repeat' (first | with_reducible assumption | with_reducible intro _ | with_reducible apply State.reply_kept)

theorem State.answerAgain_kept {s0 s : State} (f dev : Nat) (xs : List (Nat × Nat × Packet)) (hs : Kept s0 s) : Kept
    s0 (State.answerAgain s f dev xs) := by
  induction xs generalizing s f dev with
  | nil =>
    unfold State.answerAgain
    try dsimp only
    repeat' (first
      | with_reducible assumption | with_reducible intro _ | with_reducible apply ih
      | with_reducible apply State.queueAnswer_kept | with_reducible apply Kept.cond | split)
  | cons e es ih =>
    unfold State.answerAgain
    try dsimp only
    repeat' (first
      | with_reducible assumption | with_reducible intro _ | with_reducible apply ih
      | with_reducible apply State.queueAnswer_kept | with_reducible apply Kept.cond | split)

theorem State.receive_kept {s0 s : State} (p : Packet) (k : State → Except Nat State)
    (hk : ∀ t, Kept s0 t → KeptE s0 (k t)) (hs : Kept s0 s) : Kept s0 (State.receive s p k) := by
  unfold State.receive
  dsimp only
  split
  · exact hs
  · split
    · exact State.addG_kept _ _ _ hs
    · split
      · exact State.refuseLoose_kept _ _ hs
      · split
        · exact State.refuseLoose_kept _ _ hs
        · split
          · split
            · exact State.addG_kept _ _ _ hs
            · exact State.acknowledge_kept _ _ _ _ (State.answerAgain_kept _ _ _ (State.addG_kept _ _ _ hs))
          · split
            · exact hs
            · have ht := State.modStream_kept (packetKey p) (fun (y : Stream) => { y with expect := y.expect + 1 }) hs
              have hq : KeptE s0 (if s.resetting p.dstFn = true then .error Status.addressInvalid else
                  k (s.modStream (packetKey p) (fun (y : Stream) => { y with expect := y.expect + 1 }))) := by
                split
                · exact KeptE.error
                · exact hk _ ht
              split
              · exact State.acknowledge_kept _ _ _ _ (hq _ ‹_›)
              · exact State.acknowledge_kept _ _ _ _ (State.refuse_kept _ _ ht)

theorem State.countHome_kept {s0 s : State} (p : Packet) (status : Nat) (hs : Kept s0 s) : Kept s0 (State.countHome s
    p status) := by
  unfold State.countHome
  try dsimp only
  repeat' (first
    | with_reducible assumption | with_reducible intro _ | with_reducible apply State.countUncorrectable_kept
    | with_reducible apply Kept.cond | split
    | (refine Kept.fields rfl rfl rfl rfl rfl ?_; first
      | with_reducible assumption | with_reducible intro _ | with_reducible apply State.countUncorrectable_kept
      | with_reducible apply Kept.cond | split))

theorem State.homeLand_kept {s0 s : State} (p : Packet) (a : Nat) (data : List Byte) (hs : Kept s0 s) : KeptE s0
    (State.homeLand s p a data) := by
  unfold State.homeLand
  try dsimp only
  repeat' (first
    | with_reducible assumption | with_reducible intro _ | with_reducible apply State.addTerm_kept
    | with_reducible apply State.store_kept | with_reducible apply State.countLanding_kept
    | with_reducible apply KeptE.ok | with_reducible apply KeptE.error
    | (with_reducible refine KeptE.bindS ?_ (fun _ _ => ?_)) | (with_reducible refine KeptE.bind (fun _ => ?_))
    | with_reducible apply Kept.cond | split)

theorem State.answer_kept {s0 s : State} (p : Packet) (type : Nat) (data : List Byte) (addr : Nat) (lmax : Nat) (hs :
    Kept s0 s) : Kept s0 (State.answer s p type data addr lmax) := by
  unfold State.answer
  try dsimp only
  repeat' (first | with_reducible assumption | with_reducible intro _ | with_reducible apply State.reply_kept | split)

theorem State.receiveCounted_kept {s0 s : State} (p : Packet) (k : State → Except Nat State) (hk : ∀ t, Kept s0 t →
    KeptE s0 (k t)) (hs : Kept s0 s) : Kept s0 (State.receiveCounted s p k) := by
  unfold State.receiveCounted
  try dsimp only
  repeat' (first
    | with_reducible assumption | with_reducible intro _ | with_reducible apply State.receive_kept
    | with_reducible apply State.countHome_kept | with_reducible apply hk | with_reducible apply KeptE.ok
    | with_reducible apply KeptE.error | (with_reducible refine KeptE.bindS ?_ (fun _ _ => ?_))
    | (with_reducible refine KeptE.bind (fun _ => ?_)) | with_reducible apply Kept.cond | split
    | (refine Kept.fields rfl rfl rfl rfl rfl ?_; first
      | with_reducible assumption | with_reducible intro _ | with_reducible apply State.receive_kept
      | with_reducible apply State.countHome_kept | with_reducible apply hk | with_reducible apply KeptE.ok
      | with_reducible apply KeptE.error | (with_reducible refine KeptE.bindS ?_ (fun _ _ => ?_))
      | (with_reducible refine KeptE.bind (fun _ => ?_)) | with_reducible apply Kept.cond | split))

theorem execLoadReq_kept {s0 s : State} (p : Packet) (hs : Kept s0 s) : KeptO s0 (execLoadReq p s) := by
  unfold execLoadReq
  try dsimp only
  repeat' (first
    | with_reducible assumption | with_reducible intro _ | with_reducible apply State.answer_kept
    | with_reducible apply State.receiveCounted_kept | with_reducible apply KeptO.next
    | with_reducible apply KeptO.fault | with_reducible apply KeptE.ok | with_reducible apply KeptE.error
    | (with_reducible refine KeptE.bindS ?_ (fun _ _ => ?_)) | (with_reducible refine KeptE.bind (fun _ => ?_))
    | with_reducible apply Kept.cond | split)

theorem execStore_kept {s0 s : State} (p : Packet) (hs : Kept s0 s) : KeptO s0 (execStore p s) := by
  unfold execStore
  try dsimp only
  repeat' (first
    | with_reducible assumption | with_reducible intro _ | with_reducible apply State.homeLand_kept
    | with_reducible apply State.receiveCounted_kept
    | (with_reducible refine KeptE.get (State.homeLand_kept _ _ _  ?_) (by assumption))
    | with_reducible apply KeptO.next | with_reducible apply KeptO.fault | with_reducible apply KeptE.ok
    | with_reducible apply KeptE.error | (with_reducible refine KeptE.bindS ?_ (fun _ _ => ?_))
    | (with_reducible refine KeptE.bind (fun _ => ?_)) | with_reducible apply Kept.cond | split)

theorem State.sendPieces_kept {s0 s : State} (p : Packet) (data : List Byte) (lmax : Nat) (xs : List (Nat × Nat)) (hs
    : Kept s0 s) : Kept s0 (State.sendPieces s p data lmax xs) := by
  induction xs generalizing s p data lmax with
  | nil =>
    unfold State.sendPieces
    try dsimp only
    repeat' (first
      | with_reducible assumption | with_reducible intro _ | with_reducible apply ih
      | with_reducible apply State.answer_kept | split)
  | cons e es ih =>
    unfold State.sendPieces
    try dsimp only
    repeat' (first
      | with_reducible assumption | with_reducible intro _ | with_reducible apply ih
      | with_reducible apply State.answer_kept | split)

theorem execCopyReq_kept {s0 s : State} (p : Packet) (hs : Kept s0 s) : KeptO s0 (execCopyReq p s) := by
  unfold execCopyReq
  try dsimp only
  repeat' (first
    | with_reducible assumption | with_reducible intro _ | with_reducible apply State.receiveCounted_kept
    | with_reducible apply State.sendPieces_kept | with_reducible apply KeptO.next | with_reducible apply KeptO.fault
    | with_reducible apply KeptE.ok | with_reducible apply KeptE.error
    | (with_reducible refine KeptE.bindS ?_ (fun _ _ => ?_)) | (with_reducible refine KeptE.bind (fun _ => ?_))
    | with_reducible apply Kept.cond | split)

theorem State.holdSeq_kept {s0 s : State} (p : Packet) (hs : Kept s0 s) : Kept s0 (State.holdSeq s p) := by
  unfold State.holdSeq
  try dsimp only
  repeat' (first
    | with_reducible assumption | with_reducible intro _ | with_reducible apply State.modStream_kept
    | (refine Kept.fields rfl rfl rfl rfl rfl ?_; first
      | with_reducible assumption | with_reducible intro _ | with_reducible apply State.modStream_kept | split))

theorem State.unholdSeq_kept {s0 s : State} (k seq : Nat) (hs : Kept s0 s) : Kept s0 (State.unholdSeq s k seq) := by
  unfold State.unholdSeq
  try dsimp only
  repeat' (first
    | with_reducible assumption | with_reducible intro _ | with_reducible apply State.modStream_kept
    | (refine Kept.fields rfl rfl rfl rfl rfl ?_; first
      | with_reducible assumption | with_reducible intro _ | with_reducible apply State.modStream_kept | split))

theorem execAtomic_kept {s0 s : State} (p : Packet) (hs : Kept s0 s) : KeptO s0 (execAtomic p s) := by
  unfold execAtomic
  try dsimp only
  repeat' (first
    | with_reducible assumption | with_reducible intro _ | with_reducible apply State.receiveCounted_kept
    | with_reducible apply State.holdSeq_kept | with_reducible apply KeptO.next | with_reducible apply KeptO.fault
    | with_reducible apply KeptE.ok | with_reducible apply KeptE.error
    | (with_reducible refine KeptE.bindS ?_ (fun _ _ => ?_)) | (with_reducible refine KeptE.bind (fun _ => ?_))
    | with_reducible apply Kept.cond | split
    | (refine Kept.fields rfl rfl rfl rfl rfl ?_; first
      | with_reducible assumption | with_reducible intro _ | with_reducible apply State.receiveCounted_kept
      | with_reducible apply State.holdSeq_kept))

theorem State.applyAtomics_kept {s0 s : State}  (xs : List (Nat × Packet)) (hs : Kept s0 s) : Kept s0
    (State.applyAtomics s xs) := by
  induction xs generalizing s  with
  | nil =>
    unfold State.applyAtomics
    try dsimp only
    repeat' (first | with_reducible assumption) | cons e es ih =>
    unfold State.applyAtomics
    try dsimp only
    repeat' (first
      | with_reducible assumption | with_reducible intro _ | with_reducible apply ih
      | with_reducible apply State.acknowledge_kept | with_reducible apply State.store_kept
      | with_reducible apply State.answer_kept | with_reducible apply State.unholdSeq_kept)

theorem execAtomicLineWriteBack_kept {s0 s : State} (line : Nat) (hs : Kept s0 s) : KeptO s0 (execAtomicLineWriteBack
    line s) := by
  unfold execAtomicLineWriteBack
  try dsimp only
  repeat' (first
    | with_reducible assumption | with_reducible intro _ | with_reducible apply State.applyAtomics_kept
    | with_reducible apply KeptO.next | with_reducible apply KeptO.fault | with_reducible apply Kept.cond | split
    | (refine Kept.fields rfl rfl rfl rfl rfl ?_; first
      | with_reducible assumption | with_reducible intro _ | with_reducible apply State.applyAtomics_kept))

theorem State.landReceipt_kept {s0 s : State} (f : Nat) (e : Endpoint) (data : List Byte) (hs : Kept s0 s) : Kept s0
    (State.landReceipt s f e data) := by
  unfold State.landReceipt
  try dsimp only
  repeat' (first
    | with_reducible assumption | with_reducible intro _ | with_reducible apply State.addTerm_kept
    | with_reducible apply State.notice_kept | with_reducible apply State.sumpBytes_kept
    | with_reducible apply State.store_kept | with_reducible apply State.countLanding_kept
    | with_reducible apply Kept.cond)

theorem execHandoff_kept {s0 s : State} (p : Packet) (hs : Kept s0 s) : KeptO s0 (execHandoff p s) := by
  unfold execHandoff
  try dsimp only
  repeat' (first
    | with_reducible assumption | with_reducible intro _ | with_reducible apply State.setRegion_kept
    | with_reducible apply State.ask_kept | with_reducible apply State.receive_kept
    | with_reducible apply State.holdSeq_kept | with_reducible apply KeptO.next | with_reducible apply KeptO.fault
    | with_reducible apply KeptE.ok | with_reducible apply KeptE.error
    | (with_reducible refine KeptE.bindS ?_ (fun _ _ => ?_)) | (with_reducible refine KeptE.bind (fun _ => ?_))
    | with_reducible apply Kept.cond | split
    | (refine Kept.fields rfl rfl rfl rfl rfl ?_; first
      | with_reducible assumption | with_reducible intro _ | with_reducible apply State.setRegion_kept
      | with_reducible apply State.ask_kept | with_reducible apply State.receive_kept
      | with_reducible apply State.holdSeq_kept | with_reducible apply KeptO.next | with_reducible apply KeptO.fault
      | with_reducible apply KeptE.ok | with_reducible apply KeptE.error
      | (with_reducible refine KeptE.bindS ?_ (fun _ _ => ?_)) | (with_reducible refine KeptE.bind (fun _ => ?_))
      | with_reducible apply Kept.cond | split))

theorem execOwnerNotice_kept {s0 s : State} (p : Packet) (hs : Kept s0 s) : KeptO s0 (execOwnerNotice p s) := by
  unfold execOwnerNotice
  try dsimp only
  repeat' (first
    | with_reducible assumption | with_reducible intro _ | with_reducible apply State.modFn_kept
    | with_reducible apply State.receive_kept | with_reducible apply State.landReceipt_kept
    | with_reducible apply KeptO.next | with_reducible apply KeptO.fault | with_reducible apply KeptE.ok
    | with_reducible apply KeptE.error | (with_reducible refine KeptE.bindS ?_ (fun _ _ => ?_))
    | (with_reducible refine KeptE.bind (fun _ => ?_)) | split
    | (refine Kept.fields rfl rfl rfl rfl rfl ?_; first
      | with_reducible assumption | with_reducible intro _ | with_reducible apply State.modFn_kept
      | with_reducible apply State.receive_kept | with_reducible apply State.landReceipt_kept
      | with_reducible apply KeptO.next | with_reducible apply KeptO.fault | with_reducible apply KeptE.ok
      | with_reducible apply KeptE.error | (with_reducible refine KeptE.bindS ?_ (fun _ _ => ?_))
      | (with_reducible refine KeptE.bind (fun _ => ?_)) | split))

theorem State.writeMarks_kept {s0 s : State} (p : Packet) (base : Nat) (xs : List (Nat × Byte)) (hs : Kept s0 s) :
    KeptE s0 (State.writeMarks s p base xs) := by
  induction xs generalizing s p base with
  | nil =>
    unfold State.writeMarks
    try dsimp only
    repeat' (first
      | with_reducible assumption | with_reducible intro _ | with_reducible apply ih
      | with_reducible apply State.homeLand_kept
      | (with_reducible refine KeptE.get (State.homeLand_kept _ _ _  ?_) (by assumption))
      | with_reducible apply KeptE.ok) | cons e es ih =>
    unfold State.writeMarks
    try dsimp only
    repeat' (first
      | with_reducible assumption | with_reducible intro _ | with_reducible apply ih
      | with_reducible apply State.homeLand_kept
      | (with_reducible refine KeptE.get (State.homeLand_kept _ _ _  ?_) (by assumption))
      | with_reducible apply KeptE.ok | with_reducible apply KeptE.error
      | (with_reducible refine KeptE.bindS ?_ (fun _ _ => ?_)))

theorem execBlock_kept {s0 s : State} (p : Packet) (hs : Kept s0 s) : KeptO s0 (execBlock p s) := by
  unfold execBlock
  try dsimp only
  repeat' (first
    | with_reducible assumption | with_reducible intro _ | with_reducible apply State.receiveCounted_kept
    | with_reducible apply State.writeMarks_kept
    | (with_reducible refine KeptE.get (State.writeMarks_kept _ _ _  ?_) (by assumption))
    | with_reducible apply KeptO.next | with_reducible apply KeptO.fault | with_reducible apply KeptE.ok
    | with_reducible apply KeptE.error | (with_reducible refine KeptE.bindS ?_ (fun _ _ => ?_))
    | (with_reducible refine KeptE.bind (fun _ => ?_)) | with_reducible apply Kept.cond | split)

theorem execTrigger_kept {s0 s : State} (p : Packet) (hs : Kept s0 s) : KeptO s0 (execTrigger p s) := by
  unfold execTrigger
  try dsimp only
  repeat' (first
    | with_reducible assumption | with_reducible intro _ | with_reducible apply State.addO_kept
    | with_reducible apply State.setProc_kept | with_reducible apply State.receive_kept
    | with_reducible apply KeptO.next | with_reducible apply KeptO.fault | with_reducible apply KeptE.ok
    | with_reducible apply KeptE.error | (with_reducible refine KeptE.bindS ?_ (fun _ _ => ?_))
    | (with_reducible refine KeptE.bind (fun _ => ?_)) | with_reducible apply Kept.cond | split
    | (refine Kept.fields rfl rfl rfl rfl rfl ?_; first
      | with_reducible assumption | with_reducible intro _ | with_reducible apply State.addO_kept
      | with_reducible apply State.setProc_kept | with_reducible apply State.receive_kept
      | with_reducible apply KeptO.next | with_reducible apply KeptO.fault | with_reducible apply KeptE.ok
      | with_reducible apply KeptE.error | (with_reducible refine KeptE.bindS ?_ (fun _ _ => ?_))
      | (with_reducible refine KeptE.bind (fun _ => ?_)) | with_reducible apply Kept.cond | split))

theorem State.submitList_kept {s0 s : State} (q : Proc) (n i : Nat) (xs : Nat) (hs : Kept s0 s) : Kept s0
    (State.submitList s q n i xs) := by
  induction xs generalizing s q n i with
  | zero =>
    unfold State.submitList
    try dsimp only
    repeat' (first | with_reducible assumption) | succ n ih =>
    unfold State.submitList
    try dsimp only
    repeat' (first
      | with_reducible assumption | with_reducible intro _ | with_reducible apply ih
      | with_reducible apply State.submit_kept)

theorem execTriggeredJobStart_kept {s0 s : State} (n : Nat) (hs : Kept s0 s) : KeptO s0 (execTriggeredJobStart n s) := by
  unfold execTriggeredJobStart
  try dsimp only
  repeat' (first
    | with_reducible assumption | with_reducible intro _ | with_reducible apply State.setO_kept
    | with_reducible apply State.setProc_kept | with_reducible apply State.store_kept
    | with_reducible apply State.submitList_kept | with_reducible apply KeptO.next | with_reducible apply KeptO.fault
    | with_reducible apply Kept.cond | split
    | (refine Kept.fields rfl rfl rfl rfl rfl ?_; first
      | with_reducible assumption | with_reducible intro _ | with_reducible apply State.setO_kept
      | with_reducible apply State.setProc_kept | with_reducible apply State.store_kept
      | with_reducible apply State.submitList_kept | with_reducible apply KeptO.next
      | with_reducible apply KeptO.fault | with_reducible apply Kept.cond | split))

theorem State.dropAwait_kept {s0 s : State} (id : Nat) (hs : Kept s0 s) : Kept s0 (State.dropAwait s id) := by
  unfold State.dropAwait
  try dsimp only
  repeat' (first
    | with_reducible assumption | with_reducible intro _ | split
    | (refine Kept.fields rfl rfl rfl rfl rfl ?_; first
      | with_reducible assumption))

theorem State.issueAnswer_kept {s0 s : State} (a : Await) (xs : List Part) (hs : Kept s0 s) : Kept s0
    (State.issueAnswer s a xs) := by
  induction xs generalizing s a with
  | nil =>
    unfold State.issueAnswer
    try dsimp only
    repeat' (first
      | with_reducible assumption
      | (refine Kept.fields rfl rfl rfl rfl rfl ?_; first
        | with_reducible assumption | with_reducible intro _ | with_reducible apply ih
        | with_reducible apply State.addTerm_kept | split)) | cons e es ih =>
    unfold State.issueAnswer
    try dsimp only
    repeat' (first
      | with_reducible assumption | with_reducible intro _ | with_reducible apply ih
      | with_reducible apply State.addTerm_kept | split
      | (refine Kept.fields rfl rfl rfl rfl rfl ?_; first
        | with_reducible assumption))

theorem State.landAnswer_kept {s0 s : State} (a : Await) (data : List Byte) (hs : Kept s0 s) : Kept s0
    (State.landAnswer s a data) := by
  unfold State.landAnswer
  try dsimp only
  repeat' (first
    | with_reducible assumption | with_reducible intro _ | with_reducible apply State.settle_kept
    | with_reducible apply State.dropAwait_kept | with_reducible apply State.issueAnswer_kept)

theorem State.fillPage_kept {s0 s : State} (f w i : Nat) (marks : List Nat) (xs : List (Byte × Nat)) (hs : Kept s0 s)
    : Kept s0 (State.fillPage s f w i marks xs) := by
  induction xs generalizing s f w i marks with
  | nil =>
    unfold State.fillPage
    try dsimp only
    repeat' (first | with_reducible assumption) | cons e es ih =>
    unfold State.fillPage
    try dsimp only
    repeat' (first
      | with_reducible assumption | with_reducible intro _ | with_reducible apply ih
      | with_reducible apply State.wr_kept | with_reducible apply Kept.cond)

theorem State.landFetch_kept {s0 s : State} (a : Await) (data : List Byte) (hs : Kept s0 s) : Kept s0 (State.landFetch
    s a data) := by
  unfold State.landFetch
  try dsimp only
  repeat' (first
    | with_reducible assumption | with_reducible intro _ | with_reducible apply State.settle_kept
    | with_reducible apply State.emitData_kept | with_reducible apply State.setPage_kept
    | with_reducible apply State.dropAwait_kept | with_reducible apply State.fillPage_kept
    | with_reducible apply Kept.cond | split
    | (refine Kept.fields rfl rfl rfl rfl rfl ?_; first
      | with_reducible assumption | with_reducible intro _ | with_reducible apply State.settle_kept
      | with_reducible apply State.emitData_kept | with_reducible apply State.setPage_kept
      | with_reducible apply State.dropAwait_kept | with_reducible apply State.fillPage_kept
      | with_reducible apply Kept.cond | split))

theorem State.takeAnswer_kept {s0 s : State} (p : Packet) (kinds : List Nat) (hs : Kept s0 s) : Kept s0
    (State.takeAnswer s p kinds) := by
  unfold State.takeAnswer
  try dsimp only
  repeat' (first
    | with_reducible assumption | with_reducible intro _ | with_reducible apply State.addG_kept
    | with_reducible apply State.acknowledgeReply_kept | with_reducible apply State.issueSump_kept
    | with_reducible apply State.landAnswer_kept | with_reducible apply State.landFetch_kept
    | with_reducible apply Kept.cond | split
    | (refine Kept.fields rfl rfl rfl rfl rfl ?_; first
      | with_reducible assumption | with_reducible intro _ | with_reducible apply State.addG_kept
      | with_reducible apply State.acknowledgeReply_kept | with_reducible apply State.issueSump_kept
      | with_reducible apply State.landAnswer_kept | with_reducible apply State.landFetch_kept
      | with_reducible apply Kept.cond | split))

theorem execLoadData_kept {s0 s : State} (p : Packet) (hs : Kept s0 s) : KeptO s0 (execLoadData p s) := by
  unfold execLoadData
  try dsimp only
  repeat' (first
    | with_reducible assumption | with_reducible intro _ | with_reducible apply State.takeAnswer_kept
    | with_reducible apply KeptO.next)

theorem execAtomicResult_kept {s0 s : State} (p : Packet) (hs : Kept s0 s) : KeptO s0 (execAtomicResult p s) := by
  unfold execAtomicResult
  try dsimp only
  repeat' (first
    | with_reducible assumption | with_reducible intro _ | with_reducible apply State.takeAnswer_kept
    | with_reducible apply KeptO.next)

theorem execCopyData_kept {s0 s : State} (p : Packet) (hs : Kept s0 s) : KeptO s0 (execCopyData p s) := by
  unfold execCopyData
  try dsimp only
  repeat' (first
    | with_reducible assumption | with_reducible intro _ | with_reducible apply State.reply_kept
    | with_reducible apply State.homeLand_kept | with_reducible apply State.receiveCounted_kept
    | with_reducible apply State.takeAnswer_kept
    | (with_reducible refine KeptE.get (State.homeLand_kept _ _ _  ?_) (by assumption))
    | with_reducible apply KeptO.next | with_reducible apply KeptO.fault | with_reducible apply KeptE.ok
    | with_reducible apply KeptE.error | (with_reducible refine KeptE.bindS ?_ (fun _ _ => ?_))
    | (with_reducible refine KeptE.bind (fun _ => ?_)) | with_reducible apply Kept.cond | split)

theorem execTriggerDone_kept {s0 s : State} (p : Packet) (hs : Kept s0 s) : KeptO s0 (execTriggerDone p s) := by
  unfold execTriggerDone
  try dsimp only
  repeat' (first
    | with_reducible assumption | with_reducible intro _ | with_reducible apply State.addG_kept
    | with_reducible apply State.addFloat_kept | with_reducible apply State.acknowledgeReply_kept
    | with_reducible apply KeptO.next | with_reducible apply KeptO.fault | with_reducible apply Kept.cond | split
    | (refine Kept.fields rfl rfl rfl rfl rfl ?_; first
      | with_reducible assumption))

theorem State.clearMarks_kept {s0 s : State} (a : Await) (q : Packet) (hs : Kept s0 s) : Kept s0 (State.clearMarks s a
    q) := by
  unfold State.clearMarks
  try dsimp only
  repeat' (first
    | with_reducible assumption | with_reducible intro _ | with_reducible apply State.setPage_kept | split
    | (refine Kept.fields rfl rfl rfl rfl rfl ?_; first
      | with_reducible assumption | with_reducible intro _ | with_reducible apply State.setPage_kept | split))

theorem State.acked_kept {s0 s : State} (tag : Nat) (q : Packet) (hs : Kept s0 s) : Kept s0 (State.acked s tag q) := by
  unfold State.acked
  try dsimp only
  repeat' (first
    | with_reducible assumption | with_reducible intro _ | with_reducible apply State.modFn_kept
    | with_reducible apply State.acknowledge_kept | with_reducible apply State.settle_kept
    | with_reducible apply State.unholdSeq_kept | with_reducible apply State.dropAwait_kept
    | with_reducible apply State.landAnswer_kept | with_reducible apply State.clearMarks_kept
    | with_reducible apply Kept.cond | split
    | (refine Kept.fields rfl rfl rfl rfl rfl ?_; first
      | with_reducible assumption | with_reducible intro _ | with_reducible apply State.modFn_kept
      | with_reducible apply State.acknowledge_kept | with_reducible apply State.settle_kept
      | with_reducible apply State.unholdSeq_kept | with_reducible apply State.dropAwait_kept
      | with_reducible apply State.landAnswer_kept | with_reducible apply State.clearMarks_kept
      | with_reducible apply Kept.cond | split))

theorem State.ackedAll_kept {s0 s : State}  (xs : List (Nat × Nat × Nat × Packet)) (hs : Kept s0 s) : Kept s0
    (State.ackedAll s xs) := by
  induction xs generalizing s  with
  | nil =>
    unfold State.ackedAll
    try dsimp only
    repeat' (first | with_reducible assumption) | cons e es ih =>
    unfold State.ackedAll
    try dsimp only
    repeat' (first
      | with_reducible assumption | with_reducible intro _ | with_reducible apply ih
      | with_reducible apply State.acked_kept)

theorem execAck_kept {s0 s : State} (p : Packet) (hs : Kept s0 s) : KeptO s0 (execAck p s) := by
  unfold execAck
  try dsimp only
  repeat' (first
    | with_reducible assumption | with_reducible intro _ | with_reducible apply State.addG_kept
    | with_reducible apply State.modFn_kept | with_reducible apply State.modStream_kept
    | with_reducible apply State.acked_kept | with_reducible apply State.ackedAll_kept
    | with_reducible apply KeptO.next | with_reducible apply KeptO.fault | with_reducible apply Kept.cond | split
    | (refine Kept.fields rfl rfl rfl rfl rfl ?_; first
      | with_reducible assumption | with_reducible intro _ | with_reducible apply State.addG_kept
      | with_reducible apply State.modFn_kept | with_reducible apply State.modStream_kept
      | with_reducible apply State.acked_kept | with_reducible apply State.ackedAll_kept
      | with_reducible apply KeptO.next | with_reducible apply KeptO.fault | with_reducible apply Kept.cond | split))

theorem State.refused_kept {s0 s : State} (cid status : Nat) (hs : Kept s0 s) : Kept s0 (State.refused s cid status) := by
  unfold State.refused
  try dsimp only
  repeat' (first
    | with_reducible assumption | with_reducible intro _ | with_reducible apply State.modCmd_kept
    | with_reducible apply State.settle_kept
    | (refine Kept.fields rfl rfl rfl rfl rfl ?_; first
      | with_reducible assumption | with_reducible intro _ | with_reducible apply State.modCmd_kept
      | with_reducible apply State.settle_kept | with_reducible apply Kept.cond | split))

theorem execRefuse_kept {s0 s : State} (p : Packet) (hs : Kept s0 s) : KeptO s0 (execRefuse p s) := by
  unfold execRefuse
  try dsimp only
  repeat' (first
    | with_reducible assumption | with_reducible intro _ | with_reducible apply State.addG_kept
    | with_reducible apply State.modStream_kept | with_reducible apply State.acknowledge_kept
    | with_reducible apply State.acknowledgeReply_kept | with_reducible apply State.unholdSeq_kept
    | with_reducible apply State.dropAwait_kept | with_reducible apply State.refused_kept
    | with_reducible apply KeptO.next | with_reducible apply KeptO.fault | with_reducible apply Kept.cond | split
    | (refine Kept.fields rfl rfl rfl rfl rfl ?_; first
      | with_reducible assumption | with_reducible intro _ | with_reducible apply State.addG_kept
      | with_reducible apply State.modStream_kept))

theorem State.retireSubs_kept {s0 s : State} (p : Packet) (xs : List Nat) (hs : Kept s0 s) : Kept s0 (State.retireSubs
    s p xs) := by
  induction xs generalizing s p with
  | nil =>
    unfold State.retireSubs
    try dsimp only
    repeat' (first | with_reducible assumption) | cons e es ih =>
    unfold State.retireSubs
    try dsimp only
    repeat' (first
      | with_reducible assumption | with_reducible intro _ | with_reducible apply ih
      | with_reducible apply State.modStream_kept)

theorem execRetire_kept {s0 s : State} (p : Packet) (hs : Kept s0 s) : KeptO s0 (execRetire p s) := by
  unfold execRetire
  try dsimp only
  repeat' (first
    | with_reducible assumption | with_reducible intro _ | with_reducible apply State.addG_kept
    | with_reducible apply State.emit_kept | with_reducible apply State.retireSubs_kept
    | with_reducible apply KeptO.next | with_reducible apply KeptO.fault | with_reducible apply Kept.cond | split)

theorem State.resend_kept {s0 s : State} (dev : Nat) (xs : List (Nat × Nat × Nat × Packet)) (hs : Kept s0 s) : Kept s0
    (State.resend s dev xs) := by
  induction xs generalizing s dev with
  | nil =>
    unfold State.resend
    try dsimp only
    repeat' (first | with_reducible assumption) | cons e es ih =>
    unfold State.resend
    try dsimp only
    repeat' (first
      | with_reducible assumption | with_reducible intro _ | with_reducible apply ih
      | with_reducible apply State.addG_kept | with_reducible apply State.emit_kept)

theorem State.resendStream_kept {s0 s : State} (k : Nat) (hs : Kept s0 s) : Kept s0 (State.resendStream s k) := by
  unfold State.resendStream
  try dsimp only
  repeat' (first
    | with_reducible assumption | with_reducible intro _ | with_reducible apply State.modStream_kept
    | with_reducible apply State.resend_kept
    | (refine Kept.fields rfl rfl rfl rfl rfl ?_; first
      | with_reducible assumption | with_reducible intro _ | with_reducible apply State.modStream_kept
      | with_reducible apply State.resend_kept | split))

theorem State.resendStreams_kept {s0 s : State}  (xs : List Nat) (hs : Kept s0 s) : Kept s0 (State.resendStreams s
    xs) := by
  induction xs generalizing s  with
  | nil =>
    unfold State.resendStreams
    try dsimp only
    repeat' (first | with_reducible assumption) | cons e es ih =>
    unfold State.resendStreams
    try dsimp only
    repeat' (first
      | with_reducible assumption | with_reducible intro _ | with_reducible apply ih
      | with_reducible apply State.resendStream_kept)

theorem execResendTimeout_kept {s0 s : State} (f dev sub : Nat) (hs : Kept s0 s) : KeptO s0 (execResendTimeout f dev
    sub s) := by
  unfold execResendTimeout
  try dsimp only
  repeat' (first
    | with_reducible assumption | with_reducible intro _ | with_reducible apply State.resendStreams_kept
    | with_reducible apply KeptO.next | with_reducible apply KeptO.fault | with_reducible apply Kept.cond | split)

theorem State.returnRegions_kept {s0 s : State} (f dev : Nat) (xs : List Region) (hs : Kept s0 s) : Kept s0
    (State.returnRegions s f dev xs) := by
  induction xs generalizing s f dev with
  | nil =>
    unfold State.returnRegions
    try dsimp only
    repeat' (first
      | with_reducible assumption
      | (refine Kept.fields rfl rfl rfl rfl rfl ?_; first
        | with_reducible assumption | with_reducible intro _ | with_reducible apply ih
        | with_reducible apply State.setRegion_kept | with_reducible apply State.landReceipt_kept
        | with_reducible apply Kept.cond | split)) | cons e es ih =>
    unfold State.returnRegions
    try dsimp only
    repeat' (first
      | with_reducible assumption | with_reducible intro _ | with_reducible apply ih
      | with_reducible apply State.setRegion_kept | with_reducible apply State.landReceipt_kept
      | with_reducible apply Kept.cond | split
      | (refine Kept.fields rfl rfl rfl rfl rfl ?_; first
        | with_reducible assumption | with_reducible intro _ | with_reducible apply ih
        | with_reducible apply State.setRegion_kept | with_reducible apply State.landReceipt_kept
        | with_reducible apply Kept.cond | split))

theorem State.returnAll_kept {s0 s : State} (dev : Nat) (xs : List Nat) (hs : Kept s0 s) : Kept s0 (State.returnAll s
    dev xs) := by
  induction xs generalizing s dev with
  | nil =>
    unfold State.returnAll
    try dsimp only
    repeat' (first | with_reducible assumption) | cons e es ih =>
    unfold State.returnAll
    try dsimp only
    repeat' (first
      | with_reducible assumption | with_reducible intro _ | with_reducible apply ih
      | with_reducible apply State.returnRegions_kept)

theorem State.fenceAwaits_kept {s0 s : State}  (xs : List Await) (hs : Kept s0 s) : Kept s0 (State.fenceAwaits s xs) := by
  induction xs generalizing s  with
  | nil =>
    unfold State.fenceAwaits
    try dsimp only
    repeat' (first
      | with_reducible assumption
      | (refine Kept.fields rfl rfl rfl rfl rfl ?_; first
        | with_reducible assumption | with_reducible intro _ | with_reducible apply ih
        | with_reducible apply State.acknowledge_kept | with_reducible apply State.unholdSeq_kept
        | with_reducible apply State.dropAwait_kept | with_reducible apply State.refused_kept
        | with_reducible apply Kept.cond | split)) | cons e es ih =>
    unfold State.fenceAwaits
    try dsimp only
    repeat' (first
      | with_reducible assumption | with_reducible intro _ | with_reducible apply ih
      | with_reducible apply State.acknowledge_kept | with_reducible apply State.unholdSeq_kept
      | with_reducible apply State.dropAwait_kept | with_reducible apply State.refused_kept
      | with_reducible apply Kept.cond | split
      | (refine Kept.fields rfl rfl rfl rfl rfl ?_; first
        | with_reducible assumption | with_reducible intro _ | with_reducible apply ih
        | with_reducible apply State.acknowledge_kept | with_reducible apply State.unholdSeq_kept
        | with_reducible apply State.dropAwait_kept | with_reducible apply State.refused_kept
        | with_reducible apply Kept.cond | split))

theorem State.fencePeer_kept {s0 s : State} (dev : Nat) (hs : Kept s0 s) : Kept s0 (State.fencePeer s dev) := by
  unfold State.fencePeer
  try dsimp only
  repeat' (first
    | with_reducible assumption | with_reducible intro _ | with_reducible apply State.mapCmds_kept
    | with_reducible apply State.returnAll_kept | with_reducible apply State.fenceAwaits_kept
    | with_reducible apply Kept.cond | split
    | (refine Kept.fields rfl rfl rfl rfl rfl ?_; first
      | with_reducible assumption | with_reducible intro _ | with_reducible apply State.mapCmds_kept
      | with_reducible apply State.returnAll_kept))

theorem State.laneDown_kept {s0 s : State} (l : Nat) (hs : Kept s0 s) : Kept s0 (State.laneDown s l) := by
  unfold State.laneDown
  try dsimp only
  repeat' (first
    | with_reducible assumption | with_reducible intro _ | with_reducible apply State.setG_kept
    | with_reducible apply State.setLane_kept | with_reducible apply State.resendStreams_kept)

theorem execFabricLaneDown_kept {s0 s : State} (l : Nat) (hs : Kept s0 s) : KeptO s0 (execFabricLaneDown l s) := by
  unfold execFabricLaneDown
  try dsimp only
  repeat' (first
    | with_reducible assumption | with_reducible intro _ | with_reducible apply State.laneDown_kept
    | with_reducible apply KeptO.next | with_reducible apply KeptO.fault | with_reducible apply Kept.cond | split)

theorem execFabricLaneTrained_kept {s0 s : State} (l : Nat) (identityOk : Bool) (hs : Kept s0 s) : KeptO s0
    (execFabricLaneTrained l identityOk s) := by
  unfold execFabricLaneTrained
  try dsimp only
  repeat' (first
    | with_reducible assumption | with_reducible intro _ | with_reducible apply State.setG_kept
    | with_reducible apply State.addG_kept | with_reducible apply State.setLane_kept | with_reducible apply KeptO.next
    | with_reducible apply KeptO.fault | with_reducible apply Kept.cond | split)

theorem State.takePacket_kept {s0 s : State} (l : Nat) (b : BlockPacket) (hs : Kept s0 s) : Kept s0 (State.takePacket
    s l b) := by
  unfold State.takePacket
  try dsimp only
  repeat' (first
    | with_reducible assumption | with_reducible intro _ | with_reducible apply State.addG_kept
    | with_reducible apply State.setLane_kept | with_reducible apply State.fresh_kept
    | with_reducible apply State.raise_kept | with_reducible apply State.setSession_kept
    | with_reducible apply Kept.cond
    | (refine Kept.fields rfl rfl rfl rfl rfl ?_; first
      | with_reducible assumption | with_reducible intro _ | with_reducible apply State.addG_kept
      | with_reducible apply State.setLane_kept | with_reducible apply State.fresh_kept
      | with_reducible apply State.raise_kept | with_reducible apply State.setSession_kept
      | with_reducible apply Kept.cond | split))

theorem State.takePackets_kept {s0 s : State} (l : Nat) (xs : List BlockPacket) (hs : Kept s0 s) : Kept s0
    (State.takePackets s l xs) := by
  induction xs generalizing s l with
  | nil =>
    unfold State.takePackets
    try dsimp only
    repeat' (first | with_reducible assumption) | cons e es ih =>
    unfold State.takePackets
    try dsimp only
    repeat' (first
      | with_reducible assumption | with_reducible intro _ | with_reducible apply ih
      | with_reducible apply State.takePacket_kept)

theorem State.returnCredits_kept {s0 s : State} (l : Nat) (hs : Kept s0 s) : Kept s0 (State.returnCredits s l) := by
  unfold State.returnCredits
  try dsimp only
  repeat' (first
    | with_reducible assumption | with_reducible intro _ | with_reducible apply State.setLane_kept
    | (refine Kept.fields rfl rfl rfl rfl rfl ?_; first
      | with_reducible assumption | with_reducible intro _ | with_reducible apply State.setLane_kept
      | with_reducible apply Kept.cond | split))

theorem State.takeBlock_kept {s0 s : State} (l bseq back : Nat) (credits : List Nat) (packets : List BlockPacket) (hs
    : Kept s0 s) : Kept s0 (State.takeBlock s l bseq back credits packets) := by
  unfold State.takeBlock
  try dsimp only
  repeat' (first
    | with_reducible assumption | with_reducible intro _ | with_reducible apply State.setLane_kept
    | with_reducible apply State.flushLane_kept | with_reducible apply State.takePackets_kept
    | with_reducible apply State.returnCredits_kept
    | (refine Kept.fields rfl rfl rfl rfl rfl ?_; first
      | with_reducible assumption | with_reducible intro _ | with_reducible apply State.setLane_kept
      | with_reducible apply State.flushLane_kept | with_reducible apply State.takePackets_kept
      | with_reducible apply State.returnCredits_kept | split))

theorem execLaneBlockReceive_kept {s0 s : State} (l : Nat) (kind : BlockKind) (bseq back : Nat) (credits : List Nat)
    (packets : List BlockPacket) (hs : Kept s0 s) : KeptO s0 (execLaneBlockReceive l kind bseq back credits packets
    s) := by
  unfold execLaneBlockReceive
  try dsimp only
  repeat' (first
    | with_reducible assumption | with_reducible intro _ | with_reducible apply State.addG_kept
    | with_reducible apply State.setLane_kept | with_reducible apply State.laneDown_kept
    | with_reducible apply State.takeBlock_kept | with_reducible apply KeptO.next | with_reducible apply KeptO.fault
    | with_reducible apply Kept.cond | split
    | (refine Kept.fields rfl rfl rfl rfl rfl ?_; first
      | with_reducible assumption | with_reducible intro _ | with_reducible apply State.addG_kept
      | with_reducible apply State.setLane_kept | with_reducible apply State.laneDown_kept
      | with_reducible apply State.takeBlock_kept | with_reducible apply KeptO.next | with_reducible apply KeptO.fault
      | with_reducible apply Kept.cond | split))

theorem roleRule_kept {s0 s : State} (l role : Nat) (_u1 : ObjRow) (hs : Kept s0 s) : KeptE s0 (roleRule l role _u1
    s) := by
  unfold roleRule
  try dsimp only
  repeat' (first
    | with_reducible assumption | with_reducible intro _ | with_reducible apply KeptE.ok
    | with_reducible apply KeptE.error | (with_reducible refine KeptE.bindS ?_ (fun _ _ => ?_))
    | (with_reducible refine KeptE.bind (fun _ => ?_)))

theorem State.setRole_kept {s0 s : State} (l role : Nat) (hs : Kept s0 s) : Kept s0 (State.setRole s l role) := by
  unfold State.setRole
  try dsimp only
  repeat' (first | with_reducible assumption | with_reducible intro _ | with_reducible apply State.setG_kept)

theorem execLaneRoleWrite_kept {s0 s : State} (path : Path) (l role : Nat) (hs : Kept s0 s) : KeptO s0
    (execLaneRoleWrite path l role s) := by
  unfold execLaneRoleWrite
  try dsimp only
  repeat' (first
    | with_reducible assumption | with_reducible intro _ | with_reducible apply State.access_kept
    | with_reducible apply roleRule_kept | (with_reducible refine KeptE.get (roleRule_kept _ _ _  ?_) (by assumption))
    | with_reducible apply KeptO.next)

theorem State.flushLanes_kept {s0 s : State}  (xs : List Nat) (hs : Kept s0 s) : Kept s0 (State.flushLanes s xs) := by
  induction xs generalizing s  with
  | nil =>
    unfold State.flushLanes
    try dsimp only
    repeat' (first | with_reducible assumption) | cons e es ih =>
    unfold State.flushLanes
    try dsimp only
    repeat' (first
      | with_reducible assumption | with_reducible intro _ | with_reducible apply ih
      | with_reducible apply State.flushLane_kept)

theorem execSessionKeying_kept {s0 s : State} (dev : Nat) (peerOk : Bool) (hs : Kept s0 s) : KeptO s0
    (execSessionKeying dev peerOk s) := by
  unfold execSessionKeying
  try dsimp only
  repeat' (first
    | with_reducible assumption | with_reducible intro _ | with_reducible apply State.raise_kept
    | with_reducible apply State.setSession_kept | with_reducible apply State.flushLanes_kept
    | with_reducible apply KeptO.next | with_reducible apply KeptO.fault | with_reducible apply Kept.cond | split)

theorem endpointRule_kept {s0 s : State} (f value : Nat) (_u1 : ObjRow) (hs : Kept s0 s) : KeptE s0 (endpointRule f
    value _u1 s) := by
  unfold endpointRule
  try dsimp only
  repeat' (first
    | with_reducible assumption | with_reducible intro _ | with_reducible apply State.setO_kept
    | with_reducible apply State.modFn_kept | with_reducible apply KeptE.ok | with_reducible apply KeptE.error
    | (with_reducible refine KeptE.bindS ?_ (fun _ _ => ?_)) | (with_reducible refine KeptE.bind (fun _ => ?_))
    | with_reducible apply Kept.cond | split
    | (refine Kept.fields rfl rfl rfl rfl rfl ?_; first
      | with_reducible assumption | with_reducible intro _ | with_reducible apply State.setO_kept))

theorem execEndpointControlWrite_kept {s0 s : State} (path : Path) (f value : Nat) (hs : Kept s0 s) : KeptO s0
    (execEndpointControlWrite path f value s) := by
  unfold execEndpointControlWrite
  try dsimp only
  repeat' (first
    | with_reducible assumption | with_reducible intro _ | with_reducible apply State.access_kept
    | with_reducible apply endpointRule_kept
    | (with_reducible refine KeptE.get (endpointRule_kept _ _ _  ?_) (by assumption))
    | with_reducible apply KeptO.next)

theorem regionRule_kept {s0 s : State} (f value : Nat) (_u1 : ObjRow) (hs : Kept s0 s) : KeptE s0 (regionRule f value
    _u1 s) := by
  unfold regionRule
  try dsimp only
  repeat' (first
    | with_reducible assumption | with_reducible intro _ | with_reducible apply State.setRegion_kept
    | with_reducible apply KeptE.ok | with_reducible apply KeptE.error
    | (with_reducible refine KeptE.bindS ?_ (fun _ _ => ?_)) | (with_reducible refine KeptE.bind (fun _ => ?_))
    | with_reducible apply Kept.cond | split
    | (refine Kept.fields rfl rfl rfl rfl rfl ?_; first
      | with_reducible assumption | with_reducible intro _ | with_reducible apply State.setRegion_kept
      | with_reducible apply KeptE.ok | with_reducible apply KeptE.error
      | (with_reducible refine KeptE.bindS ?_ (fun _ _ => ?_)) | (with_reducible refine KeptE.bind (fun _ => ?_))
      | with_reducible apply Kept.cond | split))

theorem execRegionControlWrite_kept {s0 s : State} (path : Path) (f value : Nat) (hs : Kept s0 s) : KeptO s0
    (execRegionControlWrite path f value s) := by
  unfold execRegionControlWrite
  try dsimp only
  repeat' (first
    | with_reducible assumption | with_reducible intro _ | with_reducible apply State.access_kept
    | with_reducible apply regionRule_kept
    | (with_reducible refine KeptE.get (regionRule_kept _ _ _  ?_) (by assumption)) | with_reducible apply KeptO.next)

theorem procedureRule_kept {s0 s : State} (f value : Nat) (_u1 : ObjRow) (hs : Kept s0 s) : KeptE s0 (procedureRule f
    value _u1 s) := by
  unfold procedureRule
  try dsimp only
  repeat' (first
    | with_reducible assumption | with_reducible intro _ | with_reducible apply State.setProc_kept
    | with_reducible apply KeptE.ok | with_reducible apply KeptE.error
    | (with_reducible refine KeptE.bindS ?_ (fun _ _ => ?_)) | (with_reducible refine KeptE.bind (fun _ => ?_))
    | with_reducible apply Kept.cond | split
    | (refine Kept.fields rfl rfl rfl rfl rfl ?_; first
      | with_reducible assumption | with_reducible intro _ | with_reducible apply State.setProc_kept
      | with_reducible apply KeptE.ok | with_reducible apply KeptE.error
      | (with_reducible refine KeptE.bindS ?_ (fun _ _ => ?_)) | (with_reducible refine KeptE.bind (fun _ => ?_))
      | with_reducible apply Kept.cond | split))

theorem execProcedureControlWrite_kept {s0 s : State} (path : Path) (f value : Nat) (hs : Kept s0 s) : KeptO s0
    (execProcedureControlWrite path f value s) := by
  unfold execProcedureControlWrite
  try dsimp only
  repeat' (first
    | with_reducible assumption | with_reducible intro _ | with_reducible apply State.access_kept
    | with_reducible apply procedureRule_kept
    | (with_reducible refine KeptE.get (procedureRule_kept _ _ _  ?_) (by assumption))
    | with_reducible apply KeptO.next)

end Sys2Proof.Machine
end

