-- ==== Sys2Proof/Laws/KeptEngines.lean ====
section
/-!
SUPPORT. The operations of Machine/Pump, Machine/Memory, Machine/Serving, Machine/Radio, Machine/CellRows keep the
    queue and the canonical form.
-/

namespace Sys2Proof.Machine

theorem State.moveParts_kept {s0 s : State} (c : Cmd) (pace : Pace) (float : Option Nat) (l : List Part) (hs : Kept s0
    s) : Kept s0 (State.moveParts s c pace float l) := by
  unfold State.moveParts
  try dsimp only
  repeat' (first
    | with_reducible assumption | with_reducible intro _ | with_reducible apply State.issueFrom_kept | split)

theorem State.moveBytes_kept {s0 s : State} (c : Cmd) (n : Nat) (float : Option Nat) (hs : Kept s0 s) : Kept s0
    (State.moveBytes s c n float) := by
  unfold State.moveBytes
  try dsimp only
  repeat' (first
    | with_reducible assumption | with_reducible intro _ | with_reducible apply State.moveParts_kept | split)

theorem copyEffect_kept {s0 s : State} (c : Cmd) (hs : Kept s0 s) : KeptP s0 (copyEffect c s) := by
  unfold copyEffect
  try dsimp only
  repeat' (first
    | with_reducible assumption | with_reducible intro _ | with_reducible apply fabricEffect_kept
    | with_reducible apply State.moveBytes_kept
    | (with_reducible refine KeptP.get (fabricEffect_kept _  ?_) (by assumption)) | with_reducible apply KeptP.ok
    | with_reducible apply KeptP.map | with_reducible apply KeptP.error
    | (with_reducible refine KeptP.bindP ?_ (fun _ _ => ?_)) | (with_reducible refine KeptP.bindS ?_ (fun _ _ => ?_))
    | (with_reducible refine KeptP.bind (fun _ => ?_)) | with_reducible apply KeptE.ok
    | with_reducible apply KeptE.error | (with_reducible refine KeptE.bindS ?_ (fun _ _ => ?_))
    | (with_reducible refine KeptE.bind (fun _ => ?_)) | with_reducible apply Kept.cond | split)

theorem execPumpCopy_kept {s0 s : State} (cid : Nat) (hs : Kept s0 s) : KeptO s0 (execPumpCopy cid s) := by
  unfold execPumpCopy
  try dsimp only
  repeat' (first
    | with_reducible assumption | with_reducible intro _ | with_reducible apply State.perform_kept
    | with_reducible apply copyEffect_kept | (with_reducible refine KeptP.get (copyEffect_kept _  ?_) (by assumption))
    | with_reducible apply KeptO.next)

theorem transposeEffect_kept {s0 s : State} (c : Cmd) (hs : Kept s0 s) : KeptP s0 (transposeEffect c s) := by
  unfold transposeEffect
  try dsimp only
  repeat' (first
    | with_reducible assumption | with_reducible intro _ | with_reducible apply State.moveParts_kept
    | with_reducible apply KeptP.ok | with_reducible apply KeptP.map | with_reducible apply KeptP.error
    | (with_reducible refine KeptP.bindP ?_ (fun _ _ => ?_)) | (with_reducible refine KeptP.bindS ?_ (fun _ _ => ?_))
    | (with_reducible refine KeptP.bind (fun _ => ?_)) | with_reducible apply KeptE.ok
    | with_reducible apply KeptE.error | (with_reducible refine KeptE.bindS ?_ (fun _ _ => ?_))
    | (with_reducible refine KeptE.bind (fun _ => ?_)) | split)

theorem execPumpTranspose_kept {s0 s : State} (cid : Nat) (hs : Kept s0 s) : KeptO s0 (execPumpTranspose cid s) := by
  unfold execPumpTranspose
  try dsimp only
  repeat' (first
    | with_reducible assumption | with_reducible intro _ | with_reducible apply State.perform_kept
    | with_reducible apply transposeEffect_kept
    | (with_reducible refine KeptP.get (transposeEffect_kept _  ?_) (by assumption))
    | with_reducible apply KeptO.next)

theorem execPieceLand_kept {s0 s : State} (pid : Nat) (hs : Kept s0 s) : KeptO s0 (execPieceLand pid s) := by
  unfold execPieceLand
  try dsimp only
  repeat' (first
    | with_reducible assumption | with_reducible intro _ | with_reducible apply State.landPiece_kept
    | with_reducible apply KeptO.next | with_reducible apply KeptO.fault | with_reducible apply Kept.cond | split
    | (refine Kept.fields rfl rfl rfl rfl rfl ?_; first
      | with_reducible assumption | with_reducible intro _ | with_reducible apply State.landPiece_kept
      | with_reducible apply KeptO.next | with_reducible apply KeptO.fault | with_reducible apply Kept.cond | split))

theorem State.failRead_kept {s0 s : State} (r : ReadReq) (status : Nat) (hs : Kept s0 s) : Kept s0 (State.failRead s r
    status) := by
  unfold State.failRead
  try dsimp only
  repeat' (first
    | with_reducible assumption | with_reducible intro _ | with_reducible apply State.did_kept
    | with_reducible apply State.failTb_kept | with_reducible apply State.failPiece_kept
    | with_reducible apply State.dropRead_kept | with_reducible apply Kept.cond | split
    | (refine Kept.fields rfl rfl rfl rfl rfl ?_; first
      | with_reducible assumption | with_reducible intro _ | with_reducible apply State.did_kept
      | with_reducible apply State.failTb_kept | with_reducible apply State.failPiece_kept
      | with_reducible apply State.dropRead_kept | with_reducible apply Kept.cond | split))

theorem State.arrive_kept {s0 s : State} (r : ReadReq) (bad : Bool) (wrong : Option (List Byte)) (hs : Kept s0 s) :
    Kept s0 (State.arrive s r bad wrong) := by
  unfold State.arrive
  try dsimp only
  repeat' (first
    | with_reducible assumption | with_reducible intro _ | with_reducible apply State.presentRead_kept
    | with_reducible apply State.failRead_kept | with_reducible apply Kept.cond | split
    | (refine Kept.fields rfl rfl rfl rfl rfl ?_; first
      | with_reducible assumption | with_reducible intro _ | with_reducible apply State.presentRead_kept
      | with_reducible apply State.failRead_kept | with_reducible apply Kept.cond | split))

theorem State.decode_kept {s0 s : State} (r : ReadReq) (bits : List (Nat × Nat)) (hs : Kept s0 s) : Kept s0
    (State.decode s r bits) := by
  unfold State.decode
  dsimp only
  split
  · exact State.arrive_kept _ _ _ (State.countUncorrectable_kept _ _ hs)
  · split
    · exact State.arrive_kept _ _ _ hs
    · exact State.arrive_kept _ _ _ (State.addG_kept _ _ _ hs)
    · exact State.arrive_kept _ _ _ (State.countUncorrectable_kept _ _ hs)
    · exact State.arrive_kept _ _ _ (State.addG_kept _ _ _ (State.fresh_kept hs))

theorem State.pathFault_kept {s0 s : State} (r : ReadReq) (hs : Kept s0 s) : Kept s0 (State.pathFault s r) := by
  unfold State.pathFault
  try dsimp only
  repeat' (first
    | with_reducible assumption | with_reducible intro _ | with_reducible apply State.addG_kept
    | with_reducible apply State.lateness_kept | with_reducible apply State.dropRead_kept
    | with_reducible apply State.failRead_kept | with_reducible apply Kept.cond | split
    | (refine Kept.fields rfl rfl rfl rfl rfl ?_; first
      | with_reducible assumption | with_reducible intro _ | with_reducible apply State.addG_kept
      | with_reducible apply State.lateness_kept | with_reducible apply State.dropRead_kept
      | with_reducible apply State.failRead_kept | with_reducible apply Kept.cond | split))

theorem execMemoryReadArrival_kept {s0 s : State} (rid : Nat) (bits : List (Nat × Nat)) (hs : Kept s0 s) : KeptO s0
    (execMemoryReadArrival rid bits s) := by
  unfold execMemoryReadArrival
  try dsimp only
  repeat' (first
    | with_reducible assumption | with_reducible intro _ | with_reducible apply State.decode_kept
    | with_reducible apply State.pathFault_kept | with_reducible apply KeptO.next | with_reducible apply KeptO.fault
    | with_reducible apply Kept.cond | split
    | (refine Kept.fields rfl rfl rfl rfl rfl ?_; first
      | with_reducible assumption | with_reducible intro _ | with_reducible apply State.decode_kept
      | with_reducible apply State.pathFault_kept | with_reducible apply KeptO.next | with_reducible apply KeptO.fault
      | with_reducible apply Kept.cond | split))

theorem execBucketPresent_kept {s0 s : State} (rid : Nat) (hs : Kept s0 s) : KeptO s0 (execBucketPresent rid s) := by
  unfold execBucketPresent
  try dsimp only
  repeat' (first
    | with_reducible assumption | with_reducible intro _ | with_reducible apply State.issue_kept
    | with_reducible apply State.presentRead_kept | with_reducible apply State.failRead_kept
    | with_reducible apply State.pathFault_kept | with_reducible apply KeptO.next | with_reducible apply KeptO.fault
    | with_reducible apply Kept.cond | split
    | (refine Kept.fields rfl rfl rfl rfl rfl ?_; first
      | with_reducible assumption | with_reducible intro _ | with_reducible apply State.issue_kept
      | with_reducible apply State.presentRead_kept | with_reducible apply State.failRead_kept
      | with_reducible apply State.pathFault_kept | with_reducible apply KeptO.next | with_reducible apply KeptO.fault
      | with_reducible apply Kept.cond | split))

theorem execCisternScrub_kept {s0 s : State}  (hs : Kept s0 s) : KeptO s0 (execCisternScrub s) := by
  unfold execCisternScrub
  try dsimp only
  repeat' (first
    | with_reducible assumption | with_reducible intro _ | with_reducible apply KeptO.next
    | with_reducible apply KeptO.fault | with_reducible apply Kept.cond | split
    | (refine Kept.fields rfl rfl rfl rfl rfl ?_; first
      | with_reducible assumption))

theorem floatRangeRule_kept {s0 s : State} (f sub value : Nat) (_u1 : ObjRow) (hs : Kept s0 s) : KeptE s0
    (floatRangeRule f sub value _u1 s) := by
  unfold floatRangeRule
  try dsimp only
  repeat' (first
    | with_reducible assumption | with_reducible intro _ | with_reducible apply State.setO_kept
    | with_reducible apply State.setG_kept | with_reducible apply State.zeroFloats_kept
    | with_reducible apply KeptE.ok | with_reducible apply KeptE.error
    | (with_reducible refine KeptE.bindS ?_ (fun _ _ => ?_)) | (with_reducible refine KeptE.bind (fun _ => ?_))
    | with_reducible apply Kept.cond | split
    | (refine Kept.fields rfl rfl rfl rfl rfl ?_; first
      | with_reducible assumption | with_reducible intro _ | with_reducible apply State.setO_kept
      | with_reducible apply State.setG_kept | with_reducible apply State.zeroFloats_kept
      | with_reducible apply KeptE.ok | with_reducible apply KeptE.error
      | (with_reducible refine KeptE.bindS ?_ (fun _ _ => ?_)) | (with_reducible refine KeptE.bind (fun _ => ?_))
      | with_reducible apply Kept.cond | split))

theorem execFloatRangeWrite_kept {s0 s : State} (path : Path) (f sub value : Nat) (hs : Kept s0 s) : KeptO s0
    (execFloatRangeWrite path f sub value s) := by
  unfold execFloatRangeWrite
  try dsimp only
  repeat' (first
    | with_reducible assumption | with_reducible intro _ | with_reducible apply State.access_kept
    | with_reducible apply floatRangeRule_kept
    | (with_reducible refine KeptE.get (floatRangeRule_kept _ _ _ _  ?_) (by assumption))
    | with_reducible apply KeptO.next)

theorem execLandingZoneSizeWrite_kept {s0 s : State} (path : Path) (core z : Nat) (hs : Kept s0 s) : KeptO s0
    (execLandingZoneSizeWrite path core z s) := by
  unfold execLandingZoneSizeWrite
  try dsimp only
  repeat' (first
    | with_reducible assumption | with_reducible intro _ | with_reducible apply State.access_kept
    | with_reducible apply storeRule_kept
    | (with_reducible refine KeptE.get (storeRule_kept _ _ _ _ _  ?_) (by assumption))
    | with_reducible apply KeptO.next)

theorem State.serve_kept {s0 s : State} (cid : Nat) (is : Cmd → Bool) (k : Cmd → State → Except Refused (State × List
    Nat)) (hk : ∀ _x0 t, Kept s0 t → KeptP s0 (k _x0 t)) (hs : Kept s0 s) : Kept s0 (State.serve s cid is k) := by
  unfold State.serve
  try dsimp only
  repeat' (first
    | with_reducible assumption | with_reducible intro _ | with_reducible apply State.raise_kept
    | with_reducible apply State.did_kept | with_reducible apply State.perform_kept | with_reducible apply hk
    | with_reducible apply KeptP.ok | with_reducible apply KeptP.map | with_reducible apply KeptP.error
    | (with_reducible refine KeptP.bindP ?_ (fun _ _ => ?_)) | (with_reducible refine KeptP.bindS ?_ (fun _ _ => ?_))
    | (with_reducible refine KeptP.bind (fun _ => ?_)) | with_reducible apply Kept.cond | split
    | (refine Kept.fields rfl rfl rfl rfl rfl ?_; first
      | with_reducible assumption | with_reducible intro _ | with_reducible apply State.raise_kept
      | with_reducible apply State.did_kept | with_reducible apply State.perform_kept | with_reducible apply hk
      | with_reducible apply KeptP.ok | with_reducible apply KeptP.map | with_reducible apply KeptP.error
      | (with_reducible refine KeptP.bindP ?_ (fun _ _ => ?_))
      | (with_reducible refine KeptP.bindS ?_ (fun _ _ => ?_)) | (with_reducible refine KeptP.bind (fun _ => ?_))
      | with_reducible apply Kept.cond | split))

theorem State.putMirror_kept {s0 s : State} (f : Nat) (xs : List (DevAddr × Nat)) (hs : Kept s0 s) : Kept s0
    (State.putMirror s f xs) := by
  induction xs generalizing s f with
  | nil =>
    unfold State.putMirror
    try dsimp only
    repeat' (first | with_reducible assumption) | cons e es ih =>
    unfold State.putMirror
    try dsimp only
    repeat' (first
      | with_reducible assumption | with_reducible intro _ | with_reducible apply ih
      | with_reducible apply State.addTerm_kept | with_reducible apply State.store_kept)

theorem kvEffect_kept {s0 s : State} (c : Cmd) (hs : Kept s0 s) : KeptP s0 (kvEffect c s) := by
  unfold kvEffect
  try dsimp only
  repeat' (first
    | with_reducible assumption | with_reducible intro _ | with_reducible apply State.setO_kept
    | with_reducible apply State.addO_kept | with_reducible apply State.modFn_kept
    | with_reducible apply State.emitData_kept | with_reducible apply State.putMirror_kept
    | with_reducible apply KeptP.ok | with_reducible apply KeptP.map | with_reducible apply KeptP.error
    | (with_reducible refine KeptP.bindP ?_ (fun _ _ => ?_)) | (with_reducible refine KeptP.bindS ?_ (fun _ _ => ?_))
    | (with_reducible refine KeptP.bind (fun _ => ?_)) | with_reducible apply KeptE.ok
    | with_reducible apply KeptE.error | (with_reducible refine KeptE.bindS ?_ (fun _ _ => ?_))
    | (with_reducible refine KeptE.bind (fun _ => ?_)) | split
    | (refine Kept.fields rfl rfl rfl rfl rfl ?_; first
      | with_reducible assumption | with_reducible intro _ | with_reducible apply State.setO_kept
      | with_reducible apply State.addO_kept | with_reducible apply State.modFn_kept
      | with_reducible apply State.emitData_kept | with_reducible apply State.putMirror_kept
      | with_reducible apply KeptP.ok | with_reducible apply KeptP.map | with_reducible apply KeptP.error
      | (with_reducible refine KeptP.bindP ?_ (fun _ _ => ?_))
      | (with_reducible refine KeptP.bindS ?_ (fun _ _ => ?_)) | (with_reducible refine KeptP.bind (fun _ => ?_))
      | with_reducible apply KeptE.ok | with_reducible apply KeptE.error
      | (with_reducible refine KeptE.bindS ?_ (fun _ _ => ?_)) | (with_reducible refine KeptE.bind (fun _ => ?_))
      | split))

theorem execKvStep_kept {s0 s : State} (cid : Nat) (hs : Kept s0 s) : KeptO s0 (execKvStep cid s) := by
  unfold execKvStep
  try dsimp only
  repeat' (first
    | with_reducible assumption | with_reducible intro _ | with_reducible apply State.serve_kept
    | with_reducible apply kvEffect_kept | (with_reducible refine KeptP.get (kvEffect_kept _  ?_) (by assumption))
    | with_reducible apply KeptO.next)

theorem sampleEffect_kept {s0 s : State} (c : Cmd) (hs : Kept s0 s) : KeptP s0 (sampleEffect c s) := by
  unfold sampleEffect
  try dsimp only
  repeat' (first
    | with_reducible assumption | with_reducible intro _ | with_reducible apply State.emitData_kept
    | with_reducible apply KeptP.ok | with_reducible apply KeptP.map | with_reducible apply KeptP.error
    | (with_reducible refine KeptP.bindP ?_ (fun _ _ => ?_)) | (with_reducible refine KeptP.bindS ?_ (fun _ _ => ?_))
    | (with_reducible refine KeptP.bind (fun _ => ?_)) | with_reducible apply KeptE.ok
    | with_reducible apply KeptE.error | (with_reducible refine KeptE.bindS ?_ (fun _ _ => ?_))
    | (with_reducible refine KeptE.bind (fun _ => ?_)) | with_reducible apply Kept.cond | split)

theorem execSample_kept {s0 s : State} (cid : Nat) (hs : Kept s0 s) : KeptO s0 (execSample cid s) := by
  unfold execSample
  try dsimp only
  repeat' (first
    | with_reducible assumption | with_reducible intro _ | with_reducible apply State.serve_kept
    | with_reducible apply sampleEffect_kept
    | (with_reducible refine KeptP.get (sampleEffect_kept _  ?_) (by assumption)) | with_reducible apply KeptO.next)

theorem gatherRowsEffect_kept {s0 s : State} (c : Cmd) (hs : Kept s0 s) : KeptP s0 (gatherRowsEffect c s) := by
  unfold gatherRowsEffect
  try dsimp only
  repeat' (first
    | with_reducible assumption | with_reducible intro _ | with_reducible apply State.emitData_kept
    | with_reducible apply KeptP.ok | with_reducible apply KeptP.map | with_reducible apply KeptP.error
    | (with_reducible refine KeptP.bindP ?_ (fun _ _ => ?_)) | (with_reducible refine KeptP.bindS ?_ (fun _ _ => ?_))
    | (with_reducible refine KeptP.bind (fun _ => ?_)) | with_reducible apply KeptE.ok
    | with_reducible apply KeptE.error | (with_reducible refine KeptE.bindS ?_ (fun _ _ => ?_))
    | (with_reducible refine KeptE.bind (fun _ => ?_)) | with_reducible apply Kept.cond | split
    | (with_reducible refine Kept.foldl _ (fun _ _ _ => ?_) _ ?_))

theorem execGatherRows_kept {s0 s : State} (cid : Nat) (hs : Kept s0 s) : KeptO s0 (execGatherRows cid s) := by
  unfold execGatherRows
  try dsimp only
  repeat' (first
    | with_reducible assumption | with_reducible intro _ | with_reducible apply State.serve_kept
    | with_reducible apply gatherRowsEffect_kept
    | (with_reducible refine KeptP.get (gatherRowsEffect_kept _  ?_) (by assumption))
    | with_reducible apply KeptO.next)

theorem gatherRouteEffect_kept {s0 s : State} (c : Cmd) (hs : Kept s0 s) : KeptP s0 (gatherRouteEffect c s) := by
  unfold gatherRouteEffect
  try dsimp only
  repeat' (first
    | with_reducible assumption | with_reducible intro _ | with_reducible apply State.emitData_kept
    | with_reducible apply KeptP.ok | with_reducible apply KeptP.map | with_reducible apply KeptP.error
    | (with_reducible refine KeptP.bindP ?_ (fun _ _ => ?_)) | (with_reducible refine KeptP.bindS ?_ (fun _ _ => ?_))
    | (with_reducible refine KeptP.bind (fun _ => ?_)) | with_reducible apply KeptE.ok
    | with_reducible apply KeptE.error | (with_reducible refine KeptE.bindS ?_ (fun _ _ => ?_))
    | (with_reducible refine KeptE.bind (fun _ => ?_)) | split
    | (with_reducible refine Kept.foldl _ (fun _ _ _ => ?_) _ ?_))

theorem execGatherRoute_kept {s0 s : State} (cid : Nat) (hs : Kept s0 s) : KeptO s0 (execGatherRoute cid s) := by
  unfold execGatherRoute
  try dsimp only
  repeat' (first
    | with_reducible assumption | with_reducible intro _ | with_reducible apply State.serve_kept
    | with_reducible apply gatherRouteEffect_kept
    | (with_reducible refine KeptP.get (gatherRouteEffect_kept _  ?_) (by assumption))
    | with_reducible apply KeptO.next)

theorem scatterEffect_kept {s0 s : State} (fmt : Option Nat) (c : Cmd) (hs : Kept s0 s) : KeptP s0 (scatterEffect fmt
    c s) := by
  unfold scatterEffect
  try dsimp only
  repeat' (first
    | with_reducible assumption | with_reducible intro _ | with_reducible apply State.emitData_kept
    | with_reducible apply KeptP.ok | with_reducible apply KeptP.map | with_reducible apply KeptP.error
    | (with_reducible refine KeptP.bindP ?_ (fun _ _ => ?_)) | (with_reducible refine KeptP.bindS ?_ (fun _ _ => ?_))
    | (with_reducible refine KeptP.bind (fun _ => ?_)) | with_reducible apply KeptE.ok
    | with_reducible apply KeptE.error | (with_reducible refine KeptE.bindS ?_ (fun _ _ => ?_))
    | (with_reducible refine KeptE.bind (fun _ => ?_)) | with_reducible apply Kept.cond | split
    | (with_reducible refine Kept.foldl _ (fun _ _ _ => ?_) _ ?_))

theorem execScatterOverwrite_kept {s0 s : State} (cid : Nat) (hs : Kept s0 s) : KeptO s0 (execScatterOverwrite cid s) := by
  unfold execScatterOverwrite
  try dsimp only
  repeat' (first
    | with_reducible assumption | with_reducible intro _ | with_reducible apply State.serve_kept
    | with_reducible apply scatterEffect_kept
    | (with_reducible refine KeptP.get (scatterEffect_kept _ _  ?_) (by assumption))
    | with_reducible apply KeptO.next)

theorem execScatterAddFp32_kept {s0 s : State} (cid : Nat) (hs : Kept s0 s) : KeptO s0 (execScatterAddFp32 cid s) := by
  unfold execScatterAddFp32
  try dsimp only
  repeat' (first
    | with_reducible assumption | with_reducible intro _ | with_reducible apply State.serve_kept
    | with_reducible apply scatterEffect_kept
    | (with_reducible refine KeptP.get (scatterEffect_kept _ _  ?_) (by assumption))
    | with_reducible apply KeptO.next)

theorem execScatterAddBf16_kept {s0 s : State} (cid : Nat) (hs : Kept s0 s) : KeptO s0 (execScatterAddBf16 cid s) := by
  unfold execScatterAddBf16
  try dsimp only
  repeat' (first
    | with_reducible assumption | with_reducible intro _ | with_reducible apply State.serve_kept
    | with_reducible apply scatterEffect_kept
    | (with_reducible refine KeptP.get (scatterEffect_kept _ _  ?_) (by assumption))
    | with_reducible apply KeptO.next)

theorem State.radioDo_kept {s0 s : State} (cid : Nat) (is : Cmd → Bool) (k : Cmd → State → Except Refused (State ×
    List Nat)) (hk : ∀ _x0 t, Kept s0 t → KeptP s0 (k _x0 t)) (hs : Kept s0 s) : Kept s0 (State.radioDo s cid is k) := by
  unfold State.radioDo
  try dsimp only
  repeat' (first
    | with_reducible assumption | with_reducible intro _ | with_reducible apply State.modCmd_kept
    | with_reducible apply State.did_kept | with_reducible apply State.failTb_kept
    | with_reducible apply State.perform_kept | with_reducible apply hk | with_reducible apply KeptP.ok
    | with_reducible apply KeptP.map | with_reducible apply KeptP.error
    | (with_reducible refine KeptP.bindP ?_ (fun _ _ => ?_)) | (with_reducible refine KeptP.bindS ?_ (fun _ _ => ?_))
    | (with_reducible refine KeptP.bind (fun _ => ?_)) | with_reducible apply Kept.cond | split
    | (refine Kept.fields rfl rfl rfl rfl rfl ?_; first
      | with_reducible assumption | with_reducible intro _ | with_reducible apply State.modCmd_kept
      | with_reducible apply State.did_kept | with_reducible apply State.failTb_kept
      | with_reducible apply State.perform_kept | with_reducible apply hk | with_reducible apply KeptP.ok
      | with_reducible apply KeptP.map | with_reducible apply KeptP.error
      | (with_reducible refine KeptP.bindP ?_ (fun _ _ => ?_))
      | (with_reducible refine KeptP.bindS ?_ (fun _ _ => ?_)) | (with_reducible refine KeptP.bind (fun _ => ?_))
      | with_reducible apply Kept.cond | split))

theorem State.askInputs_kept {s0 s : State} (c : Cmd) (l : List (DevAddr × Nat)) (hs : Kept s0 s) : Kept s0
    (State.askInputs s c l) := by
  unfold State.askInputs
  try dsimp only
  repeat' (first
    | with_reducible assumption | with_reducible intro _ | with_reducible apply State.modCmd_kept
    | with_reducible apply State.askBlocks_kept | with_reducible apply Kept.cond | split
    | (refine Kept.fields rfl rfl rfl rfl rfl ?_; first
      | with_reducible assumption | with_reducible intro _ | with_reducible apply State.modCmd_kept
      | with_reducible apply State.askBlocks_kept | with_reducible apply Kept.cond | split))

theorem State.radioRun_kept {s0 s : State} (cid : Nat) (is : Cmd → Bool) (inputs : State → Cmd → List (DevAddr × Nat))
    (k : Cmd → State → Except Refused (State × List Nat)) (hk : ∀ c t, Kept s0 t → KeptP s0 (k c t)) (hs : Kept s0 s)
        :
    Kept s0 (State.radioRun s cid is inputs k) := by
  unfold State.radioRun
  split
  · dsimp only
    split
    · exact hs
    · split
      · exact Kept.cond (State.radioDo_kept cid is k hk hs) (State.askInputs_kept _ _ hs)
      · split
        · exact hs
        · have ht := State.radioDo_kept cid is k hk (State.asSeen_kept cid none hs)
          exact State.takeReads_kept cid none ⟨ht.pending, fun c => ⟨(hs.canon c).mem, (ht.canon c).obj, (ht.canon
              c).floats⟩⟩
  · exact hs

theorem codecEffect_kept {s0 s : State} (output : State → Cmd → Blk → List Byte → List Byte) (after : Cmd → Blk → List
    Byte → State → State) (c : Cmd) (hafter : ∀ _x0 _x1 _x2 t, Kept s0 t → Kept s0 (after _x0 _x1 _x2 t)) (hs : Kept
    s0 s) : KeptP s0 (codecEffect output after c s) := by
  unfold codecEffect
  try dsimp only
  repeat' (first
    | with_reducible assumption | with_reducible intro _ | with_reducible apply State.emitData_kept
    | with_reducible apply hafter | with_reducible apply KeptP.ok | with_reducible apply KeptP.map
    | with_reducible apply KeptP.error | (with_reducible refine KeptP.bindP ?_ (fun _ _ => ?_))
    | (with_reducible refine KeptP.bindS ?_ (fun _ _ => ?_)) | (with_reducible refine KeptP.bind (fun _ => ?_))
    | with_reducible apply KeptE.ok | with_reducible apply KeptE.error
    | (with_reducible refine KeptE.bindS ?_ (fun _ _ => ?_)) | (with_reducible refine KeptE.bind (fun _ => ?_))
    | split)

theorem nothing_kept {s0 s : State} (_u1 : Cmd) (_u2 : Blk) (_u3 : List Byte) (hs : Kept s0 s) : Kept s0 (nothing _u1
    _u2 _u3 s) := by
  unfold nothing
  try dsimp only
  repeat' (first | with_reducible assumption)

theorem execLdpcDecode_kept {s0 s : State} (cid : Nat) (hs : Kept s0 s) : KeptO s0 (execLdpcDecode cid s) := by
  unfold execLdpcDecode
  try dsimp only
  repeat' (first
    | with_reducible assumption | with_reducible intro _ | with_reducible apply State.radioRun_kept
    | with_reducible apply codecEffect_kept | with_reducible apply nothing_kept | with_reducible apply KeptO.next
    | with_reducible apply KeptO.fault | with_reducible apply KeptP.ok | with_reducible apply KeptP.map
    | with_reducible apply KeptP.error | (with_reducible refine KeptP.bindP ?_ (fun _ _ => ?_))
    | (with_reducible refine KeptP.bindS ?_ (fun _ _ => ?_)) | (with_reducible refine KeptP.bind (fun _ => ?_))
    | split)

theorem execLdpcEncode_kept {s0 s : State} (cid : Nat) (hs : Kept s0 s) : KeptO s0 (execLdpcEncode cid s) := by
  unfold execLdpcEncode
  try dsimp only
  repeat' (first
    | with_reducible assumption | with_reducible intro _ | with_reducible apply State.radioRun_kept
    | with_reducible apply codecEffect_kept | with_reducible apply nothing_kept | with_reducible apply KeptO.next
    | with_reducible apply KeptO.fault | with_reducible apply KeptP.ok | with_reducible apply KeptP.map
    | with_reducible apply KeptP.error | (with_reducible refine KeptP.bindP ?_ (fun _ _ => ?_))
    | (with_reducible refine KeptP.bindS ?_ (fun _ _ => ?_)) | (with_reducible refine KeptP.bind (fun _ => ?_))
    | split)

theorem execTurboEncode_kept {s0 s : State} (cid : Nat) (hs : Kept s0 s) : KeptO s0 (execTurboEncode cid s) := by
  unfold execTurboEncode
  try dsimp only
  repeat' (first
    | with_reducible assumption | with_reducible intro _ | with_reducible apply State.radioRun_kept
    | with_reducible apply codecEffect_kept | with_reducible apply nothing_kept | with_reducible apply KeptO.next
    | with_reducible apply KeptO.fault | with_reducible apply KeptP.ok | with_reducible apply KeptP.map
    | with_reducible apply KeptP.error | (with_reducible refine KeptP.bindP ?_ (fun _ _ => ?_))
    | (with_reducible refine KeptP.bindS ?_ (fun _ _ => ?_)) | (with_reducible refine KeptP.bind (fun _ => ?_))
    | split)

theorem execPolarDecode_kept {s0 s : State} (cid : Nat) (hs : Kept s0 s) : KeptO s0 (execPolarDecode cid s) := by
  unfold execPolarDecode
  try dsimp only
  repeat' (first
    | with_reducible assumption | with_reducible intro _ | with_reducible apply State.radioRun_kept
    | with_reducible apply codecEffect_kept | with_reducible apply nothing_kept | with_reducible apply KeptO.next
    | with_reducible apply KeptO.fault | with_reducible apply KeptP.ok | with_reducible apply KeptP.map
    | with_reducible apply KeptP.error | (with_reducible refine KeptP.bindP ?_ (fun _ _ => ?_))
    | (with_reducible refine KeptP.bindS ?_ (fun _ _ => ?_)) | (with_reducible refine KeptP.bind (fun _ => ?_))
    | split)

theorem execReedMullerDecode_kept {s0 s : State} (cid : Nat) (hs : Kept s0 s) : KeptO s0 (execReedMullerDecode cid s) := by
  unfold execReedMullerDecode
  try dsimp only
  repeat' (first
    | with_reducible assumption | with_reducible intro _ | with_reducible apply State.radioRun_kept
    | with_reducible apply codecEffect_kept | with_reducible apply nothing_kept | with_reducible apply KeptO.next
    | with_reducible apply KeptO.fault | with_reducible apply KeptP.ok | with_reducible apply KeptP.map
    | with_reducible apply KeptP.error | (with_reducible refine KeptP.bindP ?_ (fun _ _ => ?_))
    | (with_reducible refine KeptP.bindS ?_ (fun _ _ => ?_)) | (with_reducible refine KeptP.bind (fun _ => ?_))
    | split)

theorem execRepetitionSimplexDecode_kept {s0 s : State} (cid : Nat) (hs : Kept s0 s) : KeptO s0
    (execRepetitionSimplexDecode cid s) := by
  unfold execRepetitionSimplexDecode
  try dsimp only
  repeat' (first
    | with_reducible assumption | with_reducible intro _ | with_reducible apply State.radioRun_kept
    | with_reducible apply codecEffect_kept | with_reducible apply nothing_kept | with_reducible apply KeptO.next
    | with_reducible apply KeptO.fault | with_reducible apply KeptP.ok | with_reducible apply KeptP.map
    | with_reducible apply KeptP.error | (with_reducible refine KeptP.bindP ?_ (fun _ _ => ?_))
    | (with_reducible refine KeptP.bindS ?_ (fun _ _ => ?_)) | (with_reducible refine KeptP.bind (fun _ => ?_))
    | split)

theorem execPolarEncode_kept {s0 s : State} (cid : Nat) (hs : Kept s0 s) : KeptO s0 (execPolarEncode cid s) := by
  unfold execPolarEncode
  try dsimp only
  repeat' (first
    | with_reducible assumption | with_reducible intro _ | with_reducible apply State.radioRun_kept
    | with_reducible apply codecEffect_kept | with_reducible apply nothing_kept | with_reducible apply KeptO.next
    | with_reducible apply KeptO.fault | with_reducible apply KeptP.ok | with_reducible apply KeptP.map
    | with_reducible apply KeptP.error | (with_reducible refine KeptP.bindP ?_ (fun _ _ => ?_))
    | (with_reducible refine KeptP.bindS ?_ (fun _ _ => ?_)) | (with_reducible refine KeptP.bind (fun _ => ?_))
    | split)

theorem execTbccEncode_kept {s0 s : State} (cid : Nat) (hs : Kept s0 s) : KeptO s0 (execTbccEncode cid s) := by
  unfold execTbccEncode
  try dsimp only
  repeat' (first
    | with_reducible assumption | with_reducible intro _ | with_reducible apply State.radioRun_kept
    | with_reducible apply codecEffect_kept | with_reducible apply nothing_kept | with_reducible apply KeptO.next
    | with_reducible apply KeptO.fault | with_reducible apply KeptP.ok | with_reducible apply KeptP.map
    | with_reducible apply KeptP.error | (with_reducible refine KeptP.bindP ?_ (fun _ _ => ?_))
    | (with_reducible refine KeptP.bindS ?_ (fun _ _ => ?_)) | (with_reducible refine KeptP.bind (fun _ => ?_))
    | split)

theorem execViterbiDecode_kept {s0 s : State} (cid : Nat) (hs : Kept s0 s) : KeptO s0 (execViterbiDecode cid s) := by
  unfold execViterbiDecode
  try dsimp only
  repeat' (first
    | with_reducible assumption | with_reducible intro _ | with_reducible apply State.radioRun_kept
    | with_reducible apply codecEffect_kept | with_reducible apply nothing_kept | with_reducible apply KeptO.next
    | with_reducible apply KeptO.fault | with_reducible apply KeptP.ok | with_reducible apply KeptP.map
    | with_reducible apply KeptP.error | (with_reducible refine KeptP.bindP ?_ (fun _ _ => ?_))
    | (with_reducible refine KeptP.bindS ?_ (fun _ _ => ?_)) | (with_reducible refine KeptP.bind (fun _ => ?_))
    | split)

theorem execTurboDecode_kept {s0 s : State} (cid : Nat) (hs : Kept s0 s) : KeptO s0 (execTurboDecode cid s) := by
  unfold execTurboDecode
  try dsimp only
  repeat' (first
    | with_reducible assumption | with_reducible intro _ | with_reducible apply State.radioRun_kept
    | with_reducible apply codecEffect_kept | with_reducible apply nothing_kept | with_reducible apply KeptO.next
    | with_reducible apply KeptO.fault | with_reducible apply KeptP.ok | with_reducible apply KeptP.map
    | with_reducible apply KeptP.error | (with_reducible refine KeptP.bindP ?_ (fun _ _ => ?_))
    | (with_reducible refine KeptP.bindS ?_ (fun _ _ => ?_)) | (with_reducible refine KeptP.bind (fun _ => ?_))
    | split)

theorem State.noteRec_kept {s0 s : State} (cell sub : Nat) (hs : Kept s0 s) : Kept s0 (State.noteRec s cell sub) := by
  unfold State.noteRec
  try dsimp only
  repeat' (first
    | with_reducible assumption | with_reducible intro _ | with_reducible apply Kept.cond | split
    | (refine Kept.fields rfl rfl rfl rfl rfl ?_; first
      | with_reducible assumption))

theorem State.countDetections_kept {s0 s : State} (cell n : Nat) (hs : Kept s0 s) : Kept s0 (State.countDetections s
    cell n) := by
  unfold State.countDetections
  try dsimp only
  repeat' (first
    | with_reducible assumption | with_reducible intro _ | with_reducible apply State.addCellO_kept
    | with_reducible apply State.noteRec_kept | with_reducible apply Kept.cond | split)

theorem execPrachDetect_kept {s0 s : State} (cid : Nat) (hs : Kept s0 s) : KeptO s0 (execPrachDetect cid s) := by
  unfold execPrachDetect
  try dsimp only
  repeat' (first
    | with_reducible assumption | with_reducible intro _ | with_reducible apply State.radioRun_kept
    | with_reducible apply codecEffect_kept | with_reducible apply State.countDetections_kept
    | with_reducible apply KeptO.next | with_reducible apply KeptO.fault | with_reducible apply KeptP.ok
    | with_reducible apply KeptP.map | with_reducible apply KeptP.error
    | (with_reducible refine KeptP.bindP ?_ (fun _ _ => ?_)) | (with_reducible refine KeptP.bindS ?_ (fun _ _ => ?_))
    | (with_reducible refine KeptP.bind (fun _ => ?_)) | split)

theorem execPucchFormat0Detect_kept {s0 s : State} (cid : Nat) (hs : Kept s0 s) : KeptO s0 (execPucchFormat0Detect cid
    s) := by
  unfold execPucchFormat0Detect
  try dsimp only
  repeat' (first
    | with_reducible assumption | with_reducible intro _ | with_reducible apply State.radioRun_kept
    | with_reducible apply codecEffect_kept | with_reducible apply nothing_kept | with_reducible apply KeptO.next
    | with_reducible apply KeptO.fault | with_reducible apply KeptP.ok | with_reducible apply KeptP.map
    | with_reducible apply KeptP.error | (with_reducible refine KeptP.bindP ?_ (fun _ _ => ?_))
    | (with_reducible refine KeptP.bindS ?_ (fun _ _ => ?_)) | (with_reducible refine KeptP.bind (fun _ => ?_))
    | split)

theorem execPucchFormat1Detect_kept {s0 s : State} (cid : Nat) (hs : Kept s0 s) : KeptO s0 (execPucchFormat1Detect cid
    s) := by
  unfold execPucchFormat1Detect
  try dsimp only
  repeat' (first
    | with_reducible assumption | with_reducible intro _ | with_reducible apply State.radioRun_kept
    | with_reducible apply codecEffect_kept | with_reducible apply nothing_kept | with_reducible apply KeptO.next
    | with_reducible apply KeptO.fault | with_reducible apply KeptP.ok | with_reducible apply KeptP.map
    | with_reducible apply KeptP.error | (with_reducible refine KeptP.bindP ?_ (fun _ _ => ?_))
    | (with_reducible refine KeptP.bindS ?_ (fun _ _ => ?_)) | (with_reducible refine KeptP.bind (fun _ => ?_))
    | split)

theorem execSrsMeasure_kept {s0 s : State} (cid : Nat) (hs : Kept s0 s) : KeptO s0 (execSrsMeasure cid s) := by
  unfold execSrsMeasure
  try dsimp only
  repeat' (first
    | with_reducible assumption | with_reducible intro _ | with_reducible apply State.radioRun_kept
    | with_reducible apply codecEffect_kept | with_reducible apply nothing_kept | with_reducible apply KeptO.next
    | with_reducible apply KeptO.fault | with_reducible apply KeptP.ok | with_reducible apply KeptP.map
    | with_reducible apply KeptP.error | (with_reducible refine KeptP.bindP ?_ (fun _ _ => ?_))
    | (with_reducible refine KeptP.bindS ?_ (fun _ _ => ?_)) | (with_reducible refine KeptP.bind (fun _ => ?_))
    | split)

theorem execDespread_kept {s0 s : State} (cid : Nat) (hs : Kept s0 s) : KeptO s0 (execDespread cid s) := by
  unfold execDespread
  try dsimp only
  repeat' (first
    | with_reducible assumption | with_reducible intro _ | with_reducible apply State.radioRun_kept
    | with_reducible apply codecEffect_kept | with_reducible apply nothing_kept | with_reducible apply KeptO.next
    | with_reducible apply KeptO.fault | with_reducible apply KeptP.ok | with_reducible apply KeptP.map
    | with_reducible apply KeptP.error | (with_reducible refine KeptP.bindP ?_ (fun _ _ => ?_))
    | (with_reducible refine KeptP.bindS ?_ (fun _ _ => ?_)) | (with_reducible refine KeptP.bind (fun _ => ?_))
    | split)

theorem execDemap_kept {s0 s : State} (cid : Nat) (hs : Kept s0 s) : KeptO s0 (execDemap cid s) := by
  unfold execDemap
  try dsimp only
  repeat' (first
    | with_reducible assumption | with_reducible intro _ | with_reducible apply State.radioRun_kept
    | with_reducible apply codecEffect_kept | with_reducible apply nothing_kept | with_reducible apply KeptO.next
    | with_reducible apply KeptO.fault | with_reducible apply KeptP.ok | with_reducible apply KeptP.map
    | with_reducible apply KeptP.error | (with_reducible refine KeptP.bindP ?_ (fun _ _ => ?_))
    | (with_reducible refine KeptP.bindS ?_ (fun _ _ => ?_)) | (with_reducible refine KeptP.bind (fun _ => ?_))
    | split)

theorem harqEffect_kept {s0 s : State} (c : Cmd) (hs : Kept s0 s) : KeptP s0 (harqEffect c s) := by
  unfold harqEffect
  try dsimp only
  repeat' (first
    | with_reducible assumption | with_reducible intro _ | with_reducible apply State.emitData_kept
    | with_reducible apply KeptP.ok | with_reducible apply KeptP.map | with_reducible apply KeptP.error
    | (with_reducible refine KeptP.bindP ?_ (fun _ _ => ?_)) | (with_reducible refine KeptP.bindS ?_ (fun _ _ => ?_))
    | (with_reducible refine KeptP.bind (fun _ => ?_)) | with_reducible apply KeptE.ok
    | with_reducible apply KeptE.error | (with_reducible refine KeptE.bindS ?_ (fun _ _ => ?_))
    | (with_reducible refine KeptE.bind (fun _ => ?_)) | with_reducible apply Kept.cond | split)

theorem execHarqCombine_kept {s0 s : State} (cid : Nat) (hs : Kept s0 s) : KeptO s0 (execHarqCombine cid s) := by
  unfold execHarqCombine
  try dsimp only
  repeat' (first
    | with_reducible assumption | with_reducible intro _ | with_reducible apply State.radioRun_kept
    | with_reducible apply harqEffect_kept | (with_reducible refine KeptP.get (harqEffect_kept _  ?_) (by assumption))
    | with_reducible apply KeptO.next | with_reducible apply KeptO.fault | with_reducible apply KeptP.ok
    | with_reducible apply KeptP.map | with_reducible apply KeptP.error
    | (with_reducible refine KeptP.bindP ?_ (fun _ _ => ?_)) | (with_reducible refine KeptP.bindS ?_ (fun _ _ => ?_))
    | (with_reducible refine KeptP.bind (fun _ => ?_)) | split)

theorem State.keepTracks_kept {s0 s : State} (c : Cmd) (b : Blk) (data : List Byte) (xs : List Nat) (hs : Kept s0 s) :
    Kept s0 (State.keepTracks s c b data xs) := by
  induction xs generalizing s c b data with
  | nil =>
    unfold State.keepTracks
    try dsimp only
    repeat' (first
      | with_reducible assumption
      | (refine Kept.fields rfl rfl rfl rfl rfl ?_; first
        | with_reducible assumption | with_reducible intro _ | with_reducible apply ih | split)) | cons e es ih =>
    unfold State.keepTracks
    try dsimp only
    repeat' (first
      | with_reducible assumption | with_reducible intro _ | with_reducible apply ih | split
      | (refine Kept.fields rfl rfl rfl rfl rfl ?_; first
        | with_reducible assumption))

theorem execPilotTrack_kept {s0 s : State} (cid : Nat) (hs : Kept s0 s) : KeptO s0 (execPilotTrack cid s) := by
  unfold execPilotTrack
  try dsimp only
  repeat' (first
    | with_reducible assumption | with_reducible intro _ | with_reducible apply State.radioRun_kept
    | with_reducible apply codecEffect_kept | with_reducible apply State.keepTracks_kept
    | with_reducible apply KeptO.next | with_reducible apply KeptO.fault | with_reducible apply KeptP.ok
    | with_reducible apply KeptP.map | with_reducible apply KeptP.error
    | (with_reducible refine KeptP.bindP ?_ (fun _ _ => ?_)) | (with_reducible refine KeptP.bindS ?_ (fun _ _ => ?_))
    | (with_reducible refine KeptP.bind (fun _ => ?_)) | split)

theorem radioPumpEffect_kept {s0 s : State} (cls : Nat) (c : Cmd) (hs : Kept s0 s) : KeptP s0 (radioPumpEffect cls c
    s) := by
  unfold radioPumpEffect
  try dsimp only
  repeat' (first
    | with_reducible assumption | with_reducible intro _ | with_reducible apply fabricGo_kept
    | with_reducible apply State.moveBytes_kept
    | (with_reducible refine KeptP.get (fabricGo_kept _ _  ?_) (by assumption)) | with_reducible apply KeptP.ok
    | with_reducible apply KeptP.map | with_reducible apply KeptP.error
    | (with_reducible refine KeptP.bindP ?_ (fun _ _ => ?_)) | (with_reducible refine KeptP.bindS ?_ (fun _ _ => ?_))
    | (with_reducible refine KeptP.bind (fun _ => ?_)) | with_reducible apply KeptE.ok
    | with_reducible apply KeptE.error | (with_reducible refine KeptE.bindS ?_ (fun _ _ => ?_))
    | (with_reducible refine KeptE.bind (fun _ => ?_)) | split
    | (refine Kept.fields rfl rfl rfl rfl rfl ?_; first
      | with_reducible assumption | with_reducible intro _ | with_reducible apply fabricGo_kept
      | with_reducible apply State.moveBytes_kept
      | (with_reducible refine KeptP.get (fabricGo_kept _ _  ?_) (by assumption)) | with_reducible apply KeptP.ok
      | with_reducible apply KeptP.map | with_reducible apply KeptP.error
      | (with_reducible refine KeptP.bindP ?_ (fun _ _ => ?_))
      | (with_reducible refine KeptP.bindS ?_ (fun _ _ => ?_)) | (with_reducible refine KeptP.bind (fun _ => ?_))
      | with_reducible apply KeptE.ok | with_reducible apply KeptE.error
      | (with_reducible refine KeptE.bindS ?_ (fun _ _ => ?_)) | (with_reducible refine KeptE.bind (fun _ => ?_))
      | split))

theorem execRadioSpinePumpJob_kept {s0 s : State} (cid : Nat) (hs : Kept s0 s) : KeptO s0 (execRadioSpinePumpJob cid
    s) := by
  unfold execRadioSpinePumpJob
  try dsimp only
  repeat' (first
    | with_reducible assumption | with_reducible intro _ | with_reducible apply State.radioRun_kept
    | with_reducible apply radioPumpEffect_kept
    | (with_reducible refine KeptP.get (radioPumpEffect_kept _ _  ?_) (by assumption))
    | with_reducible apply KeptO.next | with_reducible apply KeptO.fault | with_reducible apply KeptP.ok
    | with_reducible apply KeptP.map | with_reducible apply KeptP.error
    | (with_reducible refine KeptP.bindP ?_ (fun _ _ => ?_)) | (with_reducible refine KeptP.bindS ?_ (fun _ _ => ?_))
    | (with_reducible refine KeptP.bind (fun _ => ?_)) | split)

theorem execRadioFabricPumpJob_kept {s0 s : State} (cid : Nat) (hs : Kept s0 s) : KeptO s0 (execRadioFabricPumpJob cid
    s) := by
  unfold execRadioFabricPumpJob
  try dsimp only
  repeat' (first
    | with_reducible assumption | with_reducible intro _ | with_reducible apply State.radioRun_kept
    | with_reducible apply radioPumpEffect_kept
    | (with_reducible refine KeptP.get (radioPumpEffect_kept _ _  ?_) (by assumption))
    | with_reducible apply KeptO.next | with_reducible apply KeptO.fault | with_reducible apply KeptP.ok
    | with_reducible apply KeptP.map | with_reducible apply KeptP.error
    | (with_reducible refine KeptP.bindP ?_ (fun _ _ => ?_)) | (with_reducible refine KeptP.bindS ?_ (fun _ _ => ?_))
    | (with_reducible refine KeptP.bind (fun _ => ?_)) | split)

theorem activateRule_kept {s0 s : State} (cell : Nat) (_u1 : ObjRow) (hs : Kept s0 s) : KeptE s0 (activateRule cell
    _u1 s) := by
  unfold activateRule
  try dsimp only
  repeat' (first
    | with_reducible assumption | with_reducible intro _ | with_reducible apply State.setCellO_kept
    | with_reducible apply KeptE.ok | with_reducible apply KeptE.error
    | (with_reducible refine KeptE.bindS ?_ (fun _ _ => ?_)) | (with_reducible refine KeptE.bind (fun _ => ?_))
    | with_reducible apply Kept.cond | split
    | (refine Kept.fields rfl rfl rfl rfl rfl ?_; first
      | with_reducible assumption | with_reducible intro _ | with_reducible apply State.setCellO_kept))

theorem execCellActivate_kept {s0 s : State} (path : Path) (cell : Nat) (hs : Kept s0 s) : KeptO s0 (execCellActivate
    path cell s) := by
  unfold execCellActivate
  try dsimp only
  repeat' (first
    | with_reducible assumption | with_reducible intro _ | with_reducible apply State.access_kept
    | with_reducible apply activateRule_kept
    | (with_reducible refine KeptE.get (activateRule_kept _ _  ?_) (by assumption)) | with_reducible apply KeptO.next
    | with_reducible apply KeptO.fault | with_reducible apply KeptE.ok | with_reducible apply KeptE.error
    | (with_reducible refine KeptE.bindS ?_ (fun _ _ => ?_)) | (with_reducible refine KeptE.bind (fun _ => ?_))
    | with_reducible apply Kept.cond | split)

theorem deactivateRule_kept {s0 s : State} (cell : Nat) (_u1 : ObjRow) (hs : Kept s0 s) : KeptE s0 (deactivateRule
    cell _u1 s) := by
  unfold deactivateRule
  try dsimp only
  repeat' (first
    | with_reducible assumption | with_reducible intro _ | with_reducible apply State.deactivateCell_kept
    | with_reducible apply KeptE.ok | with_reducible apply KeptE.error
    | (with_reducible refine KeptE.bindS ?_ (fun _ _ => ?_)) | (with_reducible refine KeptE.bind (fun _ => ?_))
    | with_reducible apply Kept.cond)

theorem execCellDeactivate_kept {s0 s : State} (path : Path) (cell : Nat) (hs : Kept s0 s) : KeptO s0
    (execCellDeactivate path cell s) := by
  unfold execCellDeactivate
  try dsimp only
  repeat' (first
    | with_reducible assumption | with_reducible intro _ | with_reducible apply State.access_kept
    | with_reducible apply deactivateRule_kept
    | (with_reducible refine KeptE.get (deactivateRule_kept _ _  ?_) (by assumption))
    | with_reducible apply KeptO.next | with_reducible apply KeptO.fault | with_reducible apply KeptE.ok
    | with_reducible apply KeptE.error | (with_reducible refine KeptE.bindS ?_ (fun _ _ => ?_))
    | (with_reducible refine KeptE.bind (fun _ => ?_)) | with_reducible apply Kept.cond | split)

theorem execCellEntersCalendar_kept {s0 s : State} (cell : Nat) (hs : Kept s0 s) : KeptO s0 (execCellEntersCalendar
    cell s) := by
  unfold execCellEntersCalendar
  try dsimp only
  repeat' (first
    | with_reducible assumption | with_reducible intro _ | with_reducible apply State.enterCell_kept
    | with_reducible apply KeptO.next | with_reducible apply KeptO.fault | with_reducible apply Kept.cond | split)

theorem execCellLeavesCalendar_kept {s0 s : State} (cell : Nat) (hs : Kept s0 s) : KeptO s0 (execCellLeavesCalendar
    cell s) := by
  unfold execCellLeavesCalendar
  try dsimp only
  repeat' (first
    | with_reducible assumption | with_reducible intro _ | with_reducible apply State.leaveCell_kept
    | with_reducible apply KeptO.next | with_reducible apply KeptO.fault | with_reducible apply Kept.cond | split)

theorem crbRule_kept {s0 s : State} (value : Nat) (_u1 : ObjRow) (hs : Kept s0 s) : KeptE s0 (crbRule value _u1 s) := by
  unfold crbRule
  try dsimp only
  repeat' (first
    | with_reducible assumption | with_reducible intro _ | with_reducible apply State.setO_kept
    | with_reducible apply KeptE.ok | with_reducible apply KeptE.error
    | (with_reducible refine KeptE.bindS ?_ (fun _ _ => ?_)) | (with_reducible refine KeptE.bind (fun _ => ?_))
    | with_reducible apply Kept.cond | split
    | (refine Kept.fields rfl rfl rfl rfl rfl ?_; first
      | with_reducible assumption | with_reducible intro _ | with_reducible apply State.setO_kept))

theorem execCrbWrite_kept {s0 s : State} (path : Path) (value : Nat) (hs : Kept s0 s) : KeptO s0 (execCrbWrite path
    value s) := by
  unfold execCrbWrite
  try dsimp only
  repeat' (first
    | with_reducible assumption | with_reducible intro _ | with_reducible apply State.access_kept
    | with_reducible apply crbRule_kept | (with_reducible refine KeptE.get (crbRule_kept _ _  ?_) (by assumption))
    | with_reducible apply KeptO.next)

theorem State.putRec_kept {s0 s : State} (cell : Nat) (e : Nat × Nat × Nat × Nat) (h : Kept s0 s) : Kept s0 (s.putRec
    cell e) := by
  unfold State.putRec
  extract_lets a put
  have hp : ∀ t i v, Kept s0 t → Kept s0 (put t i v) := fun t i v k => State.store_kept _ _ k
  refine Kept.cond ?_ (hp _ _ _ h)
  exact Kept.foldl _ (fun t x k => hp _ _ _ k) _ h

theorem execCellRecordUpdate_kept {s0 s : State} (cell : Nat) (hs : Kept s0 s) : KeptO s0 (execCellRecordUpdate cell
    s) := by
  unfold execCellRecordUpdate
  try dsimp only
  repeat' (first
    | with_reducible assumption | with_reducible intro _ | with_reducible apply State.putRec_kept
    | with_reducible apply KeptO.next | with_reducible apply KeptO.fault | with_reducible apply Kept.cond | split
    | (with_reducible refine Kept.foldl _ (fun _ _ _ => ?_) _ ?_)
    | (refine Kept.fields rfl rfl rfl rfl rfl ?_; first
      | with_reducible assumption | with_reducible intro _ | with_reducible apply State.putRec_kept
      | with_reducible apply KeptO.next | with_reducible apply KeptO.fault | with_reducible apply Kept.cond | split
      | (with_reducible refine Kept.foldl _ (fun _ _ _ => ?_) _ ?_)))

theorem cellRule_kept {s0 s : State} (cell sub value : Nat) (_u1 : ObjRow) (hs : Kept s0 s) : KeptE s0 (cellRule cell
    sub value _u1 s) := by
  unfold cellRule
  try dsimp only
  repeat' (first
    | with_reducible assumption | with_reducible intro _ | with_reducible apply State.setCellO_kept
    | with_reducible apply State.noteRec_kept | with_reducible apply KeptE.ok | with_reducible apply KeptE.error
    | (with_reducible refine KeptE.bindS ?_ (fun _ _ => ?_)) | (with_reducible refine KeptE.bind (fun _ => ?_)))

end Sys2Proof.Machine
end

