-- ==== Sys2Proof/Laws/KeptChannel.lean ====
section
/-!
SUPPORT. The operations of Machine/ChanInstr, Machine/ChannelCore, Machine/Fronthaul, Machine/Time keep the queue and
    the canonical form.
-/

namespace Sys2Proof.Machine

theorem State.ccStop_kept {s0 s : State} (cc : Nat) (hs : Kept s0 s) : Kept s0 (State.ccStop s cc) := by
  unfold State.ccStop
  try dsimp only
  repeat' (first
    | with_reducible assumption | with_reducible intro _ | with_reducible apply State.setChan_kept | split
    | (refine Kept.fields rfl rfl rfl rfl rfl ?_; first
      | with_reducible assumption | with_reducible intro _ | with_reducible apply State.setChan_kept))

theorem State.ccEnd_kept {s0 s : State} (cc status : Nat) (hs : Kept s0 s) : Kept s0 (State.ccEnd s cc status) := by
  unfold State.ccEnd
  try dsimp only
  repeat' (first
    | with_reducible assumption | with_reducible intro _ | with_reducible apply State.did_kept
    | with_reducible apply State.failTb_kept | with_reducible apply State.ccStop_kept | with_reducible apply Kept.cond
    | split
    | (refine Kept.fields rfl rfl rfl rfl rfl ?_; first
      | with_reducible assumption | with_reducible intro _ | with_reducible apply State.did_kept
      | with_reducible apply State.failTb_kept | with_reducible apply State.ccStop_kept
      | with_reducible apply Kept.cond | split))

theorem State.ccCount_kept {s0 s : State} (cc : Nat) (hs : Kept s0 s) : Kept s0 (State.ccCount s cc) := by
  unfold State.ccCount
  exact State.addG_kept _ _ _ hs

theorem State.ccFinish_kept {s0 s : State} (cc : Nat) (hs : Kept s0 s) : Kept s0 (State.ccFinish s cc) := by
  unfold State.ccFinish
  try dsimp only
  repeat' (first
    | with_reducible assumption | with_reducible intro _ | with_reducible apply State.addG_kept | with_reducible apply
        State.ccCount_kept
    | with_reducible apply State.ccEnd_kept | with_reducible apply Kept.cond)

theorem State.zeroChan_kept {s0 s : State} (cc : Nat) (hs : Kept s0 s) : Kept s0 (State.zeroChan s cc) := by
  unfold State.zeroChan
  try dsimp only
  repeat' (first | with_reducible assumption | with_reducible intro _ | with_reducible apply State.zeroMem_kept)

theorem State.ccRun_kept {s0 s : State} (cc : Nat) (k : Nat → Thread → CcInstr → Option CcOut)
    (hk : ∀ t x i, KeptC s0 (k t x i)) (h : Kept s0 s) : KeptO s0 (s.ccRun cc k) := by
  unfold State.ccRun
  split
  · exact KeptO.fault
  · split
    · split
      · exact KeptO.next (State.ccEnd_kept _ _ h)
      · split
        · exact KeptO.next (hk _ _ _ _ ‹_›)
        · exact KeptO.next (State.ccEnd_kept _ _ h)
        · exact KeptO.next h
    · exact KeptO.next h

theorem State.ccPut_kept {s0 s : State} (cc t n : Nat) (x : Thread) (hs : Kept s0 s) : Kept s0 (State.ccPut s cc t n
    x) := by
  unfold State.ccPut
  try dsimp only
  repeat' (first
    | with_reducible assumption | with_reducible intro _ | with_reducible apply State.addG_kept
    | with_reducible apply State.setChan_kept
    | (refine Kept.fields rfl rfl rfl rfl rfl ?_; first
      | with_reducible assumption | with_reducible intro _ | with_reducible apply State.addG_kept
      | with_reducible apply State.setChan_kept | split))

theorem State.ccOut_kept {s0 s : State} (cc t : Nat) (x : Thread) (hs : Kept s0 s) : Kept s0 (State.ccOut s cc t x) := by
  unfold State.ccOut
  try dsimp only
  repeat' (first
    | with_reducible assumption | with_reducible intro _ | with_reducible apply State.addG_kept
    | with_reducible apply State.setChan_kept
    | (refine Kept.fields rfl rfl rfl rfl rfl ?_; first
      | with_reducible assumption | with_reducible intro _ | with_reducible apply State.addG_kept
      | with_reducible apply State.setChan_kept | split))

theorem State.modChan_kept {s0 s : State} (cc : Nat) (f : ChanCore → ChanCore) (hs : Kept s0 s) : Kept s0
    (State.modChan s cc f) := by
  unfold State.modChan
  try dsimp only
  repeat' (first | with_reducible assumption | with_reducible intro _ | with_reducible apply State.setChan_kept)

theorem State.ccStepA_kept {s0 s : State} (x : Thread) (an : Nat) (m : Int) (hs : Kept s0 s) : Kept s0 (State.ccStepA
    s x an m).1 := by
  unfold State.ccStepA
  try dsimp only
  repeat' (first
    | with_reducible assumption | with_reducible intro _ | with_reducible apply State.fresh_kept | split
    | (refine Kept.fields rfl rfl rfl rfl rfl ?_; first
      | with_reducible assumption | with_reducible intro _ | with_reducible apply State.fresh_kept | split))

theorem execNop_kept {s0 s : State} (cc : Nat) (hs : Kept s0 s) : KeptO s0 (execNop cc s) := by
  unfold execNop
  try dsimp only
  repeat' (first
    | with_reducible assumption | with_reducible intro _ | with_reducible apply State.ccRun_kept
    | with_reducible apply State.ccPut_kept | with_reducible apply KeptO.next | with_reducible apply KeptO.fault
    | with_reducible apply KeptC.some | with_reducible apply KeptC.none | with_reducible apply KeptE.ok
    | with_reducible apply KeptE.error | (with_reducible refine KeptE.bindS ?_ (fun _ _ => ?_))
    | (with_reducible refine KeptE.bind (fun _ => ?_)) | split
    | (refine Kept.fields rfl rfl rfl rfl rfl ?_; first
      | with_reducible assumption | with_reducible intro _ | with_reducible apply State.ccRun_kept
      | with_reducible apply State.ccPut_kept | with_reducible apply KeptO.next | with_reducible apply KeptO.fault
      | with_reducible apply KeptC.some | with_reducible apply KeptC.none | with_reducible apply KeptE.ok
      | with_reducible apply KeptE.error | (with_reducible refine KeptE.bindS ?_ (fun _ _ => ?_))
      | (with_reducible refine KeptE.bind (fun _ => ?_)) | split))

theorem execHalt_kept {s0 s : State} (cc : Nat) (hs : Kept s0 s) : KeptO s0 (execHalt cc s) := by
  unfold execHalt
  try dsimp only
  repeat' (first
    | with_reducible assumption | with_reducible intro _ | with_reducible apply State.ccFinish_kept
    | with_reducible apply State.ccRun_kept | with_reducible apply State.ccOut_kept | with_reducible apply KeptO.next
    | with_reducible apply KeptO.fault | with_reducible apply KeptC.some | with_reducible apply KeptC.none
    | with_reducible apply KeptE.ok | with_reducible apply KeptE.error
    | (with_reducible refine KeptE.bindS ?_ (fun _ _ => ?_)) | (with_reducible refine KeptE.bind (fun _ => ?_))
    | with_reducible apply Kept.cond | split
    | (refine Kept.fields rfl rfl rfl rfl rfl ?_; first
      | with_reducible assumption | with_reducible intro _ | with_reducible apply State.ccFinish_kept
      | with_reducible apply State.ccRun_kept | with_reducible apply State.ccOut_kept
      | with_reducible apply KeptO.next | with_reducible apply KeptO.fault | with_reducible apply KeptC.some
      | with_reducible apply KeptC.none | with_reducible apply KeptE.ok | with_reducible apply KeptE.error
      | (with_reducible refine KeptE.bindS ?_ (fun _ _ => ?_)) | (with_reducible refine KeptE.bind (fun _ => ?_))
      | with_reducible apply Kept.cond | split))

theorem execBr_kept {s0 s : State} (cc : Nat) (hs : Kept s0 s) : KeptO s0 (execBr cc s) := by
  unfold execBr
  try dsimp only
  repeat' (first
    | with_reducible assumption | with_reducible intro _ | with_reducible apply State.ccRun_kept
    | with_reducible apply State.ccPut_kept | with_reducible apply KeptO.next | with_reducible apply KeptO.fault
    | with_reducible apply KeptC.some | with_reducible apply KeptC.none | with_reducible apply KeptE.ok
    | with_reducible apply KeptE.error | (with_reducible refine KeptE.bindS ?_ (fun _ _ => ?_))
    | (with_reducible refine KeptE.bind (fun _ => ?_)) | with_reducible apply Kept.cond | split
    | (refine Kept.fields rfl rfl rfl rfl rfl ?_; first
      | with_reducible assumption | with_reducible intro _ | with_reducible apply State.ccRun_kept
      | with_reducible apply State.ccPut_kept | with_reducible apply KeptO.next | with_reducible apply KeptO.fault
      | with_reducible apply KeptC.some | with_reducible apply KeptC.none | with_reducible apply KeptE.ok
      | with_reducible apply KeptE.error | (with_reducible refine KeptE.bindS ?_ (fun _ _ => ?_))
      | (with_reducible refine KeptE.bind (fun _ => ?_)) | with_reducible apply Kept.cond | split))

theorem State.ccLoop_kept {s0 s : State} (cc t : Nat) (x : Thread) (body count : Nat) (hs : Kept s0 s) : KeptE s0
    (State.ccLoop s cc t x body count) := by
  unfold State.ccLoop
  try dsimp only
  repeat' (first
    | with_reducible assumption | with_reducible intro _ | with_reducible apply State.ccPut_kept
    | with_reducible apply KeptE.ok | with_reducible apply KeptE.error
    | (with_reducible refine KeptE.bindS ?_ (fun _ _ => ?_)) | (with_reducible refine KeptE.bind (fun _ => ?_))
    | split
    | (refine Kept.fields rfl rfl rfl rfl rfl ?_; first
      | with_reducible assumption | with_reducible intro _ | with_reducible apply State.ccPut_kept
      | with_reducible apply KeptE.ok | with_reducible apply KeptE.error
      | (with_reducible refine KeptE.bindS ?_ (fun _ _ => ?_)) | (with_reducible refine KeptE.bind (fun _ => ?_))
      | split))

theorem execLoop_kept {s0 s : State} (cc : Nat) (hs : Kept s0 s) : KeptO s0 (execLoop cc s) := by
  unfold execLoop
  try dsimp only
  repeat' (first
    | with_reducible assumption | with_reducible intro _ | with_reducible apply State.ccRun_kept
    | with_reducible apply State.ccLoop_kept
    | (with_reducible refine KeptE.get (State.ccLoop_kept _ _ _ _ _  ?_) (by assumption))
    | with_reducible apply KeptO.next | with_reducible apply KeptO.fault | with_reducible apply KeptC.some
    | with_reducible apply KeptC.none | with_reducible apply KeptE.ok | with_reducible apply KeptE.error
    | (with_reducible refine KeptE.bindS ?_ (fun _ _ => ?_)) | (with_reducible refine KeptE.bind (fun _ => ?_))
    | split
    | (refine Kept.fields rfl rfl rfl rfl rfl ?_; first
      | with_reducible assumption | with_reducible intro _ | with_reducible apply State.ccRun_kept
      | with_reducible apply State.ccLoop_kept
      | (with_reducible refine KeptE.get (State.ccLoop_kept _ _ _ _ _  ?_) (by assumption))
      | with_reducible apply KeptO.next | with_reducible apply KeptO.fault | with_reducible apply KeptC.some
      | with_reducible apply KeptC.none | with_reducible apply KeptE.ok | with_reducible apply KeptE.error
      | (with_reducible refine KeptE.bindS ?_ (fun _ _ => ?_)) | (with_reducible refine KeptE.bind (fun _ => ?_))
      | split))

theorem execLoopx_kept {s0 s : State} (cc : Nat) (hs : Kept s0 s) : KeptO s0 (execLoopx cc s) := by
  unfold execLoopx
  try dsimp only
  repeat' (first
    | with_reducible assumption | with_reducible intro _ | with_reducible apply State.ccRun_kept
    | with_reducible apply State.ccLoop_kept
    | (with_reducible refine KeptE.get (State.ccLoop_kept _ _ _ _ _  ?_) (by assumption))
    | with_reducible apply KeptO.next | with_reducible apply KeptO.fault | with_reducible apply KeptC.some
    | with_reducible apply KeptC.none | with_reducible apply KeptE.ok | with_reducible apply KeptE.error
    | (with_reducible refine KeptE.bindS ?_ (fun _ _ => ?_)) | (with_reducible refine KeptE.bind (fun _ => ?_))
    | split
    | (refine Kept.fields rfl rfl rfl rfl rfl ?_; first
      | with_reducible assumption | with_reducible intro _ | with_reducible apply State.ccRun_kept
      | with_reducible apply State.ccLoop_kept
      | (with_reducible refine KeptE.get (State.ccLoop_kept _ _ _ _ _  ?_) (by assumption))
      | with_reducible apply KeptO.next | with_reducible apply KeptO.fault | with_reducible apply KeptC.some
      | with_reducible apply KeptC.none | with_reducible apply KeptE.ok | with_reducible apply KeptE.error
      | (with_reducible refine KeptE.bindS ?_ (fun _ _ => ?_)) | (with_reducible refine KeptE.bind (fun _ => ?_))
      | split))

theorem execBrk_kept {s0 s : State} (cc : Nat) (hs : Kept s0 s) : KeptO s0 (execBrk cc s) := by
  unfold execBrk
  try dsimp only
  repeat' (first
    | with_reducible assumption | with_reducible intro _ | with_reducible apply State.ccRun_kept
    | with_reducible apply State.ccPut_kept | with_reducible apply KeptO.next | with_reducible apply KeptO.fault
    | with_reducible apply KeptC.some | with_reducible apply KeptC.none | with_reducible apply KeptE.ok
    | with_reducible apply KeptE.error | (with_reducible refine KeptE.bindS ?_ (fun _ _ => ?_))
    | (with_reducible refine KeptE.bind (fun _ => ?_)) | split
    | (refine Kept.fields rfl rfl rfl rfl rfl ?_; first
      | with_reducible assumption | with_reducible intro _ | with_reducible apply State.ccRun_kept
      | with_reducible apply State.ccPut_kept | with_reducible apply KeptO.next | with_reducible apply KeptO.fault
      | with_reducible apply KeptC.some | with_reducible apply KeptC.none | with_reducible apply KeptE.ok
      | with_reducible apply KeptE.error | (with_reducible refine KeptE.bindS ?_ (fun _ _ => ?_))
      | (with_reducible refine KeptE.bind (fun _ => ?_)) | split))

theorem execMovi_kept {s0 s : State} (cc : Nat) (hs : Kept s0 s) : KeptO s0 (execMovi cc s) := by
  unfold execMovi
  try dsimp only
  repeat' (first
    | with_reducible assumption | with_reducible intro _ | with_reducible apply State.ccRun_kept
    | with_reducible apply State.ccPut_kept | with_reducible apply KeptO.next | with_reducible apply KeptO.fault
    | with_reducible apply KeptC.some | with_reducible apply KeptC.none | with_reducible apply KeptE.ok
    | with_reducible apply KeptE.error | (with_reducible refine KeptE.bindS ?_ (fun _ _ => ?_))
    | (with_reducible refine KeptE.bind (fun _ => ?_)) | split
    | (refine Kept.fields rfl rfl rfl rfl rfl ?_; first
      | with_reducible assumption | with_reducible intro _ | with_reducible apply State.ccRun_kept
      | with_reducible apply State.ccPut_kept | with_reducible apply KeptO.next | with_reducible apply KeptO.fault
      | with_reducible apply KeptC.some | with_reducible apply KeptC.none | with_reducible apply KeptE.ok
      | with_reducible apply KeptE.error | (with_reducible refine KeptE.bindS ?_ (fun _ _ => ?_))
      | (with_reducible refine KeptE.bind (fun _ => ?_)) | split))

theorem execMov_kept {s0 s : State} (cc : Nat) (hs : Kept s0 s) : KeptO s0 (execMov cc s) := by
  unfold execMov
  try dsimp only
  repeat' (first
    | with_reducible assumption | with_reducible intro _ | with_reducible apply State.ccRun_kept
    | with_reducible apply State.ccPut_kept | with_reducible apply KeptO.next | with_reducible apply KeptO.fault
    | with_reducible apply KeptC.some | with_reducible apply KeptC.none | with_reducible apply KeptE.ok
    | with_reducible apply KeptE.error | (with_reducible refine KeptE.bindS ?_ (fun _ _ => ?_))
    | (with_reducible refine KeptE.bind (fun _ => ?_)) | split
    | (refine Kept.fields rfl rfl rfl rfl rfl ?_; first
      | with_reducible assumption | with_reducible intro _ | with_reducible apply State.ccRun_kept
      | with_reducible apply State.ccPut_kept | with_reducible apply KeptO.next | with_reducible apply KeptO.fault
      | with_reducible apply KeptC.some | with_reducible apply KeptC.none | with_reducible apply KeptE.ok
      | with_reducible apply KeptE.error | (with_reducible refine KeptE.bindS ?_ (fun _ _ => ?_))
      | (with_reducible refine KeptE.bind (fun _ => ?_)) | split))

theorem State.ccAlu_kept {s0 s : State} (cc t : Nat) (x : Thread) (fn xd xa xb : Nat) (hs : Kept s0 s) : Kept s0
    (State.ccAlu s cc t x fn xd xa xb) := by
  unfold State.ccAlu
  try dsimp only
  repeat' (first
    | with_reducible assumption | with_reducible intro _ | with_reducible apply State.fresh_kept
    | with_reducible apply State.ccPut_kept | with_reducible apply Kept.cond | split
    | (refine Kept.fields rfl rfl rfl rfl rfl ?_; first
      | with_reducible assumption | with_reducible intro _ | with_reducible apply State.fresh_kept
      | with_reducible apply State.ccPut_kept | with_reducible apply Kept.cond | split))

theorem State.ccAluRow_kept {s0 s : State} (cc fn : Nat) (hs : Kept s0 s) : KeptO s0 (State.ccAluRow s cc fn) := by
  unfold State.ccAluRow
  try dsimp only
  repeat' (first
    | with_reducible assumption | with_reducible intro _ | with_reducible apply State.ccRun_kept
    | with_reducible apply State.ccAlu_kept | with_reducible apply KeptO.next | with_reducible apply KeptO.fault
    | with_reducible apply KeptC.some | with_reducible apply KeptC.none | with_reducible apply KeptE.ok
    | with_reducible apply KeptE.error | (with_reducible refine KeptE.bindS ?_ (fun _ _ => ?_))
    | (with_reducible refine KeptE.bind (fun _ => ?_)) | with_reducible apply Kept.cond | split
    | (refine Kept.fields rfl rfl rfl rfl rfl ?_; first
      | with_reducible assumption | with_reducible intro _ | with_reducible apply State.ccRun_kept
      | with_reducible apply State.ccAlu_kept | with_reducible apply KeptO.next | with_reducible apply KeptO.fault
      | with_reducible apply KeptC.some | with_reducible apply KeptC.none | with_reducible apply KeptE.ok
      | with_reducible apply KeptE.error | (with_reducible refine KeptE.bindS ?_ (fun _ _ => ?_))
      | (with_reducible refine KeptE.bind (fun _ => ?_)) | with_reducible apply Kept.cond | split))

theorem execAluAdd_kept {s0 s : State} (cc : Nat) (hs : Kept s0 s) : KeptO s0 (execAluAdd cc s) := by
  unfold execAluAdd
  try dsimp only
  repeat' (first | with_reducible assumption | with_reducible intro _ | with_reducible apply State.ccAluRow_kept)

theorem execAluSub_kept {s0 s : State} (cc : Nat) (hs : Kept s0 s) : KeptO s0 (execAluSub cc s) := by
  unfold execAluSub
  try dsimp only
  repeat' (first | with_reducible assumption | with_reducible intro _ | with_reducible apply State.ccAluRow_kept)

theorem execAluAnd_kept {s0 s : State} (cc : Nat) (hs : Kept s0 s) : KeptO s0 (execAluAnd cc s) := by
  unfold execAluAnd
  try dsimp only
  repeat' (first | with_reducible assumption | with_reducible intro _ | with_reducible apply State.ccAluRow_kept)

theorem execAluOr_kept {s0 s : State} (cc : Nat) (hs : Kept s0 s) : KeptO s0 (execAluOr cc s) := by
  unfold execAluOr
  try dsimp only
  repeat' (first | with_reducible assumption | with_reducible intro _ | with_reducible apply State.ccAluRow_kept)

theorem execAluXor_kept {s0 s : State} (cc : Nat) (hs : Kept s0 s) : KeptO s0 (execAluXor cc s) := by
  unfold execAluXor
  try dsimp only
  repeat' (first | with_reducible assumption | with_reducible intro _ | with_reducible apply State.ccAluRow_kept)

theorem execAluShl_kept {s0 s : State} (cc : Nat) (hs : Kept s0 s) : KeptO s0 (execAluShl cc s) := by
  unfold execAluShl
  try dsimp only
  repeat' (first | with_reducible assumption | with_reducible intro _ | with_reducible apply State.ccAluRow_kept)

theorem execAluShrArithmetic_kept {s0 s : State} (cc : Nat) (hs : Kept s0 s) : KeptO s0 (execAluShrArithmetic cc s) := by
  unfold execAluShrArithmetic
  try dsimp only
  repeat' (first | with_reducible assumption | with_reducible intro _ | with_reducible apply State.ccAluRow_kept)

theorem execAluShrLogical_kept {s0 s : State} (cc : Nat) (hs : Kept s0 s) : KeptO s0 (execAluShrLogical cc s) := by
  unfold execAluShrLogical
  try dsimp only
  repeat' (first | with_reducible assumption | with_reducible intro _ | with_reducible apply State.ccAluRow_kept)

theorem execAluCmp_kept {s0 s : State} (cc : Nat) (hs : Kept s0 s) : KeptO s0 (execAluCmp cc s) := by
  unfold execAluCmp
  try dsimp only
  repeat' (first | with_reducible assumption | with_reducible intro _ | with_reducible apply State.ccAluRow_kept)

theorem State.ccCaluRow_kept {s0 s : State} (cc fn : Nat) (hs : Kept s0 s) : KeptO s0 (State.ccCaluRow s cc fn) := by
  unfold State.ccCaluRow
  try dsimp only
  repeat' (first
    | with_reducible assumption | with_reducible intro _ | with_reducible apply State.ccRun_kept
    | with_reducible apply State.ccPut_kept | with_reducible apply KeptO.next | with_reducible apply KeptO.fault
    | with_reducible apply KeptC.some | with_reducible apply KeptC.none | with_reducible apply KeptE.ok
    | with_reducible apply KeptE.error | (with_reducible refine KeptE.bindS ?_ (fun _ _ => ?_))
    | (with_reducible refine KeptE.bind (fun _ => ?_)) | with_reducible apply Kept.cond | split
    | (refine Kept.fields rfl rfl rfl rfl rfl ?_; first
      | with_reducible assumption | with_reducible intro _ | with_reducible apply State.ccRun_kept
      | with_reducible apply State.ccPut_kept | with_reducible apply KeptO.next | with_reducible apply KeptO.fault
      | with_reducible apply KeptC.some | with_reducible apply KeptC.none | with_reducible apply KeptE.ok
      | with_reducible apply KeptE.error | (with_reducible refine KeptE.bindS ?_ (fun _ _ => ?_))
      | (with_reducible refine KeptE.bind (fun _ => ?_)) | with_reducible apply Kept.cond | split))

theorem execCadd_kept {s0 s : State} (cc : Nat) (hs : Kept s0 s) : KeptO s0 (execCadd cc s) := by
  unfold execCadd
  try dsimp only
  repeat' (first | with_reducible assumption | with_reducible intro _ | with_reducible apply State.ccCaluRow_kept)

theorem execCsub_kept {s0 s : State} (cc : Nat) (hs : Kept s0 s) : KeptO s0 (execCsub cc s) := by
  unfold execCsub
  try dsimp only
  repeat' (first | with_reducible assumption | with_reducible intro _ | with_reducible apply State.ccCaluRow_kept)

theorem execConj_kept {s0 s : State} (cc : Nat) (hs : Kept s0 s) : KeptO s0 (execConj cc s) := by
  unfold execConj
  try dsimp only
  repeat' (first | with_reducible assumption | with_reducible intro _ | with_reducible apply State.ccCaluRow_kept)

theorem execSwapIq_kept {s0 s : State} (cc : Nat) (hs : Kept s0 s) : KeptO s0 (execSwapIq cc s) := by
  unfold execSwapIq
  try dsimp only
  repeat' (first | with_reducible assumption | with_reducible intro _ | with_reducible apply State.ccCaluRow_kept)

theorem execCneg_kept {s0 s : State} (cc : Nat) (hs : Kept s0 s) : KeptO s0 (execCneg cc s) := by
  unfold execCneg
  try dsimp only
  repeat' (first | with_reducible assumption | with_reducible intro _ | with_reducible apply State.ccCaluRow_kept)

theorem State.ccWrite_kept {s0 s : State} (cc a : Nat) (ws : List W32) (hs : Kept s0 s) : Kept s0 (State.ccWrite s cc
    a ws) := by
  unfold State.ccWrite
  try dsimp only
  repeat' (first | with_reducible assumption | with_reducible intro _ | with_reducible apply State.wrN_kept)

theorem State.ccPost_kept {s0 s : State} (x : Thread) (an mm pmod n : Nat) (hs : Kept s0 s) : Kept s0 (State.ccPost s
    x an mm pmod n).1 := by
  unfold State.ccPost
  try dsimp only
  repeat' (first
    | with_reducible assumption | with_reducible intro _ | with_reducible apply State.ccStepA_kept
    | with_reducible apply Kept.cond | split)

theorem execLd_kept {s0 s : State} (cc : Nat) (hs : Kept s0 s) : KeptO s0 (execLd cc s) := by
  unfold execLd
  try dsimp only
  repeat' (first
    | with_reducible assumption | with_reducible intro _ | with_reducible apply State.ccRun_kept
    | with_reducible apply State.ccPut_kept | with_reducible apply State.ccPost_kept | with_reducible apply KeptO.next
    | with_reducible apply KeptO.fault | with_reducible apply KeptC.some | with_reducible apply KeptC.none
    | with_reducible apply KeptE.ok | with_reducible apply KeptE.error
    | (with_reducible refine KeptE.bindS ?_ (fun _ _ => ?_)) | (with_reducible refine KeptE.bind (fun _ => ?_))
    | split
    | (refine Kept.fields rfl rfl rfl rfl rfl ?_; first
      | with_reducible assumption | with_reducible intro _ | with_reducible apply State.ccRun_kept
      | with_reducible apply State.ccPut_kept | with_reducible apply State.ccPost_kept
      | with_reducible apply KeptO.next | with_reducible apply KeptO.fault | with_reducible apply KeptC.some
      | with_reducible apply KeptC.none | with_reducible apply KeptE.ok | with_reducible apply KeptE.error
      | (with_reducible refine KeptE.bindS ?_ (fun _ _ => ?_)) | (with_reducible refine KeptE.bind (fun _ => ?_))
      | split))

theorem execSt_kept {s0 s : State} (cc : Nat) (hs : Kept s0 s) : KeptO s0 (execSt cc s) := by
  unfold execSt
  try dsimp only
  repeat' (first
    | with_reducible assumption | with_reducible intro _ | with_reducible apply State.ccRun_kept
    | with_reducible apply State.ccPut_kept | with_reducible apply State.ccWrite_kept
    | with_reducible apply State.ccPost_kept | with_reducible apply KeptO.next | with_reducible apply KeptO.fault
    | with_reducible apply KeptC.some | with_reducible apply KeptC.none | with_reducible apply KeptE.ok
    | with_reducible apply KeptE.error | (with_reducible refine KeptE.bindS ?_ (fun _ _ => ?_))
    | (with_reducible refine KeptE.bind (fun _ => ?_)) | split
    | (refine Kept.fields rfl rfl rfl rfl rfl ?_; first
      | with_reducible assumption | with_reducible intro _ | with_reducible apply State.ccRun_kept
      | with_reducible apply State.ccPut_kept | with_reducible apply State.ccWrite_kept
      | with_reducible apply State.ccPost_kept | with_reducible apply KeptO.next | with_reducible apply KeptO.fault
      | with_reducible apply KeptC.some | with_reducible apply KeptC.none | with_reducible apply KeptE.ok
      | with_reducible apply KeptE.error | (with_reducible refine KeptE.bindS ?_ (fun _ _ => ?_))
      | (with_reducible refine KeptE.bind (fun _ => ?_)) | split))

theorem execLdx_kept {s0 s : State} (cc : Nat) (hs : Kept s0 s) : KeptO s0 (execLdx cc s) := by
  unfold execLdx
  try dsimp only
  repeat' (first
    | with_reducible assumption | with_reducible intro _ | with_reducible apply State.askBlocks_kept
    | with_reducible apply State.ccRun_kept | with_reducible apply State.ccOut_kept | with_reducible apply KeptO.next
    | with_reducible apply KeptO.fault | with_reducible apply KeptC.some | with_reducible apply KeptC.none
    | with_reducible apply KeptE.ok | with_reducible apply KeptE.error
    | (with_reducible refine KeptE.bindS ?_ (fun _ _ => ?_)) | (with_reducible refine KeptE.bind (fun _ => ?_))
    | with_reducible apply Kept.cond | split
    | (refine Kept.fields rfl rfl rfl rfl rfl ?_; first
      | with_reducible assumption | with_reducible intro _ | with_reducible apply State.askBlocks_kept
      | with_reducible apply State.ccRun_kept | with_reducible apply State.ccOut_kept
      | with_reducible apply KeptO.next | with_reducible apply KeptO.fault | with_reducible apply KeptC.some
      | with_reducible apply KeptC.none | with_reducible apply KeptE.ok | with_reducible apply KeptE.error
      | (with_reducible refine KeptE.bindS ?_ (fun _ _ => ?_)) | (with_reducible refine KeptE.bind (fun _ => ?_))
      | with_reducible apply Kept.cond | split))

theorem execLdxDataArrival_kept {s0 s : State} (cc t : Nat) (hs : Kept s0 s) : KeptO s0 (execLdxDataArrival cc t s) := by
  unfold execLdxDataArrival
  try dsimp only
  repeat' (first
    | with_reducible assumption | with_reducible intro _ | with_reducible apply State.setChan_kept
    | with_reducible apply State.noteBad_kept | with_reducible apply State.ccEnd_kept
    | with_reducible apply KeptO.next | with_reducible apply KeptO.fault | with_reducible apply Kept.cond | split
    | (refine Kept.fields rfl rfl rfl rfl rfl ?_; first
      | with_reducible assumption | with_reducible intro _ | with_reducible apply State.setChan_kept
      | with_reducible apply State.noteBad_kept | with_reducible apply State.ccEnd_kept
      | with_reducible apply KeptO.next | with_reducible apply KeptO.fault | with_reducible apply Kept.cond | split))

theorem execStx_kept {s0 s : State} (cc : Nat) (hs : Kept s0 s) : KeptO s0 (execStx cc s) := by
  unfold execStx
  try dsimp only
  repeat' (first
    | with_reducible assumption | with_reducible intro _ | with_reducible apply State.addTerm_kept
    | with_reducible apply State.ccRun_kept | with_reducible apply State.ccPut_kept | with_reducible apply KeptO.next
    | with_reducible apply KeptO.fault | with_reducible apply KeptC.some | with_reducible apply KeptC.none
    | with_reducible apply KeptE.ok | with_reducible apply KeptE.error
    | (with_reducible refine KeptE.bindS ?_ (fun _ _ => ?_)) | (with_reducible refine KeptE.bind (fun _ => ?_))
    | with_reducible apply Kept.cond | split
    | (refine Kept.fields rfl rfl rfl rfl rfl ?_; first
      | with_reducible assumption))

theorem execStxLanding_kept {s0 s : State} (pid : Nat) (hs : Kept s0 s) : KeptO s0 (execStxLanding pid s) := by
  unfold execStxLanding
  try dsimp only
  repeat' (first
    | with_reducible assumption | with_reducible intro _ | with_reducible apply State.landPiece_kept
    | with_reducible apply KeptO.next | with_reducible apply KeptO.fault | with_reducible apply Kept.cond | split
    | (refine Kept.fields rfl rfl rfl rfl rfl ?_; first
      | with_reducible assumption | with_reducible intro _ | with_reducible apply State.landPiece_kept
      | with_reducible apply KeptO.next | with_reducible apply KeptO.fault | with_reducible apply Kept.cond | split))

theorem State.ccMiss_kept {s0 s : State} (cc t : Nat) (x : Thread) (hs : Kept s0 s) : Kept s0 (State.ccMiss s cc t x) := by
  unfold State.ccMiss
  try dsimp only
  repeat' (first
    | with_reducible assumption | with_reducible intro _ | with_reducible apply State.addG_kept
    | with_reducible apply State.setChan_kept
    | (refine Kept.fields rfl rfl rfl rfl rfl ?_; first
      | with_reducible assumption | with_reducible intro _ | with_reducible apply State.addG_kept
      | with_reducible apply State.setChan_kept | split))

theorem State.ccLoad_kept {s0 s : State} (cc t : Nat) (c : Cmd) (a : Nat) (hs : Kept s0 s) : KeptE s0 (State.ccLoad s
    cc t c a) := by
  unfold State.ccLoad
  try dsimp only
  repeat' (first
    | with_reducible assumption | with_reducible intro _ | with_reducible apply State.ask_kept
    | with_reducible apply State.ccMiss_kept | with_reducible apply KeptE.ok | with_reducible apply KeptE.error
    | (with_reducible refine KeptE.bindS ?_ (fun _ _ => ?_)) | (with_reducible refine KeptE.bind (fun _ => ?_))
    | with_reducible apply Kept.cond | split
    | (refine Kept.fields rfl rfl rfl rfl rfl ?_; first
      | with_reducible assumption | with_reducible intro _ | with_reducible apply State.ask_kept
      | with_reducible apply State.ccMiss_kept | with_reducible apply KeptE.ok | with_reducible apply KeptE.error
      | (with_reducible refine KeptE.bindS ?_ (fun _ _ => ?_)) | (with_reducible refine KeptE.bind (fun _ => ?_))
      | with_reducible apply Kept.cond | split))

theorem execLdf_kept {s0 s : State} (cc : Nat) (hs : Kept s0 s) : KeptO s0 (execLdf cc s) := by
  unfold execLdf
  try dsimp only
  repeat' (first
    | with_reducible assumption | with_reducible intro _ | with_reducible apply State.ccRun_kept
    | with_reducible apply State.ccOut_kept | with_reducible apply State.ccLoad_kept
    | (with_reducible refine KeptE.get (State.ccLoad_kept _ _ _ _  ?_) (by assumption))
    | with_reducible apply KeptO.next | with_reducible apply KeptO.fault | with_reducible apply KeptC.some
    | with_reducible apply KeptC.none | with_reducible apply KeptE.ok | with_reducible apply KeptE.error
    | (with_reducible refine KeptE.bindS ?_ (fun _ _ => ?_)) | (with_reducible refine KeptE.bind (fun _ => ?_))
    | split
    | (refine Kept.fields rfl rfl rfl rfl rfl ?_; first
      | with_reducible assumption | with_reducible intro _ | with_reducible apply State.ccRun_kept
      | with_reducible apply State.ccOut_kept | with_reducible apply State.ccLoad_kept
      | (with_reducible refine KeptE.get (State.ccLoad_kept _ _ _ _  ?_) (by assumption))
      | with_reducible apply KeptO.next | with_reducible apply KeptO.fault | with_reducible apply KeptC.some
      | with_reducible apply KeptC.none | with_reducible apply KeptE.ok | with_reducible apply KeptE.error
      | (with_reducible refine KeptE.bindS ?_ (fun _ _ => ?_)) | (with_reducible refine KeptE.bind (fun _ => ?_))
      | split))

theorem execLdfReply_kept {s0 s : State} (cc t status : Nat) (data : List Byte) (hs : Kept s0 s) : KeptO s0
    (execLdfReply cc t status data s) := by
  unfold execLdfReply
  try dsimp only
  repeat' (first
    | with_reducible assumption | with_reducible intro _ | with_reducible apply State.setChan_kept
    | with_reducible apply State.dropAwait_kept | with_reducible apply State.ccEnd_kept
    | with_reducible apply State.ccMiss_kept | with_reducible apply KeptO.next | with_reducible apply KeptO.fault
    | with_reducible apply Kept.cond | split
    | (refine Kept.fields rfl rfl rfl rfl rfl ?_; first
      | with_reducible assumption | with_reducible intro _ | with_reducible apply State.setChan_kept
      | with_reducible apply State.dropAwait_kept | with_reducible apply State.ccEnd_kept
      | with_reducible apply State.ccMiss_kept | with_reducible apply KeptO.next | with_reducible apply KeptO.fault
      | with_reducible apply Kept.cond | split))

theorem execLdfWaitExpiry_kept {s0 s : State} (cc t : Nat) (hs : Kept s0 s) : KeptO s0 (execLdfWaitExpiry cc t s) := by
  unfold execLdfWaitExpiry
  try dsimp only
  repeat' (first
    | with_reducible assumption | with_reducible intro _ | with_reducible apply State.dropAwait_kept
    | with_reducible apply State.ccMiss_kept | with_reducible apply KeptO.next | with_reducible apply KeptO.fault
    | with_reducible apply Kept.cond | split
    | (refine Kept.fields rfl rfl rfl rfl rfl ?_; first
      | with_reducible assumption | with_reducible intro _ | with_reducible apply State.dropAwait_kept
      | with_reducible apply State.ccMiss_kept | with_reducible apply KeptO.next | with_reducible apply KeptO.fault
      | with_reducible apply Kept.cond | split))

theorem execCmac_kept {s0 s : State} (cc : Nat) (hs : Kept s0 s) : KeptO s0 (execCmac cc s) := by
  unfold execCmac
  try dsimp only
  repeat' (first
    | with_reducible assumption | with_reducible intro _ | with_reducible apply State.ccRun_kept
    | with_reducible apply State.ccPut_kept | with_reducible apply State.modChan_kept
    | with_reducible apply KeptO.next | with_reducible apply KeptO.fault | with_reducible apply KeptC.some
    | with_reducible apply KeptC.none | with_reducible apply KeptE.ok | with_reducible apply KeptE.error
    | (with_reducible refine KeptE.bindS ?_ (fun _ _ => ?_)) | (with_reducible refine KeptE.bind (fun _ => ?_))
    | split
    | (refine Kept.fields rfl rfl rfl rfl rfl ?_; first
      | with_reducible assumption | with_reducible intro _ | with_reducible apply State.ccRun_kept
      | with_reducible apply State.ccPut_kept | with_reducible apply State.modChan_kept
      | with_reducible apply KeptO.next | with_reducible apply KeptO.fault | with_reducible apply KeptC.some
      | with_reducible apply KeptC.none | with_reducible apply KeptE.ok | with_reducible apply KeptE.error
      | (with_reducible refine KeptE.bindS ?_ (fun _ _ => ?_)) | (with_reducible refine KeptE.bind (fun _ => ?_))
      | split))

theorem execCmac4_kept {s0 s : State} (cc : Nat) (hs : Kept s0 s) : KeptO s0 (execCmac4 cc s) := by
  unfold execCmac4
  try dsimp only
  repeat' (first
    | with_reducible assumption | with_reducible intro _ | with_reducible apply State.ccRun_kept
    | with_reducible apply State.ccPut_kept | with_reducible apply State.modChan_kept
    | with_reducible apply KeptO.next | with_reducible apply KeptO.fault | with_reducible apply KeptC.some
    | with_reducible apply KeptC.none | with_reducible apply KeptE.ok | with_reducible apply KeptE.error
    | (with_reducible refine KeptE.bindS ?_ (fun _ _ => ?_)) | (with_reducible refine KeptE.bind (fun _ => ?_))
    | split
    | (refine Kept.fields rfl rfl rfl rfl rfl ?_; first
      | with_reducible assumption | with_reducible intro _ | with_reducible apply State.ccRun_kept
      | with_reducible apply State.ccPut_kept | with_reducible apply State.modChan_kept
      | with_reducible apply KeptO.next | with_reducible apply KeptO.fault | with_reducible apply KeptC.some
      | with_reducible apply KeptC.none | with_reducible apply KeptE.ok | with_reducible apply KeptE.error
      | (with_reducible refine KeptE.bindS ?_ (fun _ _ => ?_)) | (with_reducible refine KeptE.bind (fun _ => ?_))
      | split))

theorem State.ccPost2_kept {s0 s : State} (x : Thread) (an ab ma mb pa pb : Nat) (hs : Kept s0 s) : Kept s0
    (State.ccPost2 s x an ab ma mb pa pb).1 := by
  unfold State.ccPost2
  try dsimp only
  repeat' (first
    | with_reducible assumption | with_reducible intro _ | with_reducible apply State.fresh_kept
    | with_reducible apply State.ccStepA_kept | with_reducible apply Kept.cond | split)

theorem State.ccTap_kept {s0 s : State} (cc t : Nat) (x : Thread) (moves : Bool) (k an ab ma mb pa pb conj sub : Nat)
    (hs : Kept s0 s) : Kept s0 (State.ccTap s cc t x moves k an ab ma mb pa pb conj sub) := by
  unfold State.ccTap
  try dsimp only
  repeat' (first
    | with_reducible assumption | with_reducible intro _ | with_reducible apply State.ccPut_kept
    | with_reducible apply State.modChan_kept | with_reducible apply State.ccWrite_kept
    | with_reducible apply State.ccPost2_kept | with_reducible apply Kept.cond)

theorem execCmac4m_kept {s0 s : State} (cc : Nat) (hs : Kept s0 s) : KeptO s0 (execCmac4m cc s) := by
  unfold execCmac4m
  try dsimp only
  repeat' (first
    | with_reducible assumption | with_reducible intro _ | with_reducible apply State.ccRun_kept
    | with_reducible apply State.ccTap_kept | with_reducible apply KeptO.next | with_reducible apply KeptO.fault
    | with_reducible apply KeptC.some | with_reducible apply KeptC.none | with_reducible apply KeptE.ok
    | with_reducible apply KeptE.error | (with_reducible refine KeptE.bindS ?_ (fun _ _ => ?_))
    | (with_reducible refine KeptE.bind (fun _ => ?_)) | split
    | (refine Kept.fields rfl rfl rfl rfl rfl ?_; first
      | with_reducible assumption | with_reducible intro _ | with_reducible apply State.ccRun_kept
      | with_reducible apply State.ccTap_kept | with_reducible apply KeptO.next | with_reducible apply KeptO.fault
      | with_reducible apply KeptC.some | with_reducible apply KeptC.none | with_reducible apply KeptE.ok
      | with_reducible apply KeptE.error | (with_reducible refine KeptE.bindS ?_ (fun _ _ => ?_))
      | (with_reducible refine KeptE.bind (fun _ => ?_)) | split))

theorem execFtap_kept {s0 s : State} (cc : Nat) (hs : Kept s0 s) : KeptO s0 (execFtap cc s) := by
  unfold execFtap
  try dsimp only
  repeat' (first
    | with_reducible assumption | with_reducible intro _ | with_reducible apply State.ccRun_kept
    | with_reducible apply State.ccTap_kept | with_reducible apply KeptO.next | with_reducible apply KeptO.fault
    | with_reducible apply KeptC.some | with_reducible apply KeptC.none | with_reducible apply KeptE.ok
    | with_reducible apply KeptE.error | (with_reducible refine KeptE.bindS ?_ (fun _ _ => ?_))
    | (with_reducible refine KeptE.bind (fun _ => ?_)) | split
    | (refine Kept.fields rfl rfl rfl rfl rfl ?_; first
      | with_reducible assumption | with_reducible intro _ | with_reducible apply State.ccRun_kept
      | with_reducible apply State.ccTap_kept | with_reducible apply KeptO.next | with_reducible apply KeptO.fault
      | with_reducible apply KeptC.some | with_reducible apply KeptC.none | with_reducible apply KeptE.ok
      | with_reducible apply KeptE.error | (with_reducible refine KeptE.bindS ?_ (fun _ _ => ?_))
      | (with_reducible refine KeptE.bind (fun _ => ?_)) | split))

theorem execClra_kept {s0 s : State} (cc : Nat) (hs : Kept s0 s) : KeptO s0 (execClra cc s) := by
  unfold execClra
  try dsimp only
  repeat' (first
    | with_reducible assumption | with_reducible intro _ | with_reducible apply State.ccRun_kept
    | with_reducible apply State.ccPut_kept | with_reducible apply State.modChan_kept
    | with_reducible apply KeptO.next | with_reducible apply KeptO.fault | with_reducible apply KeptC.some
    | with_reducible apply KeptC.none | with_reducible apply KeptE.ok | with_reducible apply KeptE.error
    | (with_reducible refine KeptE.bindS ?_ (fun _ _ => ?_)) | (with_reducible refine KeptE.bind (fun _ => ?_))
    | split
    | (refine Kept.fields rfl rfl rfl rfl rfl ?_; first
      | with_reducible assumption | with_reducible intro _ | with_reducible apply State.ccRun_kept
      | with_reducible apply State.ccPut_kept | with_reducible apply State.modChan_kept
      | with_reducible apply KeptO.next | with_reducible apply KeptO.fault | with_reducible apply KeptC.some
      | with_reducible apply KeptC.none | with_reducible apply KeptE.ok | with_reducible apply KeptE.error
      | (with_reducible refine KeptE.bindS ?_ (fun _ _ => ?_)) | (with_reducible refine KeptE.bind (fun _ => ?_))
      | split))

theorem State.ccStore_kept {s0 s : State} (cc t : Nat) (x : Thread) (ks : List Nat) (an mm pm fmt shift rnd clr : Nat)
    (hs : Kept s0 s) : Kept s0 (State.ccStore s cc t x ks an mm pm fmt shift rnd clr) := by
  unfold State.ccStore
  try dsimp only
  repeat' (first
    | with_reducible assumption | with_reducible intro _ | with_reducible apply State.wrN_kept
    | with_reducible apply State.ccPut_kept | with_reducible apply State.modChan_kept
    | with_reducible apply State.ccStepA_kept | with_reducible apply Kept.cond | split)

theorem execSta_kept {s0 s : State} (cc : Nat) (hs : Kept s0 s) : KeptO s0 (execSta cc s) := by
  unfold execSta
  try dsimp only
  repeat' (first
    | with_reducible assumption | with_reducible intro _ | with_reducible apply State.ccRun_kept
    | with_reducible apply State.ccStore_kept | with_reducible apply KeptO.next | with_reducible apply KeptO.fault
    | with_reducible apply KeptC.some | with_reducible apply KeptC.none | with_reducible apply KeptE.ok
    | with_reducible apply KeptE.error | (with_reducible refine KeptE.bindS ?_ (fun _ _ => ?_))
    | (with_reducible refine KeptE.bind (fun _ => ?_)) | split
    | (refine Kept.fields rfl rfl rfl rfl rfl ?_; first
      | with_reducible assumption | with_reducible intro _ | with_reducible apply State.ccRun_kept
      | with_reducible apply State.ccStore_kept | with_reducible apply KeptO.next | with_reducible apply KeptO.fault
      | with_reducible apply KeptC.some | with_reducible apply KeptC.none | with_reducible apply KeptE.ok
      | with_reducible apply KeptE.error | (with_reducible refine KeptE.bindS ?_ (fun _ _ => ?_))
      | (with_reducible refine KeptE.bind (fun _ => ?_)) | split))

theorem execSta4_kept {s0 s : State} (cc : Nat) (hs : Kept s0 s) : KeptO s0 (execSta4 cc s) := by
  unfold execSta4
  try dsimp only
  repeat' (first
    | with_reducible assumption | with_reducible intro _ | with_reducible apply State.ccRun_kept
    | with_reducible apply State.ccStore_kept | with_reducible apply KeptO.next | with_reducible apply KeptO.fault
    | with_reducible apply KeptC.some | with_reducible apply KeptC.none | with_reducible apply KeptE.ok
    | with_reducible apply KeptE.error | (with_reducible refine KeptE.bindS ?_ (fun _ _ => ?_))
    | (with_reducible refine KeptE.bind (fun _ => ?_)) | split
    | (refine Kept.fields rfl rfl rfl rfl rfl ?_; first
      | with_reducible assumption | with_reducible intro _ | with_reducible apply State.ccRun_kept
      | with_reducible apply State.ccStore_kept | with_reducible apply KeptO.next | with_reducible apply KeptO.fault
      | with_reducible apply KeptC.some | with_reducible apply KeptC.none | with_reducible apply KeptE.ok
      | with_reducible apply KeptE.error | (with_reducible refine KeptE.bindS ?_ (fun _ _ => ?_))
      | (with_reducible refine KeptE.bind (fun _ => ?_)) | split))

theorem execRda_kept {s0 s : State} (cc : Nat) (hs : Kept s0 s) : KeptO s0 (execRda cc s) := by
  unfold execRda
  try dsimp only
  repeat' (first
    | with_reducible assumption | with_reducible intro _ | with_reducible apply State.ccRun_kept
    | with_reducible apply State.ccPut_kept | with_reducible apply State.modChan_kept
    | with_reducible apply KeptO.next | with_reducible apply KeptO.fault | with_reducible apply KeptC.some
    | with_reducible apply KeptC.none | with_reducible apply KeptE.ok | with_reducible apply KeptE.error
    | (with_reducible refine KeptE.bindS ?_ (fun _ _ => ?_)) | (with_reducible refine KeptE.bind (fun _ => ?_))
    | split
    | (refine Kept.fields rfl rfl rfl rfl rfl ?_; first
      | with_reducible assumption | with_reducible intro _ | with_reducible apply State.ccRun_kept
      | with_reducible apply State.ccPut_kept | with_reducible apply State.modChan_kept
      | with_reducible apply KeptO.next | with_reducible apply KeptO.fault | with_reducible apply KeptC.some
      | with_reducible apply KeptC.none | with_reducible apply KeptE.ok | with_reducible apply KeptE.error
      | (with_reducible refine KeptE.bindS ?_ (fun _ _ => ?_)) | (with_reducible refine KeptE.bind (fun _ => ?_))
      | split))

theorem State.startRun_kept {s0 s : State} (c : Cmd) (b : Blk) (hs : Kept s0 s) : Kept s0 (State.startRun s c b) := by
  unfold State.startRun
  try dsimp only
  repeat' (first
    | with_reducible assumption | with_reducible intro _ | with_reducible apply State.setChan_kept
    | with_reducible apply State.ccStop_kept)

theorem execChannelCoreRun_kept {s0 s : State} (cid : Nat) (hs : Kept s0 s) : KeptO s0 (execChannelCoreRun cid s) := by
  unfold execChannelCoreRun
  try dsimp only
  repeat' (first
    | with_reducible assumption | with_reducible intro _ | with_reducible apply State.did_kept
    | with_reducible apply State.radioRun_kept | with_reducible apply State.startRun_kept
    | with_reducible apply KeptO.next | with_reducible apply KeptO.fault | with_reducible apply KeptP.ok
    | with_reducible apply KeptP.map | with_reducible apply KeptP.error
    | (with_reducible refine KeptP.bindP ?_ (fun _ _ => ?_)) | (with_reducible refine KeptP.bindS ?_ (fun _ _ => ?_))
    | (with_reducible refine KeptP.bind (fun _ => ?_)) | with_reducible apply Kept.cond | split
    | (refine Kept.fields rfl rfl rfl rfl rfl ?_; first
      | with_reducible assumption | with_reducible intro _ | with_reducible apply State.did_kept
      | with_reducible apply State.radioRun_kept | with_reducible apply State.startRun_kept
      | with_reducible apply KeptO.next | with_reducible apply KeptO.fault | with_reducible apply KeptP.ok
      | with_reducible apply KeptP.map | with_reducible apply KeptP.error
      | (with_reducible refine KeptP.bindP ?_ (fun _ _ => ?_))
      | (with_reducible refine KeptP.bindS ?_ (fun _ _ => ?_)) | (with_reducible refine KeptP.bind (fun _ => ?_))
      | with_reducible apply Kept.cond | split))

theorem State.chanPieces_kept {s0 s : State} (c : Cmd) (read land : Nat) (float : Option Nat) (l : List Part) (hs :
    Kept s0 s) : Kept s0 (State.chanPieces s c read land float l) := by
  unfold State.chanPieces
  try dsimp only
  repeat' (first
    | with_reducible assumption | with_reducible intro _ | with_reducible apply State.modCmd_kept
    | with_reducible apply State.issueFrom_kept | split
    | (refine Kept.fields rfl rfl rfl rfl rfl ?_; first
      | with_reducible assumption | with_reducible intro _ | with_reducible apply State.modCmd_kept
      | with_reducible apply State.issueFrom_kept | split))

theorem fillEffect_kept {s0 s : State} (c : Cmd) (hs : Kept s0 s) : KeptP s0 (fillEffect c s) := by
  unfold fillEffect
  try dsimp only
  repeat' (first
    | with_reducible assumption | with_reducible intro _ | with_reducible apply State.chanPieces_kept
    | with_reducible apply KeptP.ok | with_reducible apply KeptP.map | with_reducible apply KeptP.error
    | (with_reducible refine KeptP.bindP ?_ (fun _ _ => ?_)) | (with_reducible refine KeptP.bindS ?_ (fun _ _ => ?_))
    | (with_reducible refine KeptP.bind (fun _ => ?_)) | with_reducible apply KeptE.ok
    | with_reducible apply KeptE.error | (with_reducible refine KeptE.bindS ?_ (fun _ _ => ?_))
    | (with_reducible refine KeptE.bind (fun _ => ?_)) | with_reducible apply Kept.cond | split)

theorem execChannelCoreFill_kept {s0 s : State} (cid : Nat) (hs : Kept s0 s) : KeptO s0 (execChannelCoreFill cid s) := by
  unfold execChannelCoreFill
  try dsimp only
  repeat' (first
    | with_reducible assumption | with_reducible intro _ | with_reducible apply State.radioRun_kept
    | with_reducible apply fillEffect_kept | (with_reducible refine KeptP.get (fillEffect_kept _  ?_) (by assumption))
    | with_reducible apply KeptO.next | with_reducible apply KeptO.fault | with_reducible apply KeptP.ok
    | with_reducible apply KeptP.map | with_reducible apply KeptP.error
    | (with_reducible refine KeptP.bindP ?_ (fun _ _ => ?_)) | (with_reducible refine KeptP.bindS ?_ (fun _ _ => ?_))
    | (with_reducible refine KeptP.bind (fun _ => ?_)) | split)

theorem drainEffect_kept {s0 s : State} (c : Cmd) (hs : Kept s0 s) : KeptP s0 (drainEffect c s) := by
  unfold drainEffect
  try dsimp only
  repeat' (first
    | with_reducible assumption | with_reducible intro _ | with_reducible apply State.chanPieces_kept
    | with_reducible apply KeptP.ok | with_reducible apply KeptP.map | with_reducible apply KeptP.error
    | (with_reducible refine KeptP.bindP ?_ (fun _ _ => ?_)) | (with_reducible refine KeptP.bindS ?_ (fun _ _ => ?_))
    | (with_reducible refine KeptP.bind (fun _ => ?_)) | with_reducible apply KeptE.ok
    | with_reducible apply KeptE.error | (with_reducible refine KeptE.bindS ?_ (fun _ _ => ?_))
    | (with_reducible refine KeptE.bind (fun _ => ?_)) | split)

theorem execChannelCoreDrain_kept {s0 s : State} (cid : Nat) (hs : Kept s0 s) : KeptO s0 (execChannelCoreDrain cid s) := by
  unfold execChannelCoreDrain
  try dsimp only
  repeat' (first
    | with_reducible assumption | with_reducible intro _ | with_reducible apply State.radioRun_kept
    | with_reducible apply drainEffect_kept
    | (with_reducible refine KeptP.get (drainEffect_kept _  ?_) (by assumption)) | with_reducible apply KeptO.next
    | with_reducible apply KeptO.fault | with_reducible apply KeptP.ok | with_reducible apply KeptP.map
    | with_reducible apply KeptP.error | (with_reducible refine KeptP.bindP ?_ (fun _ _ => ?_))
    | (with_reducible refine KeptP.bindS ?_ (fun _ _ => ?_)) | (with_reducible refine KeptP.bind (fun _ => ?_))
    | split)

theorem groupRule_kept {s0 s : State} (group : Nat) (_u1 : ObjRow) (hs : Kept s0 s) : KeptE s0 (groupRule group _u1
    s) := by
  unfold groupRule
  try dsimp only
  repeat' (first
    | with_reducible assumption | with_reducible intro _ | with_reducible apply KeptE.ok
    | with_reducible apply KeptE.error | (with_reducible refine KeptE.bindS ?_ (fun _ _ => ?_))
    | (with_reducible refine KeptE.bind (fun _ => ?_)))

theorem execGroupModeWrite_kept {s0 s : State} (path : Path) (group mode : Nat) (hs : Kept s0 s) : KeptO s0
    (execGroupModeWrite path group mode s) := by
  unfold execGroupModeWrite
  try dsimp only
  repeat' (first
    | with_reducible assumption | with_reducible intro _ | with_reducible apply State.access_kept
    | with_reducible apply groupRule_kept | (with_reducible refine KeptE.get (groupRule_kept _ _  ?_) (by assumption))
    | with_reducible apply KeptO.next)

theorem State.retrainGroup_kept {s0 s : State} (group mode : Nat) (hs : Kept s0 s) : Kept s0 (State.retrainGroup s
    group mode) := by
  unfold State.retrainGroup
  try dsimp only
  repeat' (first
    | with_reducible assumption | with_reducible intro _ | with_reducible apply State.setG_kept
    | with_reducible apply Kept.cond | split | (with_reducible refine Kept.foldl _ (fun _ _ _ => ?_) _ ?_))

theorem execFronthaulLaneDown_kept {s0 s : State} (lane : Nat) (hs : Kept s0 s) : KeptO s0 (execFronthaulLaneDown lane
    s) := by
  unfold execFronthaulLaneDown
  try dsimp only
  repeat' (first
    | with_reducible assumption | with_reducible intro _ | with_reducible apply State.setG_kept
    | with_reducible apply KeptO.next | with_reducible apply KeptO.fault | with_reducible apply Kept.cond | split)

theorem execFronthaulLaneTrained_kept {s0 s : State} (lane : Nat) (hs : Kept s0 s) : KeptO s0
    (execFronthaulLaneTrained lane s) := by
  unfold execFronthaulLaneTrained
  try dsimp only
  repeat' (first
    | with_reducible assumption | with_reducible intro _ | with_reducible apply State.setG_kept
    | with_reducible apply KeptO.next | with_reducible apply KeptO.fault | with_reducible apply Kept.cond | split)

theorem State.overflow_kept {s0 s : State} (lane : Nat) (hs : Kept s0 s) : Kept s0 (State.overflow s lane) := by
  unfold State.overflow
  try dsimp only
  repeat' (first
    | with_reducible assumption | with_reducible intro _ | with_reducible apply State.addG_kept
    | with_reducible apply State.raise_kept | with_reducible apply Kept.cond | split
    | (refine Kept.fields rfl rfl rfl rfl rfl ?_; first
      | with_reducible assumption | with_reducible intro _ | with_reducible apply State.addG_kept
      | with_reducible apply State.raise_kept | with_reducible apply Kept.cond | split))

theorem State.takeFrame_kept {s0 s : State} (lane : Nat) (eaxc : Option Nat) (k : Nat → State → State) (hk : ∀ _x0 t,
    Kept s0 t → Kept s0 (k _x0 t)) (hs : Kept s0 s) : KeptO s0 (State.takeFrame s lane eaxc k) := by
  unfold State.takeFrame
  try dsimp only
  repeat' (first
    | with_reducible assumption | with_reducible intro _ | with_reducible apply State.addG_kept
    | with_reducible apply State.overflow_kept | with_reducible apply hk | with_reducible apply KeptO.next
    | with_reducible apply KeptO.fault | with_reducible apply Kept.cond | split
    | (with_reducible refine Kept.elim _ ?_ (fun _ => ?_))
    | (refine Kept.fields rfl rfl rfl rfl rfl ?_; first
      | with_reducible assumption | with_reducible intro _ | with_reducible apply State.addG_kept
      | with_reducible apply State.overflow_kept | with_reducible apply hk | with_reducible apply KeptO.next
      | with_reducible apply KeptO.fault | with_reducible apply Kept.cond | split
      | (with_reducible refine Kept.elim _ ?_ (fun _ => ?_))))

theorem State.takeSeq_kept {s0 s : State} (cell eaxc seq : Nat) (hs : Kept s0 s) : Kept s0 (State.takeSeq s cell eaxc
    seq) := by
  unfold State.takeSeq
  try dsimp only
  repeat' (first
    | with_reducible assumption | with_reducible intro _ | with_reducible apply State.addCellO_kept
    | with_reducible apply Kept.cond | split
    | (refine Kept.fields rfl rfl rfl rfl rfl ?_; first
      | with_reducible assumption))

theorem State.setStage_kept {s0 s : State} (lane : Nat) (l : List Filed) (hs : Kept s0 s) : Kept s0 (State.setStage s
    lane l) := by
  unfold State.setStage
  try dsimp only
  repeat' (first
    | with_reducible assumption | with_reducible intro _ | split
    | (refine Kept.fields rfl rfl rfl rfl rfl ?_; first
      | with_reducible assumption))

theorem State.fileSection_kept {s0 s : State} (lane cell slot closes : Nat) (f : UFrame) (hs : Kept s0 s) : Kept s0
    (State.fileSection s lane cell slot closes f) := by
  unfold State.fileSection
  try dsimp only
  repeat' (first
    | with_reducible assumption | with_reducible intro _ | with_reducible apply State.addG_kept
    | with_reducible apply State.addCellO_kept | with_reducible apply State.setStage_kept
    | with_reducible apply Kept.cond)

theorem State.judgeSection_kept {s0 s : State} (port cell : Nat) (f : UFrame) (hs : Kept s0 s) : Kept s0
    (State.judgeSection s port cell f) := by
  unfold State.judgeSection
  try dsimp only
  repeat' (first
    | with_reducible assumption | with_reducible intro _ | with_reducible apply State.addCellO_kept
    | with_reducible apply State.takeSeq_kept | with_reducible apply State.fileSection_kept
    | with_reducible apply Kept.cond)

theorem execUplaneSectionReceive_kept {s0 s : State} (lane : Nat) (f : UFrame) (hs : Kept s0 s) : KeptO s0
    (execUplaneSectionReceive lane f s) := by
  unfold execUplaneSectionReceive
  try dsimp only
  repeat' (first
    | with_reducible assumption | with_reducible intro _ | with_reducible apply State.addG_kept
    | with_reducible apply State.takeFrame_kept | with_reducible apply State.judgeSection_kept
    | with_reducible apply KeptO.next | with_reducible apply KeptO.fault | with_reducible apply Kept.cond | split
    | (refine Kept.fields rfl rfl rfl rfl rfl ?_; first
      | with_reducible assumption | with_reducible intro _ | with_reducible apply State.addG_kept
      | with_reducible apply State.takeFrame_kept | with_reducible apply State.judgeSection_kept
      | with_reducible apply KeptO.next | with_reducible apply KeptO.fault | with_reducible apply Kept.cond | split))

theorem execCplaneReceive_kept {s0 s : State} (lane : Nat) (hs : Kept s0 s) : KeptO s0 (execCplaneReceive lane s) := by
  unfold execCplaneReceive
  try dsimp only
  repeat' (first
    | with_reducible assumption | with_reducible intro _ | with_reducible apply State.addG_kept
    | with_reducible apply State.takeFrame_kept | with_reducible apply KeptO.next | with_reducible apply KeptO.fault
    | split)

theorem execEcpriDelayRequestReceive_kept {s0 s : State} (lane measurement : Nat) (skew : Int) (hs : Kept s0 s) :
    KeptO s0 (execEcpriDelayRequestReceive lane measurement skew s) := by
  unfold execEcpriDelayRequestReceive
  try dsimp only
  repeat' (first
    | with_reducible assumption | with_reducible intro _ | with_reducible apply State.addG_kept
    | with_reducible apply State.send_kept | with_reducible apply State.takeFrame_kept
    | with_reducible apply KeptO.next | with_reducible apply KeptO.fault | split)

theorem execEcpriDelayResponseReceive_kept {s0 s : State} (lane measurement t1 : Nat) (tcv1 : Int) (t2 : Nat) (tcv2 : Int)
    (hs : Kept s0 s) : KeptO s0 (execEcpriDelayResponseReceive lane measurement t1 tcv1 t2 tcv2 s) := by
  unfold execEcpriDelayResponseReceive
  try dsimp only
  repeat' (first
    | with_reducible assumption | with_reducible intro _ | with_reducible apply State.setG_kept
    | with_reducible apply State.takeFrame_kept
    | with_reducible apply KeptO.next | with_reducible apply KeptO.fault | split)

theorem execStagingExpiry_kept {s0 s : State} (lane : Nat) (hs : Kept s0 s) : KeptO s0 (execStagingExpiry lane s) := by
  unfold execStagingExpiry
  try dsimp only
  repeat' (first
    | with_reducible assumption | with_reducible intro _ | with_reducible apply State.addG_kept
    | with_reducible apply State.setStage_kept | with_reducible apply KeptO.next | with_reducible apply KeptO.fault
    | with_reducible apply Kept.cond | split)

theorem deliverEffect_kept {s0 s : State} (c : Cmd) (hs : Kept s0 s) : KeptP s0 (deliverEffect c s) := by
  unfold deliverEffect
  try dsimp only
  repeat' (first
    | with_reducible assumption | with_reducible intro _ | with_reducible apply State.emitData_kept
    | with_reducible apply State.setStage_kept | with_reducible apply KeptP.ok | with_reducible apply KeptP.map
    | with_reducible apply KeptP.error | (with_reducible refine KeptP.bindP ?_ (fun _ _ => ?_))
    | (with_reducible refine KeptP.bindS ?_ (fun _ _ => ?_)) | (with_reducible refine KeptP.bind (fun _ => ?_))
    | (refine Kept.fields rfl rfl rfl rfl rfl ?_; first
      | with_reducible assumption | with_reducible intro _ | with_reducible apply State.emitData_kept
      | with_reducible apply State.setStage_kept | with_reducible apply KeptP.ok | with_reducible apply KeptP.map
      | with_reducible apply KeptP.error | (with_reducible refine KeptP.bindP ?_ (fun _ _ => ?_))
      | (with_reducible refine KeptP.bindS ?_ (fun _ _ => ?_)) | (with_reducible refine KeptP.bind (fun _ => ?_))
      | with_reducible apply KeptE.ok | with_reducible apply KeptE.error
      | (with_reducible refine KeptE.bindS ?_ (fun _ _ => ?_)) | (with_reducible refine KeptE.bind (fun _ => ?_))
      | with_reducible apply Kept.cond | split))

theorem execDeliver_kept {s0 s : State} (cid : Nat) (hs : Kept s0 s) : KeptO s0 (execDeliver cid s) := by
  unfold execDeliver
  try dsimp only
  repeat' (first
    | with_reducible assumption | with_reducible intro _ | with_reducible apply State.radioRun_kept
    | with_reducible apply deliverEffect_kept
    | (with_reducible refine KeptP.get (deliverEffect_kept _  ?_) (by assumption)) | with_reducible apply KeptO.next
    | with_reducible apply KeptO.fault | with_reducible apply KeptP.ok | with_reducible apply KeptP.map
    | with_reducible apply KeptP.error | (with_reducible refine KeptP.bindP ?_ (fun _ _ => ?_))
    | (with_reducible refine KeptP.bindS ?_ (fun _ _ => ?_)) | (with_reducible refine KeptP.bind (fun _ => ?_))
    | split)

theorem State.setTx_kept {s0 s : State} (port : Nat) (l : List TxFrame) (hs : Kept s0 s) : Kept s0 (State.setTx s port
    l) := by
  unfold State.setTx
  try dsimp only
  repeat' (first
    | with_reducible assumption | with_reducible intro _ | split
    | (refine Kept.fields rfl rfl rfl rfl rfl ?_; first
      | with_reducible assumption))

theorem State.queueTx_kept {s0 s : State} (port : Nat) (f : TxFrame) (hs : Kept s0 s) : Kept s0 (State.queueTx s port
    f) := by
  unfold State.queueTx
  try dsimp only
  repeat' (first | with_reducible assumption | with_reducible intro _ | with_reducible apply State.setTx_kept)

theorem State.nextSeq_kept {s0 s : State} (cell eaxc : Nat) (hs : Kept s0 s) : Kept s0 (State.nextSeq s cell eaxc).2 := by
  unfold State.nextSeq
  try dsimp only
  repeat' (first
    | with_reducible assumption | with_reducible intro _ | split
    | (refine Kept.fields rfl rfl rfl rfl rfl ?_; first
      | with_reducible assumption))

theorem State.queueSection_kept {s0 s : State} (c : Cmd) (b : Blk) (e : List W32) (hs : Kept s0 s) : Kept s0
    (State.queueSection s c b e) := by
  unfold State.queueSection
  try dsimp only
  repeat' (first
    | with_reducible assumption | with_reducible intro _ | with_reducible apply State.queueTx_kept
    | with_reducible apply State.nextSeq_kept)

theorem State.queueSections_kept {s0 s : State} (c : Cmd) (b : Blk) (xs : List (List W32)) (hs : Kept s0 s) : Kept s0
    (State.queueSections s c b xs) := by
  induction xs generalizing s c b with
  | nil =>
    unfold State.queueSections
    try dsimp only
    repeat' (first | with_reducible assumption) | cons e es ih =>
    unfold State.queueSections
    try dsimp only
    repeat' (first
      | with_reducible assumption | with_reducible intro _ | with_reducible apply ih
      | with_reducible apply State.queueSection_kept)

theorem uplaneEffect_kept {s0 s : State} (c : Cmd) (hs : Kept s0 s) : KeptP s0 (uplaneEffect c s) := by
  unfold uplaneEffect
  try dsimp only
  repeat' (first
    | with_reducible assumption | with_reducible intro _ | with_reducible apply State.queueSections_kept
    | with_reducible apply KeptP.ok | with_reducible apply KeptP.map | with_reducible apply KeptP.error
    | (with_reducible refine KeptP.bindP ?_ (fun _ _ => ?_)) | (with_reducible refine KeptP.bindS ?_ (fun _ _ => ?_))
    | (with_reducible refine KeptP.bind (fun _ => ?_)))

theorem execUplaneTx_kept {s0 s : State} (cid : Nat) (hs : Kept s0 s) : KeptO s0 (execUplaneTx cid s) := by
  unfold execUplaneTx
  try dsimp only
  repeat' (first
    | with_reducible assumption | with_reducible intro _ | with_reducible apply State.radioRun_kept
    | with_reducible apply uplaneEffect_kept
    | (with_reducible refine KeptP.get (uplaneEffect_kept _  ?_) (by assumption)) | with_reducible apply KeptO.next
    | with_reducible apply KeptO.fault | with_reducible apply KeptP.ok | with_reducible apply KeptP.map
    | with_reducible apply KeptP.error | (with_reducible refine KeptP.bindP ?_ (fun _ _ => ?_))
    | (with_reducible refine KeptP.bindS ?_ (fun _ _ => ?_)) | (with_reducible refine KeptP.bind (fun _ => ?_))
    | split)

theorem State.queueMessage_kept {s0 s : State} (c : Cmd) (b : Blk) (m : List Byte) (hs : Kept s0 s) : Kept s0
    (State.queueMessage s c b m) := by
  unfold State.queueMessage
  try dsimp only
  repeat' (first
    | with_reducible assumption | with_reducible intro _ | with_reducible apply State.queueTx_kept
    | with_reducible apply State.nextSeq_kept)

theorem State.queueMessages_kept {s0 s : State} (c : Cmd) (b : Blk) (xs : List (Nat × List Byte)) (hs : Kept s0 s) :
    Kept s0 (State.queueMessages s c b xs) := by
  induction xs generalizing s c b with
  | nil =>
    unfold State.queueMessages
    try dsimp only
    repeat' (first | with_reducible assumption) | cons e es ih =>
    unfold State.queueMessages
    try dsimp only
    repeat' (first
      | with_reducible assumption | with_reducible intro _ | with_reducible apply ih
      | with_reducible apply State.queueMessage_kept)

theorem cplaneEffect_kept {s0 s : State} (c : Cmd) (hs : Kept s0 s) : KeptP s0 (cplaneEffect c s) := by
  unfold cplaneEffect
  try dsimp only
  repeat' (first
    | with_reducible assumption | with_reducible intro _ | with_reducible apply State.queueMessages_kept
    | with_reducible apply KeptP.ok | with_reducible apply KeptP.map | with_reducible apply KeptP.error
    | (with_reducible refine KeptP.bindP ?_ (fun _ _ => ?_)) | (with_reducible refine KeptP.bindS ?_ (fun _ _ => ?_))
    | (with_reducible refine KeptP.bind (fun _ => ?_)))

theorem execCplaneTx_kept {s0 s : State} (cid : Nat) (hs : Kept s0 s) : KeptO s0 (execCplaneTx cid s) := by
  unfold execCplaneTx
  try dsimp only
  repeat' (first
    | with_reducible assumption | with_reducible intro _ | with_reducible apply State.radioRun_kept
    | with_reducible apply cplaneEffect_kept
    | (with_reducible refine KeptP.get (cplaneEffect_kept _  ?_) (by assumption)) | with_reducible apply KeptO.next
    | with_reducible apply KeptO.fault | with_reducible apply KeptP.ok | with_reducible apply KeptP.map
    | with_reducible apply KeptP.error | (with_reducible refine KeptP.bindP ?_ (fun _ _ => ?_))
    | (with_reducible refine KeptP.bindS ?_ (fun _ _ => ?_)) | (with_reducible refine KeptP.bind (fun _ => ?_))
    | split)

theorem rawEffect_kept {s0 s : State} (c : Cmd) (hs : Kept s0 s) : KeptP s0 (rawEffect c s) := by
  unfold rawEffect
  try dsimp only
  repeat' (first
    | with_reducible assumption | with_reducible intro _ | with_reducible apply State.queueTx_kept
    | with_reducible apply KeptP.ok | with_reducible apply KeptP.map | with_reducible apply KeptP.error
    | (with_reducible refine KeptP.bindP ?_ (fun _ _ => ?_)) | (with_reducible refine KeptP.bindS ?_ (fun _ _ => ?_))
    | (with_reducible refine KeptP.bind (fun _ => ?_)) | with_reducible apply KeptE.ok
    | with_reducible apply KeptE.error | (with_reducible refine KeptE.bindS ?_ (fun _ _ => ?_))
    | (with_reducible refine KeptE.bind (fun _ => ?_)) | split
    | (with_reducible refine Kept.foldl _ (fun _ _ _ => ?_) _ ?_))

theorem execRawTx_kept {s0 s : State} (cid : Nat) (hs : Kept s0 s) : KeptO s0 (execRawTx cid s) := by
  unfold execRawTx
  try dsimp only
  repeat' (first
    | with_reducible assumption | with_reducible intro _ | with_reducible apply State.radioRun_kept
    | with_reducible apply rawEffect_kept | (with_reducible refine KeptP.get (rawEffect_kept _  ?_) (by assumption))
    | with_reducible apply KeptO.next | with_reducible apply KeptO.fault | with_reducible apply KeptP.ok
    | with_reducible apply KeptP.map | with_reducible apply KeptP.error
    | (with_reducible refine KeptP.bindP ?_ (fun _ _ => ?_)) | (with_reducible refine KeptP.bindS ?_ (fun _ _ => ?_))
    | (with_reducible refine KeptP.bind (fun _ => ?_)) | split)

theorem State.lateFrame_kept {s0 s : State} (f : TxFrame) (cal : Nat) (hs : Kept s0 s) : Kept s0 (State.lateFrame s f
    cal) := by
  unfold State.lateFrame
  try dsimp only
  repeat' (first
    | with_reducible assumption | with_reducible intro _ | with_reducible apply State.addG_kept
    | with_reducible apply State.noteLate_kept | with_reducible apply State.lateness_kept
    | with_reducible apply Kept.cond | split)

theorem State.noteRequest_kept {s0 s : State} (port code : Nat) (bs : List Byte) (hs : Kept s0 s) : Kept s0
    (State.noteRequest s port code bs) := by
  unfold State.noteRequest
  try dsimp only
  repeat' (first
    | with_reducible assumption | with_reducible intro _ | with_reducible apply Kept.cond | split
    | (refine Kept.fields rfl rfl rfl rfl rfl ?_; first
      | with_reducible assumption | with_reducible intro _ | with_reducible apply Kept.cond | split))

theorem execFrameDepart_kept {s0 s : State} (lane : Nat) (skew : Int) (hs : Kept s0 s) : KeptO s0 (execFrameDepart
    lane skew s) := by
  unfold execFrameDepart
  try dsimp only
  repeat' (first
    | with_reducible assumption | with_reducible intro _ | with_reducible apply State.addG_kept
    | with_reducible apply State.send_kept | with_reducible apply State.setTx_kept
    | with_reducible apply State.lateFrame_kept | with_reducible apply State.noteRequest_kept
    | with_reducible apply KeptO.next | with_reducible apply KeptO.fault | with_reducible apply Kept.cond | split
    | (refine Kept.fields rfl rfl rfl rfl rfl ?_; first
      | with_reducible assumption | with_reducible intro _ | with_reducible apply State.addG_kept
      | with_reducible apply State.send_kept | with_reducible apply State.setTx_kept
      | with_reducible apply State.lateFrame_kept | with_reducible apply State.noteRequest_kept
      | with_reducible apply KeptO.next | with_reducible apply KeptO.fault | with_reducible apply Kept.cond | split))

theorem State.setServo_kept {s0 s : State} (n : Nat) (f : Servo → Servo) (hs : Kept s0 s) : Kept s0 (State.setServo s
    n f) := by
  unfold State.setServo
  try dsimp only
  repeat' (first
    | with_reducible assumption | with_reducible intro _ | split
    | (refine Kept.fields rfl rfl rfl rfl rfl ?_; first
      | with_reducible assumption))

theorem State.holdover_kept {s0 s : State} (n : Nat) (hs : Kept s0 s) : Kept s0 (State.holdover s n) := by
  unfold State.holdover
  try dsimp only
  repeat' (first
    | with_reducible assumption | with_reducible intro _ | with_reducible apply ih
    | with_reducible apply State.setG_kept | with_reducible apply State.addG_kept
    | with_reducible apply State.raise_kept | with_reducible apply State.setServo_kept)

theorem State.stepBase_kept {s0 s : State} (n : Nat) (errs : List Int) (hs : Kept s0 s) : Kept s0 (State.stepBase s n
    errs) := by
  unfold State.stepBase
  try dsimp only
  repeat' (first
    | with_reducible assumption | with_reducible intro _ | with_reducible apply State.setG_kept
    | with_reducible apply State.addG_kept | with_reducible apply State.setServo_kept | with_reducible apply Kept.cond
    | split
    | (refine Kept.fields rfl rfl rfl rfl rfl ?_; first
      | with_reducible assumption | with_reducible intro _ | with_reducible apply State.setG_kept
      | with_reducible apply State.addG_kept | with_reducible apply State.setServo_kept))

theorem State.acquire_kept {s0 s : State} (n : Nat) (error : Int) (hs : Kept s0 s) : Kept s0 (State.acquire s n
    error) := by
  unfold State.acquire
  try dsimp only
  repeat' (first
    | with_reducible assumption | with_reducible intro _ | with_reducible apply State.setServo_kept
    | with_reducible apply State.stepBase_kept | with_reducible apply Kept.cond
    | (refine Kept.fields rfl rfl rfl rfl rfl ?_; first
      | with_reducible assumption | with_reducible intro _ | with_reducible apply State.setServo_kept
      | with_reducible apply State.stepBase_kept | with_reducible apply Kept.cond | split))

theorem State.steer_kept {s0 s : State} (n : Nat) (hs : Kept s0 s) : Kept s0 (State.steer s n) := by
  unfold State.steer
  try dsimp only
  repeat' (first
    | with_reducible assumption | with_reducible intro _ | with_reducible apply State.setG_kept
    | with_reducible apply State.fresh_kept | with_reducible apply State.setServo_kept | split
    | (refine Kept.fields rfl rfl rfl rfl rfl ?_; first
      | with_reducible assumption | with_reducible intro _ | with_reducible apply State.setG_kept
      | with_reducible apply State.fresh_kept | with_reducible apply State.setServo_kept | split))

theorem State.measure_kept {s0 s : State} (n : Nat) (error : Int) (hs : Kept s0 s) : Kept s0 (State.measure s n
    error) := by
  unfold State.measure
  try dsimp only
  repeat' (first
    | with_reducible assumption | with_reducible intro _ | with_reducible apply State.setG_kept
    | with_reducible apply State.setServo_kept | with_reducible apply State.holdover_kept
    | with_reducible apply State.acquire_kept | with_reducible apply State.steer_kept | with_reducible apply Kept.cond
    | split
    | (refine Kept.fields rfl rfl rfl rfl rfl ?_; first
      | with_reducible assumption | with_reducible intro _ | with_reducible apply State.setG_kept
      | with_reducible apply State.setServo_kept | with_reducible apply State.holdover_kept
      | with_reducible apply State.acquire_kept | with_reducible apply State.steer_kept
      | with_reducible apply Kept.cond | split))

theorem execPhaseMeasurement_kept {s0 s : State} (n : Nat) (error : Int) (hs : Kept s0 s) : KeptO s0
    (execPhaseMeasurement n error s) := by
  unfold execPhaseMeasurement
  try dsimp only
  repeat' (first
    | with_reducible assumption | with_reducible intro _ | with_reducible apply State.measure_kept
    | with_reducible apply KeptO.next | with_reducible apply KeptO.fault | with_reducible apply Kept.cond | split)

theorem State.loseReference_kept {s0 s : State} (n : Nat) (hs : Kept s0 s) : Kept s0 (State.loseReference s n) := by
  unfold State.loseReference
  try dsimp only
  repeat' (first
    | with_reducible assumption | with_reducible intro _ | with_reducible apply State.setG_kept
    | with_reducible apply State.setServo_kept | with_reducible apply State.holdover_kept | split
    | (refine Kept.fields rfl rfl rfl rfl rfl ?_; first
      | with_reducible assumption | with_reducible intro _ | with_reducible apply State.setG_kept
      | with_reducible apply State.setServo_kept | with_reducible apply State.holdover_kept | split))

theorem execReferenceLossTimeout_kept {s0 s : State} (n : Nat) (hs : Kept s0 s) : KeptO s0 (execReferenceLossTimeout n
    s) := by
  unfold execReferenceLossTimeout
  try dsimp only
  repeat' (first
    | with_reducible assumption | with_reducible intro _ | with_reducible apply State.loseReference_kept
    | with_reducible apply KeptO.next | with_reducible apply KeptO.fault | with_reducible apply Kept.cond | split)

theorem rearmRule_kept {s0 s : State} (path : Path) (n : Nat) (_u1 : ObjRow) (hs : Kept s0 s) : KeptE s0 (rearmRule
    path n _u1 s) := by
  unfold rearmRule
  try dsimp only
  repeat' (first
    | with_reducible assumption | with_reducible intro _ | with_reducible apply State.setG_kept
    | with_reducible apply State.setServo_kept | with_reducible apply KeptE.ok | with_reducible apply KeptE.error
    | (with_reducible refine KeptE.bindS ?_ (fun _ _ => ?_)) | (with_reducible refine KeptE.bind (fun _ => ?_)))

theorem execServoRearm_kept {s0 s : State} (path : Path) (n : Nat) (hs : Kept s0 s) : KeptO s0 (execServoRearm path n
    s) := by
  unfold execServoRearm
  try dsimp only
  repeat' (first
    | with_reducible assumption | with_reducible intro _ | with_reducible apply State.access_kept
    | with_reducible apply rearmRule_kept
    | (with_reducible refine KeptE.get (rearmRule_kept _ _ _  ?_) (by assumption)) | with_reducible apply KeptO.next
    | with_reducible apply KeptO.fault | with_reducible apply KeptE.ok | with_reducible apply KeptE.error
    | (with_reducible refine KeptE.bindS ?_ (fun _ _ => ?_)) | (with_reducible refine KeptE.bind (fun _ => ?_))
    | with_reducible apply Kept.cond | split)

theorem snapshotRule_kept {s0 s : State} (_u1 : ObjRow) (hs : Kept s0 s) : KeptE s0 (snapshotRule _u1 s) := by
  unfold snapshotRule
  try dsimp only
  repeat' (first
    | with_reducible assumption | with_reducible intro _ | with_reducible apply State.setG_kept
    | with_reducible apply KeptE.ok | with_reducible apply KeptE.error
    | (with_reducible refine KeptE.bindS ?_ (fun _ _ => ?_)) | (with_reducible refine KeptE.bind (fun _ => ?_))
    | split | (with_reducible refine Kept.foldl _ (fun _ _ _ => ?_) _ ?_))

theorem execCrossSnapshot_kept {s0 s : State} (path : Path) (hs : Kept s0 s) : KeptO s0 (execCrossSnapshot path s) := by
  unfold execCrossSnapshot
  try dsimp only
  repeat' (first
    | with_reducible assumption | with_reducible intro _ | with_reducible apply State.access_kept
    | with_reducible apply snapshotRule_kept
    | (with_reducible refine KeptE.get (snapshotRule_kept _  ?_) (by assumption)) | with_reducible apply KeptO.next)

theorem execPpsEdge_kept {s0 s : State} (tb0 tb2 : Nat) (hs : Kept s0 s) : KeptO s0 (execPpsEdge tb0 tb2 s) := by
  unfold execPpsEdge
  try dsimp only
  repeat' (first
    | with_reducible assumption | with_reducible intro _ | with_reducible apply State.setG_kept
    | with_reducible apply State.setServo_kept | with_reducible apply State.measure_kept
    | with_reducible apply KeptO.next | with_reducible apply KeptO.fault | with_reducible apply Kept.cond | split
    | (refine Kept.fields rfl rfl rfl rfl rfl ?_; first
      | with_reducible assumption | with_reducible intro _ | with_reducible apply State.setG_kept
      | with_reducible apply State.setServo_kept | with_reducible apply State.measure_kept
      | with_reducible apply KeptO.next | with_reducible apply KeptO.fault | with_reducible apply Kept.cond | split))

theorem execPtmExchange_kept {s0 s : State} (master roundTrip : Nat) (hs : Kept s0 s) : KeptO s0 (execPtmExchange
    master roundTrip s) := by
  unfold execPtmExchange
  try dsimp only
  repeat' (first
    | with_reducible assumption | with_reducible intro _ | with_reducible apply State.send_kept
    | with_reducible apply State.setServo_kept | with_reducible apply State.measure_kept
    | with_reducible apply KeptO.next | with_reducible apply KeptO.fault | with_reducible apply Kept.cond | split
    | (refine Kept.fields rfl rfl rfl rfl rfl ?_; first
      | with_reducible assumption | with_reducible intro _ | with_reducible apply State.send_kept
      | with_reducible apply State.setServo_kept | with_reducible apply State.measure_kept
      | with_reducible apply KeptO.next | with_reducible apply KeptO.fault | with_reducible apply Kept.cond | split))

theorem State.announce_kept {s0 s : State} (msg : PtpMsg) (hs : Kept s0 s) : Kept s0 (State.announce s msg) := by
  unfold State.announce
  try dsimp only
  repeat' (first
    | with_reducible assumption | with_reducible intro _ | with_reducible apply State.setG_kept
    | with_reducible apply State.setServo_kept | with_reducible apply Kept.cond | split
    | (refine Kept.fields rfl rfl rfl rfl rfl ?_; first
      | with_reducible assumption | with_reducible intro _ | with_reducible apply State.setG_kept
      | with_reducible apply State.setServo_kept | with_reducible apply Kept.cond | split))

theorem execPtpReceive_kept {s0 s : State} (port : Nat) (msg : PtpMsg) (hs : Kept s0 s) : KeptO s0 (execPtpReceive
    port msg s) := by
  unfold execPtpReceive
  try dsimp only
  repeat' (first
    | with_reducible assumption | with_reducible intro _ | with_reducible apply State.addG_kept
    | with_reducible apply State.send_kept | with_reducible apply State.takeFrame_kept
    | with_reducible apply State.setServo_kept | with_reducible apply State.announce_kept
    | with_reducible apply KeptO.next | with_reducible apply KeptO.fault | with_reducible apply Kept.cond | split
    | (refine Kept.fields rfl rfl rfl rfl rfl ?_; first
      | with_reducible assumption | with_reducible intro _ | with_reducible apply State.addG_kept
      | with_reducible apply State.send_kept | with_reducible apply State.takeFrame_kept
      | with_reducible apply State.setServo_kept | with_reducible apply State.announce_kept
      | with_reducible apply KeptO.next | with_reducible apply KeptO.fault | with_reducible apply Kept.cond | split))

theorem State.sendAnnounce_kept {s0 s : State} (port seq : Nat) (hs : Kept s0 s) : Kept s0 (State.sendAnnounce s port
    seq) := by
  unfold State.sendAnnounce
  try dsimp only
  repeat' (first
    | with_reducible assumption | with_reducible intro _ | with_reducible apply State.addG_kept
    | with_reducible apply State.send_kept | with_reducible apply Kept.cond | split)

theorem execSyncTransmit_kept {s0 s : State} (port : Nat) (hs : Kept s0 s) : KeptO s0 (execSyncTransmit port s) := by
  unfold execSyncTransmit
  try dsimp only
  repeat' (first
    | with_reducible assumption | with_reducible intro _ | with_reducible apply State.addG_kept
    | with_reducible apply State.send_kept | with_reducible apply State.sendAnnounce_kept
    | with_reducible apply KeptO.next | with_reducible apply KeptO.fault | with_reducible apply Kept.cond | split
    | (refine Kept.fields rfl rfl rfl rfl rfl ?_; first
      | with_reducible assumption | with_reducible intro _ | with_reducible apply State.addG_kept
      | with_reducible apply State.send_kept | with_reducible apply State.sendAnnounce_kept
      | with_reducible apply KeptO.next | with_reducible apply KeptO.fault | with_reducible apply Kept.cond | split))

theorem execEsmcReceive_kept {s0 s : State} (lane quality : Nat) (hs : Kept s0 s) : KeptO s0 (execEsmcReceive lane
    quality s) := by
  unfold execEsmcReceive
  try dsimp only
  repeat' (first
    | with_reducible assumption | with_reducible intro _ | with_reducible apply State.setG_kept
    | with_reducible apply State.addG_kept | with_reducible apply State.takeFrame_kept
    | with_reducible apply KeptO.next | with_reducible apply KeptO.fault | with_reducible apply Kept.cond | split)

end Sys2Proof.Machine
end

