-- ==== Sys2Proof/Laws/KeptTenancy.lean ====
section
/-!
SUPPORT. The operations of Machine/Stops, Machine/Starts, Machine/Tenancy, Machine/Waits, Machine/CalendarRows,
    Machine/Gddr7, Machine/Ledgers, Machine/EnergyRows keep the queue and the canonical form.
-/

namespace Sys2Proof.Machine

theorem State.upTo_kept {s0 s : State} (n : Nat) (hs : Kept s0 s) : Kept s0 (State.upTo s n).2 := by
  unfold State.upTo
  try dsimp only
  repeat' (first | with_reducible assumption | with_reducible intro _ | with_reducible apply State.fresh_kept | split)

theorem State.force_kept {s0 s : State} (c : Cmd) (k : Cmd → State → Except Refused (State × List Nat)) (hk : ∀ _x0 t,
    Kept s0 t → KeptP s0 (k _x0 t)) (hs : Kept s0 s) : Kept s0 (State.force s c k) := by
  unfold State.force
  split
  · exact hk _ _ hs _ ‹_›
  · exact hs

theorem State.cutFolios_kept {s0 s : State} (c : Cmd) (hs : Kept s0 s) : Kept s0 (State.cutFolios s c) := by
  unfold State.cutFolios
  try dsimp only
  repeat' (first
    | with_reducible assumption | with_reducible intro _ | with_reducible apply State.foliosPart_kept
    | with_reducible apply State.upTo_kept | split
    | (refine Kept.fields rfl rfl rfl rfl rfl ?_; first
      | with_reducible assumption | with_reducible intro _ | with_reducible apply State.foliosPart_kept
      | with_reducible apply State.upTo_kept | split))

theorem State.cutVector_kept {s0 s : State} (c : Cmd) (rows : Bool) (hs : Kept s0 s) : Kept s0 (State.cutVector s c
    rows) := by
  unfold State.cutVector
  try dsimp only
  repeat' (first
    | with_reducible assumption | with_reducible intro _ | with_reducible apply State.vectorPart_kept
    | with_reducible apply State.upTo_kept | with_reducible apply Kept.cond | split
    | (refine Kept.fields rfl rfl rfl rfl rfl ?_; first
      | with_reducible assumption | with_reducible intro _ | with_reducible apply State.vectorPart_kept
      | with_reducible apply State.upTo_kept | with_reducible apply Kept.cond | split))

/-- The effects that a stopped command's pieces come from. -/
theorem pieceEffect_kept {s : State} {c : Cmd} {k : Cmd → State → Except Refused (State × List Nat)}
    (h : (c.piecewise).or (s.chanMove c) = some k) {s0 : State} (d : Cmd) (t : State) (ht : Kept s0 t) :
    KeptP s0 (k d t) := by
  rcases Option.or_eq_some_iff.mp h with h | ⟨-, h⟩
  · unfold Cmd.piecewise at h
    split at h
    · cases h
    · split at h
      · cases h
        split
        · exact transposeEffect_kept d ht
        · exact copyEffect_kept d ht
      · split at h
        · cases h; exact radioPumpEffect_kept 18 d ht
        · cases h
  · unfold State.chanMove at h
    split at h
    · split at h
      · cases h; exact fillEffect_kept d ht
      · split at h
        · cases h; exact drainEffect_kept d ht
        · cases h
    · cases h

theorem State.finishCut_kept {s0 s : State} (c : Cmd) (hard : Bool) (hs : Kept s0 s) : Kept s0 (State.finishCut s c
    hard) := by
  unfold State.finishCut
  split
  · split
    · exact State.cutPieces_kept _ _ (State.force_kept _ _ (pieceEffect_kept ‹_›) hs)
    · exact Kept.cond (State.cutPieces_kept _ _ hs) hs
  · refine Kept.cond hs (Kept.cond (State.cutFolios_kept _ hs) (Kept.cond (State.cutVector_kept _ _ hs) ?_))
    exact Kept.cond (State.force_kept _ _ (fun d t ht => kvEffect_kept d ht) hs) hs

theorem State.giveCores_kept {s0 s : State} (f : Nat) (xs : List Nat) (hs : Kept s0 s) : KeptS s0 (State.giveCores s f
    xs) := by
  induction xs generalizing s f with
  | nil =>
    unfold State.giveCores
    try dsimp only
    repeat' (first
      | with_reducible assumption | with_reducible intro _ | with_reducible apply ih
      | with_reducible apply State.giveCore_kept | with_reducible apply KeptS.some) | cons e es ih =>
    unfold State.giveCores
    try dsimp only
    repeat' (first
      | with_reducible assumption | with_reducible intro _ | with_reducible apply ih
      | with_reducible apply State.giveCore_kept | with_reducible apply KeptS.some | with_reducible apply KeptS.none
      | with_reducible apply Kept.cond | split)

theorem State.startOn_kept {s0 s : State} (c : Cmd) (id : Nat) (hs : Kept s0 s) : Kept s0 (State.startOn s c id) := by
  unfold State.startOn
  try dsimp only
  repeat' (first
    | with_reducible assumption | with_reducible intro _ | with_reducible apply State.modEngine_kept
    | with_reducible apply State.modCmd_kept | with_reducible apply State.takeThread_kept
    | with_reducible apply Kept.cond | split | (with_reducible refine Kept.foldl _ (fun _ _ _ => ?_) _ ?_)
    | (refine Kept.fields rfl rfl rfl rfl rfl ?_; first
      | with_reducible assumption | with_reducible intro _ | with_reducible apply State.modEngine_kept
      | with_reducible apply State.modCmd_kept | with_reducible apply State.takeThread_kept
      | with_reducible apply Kept.cond | split | (with_reducible refine Kept.foldl _ (fun _ _ _ => ?_) _ ?_)))

theorem State.refuseStart_kept {s0 s : State} (c : Cmd) (id : Nat) (e : Refused) (hs : Kept s0 s) : Kept s0
    (State.refuseStart s c id e) := by
  unfold State.refuseStart
  try dsimp only
  repeat' (first
    | with_reducible assumption | with_reducible intro _ | with_reducible apply State.conclude_kept
    | with_reducible apply State.noteBad_kept
    | (refine Kept.fields rfl rfl rfl rfl rfl ?_; first
      | with_reducible assumption | with_reducible intro _ | with_reducible apply State.conclude_kept
      | with_reducible apply State.noteBad_kept | split))

theorem State.checkHeads_kept {s0 s : State}  (xs : List Cmd) (hs : Kept s0 s) : Kept s0 (State.checkHeads s xs) := by
  induction xs generalizing s  with
  | nil =>
    unfold State.checkHeads
    try dsimp only
    repeat' (first
      | with_reducible assumption | with_reducible intro _ | with_reducible apply ih
      | with_reducible apply State.refuseStart_kept | with_reducible apply Kept.cond | split)
  | cons e es ih =>
    unfold State.checkHeads
    try dsimp only
    repeat' (first
      | with_reducible assumption | with_reducible intro _ | with_reducible apply ih
      | with_reducible apply State.refuseStart_kept | with_reducible apply Kept.cond | split)

theorem State.passOver_kept {s0 s : State} (c : Cmd) (hs : Kept s0 s) : Kept s0 (State.passOver s c) := by
  unfold State.passOver
  try dsimp only
  repeat' (first
    | with_reducible assumption | with_reducible intro _ | with_reducible apply State.addO_kept
    | with_reducible apply State.modCmd_kept | with_reducible apply Kept.cond
    | (refine Kept.fields rfl rfl rfl rfl rfl ?_; first
      | with_reducible assumption | with_reducible intro _ | with_reducible apply State.addO_kept
      | with_reducible apply State.modCmd_kept | with_reducible apply Kept.cond | split))

theorem State.served_kept {s0 s : State} (id f : Nat) (hs : Kept s0 s) : Kept s0 (State.served s id f) := by
  unfold State.served
  try dsimp only
  repeat' (first
    | with_reducible assumption | with_reducible intro _ | with_reducible apply State.modEngine_kept
    | (refine Kept.fields rfl rfl rfl rfl rfl ?_; first
      | with_reducible assumption | with_reducible intro _ | with_reducible apply State.modEngine_kept | split))

theorem State.debitIdle_kept {s0 s : State} (f : Nat) (xs : List Nat) (hs : Kept s0 s) : Kept s0 (State.debitIdle s f
    xs) := by
  induction xs generalizing s f with
  | nil =>
    unfold State.debitIdle
    try dsimp only
    repeat' (first | with_reducible assumption) | cons e es ih =>
    unfold State.debitIdle
    try dsimp only
    repeat' (first
      | with_reducible assumption | with_reducible intro _ | with_reducible apply ih
      | with_reducible apply State.debit_kept | with_reducible apply Kept.cond)

theorem State.noteDemand_kept {s0 s : State} (f id : Nat) (hs : Kept s0 s) : Kept s0 (State.noteDemand s f id) := by
  unfold State.noteDemand
  try dsimp only
  repeat' (first
    | with_reducible assumption | with_reducible intro _ | with_reducible apply Kept.cond | split
    | (refine Kept.fields rfl rfl rfl rfl rfl ?_; first
      | with_reducible assumption))

theorem State.offerOne_kept {s0 s : State} (id : Nat) (c : Cmd) (hs : Kept s0 s) : Kept s0 (State.offerOne s id c).1 := by
  unfold State.offerOne
  try dsimp only
  repeat' (first
    | with_reducible assumption | with_reducible intro _ | with_reducible apply State.payFill_kept
    | with_reducible apply State.giveCores_kept | with_reducible apply State.startOn_kept
    | with_reducible apply State.refuseStart_kept | with_reducible apply State.passOver_kept
    | with_reducible apply State.served_kept | with_reducible apply State.debitIdle_kept
    | with_reducible apply State.noteDemand_kept
    | (with_reducible refine KeptS.get (State.giveCores_kept _ _  ?_) (by assumption))
    | with_reducible apply Kept.cond | split
    | (refine Kept.fields rfl rfl rfl rfl rfl ?_; first
      | with_reducible assumption | with_reducible intro _ | with_reducible apply State.payFill_kept
      | with_reducible apply State.giveCores_kept | with_reducible apply State.startOn_kept
      | with_reducible apply State.refuseStart_kept | with_reducible apply State.passOver_kept
      | with_reducible apply State.served_kept | with_reducible apply State.debitIdle_kept
      | with_reducible apply State.noteDemand_kept
      | (with_reducible refine KeptS.get (State.giveCores_kept _ _  ?_) (by assumption))
      | with_reducible apply Kept.cond | split))

theorem State.offerAll_kept {s0 s : State} (id : Nat) (xs : List Cmd) (hs : Kept s0 s) : Kept s0 (State.offerAll s id
    xs) := by
  induction xs generalizing s id with
  | nil =>
    unfold State.offerAll
    try dsimp only
    repeat' (first | with_reducible assumption) | cons e es ih =>
    unfold State.offerAll
    try dsimp only
    repeat' (first
      | with_reducible assumption | with_reducible intro _ | with_reducible apply ih
      | with_reducible apply State.offerOne_kept | with_reducible apply Kept.cond)

theorem State.homeStep_kept {s0 s : State} (h : HomeStep) (hs : Kept s0 s) : Kept s0 (State.homeStep s h) := by
  unfold State.homeStep
  try dsimp only
  repeat' (first
    | with_reducible assumption | with_reducible intro _ | with_reducible apply State.debit_kept
    | with_reducible apply State.emit_kept | with_reducible apply State.served_kept
    | with_reducible apply State.noteDemand_kept | split
    | (refine Kept.fields rfl rfl rfl rfl rfl ?_; first
      | with_reducible assumption | with_reducible intro _ | with_reducible apply State.debit_kept
      | with_reducible apply State.emit_kept | with_reducible apply State.served_kept
      | with_reducible apply State.noteDemand_kept | split))

theorem execFabricStepIssue_kept {s0 s : State} (id : Nat) (hs : Kept s0 s) : KeptO s0 (execFabricStepIssue id s) := by
  unfold execFabricStepIssue
  try dsimp only
  repeat' (first
    | with_reducible assumption | with_reducible intro _ | with_reducible apply State.recordStep_kept
    | with_reducible apply State.homeStep_kept | with_reducible apply KeptO.next | with_reducible apply KeptO.fault
    | with_reducible apply Kept.cond | split
    | (refine Kept.fields rfl rfl rfl rfl rfl ?_; first
      | with_reducible assumption | with_reducible intro _ | with_reducible apply State.recordStep_kept
      | with_reducible apply State.homeStep_kept | with_reducible apply KeptO.next | with_reducible apply KeptO.fault
      | with_reducible apply Kept.cond | split))

theorem execEngineOffer_kept {s0 s : State} (id : Nat) (hs : Kept s0 s) : KeptO s0 (execEngineOffer id s) := by
  unfold execEngineOffer
  try dsimp only
  repeat' (first
    | with_reducible assumption | with_reducible intro _ | with_reducible apply State.checkHeads_kept
    | with_reducible apply State.offerAll_kept | with_reducible apply KeptO.next | with_reducible apply KeptO.fault
    | with_reducible apply Kept.cond | split)

theorem State.meter_kept {s0 s : State} (c : Cmd) (id : Nat) (hs : Kept s0 s) : Kept s0 (State.meter s c id) := by
  unfold State.meter
  try dsimp only
  repeat' (first
    | with_reducible assumption | with_reducible intro _ | with_reducible apply State.modCmd_kept
    | with_reducible apply Kept.cond | split
    | (refine Kept.fields rfl rfl rfl rfl rfl ?_; first
      | with_reducible assumption))

theorem State.startReserved_kept {s0 s : State} (c : Cmd) (fits : Bool) (begin' : State → Option State) (hbegin' : ∀
    t, Kept s0 t → KeptS s0 (begin' t)) (hs : Kept s0 s) : Kept s0 (State.startReserved s c fits begin') := by
  unfold State.startReserved
  try dsimp only
  repeat' (first
    | with_reducible assumption | with_reducible intro _ | with_reducible apply State.payStart_kept
    | with_reducible apply State.startOn_kept | with_reducible apply State.refuseStart_kept
    | with_reducible apply hbegin' | (with_reducible refine KeptS.get (hbegin' _  ?_) (by assumption))
    | with_reducible apply Kept.cond | split
    | (refine Kept.fields rfl rfl rfl rfl rfl ?_; first
      | with_reducible assumption | with_reducible intro _ | with_reducible apply State.payStart_kept
      | with_reducible apply State.startOn_kept | with_reducible apply State.refuseStart_kept
      | with_reducible apply hbegin' | (with_reducible refine KeptS.get (hbegin' _  ?_) (by assumption))
      | with_reducible apply Kept.cond | split))

theorem execRadioCommandStart_kept {s0 s : State} (cid : Nat) (hs : Kept s0 s) : KeptO s0 (execRadioCommandStart cid
    s) := by
  unfold execRadioCommandStart
  try dsimp only
  repeat' (first
    | with_reducible assumption | with_reducible intro _ | with_reducible apply State.refuseStart_kept
    | with_reducible apply State.meter_kept | with_reducible apply State.startReserved_kept
    | with_reducible apply KeptO.next | with_reducible apply KeptO.fault | with_reducible apply KeptS.some
    | with_reducible apply KeptS.none | with_reducible apply Kept.cond | split
    | (refine Kept.fields rfl rfl rfl rfl rfl ?_; first
      | with_reducible assumption | with_reducible intro _ | with_reducible apply State.refuseStart_kept
      | with_reducible apply State.meter_kept | with_reducible apply State.startReserved_kept
      | with_reducible apply KeptO.next | with_reducible apply KeptO.fault | with_reducible apply KeptS.some
      | with_reducible apply KeptS.none | with_reducible apply Kept.cond | split))

theorem execExactCommandStart_kept {s0 s : State} (cid : Nat) (hs : Kept s0 s) : KeptO s0 (execExactCommandStart cid
    s) := by
  unfold execExactCommandStart
  try dsimp only
  repeat' (first
    | with_reducible assumption | with_reducible intro _ | with_reducible apply State.giveCores_kept
    | with_reducible apply State.startReserved_kept
    | (with_reducible refine KeptS.get (State.giveCores_kept _ _  ?_) (by assumption))
    | with_reducible apply KeptO.next | with_reducible apply KeptO.fault | with_reducible apply KeptS.some
    | with_reducible apply KeptS.none | with_reducible apply Kept.cond | split
    | (refine Kept.fields rfl rfl rfl rfl rfl ?_; first
      | with_reducible assumption | with_reducible intro _ | with_reducible apply State.giveCores_kept
      | with_reducible apply State.startReserved_kept
      | (with_reducible refine KeptS.get (State.giveCores_kept _ _  ?_) (by assumption))
      | with_reducible apply KeptO.next | with_reducible apply KeptO.fault | with_reducible apply KeptS.some
      | with_reducible apply KeptS.none | with_reducible apply Kept.cond | split))

theorem State.freeEngines_kept {s0 s : State} (c : Cmd) (hs : Kept s0 s) : Kept s0 (State.freeEngines s c) := by
  unfold State.freeEngines
  try dsimp only
  repeat' (first
    | with_reducible assumption | with_reducible intro _ | with_reducible apply State.modEngine_kept
    | with_reducible apply Kept.cond | split | (with_reducible refine Kept.foldl _ (fun _ _ _ => ?_) _ ?_)
    | (refine Kept.fields rfl rfl rfl rfl rfl ?_; first
      | with_reducible assumption | with_reducible intro _ | with_reducible apply State.modEngine_kept
      | with_reducible apply Kept.cond | split | (with_reducible refine Kept.foldl _ (fun _ _ _ => ?_) _ ?_)))

theorem State.debitHeld_kept {s0 s : State} (c : Cmd) (hs : Kept s0 s) : Kept s0 (State.debitHeld s c) := by
  unfold State.debitHeld
  try dsimp only
  repeat' (first
    | with_reducible assumption | with_reducible intro _ | with_reducible apply State.debit_kept
    | with_reducible apply Kept.cond | split | (with_reducible refine Kept.foldl _ (fun _ _ _ => ?_) _ ?_))

theorem State.zeroArrays_kept {s0 s : State} (c : Cmd) (hs : Kept s0 s) : Kept s0 (State.zeroArrays s c) := by
  unfold State.zeroArrays
  try dsimp only
  repeat' (first
    | with_reducible assumption | with_reducible intro _ | with_reducible apply State.modCore_kept
    | with_reducible apply Kept.cond | split | (with_reducible refine Kept.foldl _ (fun _ _ _ => ?_) _ ?_)
    | (refine Kept.fields rfl rfl rfl rfl rfl ?_; first
      | with_reducible assumption | with_reducible intro _ | with_reducible apply State.modCore_kept
      | with_reducible apply Kept.cond | split | (with_reducible refine Kept.foldl _ (fun _ _ _ => ?_) _ ?_)))

theorem State.releaseEarly_kept {s0 s : State} (c : Cmd) (hs : Kept s0 s) : Kept s0 (State.releaseEarly s c) := by
  unfold State.releaseEarly
  try dsimp only
  repeat' (first
    | with_reducible assumption | with_reducible intro _ | with_reducible apply Kept.cond | split
    | (with_reducible refine Kept.foldl _ (fun _ _ _ => ?_) _ ?_)
    | (refine Kept.fields rfl rfl rfl rfl rfl ?_; first
      | with_reducible assumption))

theorem State.sendRetires_kept {s0 s : State} (f : Nat) (xs : List Endpoint) (hs : Kept s0 s) : Kept s0
    (State.sendRetires s f xs) := by
  induction xs generalizing s f with
  | nil =>
    unfold State.sendRetires
    try dsimp only
    repeat' (first | with_reducible assumption) | cons e es ih =>
    unfold State.sendRetires
    try dsimp only
    repeat' (first
      | with_reducible assumption | with_reducible intro _ | with_reducible apply ih
      | with_reducible apply State.emit_kept)

theorem State.returnOwned_kept {s0 s : State} (f : Nat) (xs : List (Nat × Nat)) (hs : Kept s0 s) : Kept s0
    (State.returnOwned s f xs) := by
  induction xs generalizing s f with
  | nil =>
    unfold State.returnOwned
    try dsimp only
    repeat' (first
      | with_reducible assumption
      | (refine Kept.fields rfl rfl rfl rfl rfl ?_; first
        | with_reducible assumption | with_reducible intro _ | with_reducible apply ih
        | with_reducible apply State.request_kept | split)) | cons e es ih =>
    unfold State.returnOwned
    try dsimp only
    repeat' (first
      | with_reducible assumption | with_reducible intro _ | with_reducible apply ih
      | with_reducible apply State.request_kept | split
      | (refine Kept.fields rfl rfl rfl rfl rfl ?_; first
        | with_reducible assumption))

theorem State.afterStops_kept {s0 s : State} (f : Nat) (hs : Kept s0 s) : Kept s0 (State.afterStops s f) := by
  unfold State.afterStops
  try dsimp only
  repeat' (first
    | with_reducible assumption | with_reducible intro _ | with_reducible apply State.modFn_kept
    | with_reducible apply State.sendRetires_kept | with_reducible apply State.returnOwned_kept
    | with_reducible apply Kept.cond | split
    | (refine Kept.fields rfl rfl rfl rfl rfl ?_; first
      | with_reducible assumption))

theorem State.countMove_kept {s0 s : State} (c : Cmd) (hs : Kept s0 s) : Kept s0 (State.countMove s c) := by
  unfold State.countMove
  try dsimp only
  repeat' (first
    | with_reducible assumption | with_reducible intro _ | with_reducible apply State.ccCount_kept
    | with_reducible apply Kept.cond | split)

theorem State.settleCut_kept {s0 s : State} (c : Cmd) (hs : Kept s0 s) : Kept s0 (State.settleCut s c) := by
  unfold State.settleCut
  try dsimp only
  repeat' (first
    | with_reducible assumption | with_reducible intro _ | with_reducible apply State.finishCut_kept
    | with_reducible apply State.zeroArrays_kept | with_reducible apply Kept.cond | split)

theorem State.endCommand_kept {s0 s : State} (c : Cmd) (hs : Kept s0 s) : Kept s0 (State.endCommand s c) := by
  unfold State.endCommand
  try dsimp only
  repeat' (first
    | with_reducible assumption | with_reducible intro _ | with_reducible apply State.modCmd_kept
    | with_reducible apply State.dropCmd_kept | with_reducible apply State.settle_kept
    | with_reducible apply State.ccStop_kept | with_reducible apply State.freeEngines_kept
    | with_reducible apply State.debitHeld_kept | with_reducible apply State.afterStops_kept
    | with_reducible apply State.countMove_kept | with_reducible apply State.settleCut_kept
    | with_reducible apply Kept.cond | split
    | (refine Kept.fields rfl rfl rfl rfl rfl ?_; first
      | with_reducible assumption | with_reducible intro _ | with_reducible apply State.modCmd_kept
      | with_reducible apply State.dropCmd_kept | with_reducible apply State.settle_kept
      | with_reducible apply State.ccStop_kept | with_reducible apply State.freeEngines_kept
      | with_reducible apply State.debitHeld_kept | with_reducible apply State.afterStops_kept
      | with_reducible apply State.countMove_kept | with_reducible apply State.settleCut_kept
      | with_reducible apply Kept.cond | split))

theorem execCommandEnd_kept {s0 s : State} (cid : Nat) (hs : Kept s0 s) : KeptO s0 (execCommandEnd cid s) := by
  unfold execCommandEnd
  try dsimp only
  repeat' (first
    | with_reducible assumption | with_reducible intro _ | with_reducible apply State.did_kept
    | with_reducible apply State.releaseEarly_kept | with_reducible apply State.endCommand_kept
    | with_reducible apply KeptO.next | with_reducible apply KeptO.fault | with_reducible apply Kept.cond | split
    | (refine Kept.fields rfl rfl rfl rfl rfl ?_; first
      | with_reducible assumption | with_reducible intro _ | with_reducible apply State.did_kept
      | with_reducible apply State.releaseEarly_kept | with_reducible apply State.endCommand_kept
      | with_reducible apply KeptO.next | with_reducible apply KeptO.fault | with_reducible apply Kept.cond | split))

theorem State.overrun_kept {s0 s : State} (c : Cmd) (hs : Kept s0 s) : Kept s0 (State.overrun s c) := by
  unfold State.overrun
  try dsimp only
  repeat' (first
    | with_reducible assumption | with_reducible intro _ | with_reducible apply ih
    | with_reducible apply State.finish_kept | with_reducible apply State.settle_kept
    | with_reducible apply State.finishCut_kept | with_reducible apply State.freeEngines_kept
    | with_reducible apply State.debitHeld_kept | with_reducible apply State.zeroArrays_kept | split)

theorem execGutterStart_kept {s0 s : State} (id : Nat) (hs : Kept s0 s) : KeptO s0 (execGutterStart id s) := by
  unfold execGutterStart
  try dsimp only
  repeat' (first
    | with_reducible assumption | with_reducible intro _ | with_reducible apply State.endHold_kept
    | with_reducible apply State.overrun_kept | with_reducible apply KeptO.next | with_reducible apply KeptO.fault
    | with_reducible apply Kept.cond | split
    | (refine Kept.fields rfl rfl rfl rfl rfl ?_; first
      | with_reducible assumption | with_reducible intro _ | with_reducible apply State.endHold_kept
      | with_reducible apply State.overrun_kept | with_reducible apply KeptO.next | with_reducible apply KeptO.fault
      | with_reducible apply Kept.cond | split))

theorem State.endLate_kept {s0 s : State}  (xs : List Nat) (hs : Kept s0 s) : Kept s0 (State.endLate s xs) := by
  induction xs generalizing s  with
  | nil =>
    unfold State.endLate
    try dsimp only
    repeat' (first
      | with_reducible assumption
      | (refine Kept.fields rfl rfl rfl rfl rfl ?_; first
        | with_reducible assumption | with_reducible intro _ | with_reducible apply ih
        | with_reducible apply State.settle_kept | with_reducible apply State.endCommand_kept
        | with_reducible apply Kept.cond | split)) | cons e es ih =>
    unfold State.endLate
    try dsimp only
    repeat' (first
      | with_reducible assumption | with_reducible intro _ | with_reducible apply ih
      | with_reducible apply State.settle_kept | with_reducible apply State.endCommand_kept
      | with_reducible apply Kept.cond | split
      | (refine Kept.fields rfl rfl rfl rfl rfl ?_; first
        | with_reducible assumption | with_reducible intro _ | with_reducible apply ih
        | with_reducible apply State.settle_kept | with_reducible apply State.endCommand_kept
        | with_reducible apply Kept.cond | split))

theorem execRadioIntervalEnd_kept {s0 s : State} (id : Nat) (hs : Kept s0 s) : KeptO s0 (execRadioIntervalEnd id s) := by
  unfold execRadioIntervalEnd
  try dsimp only
  repeat' (first
    | with_reducible assumption | with_reducible intro _ | with_reducible apply State.lateness_kept
    | with_reducible apply State.endLate_kept | with_reducible apply KeptO.next | with_reducible apply KeptO.fault
    | with_reducible apply Kept.cond | split
    | (refine Kept.fields rfl rfl rfl rfl rfl ?_; first
      | with_reducible assumption | with_reducible intro _ | with_reducible apply State.lateness_kept
      | with_reducible apply State.endLate_kept | with_reducible apply KeptO.next | with_reducible apply KeptO.fault
      | with_reducible apply Kept.cond | split))

theorem execLatenessReport_kept {s0 s : State} (id cause : Nat) (cids : List Nat) (hs : Kept s0 s) : KeptO s0
    (execLatenessReport id cause cids s) := by
  unfold execLatenessReport
  try dsimp only
  repeat' (first
    | with_reducible assumption | with_reducible intro _ | with_reducible apply State.lateness_kept
    | with_reducible apply State.endLate_kept | with_reducible apply KeptO.next | with_reducible apply KeptO.fault
    | with_reducible apply Kept.cond | split)

theorem execPreludeStart_kept {s0 s : State} (id : Nat) (hs : Kept s0 s) : KeptO s0 (execPreludeStart id s) := by
  unfold execPreludeStart
  try dsimp only
  repeat' (first
    | with_reducible assumption | with_reducible intro _ | with_reducible apply State.modEngine_kept
    | with_reducible apply State.lateness_kept | with_reducible apply State.endLate_kept
    | with_reducible apply KeptO.next | with_reducible apply KeptO.fault | with_reducible apply Kept.cond | split
    | (refine Kept.fields rfl rfl rfl rfl rfl ?_; first
      | with_reducible assumption | with_reducible intro _ | with_reducible apply State.modEngine_kept
      | with_reducible apply State.lateness_kept | with_reducible apply State.endLate_kept
      | with_reducible apply KeptO.next | with_reducible apply KeptO.fault | with_reducible apply Kept.cond | split))

theorem State.payMove_kept {s0 s : State} (c : Nat) (hs : Kept s0 s) : Kept s0 (State.payMove s c) := by
  unfold State.payMove
  try dsimp only
  repeat' (first
    | with_reducible assumption | with_reducible intro _ | split
    | (refine Kept.fields rfl rfl rfl rfl rfl ?_; first
      | with_reducible assumption))

theorem State.grantCore_kept {s0 s : State} (f c : Nat) (hs : Kept s0 s) : Kept s0 (State.grantCore s f c) := by
  unfold State.grantCore
  try dsimp only
  repeat' (first
    | with_reducible assumption | with_reducible intro _ | with_reducible apply State.modCore_kept
    | with_reducible apply State.zeroCore_kept | with_reducible apply State.setHolder_kept
    | with_reducible apply State.giveCore_kept | with_reducible apply State.payMove_kept
    | with_reducible apply Kept.cond
    | (refine Kept.fields rfl rfl rfl rfl rfl ?_; first
      | with_reducible assumption | with_reducible intro _ | with_reducible apply State.modCore_kept
      | with_reducible apply State.zeroCore_kept | with_reducible apply State.setHolder_kept
      | with_reducible apply State.giveCore_kept | with_reducible apply State.payMove_kept
      | with_reducible apply Kept.cond | split))

theorem State.choose_kept {s0 s : State} (c heir : Nat) (hs : Kept s0 s) : Kept s0 (State.choose s c heir) := by
  unfold State.choose
  try dsimp only
  repeat' (first
    | with_reducible assumption | with_reducible intro _ | with_reducible apply State.addG_kept
    | with_reducible apply State.modCore_kept | with_reducible apply Kept.cond
    | (refine Kept.fields rfl rfl rfl rfl rfl ?_; first
      | with_reducible assumption | with_reducible intro _ | with_reducible apply State.addG_kept
      | with_reducible apply State.modCore_kept | with_reducible apply Kept.cond | split))

theorem State.turnOut_kept {s0 s : State} (c heir : Nat) (hs : Kept s0 s) : Kept s0 (State.turnOut s c heir) := by
  unfold State.turnOut
  try dsimp only
  repeat' (first
    | with_reducible assumption | with_reducible intro _ | with_reducible apply State.addG_kept
    | with_reducible apply State.modCore_kept | split
    | (refine Kept.fields rfl rfl rfl rfl rfl ?_; first
      | with_reducible assumption | with_reducible intro _ | with_reducible apply State.addG_kept
      | with_reducible apply State.modCore_kept | split))

theorem State.dropSaved_kept {s0 s : State} (f c : Nat) (hs : Kept s0 s) : Kept s0 (State.dropSaved s f c) := by
  unfold State.dropSaved
  try dsimp only
  repeat' (first
    | with_reducible assumption | with_reducible intro _ | with_reducible apply State.setO_kept
    | with_reducible apply State.addG_kept | with_reducible apply State.modCore_kept | with_reducible apply Kept.cond
    | (refine Kept.fields rfl rfl rfl rfl rfl ?_; first
      | with_reducible assumption | with_reducible intro _ | with_reducible apply State.setO_kept
      | with_reducible apply State.addG_kept | with_reducible apply State.modCore_kept
      | with_reducible apply Kept.cond | split))

theorem State.placeThread_kept {s0 s : State} (ctx : Nat) (hs : Kept s0 s) : Kept s0 (State.placeThread s ctx) := by
  unfold State.placeThread
  try dsimp only
  repeat' (first
    | with_reducible assumption | with_reducible intro _ | with_reducible apply State.modCtx_kept
    | with_reducible apply State.modCore_kept | split
    | (refine Kept.fields rfl rfl rfl rfl rfl ?_; first
      | with_reducible assumption | with_reducible intro _ | with_reducible apply State.modCtx_kept
      | with_reducible apply State.modCore_kept | split))

theorem execCoreAcquire_kept {s0 s : State} (cid : Nat) (hs : Kept s0 s) : KeptO s0 (execCoreAcquire cid s) := by
  unfold execCoreAcquire
  try dsimp only
  repeat' (first
    | with_reducible assumption | with_reducible intro _ | with_reducible apply State.grantCore_kept
    | with_reducible apply State.placeThread_kept | with_reducible apply KeptO.next | with_reducible apply KeptO.fault
    | with_reducible apply Kept.cond | split
    | (refine Kept.fields rfl rfl rfl rfl rfl ?_; first
      | with_reducible assumption | with_reducible intro _ | with_reducible apply State.grantCore_kept
      | with_reducible apply State.placeThread_kept | with_reducible apply KeptO.next
      | with_reducible apply KeptO.fault | with_reducible apply Kept.cond | split))

theorem State.vacate_kept {s0 s : State} (c : Nat) (hs : Kept s0 s) : Kept s0 (State.vacate s c) := by
  unfold State.vacate
  try dsimp only
  repeat' (first
    | with_reducible assumption | with_reducible intro _ | with_reducible apply State.modCore_kept
    | with_reducible apply State.zeroCore_kept | with_reducible apply State.setHolder_kept
    | (refine Kept.fields rfl rfl rfl rfl rfl ?_; first
      | with_reducible assumption | with_reducible intro _ | with_reducible apply State.modCore_kept
      | with_reducible apply State.zeroCore_kept | with_reducible apply State.setHolder_kept | split))

theorem releaseRule_kept {s0 s : State} (f core : Nat) (_u1 : ObjRow) (hs : Kept s0 s) : KeptE s0 (releaseRule f core
    _u1 s) := by
  unfold releaseRule
  try dsimp only
  repeat' (first
    | with_reducible assumption | with_reducible intro _ | with_reducible apply State.dropSaved_kept
    | with_reducible apply State.vacate_kept | with_reducible apply KeptE.ok | with_reducible apply KeptE.error
    | (with_reducible refine KeptE.bindS ?_ (fun _ _ => ?_)) | (with_reducible refine KeptE.bind (fun _ => ?_))
    | with_reducible apply Kept.cond | split)

theorem execCoreRelease_kept {s0 s : State} (path : Path) (f core : Nat) (hs : Kept s0 s) : KeptO s0 (execCoreRelease
    path f core s) := by
  unfold execCoreRelease
  try dsimp only
  repeat' (first
    | with_reducible assumption | with_reducible intro _ | with_reducible apply State.access_kept
    | with_reducible apply releaseRule_kept
    | (with_reducible refine KeptE.get (releaseRule_kept _ _ _  ?_) (by assumption))
    | with_reducible apply KeptO.next)

theorem preemptRule_kept {s0 s : State} (f : Nat) (_u1 : ObjRow) (hs : Kept s0 s) : KeptE s0 (preemptRule f _u1 s) := by
  unfold preemptRule
  try dsimp only
  repeat' (first
    | with_reducible assumption | with_reducible intro _ | with_reducible apply State.choose_kept
    | with_reducible apply KeptE.ok | with_reducible apply KeptE.error
    | (with_reducible refine KeptE.bindS ?_ (fun _ _ => ?_)) | (with_reducible refine KeptE.bind (fun _ => ?_))
    | split | (with_reducible refine Kept.foldl _ (fun _ _ _ => ?_) _ ?_))

theorem execPreemptRequest_kept {s0 s : State} (path : Path) (f : Nat) (hs : Kept s0 s) : KeptO s0 (execPreemptRequest
    path f s) := by
  unfold execPreemptRequest
  try dsimp only
  repeat' (first
    | with_reducible assumption | with_reducible intro _ | with_reducible apply State.access_kept
    | with_reducible apply preemptRule_kept
    | (with_reducible refine KeptE.get (preemptRule_kept _ _  ?_) (by assumption)) | with_reducible apply KeptO.next)

theorem execClaimPreemption_kept {s0 s : State} (core : Nat) (hs : Kept s0 s) : KeptO s0 (execClaimPreemption core s) := by
  unfold execClaimPreemption
  try dsimp only
  repeat' (first
    | with_reducible assumption | with_reducible intro _ | with_reducible apply State.choose_kept
    | with_reducible apply KeptO.next | with_reducible apply KeptO.fault | with_reducible apply Kept.cond | split
    | (refine Kept.fields rfl rfl rfl rfl rfl ?_; first
      | with_reducible assumption | with_reducible intro _ | with_reducible apply State.choose_kept
      | with_reducible apply KeptO.next | with_reducible apply KeptO.fault | with_reducible apply Kept.cond | split))

theorem State.reachBoundary_kept {s0 s : State} (c : Cmd) (hs : Kept s0 s) : Kept s0 (State.reachBoundary s c) := by
  unfold State.reachBoundary
  try dsimp only
  repeat' (first
    | with_reducible assumption | with_reducible intro _ | with_reducible apply State.modCmd_kept
    | with_reducible apply State.did_kept | with_reducible apply State.unissue_kept
    | with_reducible apply State.foliosPart_kept | with_reducible apply State.vectorPart_kept
    | with_reducible apply State.upTo_kept | with_reducible apply Kept.cond | split
    | (refine Kept.fields rfl rfl rfl rfl rfl ?_; first
      | with_reducible assumption | with_reducible intro _ | with_reducible apply State.modCmd_kept
      | with_reducible apply State.did_kept | with_reducible apply State.unissue_kept
      | with_reducible apply State.foliosPart_kept | with_reducible apply State.vectorPart_kept
      | with_reducible apply State.upTo_kept | with_reducible apply Kept.cond | split))

theorem State.requeue_kept {s0 s : State}  (xs : List Cmd) (hs : Kept s0 s) : Kept s0 (State.requeue s xs) := by
  induction xs generalizing s  with
  | nil =>
    unfold State.requeue
    try dsimp only
    repeat' (first
      | with_reducible assumption | with_reducible intro _ | with_reducible apply ih
      | with_reducible apply State.modCmd_kept | with_reducible apply State.freeEngines_kept
      | with_reducible apply State.debitHeld_kept | with_reducible apply State.reachBoundary_kept | split
      | (refine Kept.fields rfl rfl rfl rfl rfl ?_; first
        | with_reducible assumption | with_reducible intro _ | with_reducible apply ih
        | with_reducible apply State.modCmd_kept | with_reducible apply State.freeEngines_kept
        | with_reducible apply State.debitHeld_kept | with_reducible apply State.reachBoundary_kept | split))
  | cons e es ih =>
    unfold State.requeue
    try dsimp only
    repeat' (first
      | with_reducible assumption | with_reducible intro _ | with_reducible apply ih
      | with_reducible apply State.modCmd_kept | with_reducible apply State.freeEngines_kept
      | with_reducible apply State.debitHeld_kept | with_reducible apply State.reachBoundary_kept | split
      | (refine Kept.fields rfl rfl rfl rfl rfl ?_; first
        | with_reducible assumption | with_reducible intro _ | with_reducible apply ih
        | with_reducible apply State.modCmd_kept | with_reducible apply State.freeEngines_kept
        | with_reducible apply State.debitHeld_kept | with_reducible apply State.reachBoundary_kept | split))

theorem execSaveStart_kept {s0 s : State} (core : Nat) (hs : Kept s0 s) : KeptO s0 (execSaveStart core s) := by
  unfold execSaveStart
  try dsimp only
  repeat' (first
    | with_reducible assumption | with_reducible intro _ | with_reducible apply State.modCore_kept
    | with_reducible apply State.did_kept | with_reducible apply State.payMove_kept
    | with_reducible apply State.requeue_kept | with_reducible apply KeptO.next | with_reducible apply KeptO.fault
    | with_reducible apply Kept.cond | split
    | (refine Kept.fields rfl rfl rfl rfl rfl ?_; first
      | with_reducible assumption | with_reducible intro _ | with_reducible apply State.modCore_kept
      | with_reducible apply State.did_kept | with_reducible apply State.payMove_kept
      | with_reducible apply State.requeue_kept))

theorem execSaveDone_kept {s0 s : State} (core : Nat) (hs : Kept s0 s) : KeptO s0 (execSaveDone core s) := by
  unfold execSaveDone
  try dsimp only
  repeat' (first
    | with_reducible assumption | with_reducible intro _ | with_reducible apply State.addO_kept
    | with_reducible apply State.modCore_kept | with_reducible apply State.zeroCore_kept
    | with_reducible apply State.setHolder_kept | with_reducible apply State.grantCore_kept
    | with_reducible apply KeptO.next | with_reducible apply KeptO.fault | with_reducible apply Kept.cond | split
    | (refine Kept.fields rfl rfl rfl rfl rfl ?_; first
      | with_reducible assumption | with_reducible intro _ | with_reducible apply State.addO_kept
      | with_reducible apply State.modCore_kept | with_reducible apply State.zeroCore_kept
      | with_reducible apply State.setHolder_kept | with_reducible apply State.grantCore_kept
      | with_reducible apply KeptO.next | with_reducible apply KeptO.fault | with_reducible apply Kept.cond | split))

theorem State.placeThreads_kept {s0 s : State} (xs : List (Option Nat)) (h : Kept s0 s) : Kept s0 (s.placeThreads xs) := by
  induction xs generalizing s with
  | nil => exact h
  | cons e es ih =>
    cases e with
    | none => exact ih h
    | some n =>
      unfold State.placeThreads
      exact ih (Kept.cond (State.placeThread_kept _ h) h)

theorem execRestoreDone_kept {s0 s : State} (core : Nat) (hs : Kept s0 s) : KeptO s0 (execRestoreDone core s) := by
  unfold execRestoreDone
  try dsimp only
  repeat' (first
    | with_reducible assumption | with_reducible intro _ | with_reducible apply State.setO_kept
    | with_reducible apply State.addG_kept | with_reducible apply State.modCore_kept
    | with_reducible apply State.wr_kept | with_reducible apply State.placeThreads_kept
    | with_reducible apply KeptO.next | with_reducible apply KeptO.fault | with_reducible apply Kept.cond | split
    | (with_reducible refine Kept.foldl _ (fun _ _ _ => ?_) _ ?_)
    | (refine Kept.fields rfl rfl rfl rfl rfl ?_; first
      | with_reducible assumption | with_reducible intro _ | with_reducible apply State.setO_kept
      | with_reducible apply State.addG_kept))

theorem State.movePools_kept {s0 s : State} (f : Nat) (op : Nat → Nat → Nat) (hs : Kept s0 s) : Kept s0
    (State.movePools s f op) := by
  unfold State.movePools
  try dsimp only
  repeat' (first | with_reducible assumption | with_reducible intro _ | with_reducible apply State.setG_kept)

theorem State.takeGrant_kept {s0 s : State} (f : Nat) (hs : Kept s0 s) : Kept s0 (State.takeGrant s f) := by
  unfold State.takeGrant
  try dsimp only
  repeat' (first
    | with_reducible assumption | with_reducible intro _ | with_reducible apply State.setFn_kept
    | with_reducible apply State.rotatePages_kept | with_reducible apply State.zeroFloats_kept
    | with_reducible apply State.movePools_kept
    | (refine Kept.fields rfl rfl rfl rfl rfl ?_; first
      | with_reducible assumption | with_reducible intro _ | with_reducible apply State.setFn_kept
      | with_reducible apply State.rotatePages_kept | with_reducible apply State.zeroFloats_kept
      | with_reducible apply State.movePools_kept | split))

theorem createRule_kept {s0 s : State} (f : Nat) (_u1 : ObjRow) (hs : Kept s0 s) : KeptE s0 (createRule f _u1 s) := by
  unfold createRule
  try dsimp only
  repeat' (first
    | with_reducible assumption | with_reducible intro _ | with_reducible apply State.setFnState_kept
    | with_reducible apply State.takeGrant_kept | with_reducible apply KeptE.ok | with_reducible apply KeptE.error
    | (with_reducible refine KeptE.bindS ?_ (fun _ _ => ?_)) | (with_reducible refine KeptE.bind (fun _ => ?_))
    | split
    | (refine Kept.fields rfl rfl rfl rfl rfl ?_; first
      | with_reducible assumption | with_reducible intro _ | with_reducible apply State.setFnState_kept
      | with_reducible apply State.takeGrant_kept | with_reducible apply KeptE.ok | with_reducible apply KeptE.error
      | (with_reducible refine KeptE.bindS ?_ (fun _ _ => ?_)) | (with_reducible refine KeptE.bind (fun _ => ?_))
      | split))

theorem execGrantCreate_kept {s0 s : State} (path : Path) (f : Nat) (hs : Kept s0 s) : KeptO s0 (execGrantCreate path
    f s) := by
  unfold execGrantCreate
  try dsimp only
  repeat' (first
    | with_reducible assumption | with_reducible intro _ | with_reducible apply State.access_kept
    | with_reducible apply createRule_kept
    | (with_reducible refine KeptE.get (createRule_kept _ _  ?_) (by assumption)) | with_reducible apply KeptO.next)

theorem componentRule_kept {s0 s : State} (f sub value : Nat) (_u1 : ObjRow) (hs : Kept s0 s) : KeptE s0
    (componentRule f sub value _u1 s) := by
  unfold componentRule
  try dsimp only
  repeat' (first
    | with_reducible assumption | with_reducible intro _ | with_reducible apply State.setO_kept
    | with_reducible apply State.setG_kept | with_reducible apply KeptE.ok | with_reducible apply KeptE.error
    | (with_reducible refine KeptE.bindS ?_ (fun _ _ => ?_)) | (with_reducible refine KeptE.bind (fun _ => ?_))
    | with_reducible apply Kept.cond | split)

theorem execGrantComponentWrite_kept {s0 s : State} (path : Path) (f sub value : Nat) (hs : Kept s0 s) : KeptO s0
    (execGrantComponentWrite path f sub value s) := by
  unfold execGrantComponentWrite
  try dsimp only
  repeat' (first
    | with_reducible assumption | with_reducible intro _ | with_reducible apply State.access_kept
    | with_reducible apply componentRule_kept
    | (with_reducible refine KeptE.get (componentRule_kept _ _ _ _  ?_) (by assumption))
    | with_reducible apply KeptO.next)

theorem State.endMoves_kept {s0 s : State} (f : Nat) (hs : Kept s0 s) : Kept s0 (State.endMoves s f) := by
  unfold State.endMoves
  try dsimp only
  repeat' (first
    | with_reducible assumption | with_reducible intro _ | with_reducible apply Kept.cond | split
    | (refine Kept.fields rfl rfl rfl rfl rfl ?_; first
      | with_reducible assumption))

theorem State.endHoldsOf_kept {s0 s : State}  (xs : List Nat) (hs : Kept s0 s) : Kept s0 (State.endHoldsOf s xs) := by
  induction xs generalizing s  with
  | nil =>
    unfold State.endHoldsOf
    try dsimp only
    repeat' (first | with_reducible assumption) | cons e es ih =>
    unfold State.endHoldsOf
    try dsimp only
    repeat' (first
      | with_reducible assumption | with_reducible intro _ | with_reducible apply ih
      | with_reducible apply State.endHolds_kept)

theorem State.unadmit_kept {s0 s : State} (f : Nat) (hs : Kept s0 s) : Kept s0 (State.unadmit s f) := by
  unfold State.unadmit
  try dsimp only
  repeat' (first
    | with_reducible assumption | with_reducible intro _ | with_reducible apply Kept.cond | split
    | (refine Kept.fields rfl rfl rfl rfl rfl ?_; first
      | with_reducible assumption | with_reducible intro _ | with_reducible apply Kept.cond | split))

theorem State.beginReset_kept {s0 s : State} (f : Nat) (destroy : Bool) (hs : Kept s0 s) : Kept s0 (State.beginReset s
    f destroy) := by
  unfold State.beginReset
  try dsimp only
  repeat' (first
    | with_reducible assumption | with_reducible intro _ | with_reducible apply State.setO_kept
    | with_reducible apply State.modFn_kept | with_reducible apply State.setFnState_kept
    | with_reducible apply State.sumpWhere_kept | with_reducible apply State.countJob_kept
    | with_reducible apply State.deactivateCells_kept | with_reducible apply State.afterStops_kept
    | with_reducible apply State.endMoves_kept | with_reducible apply State.endHoldsOf_kept
    | with_reducible apply Kept.cond | split
    | (refine Kept.fields rfl rfl rfl rfl rfl ?_; first
      | with_reducible assumption | with_reducible intro _ | with_reducible apply State.setO_kept
      | with_reducible apply State.modFn_kept | with_reducible apply State.setFnState_kept
      | with_reducible apply State.sumpWhere_kept | with_reducible apply State.countJob_kept
      | with_reducible apply State.deactivateCells_kept | with_reducible apply State.afterStops_kept
      | with_reducible apply State.endMoves_kept | with_reducible apply State.endHoldsOf_kept))

theorem resetRule_kept {s0 s : State} (f : Nat) (_u1 : ObjRow) (hs : Kept s0 s) : KeptE s0 (resetRule f _u1 s) := by
  unfold resetRule
  try dsimp only
  repeat' (first
    | with_reducible assumption | with_reducible intro _ | with_reducible apply State.beginReset_kept
    | with_reducible apply KeptE.ok | with_reducible apply KeptE.error
    | (with_reducible refine KeptE.bindS ?_ (fun _ _ => ?_)) | (with_reducible refine KeptE.bind (fun _ => ?_)))

theorem execFunctionResetRequest_kept {s0 s : State} (path : Path) (f : Nat) (hs : Kept s0 s) : KeptO s0
    (execFunctionResetRequest path f s) := by
  unfold execFunctionResetRequest
  try dsimp only
  repeat' (first
    | with_reducible assumption | with_reducible intro _ | with_reducible apply State.access_kept
    | with_reducible apply resetRule_kept | (with_reducible refine KeptE.get (resetRule_kept _ _  ?_) (by assumption))
    | with_reducible apply KeptO.next)

theorem destroyRule_kept {s0 s : State} (f : Nat) (_u1 : ObjRow) (hs : Kept s0 s) : KeptE s0 (destroyRule f _u1 s) := by
  unfold destroyRule
  try dsimp only
  repeat' (first
    | with_reducible assumption | with_reducible intro _ | with_reducible apply State.beginReset_kept
    | with_reducible apply KeptE.ok | with_reducible apply KeptE.error
    | (with_reducible refine KeptE.bindS ?_ (fun _ _ => ?_)) | (with_reducible refine KeptE.bind (fun _ => ?_)))

theorem execGrantDestroy_kept {s0 s : State} (path : Path) (f : Nat) (hs : Kept s0 s) : KeptO s0 (execGrantDestroy
    path f s) := by
  unfold execGrantDestroy
  try dsimp only
  repeat' (first
    | with_reducible assumption | with_reducible intro _ | with_reducible apply State.access_kept
    | with_reducible apply destroyRule_kept
    | (with_reducible refine KeptE.get (destroyRule_kept _ _  ?_) (by assumption)) | with_reducible apply KeptO.next)

theorem execRetireAckTimeout_kept {s0 s : State} (f : Nat) (hs : Kept s0 s) : KeptO s0 (execRetireAckTimeout f s) := by
  unfold execRetireAckTimeout
  try dsimp only
  repeat' (first
    | with_reducible assumption | with_reducible intro _ | with_reducible apply State.modFn_kept
    | with_reducible apply KeptO.next | with_reducible apply KeptO.fault | with_reducible apply Kept.cond | split
    | (refine Kept.fields rfl rfl rfl rfl rfl ?_; first
      | with_reducible assumption | with_reducible intro _ | with_reducible apply State.modFn_kept
      | with_reducible apply KeptO.next | with_reducible apply KeptO.fault | with_reducible apply Kept.cond | split))

theorem State.loseCores_kept {s0 s : State} (f : Nat) (xs : List Nat) (hs : Kept s0 s) : Kept s0 (State.loseCores s f
    xs) := by
  induction xs generalizing s f with
  | nil =>
    unfold State.loseCores
    try dsimp only
    repeat' (first | with_reducible assumption) | cons e es ih =>
    unfold State.loseCores
    try dsimp only
    repeat' (first
      | with_reducible assumption | with_reducible intro _ | with_reducible apply ih
      | with_reducible apply State.dropSaved_kept | with_reducible apply State.vacate_kept
      | with_reducible apply Kept.cond)

theorem State.clearO_kept {s0 s : State} (f index : Nat) (xs : List Nat) (hs : Kept s0 s) : Kept s0 (State.clearO s f
    index xs) := by
  induction xs generalizing s f index with
  | nil =>
    unfold State.clearO
    try dsimp only
    repeat' (first | with_reducible assumption) | cons e es ih =>
    unfold State.clearO
    try dsimp only
    repeat' (first
      | with_reducible assumption | with_reducible intro _ | with_reducible apply ih
      | with_reducible apply State.setO_kept)

theorem State.zeroChans_kept {s0 s : State}  (hs : Kept s0 s) : Kept s0 (State.zeroChans s) := by
  unfold State.zeroChans
  try dsimp only
  repeat' (first | with_reducible assumption | with_reducible intro _ | with_reducible apply State.zeroMem_kept)

theorem State.zeroZones_kept {s0 s : State} (f : Nat) (hs : Kept s0 s) : Kept s0 (State.zeroZones s f) := by
  unfold State.zeroZones
  try dsimp only
  repeat' (first
    | with_reducible assumption | with_reducible intro _ | with_reducible apply State.zeroMem_kept | split
    | (with_reducible refine Kept.foldl _ (fun _ _ _ => ?_) _ ?_))

theorem State.dropHolders_kept {s0 s : State} (f : Nat) (hs : Kept s0 s) : Kept s0 (State.dropHolders s f) := by
  unfold State.dropHolders
  try dsimp only
  repeat' (first
    | with_reducible assumption | with_reducible intro _ | with_reducible apply State.putHolder_kept | split
    | (with_reducible refine Kept.foldl _ (fun _ _ _ => ?_) _ ?_))

theorem State.wipeFn_kept {s0 s : State} (f : Nat) (hs : Kept s0 s) : Kept s0 (State.wipeFn s f) := by
  unfold State.wipeFn
  try dsimp only
  repeat' (first
    | with_reducible assumption | with_reducible intro _ | with_reducible apply State.setO_kept
    | with_reducible apply State.modFn_kept | with_reducible apply State.rotatePages_kept
    | with_reducible apply State.zeroFloats_kept | with_reducible apply State.loseCores_kept
    | with_reducible apply State.clearO_kept | with_reducible apply State.zeroChans_kept
    | with_reducible apply State.zeroZones_kept | with_reducible apply Kept.cond | split
    | (with_reducible refine Kept.foldl _ (fun _ _ _ => ?_) _ ?_)
    | (refine Kept.fields rfl rfl rfl rfl rfl ?_; first
      | with_reducible assumption | with_reducible intro _ | with_reducible apply State.setO_kept))

theorem State.returnGrant_kept {s0 s : State} (f : Nat) (hs : Kept s0 s) : Kept s0 (State.returnGrant s f) := by
  unfold State.returnGrant
  try dsimp only
  repeat' (first
    | with_reducible assumption | with_reducible intro _ | with_reducible apply State.setO_kept
    | with_reducible apply State.modFn_kept | with_reducible apply State.setFnState_kept
    | with_reducible apply State.movePools_kept | with_reducible apply State.zeroChans_kept
    | with_reducible apply State.dropHolders_kept | with_reducible apply Kept.cond
    | (refine Kept.fields rfl rfl rfl rfl rfl ?_; first
      | with_reducible assumption | with_reducible intro _ | with_reducible apply State.setO_kept
      | with_reducible apply State.modFn_kept | with_reducible apply State.setFnState_kept
      | with_reducible apply State.movePools_kept | with_reducible apply State.zeroChans_kept
      | with_reducible apply State.dropHolders_kept | with_reducible apply Kept.cond | split))

theorem execFunctionResetEnd_kept {s0 s : State} (f : Nat) (hs : Kept s0 s) : KeptO s0 (execFunctionResetEnd f s) := by
  unfold execFunctionResetEnd
  try dsimp only
  repeat' (first
    | with_reducible assumption | with_reducible intro _ | with_reducible apply State.setO_kept
    | with_reducible apply State.setFnState_kept | with_reducible apply State.wipeFn_kept
    | with_reducible apply State.returnGrant_kept | with_reducible apply KeptO.next | with_reducible apply KeptO.fault
    | with_reducible apply Kept.cond | split
    | (refine Kept.fields rfl rfl rfl rfl rfl ?_; first
      | with_reducible assumption | with_reducible intro _ | with_reducible apply State.setO_kept))

theorem radioOwnerRule_kept {s0 s : State} (path : Path) (value : Nat) (_u1 : ObjRow) (hs : Kept s0 s) : KeptE s0
    (radioOwnerRule path value _u1 s) := by
  unfold radioOwnerRule
  try dsimp only
  repeat' (first
    | with_reducible assumption | with_reducible intro _ | with_reducible apply State.setG_kept
    | with_reducible apply State.zeroChans_kept | with_reducible apply KeptE.ok | with_reducible apply KeptE.error
    | (with_reducible refine KeptE.bindS ?_ (fun _ _ => ?_)) | (with_reducible refine KeptE.bind (fun _ => ?_))
    | with_reducible apply Kept.cond | split)

theorem execRadioOwnerWrite_kept {s0 s : State} (path : Path) (value : Nat) (hs : Kept s0 s) : KeptO s0
    (execRadioOwnerWrite path value s) := by
  unfold execRadioOwnerWrite
  try dsimp only
  repeat' (first
    | with_reducible assumption | with_reducible intro _ | with_reducible apply State.access_kept
    | with_reducible apply radioOwnerRule_kept
    | (with_reducible refine KeptE.get (radioOwnerRule_kept _ _ _  ?_) (by assumption))
    | with_reducible apply KeptO.next)

theorem State.startFree_kept {s0 s : State} (cid : Nat) (kind : Cmd → Bool) (k : Cmd → State → State) (hk : ∀ _x0 t,
    Kept s0 t → Kept s0 (k _x0 t)) (hs : Kept s0 s) : Kept s0 (State.startFree s cid kind k) := by
  unfold State.startFree
  try dsimp only
  repeat' (first
    | with_reducible assumption | with_reducible intro _ | with_reducible apply State.modCmd_kept
    | with_reducible apply State.takeThread_kept | with_reducible apply State.payStart_kept
    | with_reducible apply State.passOver_kept | with_reducible apply hk | with_reducible apply Kept.cond | split
    | (refine Kept.fields rfl rfl rfl rfl rfl ?_; first
      | with_reducible assumption | with_reducible intro _ | with_reducible apply State.modCmd_kept
      | with_reducible apply State.takeThread_kept | with_reducible apply State.payStart_kept
      | with_reducible apply State.passOver_kept | with_reducible apply hk | with_reducible apply Kept.cond | split))

theorem execFloatWait_kept {s0 s : State} (cid : Nat) (hs : Kept s0 s) : KeptO s0 (execFloatWait cid s) := by
  unfold execFloatWait
  try dsimp only
  repeat' (first
    | with_reducible assumption | with_reducible intro _ | with_reducible apply State.conclude_kept
    | with_reducible apply State.startFree_kept | with_reducible apply KeptO.next | with_reducible apply KeptO.fault
    | with_reducible apply Kept.cond)

theorem execFloatWaitMet_kept {s0 s : State} (cid : Nat) (hs : Kept s0 s) : KeptO s0 (execFloatWaitMet cid s) := by
  unfold execFloatWaitMet
  try dsimp only
  repeat' (first
    | with_reducible assumption | with_reducible intro _ | with_reducible apply State.conclude_kept
    | with_reducible apply KeptO.next | with_reducible apply KeptO.fault | with_reducible apply Kept.cond | split
    | (refine Kept.fields rfl rfl rfl rfl rfl ?_; first
      | with_reducible assumption | with_reducible intro _ | with_reducible apply State.conclude_kept
      | with_reducible apply KeptO.next | with_reducible apply KeptO.fault | with_reducible apply Kept.cond | split))

theorem execFloatWaitTimeout_kept {s0 s : State} (cid : Nat) (hs : Kept s0 s) : KeptO s0 (execFloatWaitTimeout cid s) := by
  unfold execFloatWaitTimeout
  try dsimp only
  repeat' (first
    | with_reducible assumption | with_reducible intro _ | with_reducible apply State.conclude_kept
    | with_reducible apply KeptO.next | with_reducible apply KeptO.fault | with_reducible apply Kept.cond | split
    | (refine Kept.fields rfl rfl rfl rfl rfl ?_; first
      | with_reducible assumption | with_reducible intro _ | with_reducible apply State.conclude_kept
      | with_reducible apply KeptO.next | with_reducible apply KeptO.fault | with_reducible apply Kept.cond | split))

theorem State.signalFloat_kept {s0 s : State} (cid set : Nat) (k : Cmd → State → Nat → Nat → State) (hk : ∀ _x0 t _x2
    _x3, Kept s0 t → Kept s0 (k _x0 t _x2 _x3)) (hs : Kept s0 s) : Kept s0 (State.signalFloat s cid set k) := by
  unfold State.signalFloat
  try dsimp only
  repeat' (first
    | with_reducible assumption | with_reducible intro _ | with_reducible apply State.conclude_kept
    | with_reducible apply State.startFree_kept | with_reducible apply hk | with_reducible apply Kept.cond | split
    | (refine Kept.fields rfl rfl rfl rfl rfl ?_; first
      | with_reducible assumption | with_reducible intro _ | with_reducible apply State.conclude_kept
      | with_reducible apply State.startFree_kept | with_reducible apply hk | with_reducible apply Kept.cond | split))

theorem execFloatSignalAdd_kept {s0 s : State} (cid : Nat) (hs : Kept s0 s) : KeptO s0 (execFloatSignalAdd cid s) := by
  unfold execFloatSignalAdd
  try dsimp only
  repeat' (first
    | with_reducible assumption | with_reducible intro _ | with_reducible apply State.addFloat_kept
    | with_reducible apply State.signalFloat_kept | with_reducible apply KeptO.next | with_reducible apply KeptO.fault
    | split)

theorem execFloatSignalSet_kept {s0 s : State} (cid : Nat) (hs : Kept s0 s) : KeptO s0 (execFloatSignalSet cid s) := by
  unfold execFloatSignalSet
  try dsimp only
  repeat' (first
    | with_reducible assumption | with_reducible intro _ | with_reducible apply State.putFloat_kept
    | with_reducible apply State.signalFloat_kept | with_reducible apply KeptO.next | with_reducible apply KeptO.fault
    | split)

theorem execFenceLocal_kept {s0 s : State} (cid : Nat) (hs : Kept s0 s) : KeptO s0 (execFenceLocal cid s) := by
  unfold execFenceLocal
  try dsimp only
  repeat' (first
    | with_reducible assumption | with_reducible intro _ | with_reducible apply State.conclude_kept
    | with_reducible apply State.startFree_kept | with_reducible apply KeptO.next | with_reducible apply KeptO.fault
    | with_reducible apply Kept.cond | split
    | (refine Kept.fields rfl rfl rfl rfl rfl ?_; first
      | with_reducible assumption | with_reducible intro _ | with_reducible apply State.conclude_kept
      | with_reducible apply State.startFree_kept | with_reducible apply KeptO.next | with_reducible apply KeptO.fault
      | with_reducible apply Kept.cond | split))

theorem State.shipPages_kept {s0 s : State} (c : Cmd) (xs : List (Nat × Nat × Nat)) (hs : Kept s0 s) : Kept s0
    (State.shipPages s c xs) := by
  induction xs generalizing s c with
  | nil =>
    unfold State.shipPages
    try dsimp only
    repeat' (first
      | with_reducible assumption
      | (refine Kept.fields rfl rfl rfl rfl rfl ?_; first
        | with_reducible assumption | with_reducible intro _ | with_reducible apply ih
        | with_reducible apply State.ask_kept | split)) | cons e es ih =>
    unfold State.shipPages
    try dsimp only
    repeat' (first
      | with_reducible assumption | with_reducible intro _ | with_reducible apply ih
      | with_reducible apply State.ask_kept | split
      | (refine Kept.fields rfl rfl rfl rfl rfl ?_; first
        | with_reducible assumption | with_reducible intro _ | with_reducible apply ih
        | with_reducible apply State.ask_kept | split))

theorem execFenceFabric_kept {s0 s : State} (cid : Nat) (hs : Kept s0 s) : KeptO s0 (execFenceFabric cid s) := by
  unfold execFenceFabric
  try dsimp only
  repeat' (first
    | with_reducible assumption | with_reducible intro _ | with_reducible apply State.modCmd_kept
    | with_reducible apply State.conclude_kept | with_reducible apply State.startFree_kept
    | with_reducible apply State.shipPages_kept | with_reducible apply KeptO.next | with_reducible apply KeptO.fault
    | with_reducible apply Kept.cond | split
    | (refine Kept.fields rfl rfl rfl rfl rfl ?_; first
      | with_reducible assumption | with_reducible intro _ | with_reducible apply State.modCmd_kept
      | with_reducible apply State.conclude_kept | with_reducible apply State.startFree_kept
      | with_reducible apply State.shipPages_kept | with_reducible apply KeptO.next | with_reducible apply KeptO.fault
      | with_reducible apply Kept.cond | split))

theorem execCalendarWait_kept {s0 s : State} (cid : Nat) (hs : Kept s0 s) : KeptO s0 (execCalendarWait cid s) := by
  unfold execCalendarWait
  try dsimp only
  repeat' (first
    | with_reducible assumption | with_reducible intro _ | with_reducible apply State.conclude_kept
    | with_reducible apply State.startFree_kept | with_reducible apply KeptO.next | with_reducible apply KeptO.fault
    | with_reducible apply Kept.cond)

theorem execCalendarWaitRelease_kept {s0 s : State} (cid : Nat) (hs : Kept s0 s) : KeptO s0 (execCalendarWaitRelease
    cid s) := by
  unfold execCalendarWaitRelease
  try dsimp only
  repeat' (first
    | with_reducible assumption | with_reducible intro _ | with_reducible apply State.conclude_kept
    | with_reducible apply KeptO.next | with_reducible apply KeptO.fault | with_reducible apply Kept.cond | split
    | (refine Kept.fields rfl rfl rfl rfl rfl ?_; first
      | with_reducible assumption | with_reducible intro _ | with_reducible apply State.conclude_kept
      | with_reducible apply KeptO.next | with_reducible apply KeptO.fault | with_reducible apply Kept.cond | split))

theorem execStamp_kept {s0 s : State} (cid : Nat) (hs : Kept s0 s) : KeptO s0 (execStamp cid s) := by
  unfold execStamp
  try dsimp only
  repeat' (first
    | with_reducible assumption | with_reducible intro _ | with_reducible apply State.conclude_kept
    | with_reducible apply State.startFree_kept | with_reducible apply KeptO.next)

theorem execCalendarRelease_kept {s0 s : State} (cid : Nat) (hs : Kept s0 s) : KeptO s0 (execCalendarRelease cid s) := by
  unfold execCalendarRelease
  try dsimp only
  repeat' (first
    | with_reducible assumption | with_reducible intro _ | with_reducible apply State.conclude_kept
    | with_reducible apply State.startFree_kept | with_reducible apply KeptO.next | with_reducible apply KeptO.fault
    | with_reducible apply Kept.cond | split
    | (refine Kept.fields rfl rfl rfl rfl rfl ?_; first
      | with_reducible assumption))

theorem execCalendarLoad_kept {s0 s : State} (cid : Nat) (image : List Byte) (hs : Kept s0 s) : KeptO s0
    (execCalendarLoad cid image s) := by
  unfold execCalendarLoad
  try dsimp only
  repeat' (first
    | with_reducible assumption | with_reducible intro _ | with_reducible apply State.swapState_kept
    | with_reducible apply State.conclude_kept | with_reducible apply State.startFree_kept
    | with_reducible apply KeptO.next | with_reducible apply KeptO.fault | with_reducible apply Kept.cond | split
    | (refine Kept.fields rfl rfl rfl rfl rfl ?_; first
      | with_reducible assumption))

theorem State.readTemps_kept {s0 s : State}  (xs : List (Int × Nat)) (hs : Kept s0 s) : Kept s0 (State.readTemps s
    xs) := by
  induction xs generalizing s  with
  | nil =>
    unfold State.readTemps
    try dsimp only
    repeat' (first | with_reducible assumption) | cons e es ih =>
    unfold State.readTemps
    try dsimp only
    repeat' (first
      | with_reducible assumption | with_reducible intro _ | with_reducible apply ih
      | with_reducible apply State.setG_kept | with_reducible apply State.raise_kept | with_reducible apply Kept.cond)

theorem State.beginFrame_kept {s0 s : State} (f seam : Nat) (hs : Kept s0 s) : Kept s0 (State.beginFrame s f seam) := by
  unfold State.beginFrame
  try dsimp only
  repeat' (first
    | with_reducible assumption | with_reducible intro _ | with_reducible apply State.setG_kept | split
    | (refine Kept.fields rfl rfl rfl rfl rfl ?_; first
      | with_reducible assumption | with_reducible intro _ | with_reducible apply State.setG_kept))

theorem execFrameTick_kept {s0 s : State} (f seam : Nat) (temps : List Int) (hs : Kept s0 s) :
    KeptO s0 (execFrameTick f seam temps s) := by
  unfold execFrameTick
  try dsimp only
  repeat' (first
    | with_reducible assumption | with_reducible intro _ | with_reducible apply State.closeShipment_kept
    | with_reducible apply State.readTemps_kept | with_reducible apply State.beginFrame_kept
    | with_reducible apply KeptO.next | with_reducible apply KeptO.fault | with_reducible apply Kept.cond | split
    | (refine Kept.fields rfl rfl rfl rfl rfl ?_; first
      | with_reducible assumption | with_reducible intro _ | with_reducible apply State.closeShipment_kept
      | with_reducible apply State.readTemps_kept | with_reducible apply State.beginFrame_kept
      | with_reducible apply KeptO.next | with_reducible apply KeptO.fault | with_reducible apply Kept.cond | split))

theorem execSeamTimeout_kept {s0 s : State}  (hs : Kept s0 s) : KeptO s0 (execSeamTimeout s) := by
  unfold execSeamTimeout
  try dsimp only
  repeat' (first
    | with_reducible assumption | with_reducible intro _ | with_reducible apply State.addG_kept
    | with_reducible apply State.closeShipment_kept | with_reducible apply State.lateness_kept
    | with_reducible apply State.beginFrame_kept | with_reducible apply KeptO.next | with_reducible apply KeptO.fault
    | with_reducible apply Kept.cond | split
    | (refine Kept.fields rfl rfl rfl rfl rfl ?_; first
      | with_reducible assumption | with_reducible intro _ | with_reducible apply State.addG_kept
      | with_reducible apply State.closeShipment_kept | with_reducible apply State.lateness_kept
      | with_reducible apply State.beginFrame_kept))

theorem armRule_kept {s0 s : State} (mode : Nat) (_u1 : ObjRow) (hs : Kept s0 s) : KeptE s0 (armRule mode _u1 s) := by
  unfold armRule
  try dsimp only
  repeat' (first
    | with_reducible assumption | with_reducible intro _ | with_reducible apply State.setG_kept
    | with_reducible apply State.swapState_kept | with_reducible apply KeptE.ok | with_reducible apply KeptE.error
    | (with_reducible refine KeptE.bindS ?_ (fun _ _ => ?_)) | (with_reducible refine KeptE.bind (fun _ => ?_))
    | split
    | (refine Kept.fields rfl rfl rfl rfl rfl ?_; first
      | with_reducible assumption | with_reducible intro _ | with_reducible apply State.setG_kept
      | with_reducible apply State.swapState_kept))

theorem execSwapArmAtFrame_kept {s0 s : State} (path : Path) (hs : Kept s0 s) : KeptO s0 (execSwapArmAtFrame path s) := by
  unfold execSwapArmAtFrame
  try dsimp only
  repeat' (first
    | with_reducible assumption | with_reducible intro _ | with_reducible apply State.access_kept
    | with_reducible apply armRule_kept | (with_reducible refine KeptE.get (armRule_kept _ _  ?_) (by assumption))
    | with_reducible apply KeptO.next)

theorem execSwapArmTakeover_kept {s0 s : State} (path : Path) (hs : Kept s0 s) : KeptO s0 (execSwapArmTakeover path
    s) := by
  unfold execSwapArmTakeover
  try dsimp only
  repeat' (first
    | with_reducible assumption | with_reducible intro _ | with_reducible apply State.access_kept
    | with_reducible apply armRule_kept | (with_reducible refine KeptE.get (armRule_kept _ _  ?_) (by assumption))
    | with_reducible apply KeptO.next)

theorem disarmRule_kept {s0 s : State} (_u1 : ObjRow) (hs : Kept s0 s) : KeptE s0 (disarmRule _u1 s) := by
  unfold disarmRule
  try dsimp only
  repeat' (first
    | with_reducible assumption | with_reducible intro _ | with_reducible apply State.setG_kept
    | with_reducible apply State.swapState_kept | with_reducible apply KeptE.ok | with_reducible apply KeptE.error
    | (with_reducible refine KeptE.bindS ?_ (fun _ _ => ?_)) | (with_reducible refine KeptE.bind (fun _ => ?_))
    | with_reducible apply Kept.cond | split)

theorem execSwapDisarm_kept {s0 s : State} (path : Path) (hs : Kept s0 s) : KeptO s0 (execSwapDisarm path s) := by
  unfold execSwapDisarm
  try dsimp only
  repeat' (first
    | with_reducible assumption | with_reducible intro _ | with_reducible apply State.access_kept
    | with_reducible apply disarmRule_kept | (with_reducible refine KeptE.get (disarmRule_kept _  ?_) (by assumption))
    | with_reducible apply KeptO.next)

theorem State.setResult_kept {s0 s : State} (r : Failure) (hs : Kept s0 s) : Kept s0 (State.setResult s r) := by
  unfold State.setResult
  try dsimp only
  repeat' (first | with_reducible assumption | with_reducible intro _ | with_reducible apply State.setG_kept)

theorem State.pinCore_kept {s0 s : State} (c : Nat) (hs : Kept s0 s) : Kept s0 (State.pinCore s c) := by
  unfold State.pinCore
  try dsimp only
  repeat' (first
    | with_reducible assumption | with_reducible intro _ | with_reducible apply State.grantCore_kept
    | with_reducible apply State.turnOut_kept | with_reducible apply Kept.cond | split
    | (with_reducible refine Kept.elim _ ?_ (fun _ => ?_)))

theorem State.pinCores_kept {s0 s : State}  (xs : List Nat) (hs : Kept s0 s) : Kept s0 (State.pinCores s xs) := by
  induction xs generalizing s  with
  | nil =>
    unfold State.pinCores
    try dsimp only
    repeat' (first | with_reducible assumption) | cons e es ih =>
    unfold State.pinCores
    try dsimp only
    repeat' (first
      | with_reducible assumption | with_reducible intro _ | with_reducible apply ih
      | with_reducible apply State.pinCore_kept)

theorem execValidationEnd_kept {s0 s : State}  (hs : Kept s0 s) : KeptO s0 (execValidationEnd s) := by
  unfold execValidationEnd
  try dsimp only
  repeat' (first
    | with_reducible assumption | with_reducible intro _ | with_reducible apply State.setG_kept
    | with_reducible apply State.swapState_kept | with_reducible apply State.setResult_kept
    | with_reducible apply State.pinCores_kept | with_reducible apply KeptO.next | with_reducible apply KeptO.fault
    | with_reducible apply Kept.cond | split
    | (refine Kept.fields rfl rfl rfl rfl rfl ?_; first
      | with_reducible assumption))

theorem State.swapZone_kept {s0 s : State} (c : Nat) (hs : Kept s0 s) : Kept s0 (State.swapZone s c) := by
  unfold State.swapZone
  try dsimp only
  repeat' (first
    | with_reducible assumption | with_reducible intro _ | with_reducible apply State.zeroMem_kept
    | with_reducible apply Kept.cond | split
    | (refine Kept.fields rfl rfl rfl rfl rfl ?_; first
      | with_reducible assumption | with_reducible intro _ | with_reducible apply State.zeroMem_kept))

theorem State.swapZones_kept {s0 s : State}  (xs : List Nat) (hs : Kept s0 s) : Kept s0 (State.swapZones s xs) := by
  induction xs generalizing s  with
  | nil =>
    unfold State.swapZones
    try dsimp only
    repeat' (first | with_reducible assumption) | cons e es ih =>
    unfold State.swapZones
    try dsimp only
    repeat' (first
      | with_reducible assumption | with_reducible intro _ | with_reducible apply ih
      | with_reducible apply State.swapZone_kept)

theorem State.swapPages_kept {s0 s : State}  (hs : Kept s0 s) : Kept s0 (State.swapPages s) := by
  unfold State.swapPages
  try dsimp only
  repeat' (first
    | with_reducible assumption | with_reducible intro _ | with_reducible apply State.setG_kept
    | with_reducible apply State.addG_kept | with_reducible apply State.swapState_kept
    | with_reducible apply State.swapZones_kept | split
    | (refine Kept.fields rfl rfl rfl rfl rfl ?_; first
      | with_reducible assumption))

theorem execPageSwap_kept {s0 s : State}  (hs : Kept s0 s) : KeptO s0 (execPageSwap s) := by
  unfold execPageSwap
  try dsimp only
  repeat' (first
    | with_reducible assumption | with_reducible intro _ | with_reducible apply State.swapPages_kept
    | with_reducible apply KeptO.next | with_reducible apply KeptO.fault | with_reducible apply Kept.cond | split)

theorem State.loadTracks_kept {s0 s : State}  (xs : List (Nat × Nat × Nat)) (hs : Kept s0 s) : Kept s0
    (State.loadTracks s xs) := by
  induction xs generalizing s  with
  | nil =>
    unfold State.loadTracks
    try dsimp only
    repeat' (first
      | with_reducible assumption
      | (refine Kept.fields rfl rfl rfl rfl rfl ?_; first
        | with_reducible assumption | with_reducible intro _ | with_reducible apply ih | split)) | cons e es ih =>
    unfold State.loadTracks
    try dsimp only
    repeat' (first
      | with_reducible assumption | with_reducible intro _ | with_reducible apply ih | split
      | (refine Kept.fields rfl rfl rfl rfl rfl ?_; first
        | with_reducible assumption))

theorem State.activateCells_kept {s0 s : State}  (xs : List Nat) (hs : Kept s0 s) : Kept s0 (State.activateCells s
    xs) := by
  induction xs generalizing s  with
  | nil =>
    unfold State.activateCells
    try dsimp only
    repeat' (first
      | with_reducible assumption
      | (refine Kept.fields rfl rfl rfl rfl rfl ?_; first
        | with_reducible assumption | with_reducible intro _ | with_reducible apply ih
        | with_reducible apply State.setCellO_kept | with_reducible apply State.enterCell_kept | split))
        | cons e es ih =>
    unfold State.activateCells
    try dsimp only
    repeat' (first
      | with_reducible assumption | with_reducible intro _ | with_reducible apply ih
      | with_reducible apply State.setCellO_kept | with_reducible apply State.enterCell_kept | split
      | (refine Kept.fields rfl rfl rfl rfl rfl ?_; first
        | with_reducible assumption | with_reducible intro _ | with_reducible apply ih
        | with_reducible apply State.setCellO_kept))

theorem execTakeoverBoundary_kept {s0 s : State}  (hs : Kept s0 s) : KeptO s0 (execTakeoverBoundary s) := by
  unfold execTakeoverBoundary
  try dsimp only
  repeat' (first
    | with_reducible assumption | with_reducible intro _ | with_reducible apply State.setG_kept
    | with_reducible apply State.addG_kept | with_reducible apply State.noticeAll_kept
    | with_reducible apply State.setPartner_kept | with_reducible apply State.swapPages_kept
    | with_reducible apply State.loadTracks_kept | with_reducible apply State.activateCells_kept
    | with_reducible apply KeptO.next | with_reducible apply KeptO.fault | with_reducible apply Kept.cond | split
    | (refine Kept.fields rfl rfl rfl rfl rfl ?_; first
      | with_reducible assumption | with_reducible intro _ | with_reducible apply State.setG_kept
      | with_reducible apply State.addG_kept | with_reducible apply State.noticeAll_kept
      | with_reducible apply State.setPartner_kept | with_reducible apply State.swapPages_kept
      | with_reducible apply State.loadTracks_kept))

theorem standbyRule_kept {s0 s : State} (cell value : Nat) (_u1 : ObjRow) (hs : Kept s0 s) : KeptE s0 (standbyRule
    cell value _u1 s) := by
  unfold standbyRule
  try dsimp only
  repeat' (first
    | with_reducible assumption | with_reducible intro _ | with_reducible apply State.setCellO_kept
    | with_reducible apply KeptE.ok | with_reducible apply KeptE.error
    | (with_reducible refine KeptE.bindS ?_ (fun _ _ => ?_)) | (with_reducible refine KeptE.bind (fun _ => ?_))
    | with_reducible apply Kept.cond | split
    | (refine Kept.fields rfl rfl rfl rfl rfl ?_; first
      | with_reducible assumption | with_reducible intro _ | with_reducible apply State.setCellO_kept))

theorem execStandbyCellWrite_kept {s0 s : State} (path : Path) (cell value : Nat) (hs : Kept s0 s) : KeptO s0
    (execStandbyCellWrite path cell value s) := by
  unfold execStandbyCellWrite
  try dsimp only
  repeat' (first
    | with_reducible assumption | with_reducible intro _ | with_reducible apply State.access_kept
    | with_reducible apply standbyRule_kept
    | (with_reducible refine KeptE.get (standbyRule_kept _ _ _  ?_) (by assumption)) | with_reducible apply KeptO.next
    | with_reducible apply KeptO.fault | with_reducible apply KeptE.ok | with_reducible apply KeptE.error
    | (with_reducible refine KeptE.bindS ?_ (fun _ _ => ?_)) | (with_reducible refine KeptE.bind (fun _ => ?_))
    | with_reducible apply Kept.cond | split)

theorem execRefreshRun_kept {s0 s : State} (ch : Nat) (hs : Kept s0 s) : KeptO s0 (execRefreshRun ch s) := by
  unfold execRefreshRun
  try dsimp only
  repeat' (first
    | with_reducible assumption | with_reducible intro _ | with_reducible apply State.addG_kept
    | with_reducible apply KeptO.next | with_reducible apply KeptO.fault | with_reducible apply Kept.cond | split
    | (refine Kept.fields rfl rfl rfl rfl rfl ?_; first
      | with_reducible assumption | with_reducible intro _ | with_reducible apply State.addG_kept))

theorem execRefreshOwedTick_kept {s0 s : State} (ch : Nat) (hs : Kept s0 s) : KeptO s0 (execRefreshOwedTick ch s) := by
  unfold execRefreshOwedTick
  try dsimp only
  repeat' (first
    | with_reducible assumption | with_reducible intro _ | with_reducible apply State.addG_kept
    | with_reducible apply KeptO.next | with_reducible apply KeptO.fault | with_reducible apply Kept.cond | split
    | (refine Kept.fields rfl rfl rfl rfl rfl ?_; first
      | with_reducible assumption))

theorem State.writeBack_kept {s0 s : State} (ch : Nat) (a : Option Nat) (intervened : Bool) (wrong : List Nat) (hs :
    Kept s0 s) : Kept s0 (State.writeBack s ch a intervened wrong) := by
  unfold State.writeBack
  try dsimp only
  repeat' (first
    | with_reducible assumption | with_reducible intro _ | with_reducible apply State.addG_kept
    | with_reducible apply State.fresh_kept | with_reducible apply State.store_kept | with_reducible apply Kept.cond
    | split | (with_reducible refine Kept.foldl _ (fun _ _ _ => ?_) _ ?_)
    | (refine Kept.fields rfl rfl rfl rfl rfl ?_; first
      | with_reducible assumption | with_reducible intro _ | with_reducible apply State.addG_kept
      | with_reducible apply State.fresh_kept | with_reducible apply State.store_kept | with_reducible apply Kept.cond
      | split | (with_reducible refine Kept.foldl _ (fun _ _ _ => ?_) _ ?_)))

theorem State.scrubNext_kept {s0 s : State} (ch corrected : Nat) (hs : Kept s0 s) : Kept s0 (State.scrubNext s ch
    corrected) := by
  unfold State.scrubNext
  try dsimp only
  repeat' (first
    | with_reducible assumption | with_reducible intro _ | with_reducible apply State.addG_kept
    | with_reducible apply State.raise_kept | with_reducible apply Kept.cond | split
    | (refine Kept.fields rfl rfl rfl rfl rfl ?_; first
      | with_reducible assumption | with_reducible intro _ | with_reducible apply State.addG_kept))

theorem State.scrubBad_kept {s0 s : State} (ch : Nat) (a : Option Nat) (hs : Kept s0 s) : Kept s0 (State.scrubBad s ch
    a) := by
  unfold State.scrubBad
  try dsimp only
  repeat' (first
    | with_reducible assumption | with_reducible intro _ | with_reducible apply State.setG_kept
    | with_reducible apply State.addG_kept | with_reducible apply State.raise_kept)

theorem State.scrubPair_kept {s0 s : State} (ch : Nat) (a : Option Nat) (intervened : Bool) (outs : List (Nat ×
    Rs.Outcome)) (hs : Kept s0 s) : Kept s0 (State.scrubPair s ch a intervened outs) := by
  unfold State.scrubPair
  try dsimp only
  repeat' (first
    | with_reducible assumption | with_reducible intro _ | with_reducible apply State.addG_kept
    | with_reducible apply State.writeBack_kept | with_reducible apply State.scrubNext_kept
    | with_reducible apply State.scrubBad_kept | with_reducible apply Kept.cond | split
    | (with_reducible refine Kept.foldl _ (fun _ _ _ => ?_) _ ?_))

theorem execGddr7Scrub_kept {s0 s : State} (ch : Nat) (bits : List (Nat × Nat)) (intervened : Bool) (hs : Kept s0 s) :
    KeptO s0 (execGddr7Scrub ch bits intervened s) := by
  unfold execGddr7Scrub
  try dsimp only
  repeat' (first
    | with_reducible assumption | with_reducible intro _ | with_reducible apply State.decode_kept
    | with_reducible apply State.scrubPair_kept | with_reducible apply KeptO.next | with_reducible apply KeptO.fault
    | with_reducible apply Kept.cond | split | (with_reducible refine Kept.elim _ ?_ (fun _ => ?_)))

theorem State.evaluate_kept {s0 s : State} (k : Nat × Nat × Nat) (hs : Kept s0 s) : Kept s0 (State.evaluate s k) := by
  unfold State.evaluate
  try dsimp only
  repeat' (first
    | with_reducible assumption | with_reducible intro _ | with_reducible apply State.setG_kept
    | with_reducible apply State.addG_kept | with_reducible apply State.setTerm_kept
    | with_reducible apply State.raise_kept | with_reducible apply Kept.cond | split
    | (refine Kept.fields rfl rfl rfl rfl rfl ?_; first
      | with_reducible assumption | with_reducible intro _ | with_reducible apply State.setG_kept
      | with_reducible apply State.addG_kept | with_reducible apply State.setTerm_kept
      | with_reducible apply State.raise_kept | with_reducible apply Kept.cond | split))

theorem State.evaluateList_kept {s0 s : State}  (xs : List (Nat × Nat × Nat)) (hs : Kept s0 s) : Kept s0
    (State.evaluateList s xs) := by
  induction xs generalizing s  with
  | nil =>
    unfold State.evaluateList
    try dsimp only
    repeat' (first | with_reducible assumption) | cons e es ih =>
    unfold State.evaluateList
    try dsimp only
    repeat' (first
      | with_reducible assumption | with_reducible intro _ | with_reducible apply ih
      | with_reducible apply State.evaluate_kept)

theorem State.evaluateAll_kept {s0 s : State}  (hs : Kept s0 s) : Kept s0 (State.evaluateAll s) := by
  unfold State.evaluateAll
  try dsimp only
  repeat' (first | with_reducible assumption | with_reducible intro _ | with_reducible apply State.evaluateList_kept)

theorem State.thermal_kept {s0 s : State} (v : Int) (hs : Kept s0 s) : Kept s0 (State.thermal s v) := by
  unfold State.thermal
  try dsimp only
  repeat' (first
    | with_reducible assumption | with_reducible intro _ | with_reducible apply State.setG_kept
    | with_reducible apply State.raise_kept | with_reducible apply Kept.cond | split
    | (refine Kept.fields rfl rfl rfl rfl rfl ?_; first
      | with_reducible assumption | with_reducible intro _ | with_reducible apply State.setG_kept))

theorem State.creditShares_kept {s0 s : State} (g cap total : Nat) (xs : List Nat) (hs : Kept s0 s) : Kept s0
    (State.creditShares s g cap total xs) := by
  induction xs generalizing s g cap total with
  | nil =>
    unfold State.creditShares
    try dsimp only
    repeat' (first | with_reducible assumption) | cons e es ih =>
    unfold State.creditShares
    try dsimp only
    repeat' (first
      | with_reducible assumption | with_reducible intro _ | with_reducible apply ih
      | with_reducible apply State.setBalance_kept)

theorem State.capShares_kept {s0 s : State} (g cap : Nat) (xs : List Nat) (hs : Kept s0 s) : Kept s0 (State.capShares
    s g cap xs) := by
  induction xs generalizing s g cap with
  | nil =>
    unfold State.capShares
    try dsimp only
    repeat' (first | with_reducible assumption) | cons e es ih =>
    unfold State.capShares
    try dsimp only
    repeat' (first
      | with_reducible assumption | with_reducible intro _ | with_reducible apply ih
      | with_reducible apply State.addG_kept | with_reducible apply State.setBalance_kept
      | with_reducible apply Kept.cond)

theorem State.updateGroup_kept {s0 s : State} (g : Nat) (hs : Kept s0 s) : Kept s0 (State.updateGroup s g) := by
  unfold State.updateGroup
  try dsimp only
  repeat' (first
    | with_reducible assumption | with_reducible intro _ | with_reducible apply State.addG_kept
    | with_reducible apply State.creditShares_kept | with_reducible apply State.capShares_kept)

theorem State.updateShares_kept {s0 s : State}  (hs : Kept s0 s) : Kept s0 (State.updateShares s) := by
  unfold State.updateShares
  try dsimp only
  repeat' (first | with_reducible assumption | with_reducible intro _ | with_reducible apply State.updateGroup_kept)

theorem State.adoptClasses_kept {s0 s : State}  (hs : Kept s0 s) : Kept s0 (State.adoptClasses s) := by
  unfold State.adoptClasses
  try dsimp only
  repeat' (first
    | with_reducible assumption | with_reducible intro _ | with_reducible apply Kept.cond | split
    | (refine Kept.fields rfl rfl rfl rfl rfl ?_; first
      | with_reducible assumption))

theorem State.adoptEnergy_kept {s0 s : State}  (hs : Kept s0 s) : Kept s0 (State.adoptEnergy s) := by
  unfold State.adoptEnergy
  try dsimp only
  repeat' (first
    | with_reducible assumption | with_reducible intro _ | with_reducible apply State.setG_kept | split
    | (refine Kept.fields rfl rfl rfl rfl rfl ?_; first
      | with_reducible assumption | with_reducible intro _ | with_reducible apply State.setG_kept))

theorem State.giveOwn_kept {s0 s : State} (aFill : Nat) (xs : List Nat) (hs : Kept s0 s) : Kept s0 (State.giveOwn s
    aFill xs) := by
  induction xs generalizing s aFill with
  | nil =>
    unfold State.giveOwn
    try dsimp only
    repeat' (first | with_reducible assumption) | cons e es ih =>
    unfold State.giveOwn
    try dsimp only
    repeat' (first
      | with_reducible assumption | with_reducible intro _ | with_reducible apply ih
      | with_reducible apply State.setO_kept)

theorem State.divide_kept {s0 s : State}  (hs : Kept s0 s) : Kept s0 (State.divide s) := by
  unfold State.divide
  try dsimp only
  repeat' (first
    | with_reducible assumption | with_reducible intro _ | with_reducible apply State.setO_kept
    | with_reducible apply State.setG_kept | with_reducible apply State.addG_kept
    | with_reducible apply State.raise_kept | with_reducible apply State.giveOwn_kept | with_reducible apply Kept.cond
    | split | (with_reducible refine Kept.foldl _ (fun _ _ _ => ?_) _ ?_)
    | (refine Kept.fields rfl rfl rfl rfl rfl ?_; first
      | with_reducible assumption | with_reducible intro _ | with_reducible apply State.setO_kept
      | with_reducible apply State.setG_kept | with_reducible apply State.addG_kept
      | with_reducible apply State.raise_kept | with_reducible apply State.giveOwn_kept))

theorem execEnergyWindowStart_kept {s0 s : State} (junction : Int) (hs : Kept s0 s) : KeptO s0 (execEnergyWindowStart
    junction s) := by
  unfold execEnergyWindowStart
  try dsimp only
  repeat' (first
    | with_reducible assumption | with_reducible intro _ | with_reducible apply State.setG_kept
    | with_reducible apply State.evaluateAll_kept | with_reducible apply State.thermal_kept
    | with_reducible apply State.updateShares_kept | with_reducible apply State.adoptClasses_kept
    | with_reducible apply State.adoptEnergy_kept | with_reducible apply State.divide_kept
    | with_reducible apply KeptO.next | with_reducible apply KeptO.fault | with_reducible apply Kept.cond | split
    | (refine Kept.fields rfl rfl rfl rfl rfl ?_; first
      | with_reducible assumption | with_reducible intro _ | with_reducible apply State.setG_kept
      | with_reducible apply State.evaluateAll_kept | with_reducible apply State.thermal_kept
      | with_reducible apply State.updateShares_kept | with_reducible apply State.adoptClasses_kept
      | with_reducible apply State.adoptEnergy_kept | with_reducible apply State.divide_kept
      | with_reducible apply KeptO.next | with_reducible apply KeptO.fault | with_reducible apply Kept.cond | split))

theorem execEnergyReport_kept {s0 s : State} (window measured : Nat) (hs : Kept s0 s) : KeptO s0 (execEnergyReport
    window measured s) := by
  unfold execEnergyReport
  try dsimp only
  repeat' (first
    | with_reducible assumption | with_reducible intro _ | with_reducible apply State.addG_kept
    | with_reducible apply KeptO.next | with_reducible apply KeptO.fault | with_reducible apply Kept.cond | split
    | (refine Kept.fields rfl rfl rfl rfl rfl ?_; first
      | with_reducible assumption | with_reducible intro _ | with_reducible apply State.addG_kept))

theorem execStandingReserveRaise_kept {s0 s : State}  (hs : Kept s0 s) : KeptO s0 (execStandingReserveRaise s) := by
  unfold execStandingReserveRaise
  try dsimp only
  repeat' (first
    | with_reducible assumption | with_reducible intro _ | with_reducible apply KeptO.next
    | with_reducible apply KeptO.fault | with_reducible apply Kept.cond | split
    | (refine Kept.fields rfl rfl rfl rfl rfl ?_; first
      | with_reducible assumption))

theorem execStandingReserveLower_kept {s0 s : State}  (hs : Kept s0 s) : KeptO s0 (execStandingReserveLower s) := by
  unfold execStandingReserveLower
  try dsimp only
  repeat' (first
    | with_reducible assumption | with_reducible intro _ | with_reducible apply KeptO.next
    | with_reducible apply KeptO.fault | with_reducible apply Kept.cond | split
    | (refine Kept.fields rfl rfl rfl rfl rfl ?_; first
      | with_reducible assumption))

theorem powerRule_kept {s0 s : State} (value : Nat) (_u1 : ObjRow) (hs : Kept s0 s) : KeptE s0 (powerRule value _u1
    s) := by
  unfold powerRule
  try dsimp only
  repeat' (first
    | with_reducible assumption | with_reducible intro _ | with_reducible apply KeptE.ok
    | with_reducible apply KeptE.error | (with_reducible refine KeptE.bindS ?_ (fun _ _ => ?_))
    | (with_reducible refine KeptE.bind (fun _ => ?_)))

theorem State.setPower_kept {s0 s : State} (value : Nat) (hs : Kept s0 s) : Kept s0 (State.setPower s value) := by
  unfold State.setPower
  try dsimp only
  repeat' (first
    | with_reducible assumption | with_reducible intro _ | with_reducible apply State.setG_kept | split
    | (refine Kept.fields rfl rfl rfl rfl rfl ?_; first
      | with_reducible assumption | with_reducible intro _ | with_reducible apply State.setG_kept))

theorem execPowerLimitWrite_kept {s0 s : State} (path : Path) (value : Nat) (hs : Kept s0 s) : KeptO s0
    (execPowerLimitWrite path value s) := by
  unfold execPowerLimitWrite
  try dsimp only
  repeat' (first
    | with_reducible assumption | with_reducible intro _ | with_reducible apply State.access_kept
    | with_reducible apply powerRule_kept | (with_reducible refine KeptE.get (powerRule_kept _ _  ?_) (by assumption))
    | with_reducible apply KeptO.next)

end Sys2Proof.Machine
end

