-- ==== Sys2Proof/Laws/KeptDomain.lean ====
section
/-!
SUPPORT. The operations of Machine/Membership, Machine/Keys, Machine/Partner, Machine/HostPorts, Machine/Security,
    Machine/Power keep the queue and the canonical form.
-/

namespace Sys2Proof.Machine

theorem State.mark_kept {s0 s : State} (k : Nat) (hs : Kept s0 s) : Kept s0 (State.mark s k) := by
  unfold State.mark
  try dsimp only
  repeat' (first
    | with_reducible assumption | with_reducible intro _ | split
    | (refine Kept.fields rfl rfl rfl rfl rfl ?_; first
      | with_reducible assumption))

theorem State.passOn_kept {s0 s : State} (kind a b : Nat) (data : List Byte) (hs : Kept s0 s) : Kept s0 (State.passOn
    s kind a b data) := by
  unfold State.passOn
  try dsimp only
  repeat' (first | with_reducible assumption | with_reducible intro _ | with_reducible apply State.domainEach_kept)

theorem State.relayList_kept {s0 s : State} (n kind a b : Nat) (data : List Byte) (xs : List Nat) (hs : Kept s0 s) :
    Kept s0 (State.relayList s n kind a b data xs) := by
  induction xs generalizing s n kind a b data with
  | nil =>
    unfold State.relayList
    try dsimp only
    repeat' (first | with_reducible assumption) | cons e es ih =>
    unfold State.relayList
    try dsimp only
    repeat' (first
      | with_reducible assumption | with_reducible intro _ | with_reducible apply ih
      | with_reducible apply State.domainMsg_kept | with_reducible apply State.domainEach_kept
      | with_reducible apply Kept.cond)

theorem State.relayAll_kept {s0 s : State} (n kind a b : Nat) (data : List Byte) (hs : Kept s0 s) : Kept s0
    (State.relayAll s n kind a b data) := by
  unfold State.relayAll
  try dsimp only
  repeat' (first | with_reducible assumption | with_reducible intro _ | with_reducible apply State.relayList_kept)

theorem State.sendView_kept {s0 s : State} (n : Nat) (hs : Kept s0 s) : Kept s0 (State.sendView s n) := by
  unfold State.sendView
  try dsimp only
  repeat' (first
    | with_reducible assumption | with_reducible intro _ | with_reducible apply State.mark_kept
    | with_reducible apply State.relayAll_kept)

theorem State.sendViewTo_kept {s0 s : State} (d : Nat) (hs : Kept s0 s) : Kept s0 (State.sendViewTo s d) := by
  unfold State.sendViewTo
  try dsimp only
  repeat' (first | with_reducible assumption | with_reducible intro _ | with_reducible apply State.domainMsg_kept)

theorem State.sendFence_kept {s0 s : State} (d : Nat) (hs : Kept s0 s) : Kept s0 (State.sendFence s d) := by
  unfold State.sendFence
  try dsimp only
  repeat' (first | with_reducible assumption | with_reducible intro _ | with_reducible apply State.domainMsg_kept)

theorem State.countRecommend_kept {s0 s : State}  (hs : Kept s0 s) : Kept s0 (State.countRecommend s) := by
  unfold State.countRecommend
  try dsimp only
  repeat' (first | with_reducible assumption | with_reducible intro _ | with_reducible apply State.setG_kept)

theorem State.consider_kept {s0 s : State} (d score : Nat) (hs : Kept s0 s) : Kept s0 (State.consider s d score) := by
  unfold State.consider
  try dsimp only
  repeat' (first
    | with_reducible assumption | with_reducible intro _ | with_reducible apply State.countRecommend_kept
    | with_reducible apply Kept.cond | split
    | (refine Kept.fields rfl rfl rfl rfl rfl ?_; first
      | with_reducible assumption))

theorem State.reconsider_kept {s0 s : State}  (xs : Nat) (hs : Kept s0 s) : Kept s0 (State.reconsider s xs) := by
  induction xs generalizing s  with
  | zero =>
    unfold State.reconsider
    try dsimp only
    repeat' (first
      | with_reducible assumption | with_reducible intro _ | with_reducible apply ih
      | with_reducible apply State.countRecommend_kept
      | (refine Kept.fields rfl rfl rfl rfl rfl ?_; first
        | with_reducible assumption | with_reducible intro _ | with_reducible apply ih
        | with_reducible apply State.countRecommend_kept | with_reducible apply Kept.cond | split)) | succ n ih =>
    unfold State.reconsider
    try dsimp only
    repeat' (first
      | with_reducible assumption | with_reducible intro _ | with_reducible apply ih
      | with_reducible apply State.countRecommend_kept | with_reducible apply Kept.cond | split
      | (refine Kept.fields rfl rfl rfl rfl rfl ?_; first
        | with_reducible assumption))

theorem State.setMembers_kept {s0 s : State} (members : List Nat) (hs : Kept s0 s) : Kept s0 (State.setMembers s
    members) := by
  unfold State.setMembers
  try dsimp only
  repeat' (first
    | with_reducible assumption | with_reducible intro _ | with_reducible apply State.setG_kept
    | with_reducible apply State.noticeMgrs_kept | split
    | (refine Kept.fields rfl rfl rfl rfl rfl ?_; first
      | with_reducible assumption))

theorem State.fencePeers_kept {s0 s : State}  (xs : List Nat) (hs : Kept s0 s) : Kept s0 (State.fencePeers s xs) := by
  induction xs generalizing s  with
  | nil =>
    unfold State.fencePeers
    try dsimp only
    repeat' (first | with_reducible assumption) | cons e es ih =>
    unfold State.fencePeers
    try dsimp only
    repeat' (first
      | with_reducible assumption | with_reducible intro _ | with_reducible apply ih
      | with_reducible apply State.fencePeer_kept)

theorem State.sendJoin_kept {s0 s : State}  (hs : Kept s0 s) : Kept s0 (State.sendJoin s) := by
  unfold State.sendJoin
  try dsimp only
  repeat' (first
    | with_reducible assumption | with_reducible intro _ | with_reducible apply State.domainMsg_kept
    | with_reducible apply Kept.cond)

theorem State.enterFenced_kept {s0 s : State}  (hs : Kept s0 s) : Kept s0 (State.enterFenced s) := by
  unfold State.enterFenced
  try dsimp only
  repeat' (first
    | with_reducible assumption | with_reducible apply State.stopBy_kept | with_reducible intro _ | with_reducible
        apply State.setG_kept
    | with_reducible apply State.loseReference_kept | with_reducible apply State.fencePeers_kept
    | with_reducible apply State.sendJoin_kept | with_reducible apply Kept.cond | split
    | (refine Kept.fields rfl rfl rfl rfl rfl ?_; first
      | with_reducible assumption | with_reducible intro _ | with_reducible apply State.setG_kept
      | with_reducible apply State.loseReference_kept | with_reducible apply State.fencePeers_kept))

theorem State.takeView_kept {s0 s : State} (master epoch : Nat) (members : List Nat) (hs : Kept s0 s) : Kept s0
    (State.takeView s master epoch members) := by
  unfold State.takeView
  try dsimp only
  repeat' (first
    | with_reducible assumption | with_reducible intro _ | with_reducible apply State.setG_kept
    | with_reducible apply State.mark_kept | with_reducible apply State.setMembers_kept
    | with_reducible apply State.fencePeers_kept | with_reducible apply Kept.cond | split
    | (with_reducible refine Kept.foldl _ (fun _ _ _ => ?_) _ ?_))

theorem State.hearView_kept {s0 s : State} (master epoch : Nat) (members : List Nat) (rearm : Bool) (hs : Kept s0 s) :
    Kept s0 (State.hearView s master epoch members rearm) := by
  unfold State.hearView
  try dsimp only
  repeat' (first
    | with_reducible assumption | with_reducible intro _ | with_reducible apply State.setG_kept
    | with_reducible apply State.setServo_kept | with_reducible apply State.fencePeers_kept
    | with_reducible apply State.enterFenced_kept | with_reducible apply State.takeView_kept
    | with_reducible apply Kept.cond)

theorem State.keepCopy_kept {s0 s : State} (master epoch : Nat) (copy : MasterCopy) (hs : Kept s0 s) : Kept s0
    (State.keepCopy s master epoch copy) := by
  unfold State.keepCopy
  split
  · exact State.setG_kept _ _ _ (Kept.fields rfl rfl rfl rfl rfl hs)
  · exact hs

theorem State.changeView_kept {s0 s : State} (members : List Nat) (hs : Kept s0 s) : Kept s0 (State.changeView s
    members) := by
  unfold State.changeView
  try dsimp only
  repeat' (first
    | with_reducible assumption | with_reducible intro _ | with_reducible apply State.setG_kept
    | with_reducible apply State.sendView_kept | with_reducible apply State.setMembers_kept)

theorem State.declareDevice_kept {s0 s : State} (d cause : Nat) (hs : Kept s0 s) : Kept s0 (State.declareDevice s d
    cause) := by
  unfold State.declareDevice
  try dsimp only
  repeat' (first
    | with_reducible assumption | with_reducible intro _ | with_reducible apply State.addG_kept
    | with_reducible apply State.domainMsg_kept | with_reducible apply State.fencePeer_kept
    | with_reducible apply State.relayAll_kept | with_reducible apply State.countRecommend_kept
    | with_reducible apply State.changeView_kept | split
    | (refine Kept.fields rfl rfl rfl rfl rfl ?_; first
      | with_reducible assumption))

theorem execMissedBeatsDeclare_kept {s0 s : State} (d : Nat) (hs : Kept s0 s) : KeptO s0 (execMissedBeatsDeclare d s) := by
  unfold execMissedBeatsDeclare
  try dsimp only
  repeat' (first
    | with_reducible assumption | with_reducible intro _ | with_reducible apply State.declareDevice_kept
    | with_reducible apply KeptO.next | with_reducible apply KeptO.fault | with_reducible apply Kept.cond | split)

theorem State.acceptTakeover_kept {s0 s : State} (named : Option Nat) (hs : Kept s0 s) : Kept s0 (State.acceptTakeover
    s named) := by
  unfold State.acceptTakeover
  try dsimp only
  repeat' (first
    | with_reducible assumption | with_reducible intro _ | with_reducible apply State.raise_kept
    | with_reducible apply State.toPartner_kept | with_reducible apply Kept.cond | split
    | (refine Kept.fields rfl rfl rfl rfl rfl ?_; first
      | with_reducible assumption))

theorem execBeatSend_kept {s0 s : State}  (hs : Kept s0 s) : KeptO s0 (execBeatSend s) := by
  unfold execBeatSend
  try dsimp only
  repeat' (first
    | with_reducible assumption | with_reducible intro _ | with_reducible apply State.domainMsg_kept
    | with_reducible apply KeptO.next | with_reducible apply KeptO.fault | with_reducible apply Kept.cond | split)

theorem execJoinResend_kept {s0 s : State}  (hs : Kept s0 s) : KeptO s0 (execJoinResend s) := by
  unfold execJoinResend
  try dsimp only
  repeat' (first
    | with_reducible assumption | with_reducible intro _ | with_reducible apply State.setG_kept
    | with_reducible apply State.sendJoin_kept | with_reducible apply KeptO.next | with_reducible apply KeptO.fault
    | with_reducible apply Kept.cond | split)

theorem execTimeReqSend_kept {s0 s : State}  (hs : Kept s0 s) : KeptO s0 (execTimeReqSend s) := by
  unfold execTimeReqSend
  try dsimp only
  repeat' (first
    | with_reducible assumption | with_reducible intro _ | with_reducible apply State.domainMsg_kept
    | with_reducible apply State.setServo_kept | with_reducible apply KeptO.next | with_reducible apply KeptO.fault
    | with_reducible apply Kept.cond | split
    | (refine Kept.fields rfl rfl rfl rfl rfl ?_; first
      | with_reducible assumption | with_reducible intro _ | with_reducible apply State.domainMsg_kept
      | with_reducible apply State.setServo_kept | with_reducible apply KeptO.next | with_reducible apply KeptO.fault
      | with_reducible apply Kept.cond | split))

theorem execSelfFence_kept {s0 s : State}  (hs : Kept s0 s) : KeptO s0 (execSelfFence s) := by
  unfold execSelfFence
  try dsimp only
  repeat' (first
    | with_reducible assumption | with_reducible apply State.stopBy_kept | with_reducible intro _ | with_reducible
        apply KeptO.next
    | with_reducible apply KeptO.fault | with_reducible apply Kept.cond | split
    | (refine Kept.fields rfl rfl rfl rfl rfl ?_; first
      | with_reducible assumption))

theorem execStandbyPromotion_kept {s0 s : State}  (hs : Kept s0 s) : KeptO s0 (execStandbyPromotion s) := by
  unfold execStandbyPromotion
  try dsimp only
  repeat' (first
    | with_reducible assumption | with_reducible intro _ | with_reducible apply State.setG_kept
    | with_reducible apply State.mark_kept | with_reducible apply State.declareDevice_kept
    | with_reducible apply KeptO.next | with_reducible apply KeptO.fault | with_reducible apply Kept.cond | split
    | (with_reducible refine Kept.foldl _ (fun _ _ _ => ?_) _ ?_))

theorem execMasterListenExpiry_kept {s0 s : State}  (hs : Kept s0 s) : KeptO s0 (execMasterListenExpiry s) := by
  unfold execMasterListenExpiry
  try dsimp only
  repeat' (first
    | with_reducible assumption | with_reducible intro _ | with_reducible apply State.takeView_kept
    | with_reducible apply KeptO.next | with_reducible apply KeptO.fault | with_reducible apply Kept.cond | split)

theorem execViewRepeat_kept {s0 s : State}  (hs : Kept s0 s) : KeptO s0 (execViewRepeat s) := by
  unfold execViewRepeat
  try dsimp only
  repeat' (first
    | with_reducible assumption | with_reducible intro _ | with_reducible apply State.sendView_kept
    | with_reducible apply KeptO.next | with_reducible apply KeptO.fault | with_reducible apply Kept.cond | split
    | (refine Kept.fields rfl rfl rfl rfl rfl ?_; first
      | with_reducible assumption))

theorem State.recordBeat_kept {s0 s : State} (d score fwState : Nat) (hs : Kept s0 s) : Kept s0 (State.recordBeat s d
    score fwState) := by
  unfold State.recordBeat
  try dsimp only
  repeat' (first
    | with_reducible assumption | with_reducible intro _ | with_reducible apply State.setG_kept
    | with_reducible apply State.mark_kept | with_reducible apply State.consider_kept | with_reducible apply Kept.cond
    | split
    | (refine Kept.fields rfl rfl rfl rfl rfl ?_; first
      | with_reducible assumption | with_reducible intro _ | with_reducible apply State.setG_kept
      | with_reducible apply State.mark_kept))

theorem execBeat_kept {s0 s : State} (d epoch score fwState : Nat) (hs : Kept s0 s) : KeptO s0 (execBeat d epoch score
    fwState s) := by
  unfold execBeat
  try dsimp only
  repeat' (first
    | with_reducible assumption | with_reducible intro _ | with_reducible apply State.domainMsg_kept
    | with_reducible apply State.sendViewTo_kept | with_reducible apply State.sendFence_kept
    | with_reducible apply State.recordBeat_kept | with_reducible apply KeptO.next | with_reducible apply KeptO.fault
    | with_reducible apply Kept.cond | split)

theorem execBeatAck_kept {s0 s : State} (d epoch : Nat) (hs : Kept s0 s) : KeptO s0 (execBeatAck d epoch s) := by
  unfold execBeatAck
  try dsimp only
  repeat' (first
    | with_reducible assumption | with_reducible intro _ | with_reducible apply State.mark_kept
    | with_reducible apply KeptO.next | with_reducible apply KeptO.fault | with_reducible apply Kept.cond | split)

theorem execJoin_kept {s0 s : State} (d number : Nat) (identityOk : Bool) (hs : Kept s0 s) : KeptO s0 (execJoin d
    number identityOk s) := by
  unfold execJoin
  try dsimp only
  repeat' (first
    | with_reducible assumption | with_reducible intro _ | with_reducible apply State.addG_kept
    | with_reducible apply State.mark_kept | with_reducible apply State.sendFence_kept
    | with_reducible apply State.changeView_kept | with_reducible apply KeptO.next | with_reducible apply KeptO.fault
    | with_reducible apply Kept.cond | split)

theorem execView_kept {s0 s : State} (master standby epoch : Nat) (members : List Nat) (copy : MasterCopy)
    (rearm relay : Bool) (hs : Kept s0 s) : KeptO s0 (execView master standby epoch members copy rearm relay s) := by
  unfold execView
  try dsimp only
  repeat' (first
    | with_reducible assumption | with_reducible intro _ | with_reducible apply State.passOn_kept
    | with_reducible apply State.keepCopy_kept | with_reducible apply State.hearView_kept | with_reducible apply
        KeptO.next | with_reducible apply KeptO.fault
    | with_reducible apply Kept.cond | split)

theorem execDeclare_kept {s0 s : State} (d cause epoch : Nat) (relay : Bool) (hs : Kept s0 s) : KeptO s0 (execDeclare
    d cause epoch relay s) := by
  unfold execDeclare
  try dsimp only
  repeat' (first
    | with_reducible assumption | with_reducible intro _ | with_reducible apply State.fencePeer_kept
    | with_reducible apply State.passOn_kept | with_reducible apply State.acceptTakeover_kept
    | with_reducible apply KeptO.next | with_reducible apply KeptO.fault | with_reducible apply Kept.cond | split)

theorem execFenceNotice_kept {s0 s : State} (epoch : Nat) (hs : Kept s0 s) : KeptO s0 (execFenceNotice epoch s) := by
  unfold execFenceNotice
  try dsimp only
  repeat' (first
    | with_reducible assumption | with_reducible intro _ | with_reducible apply State.enterFenced_kept
    | with_reducible apply KeptO.next | with_reducible apply KeptO.fault | with_reducible apply Kept.cond | split)

theorem execTimeReq_kept {s0 s : State} (d t1 t2 : Nat) (hs : Kept s0 s) : KeptO s0 (execTimeReq d t1 t2 s) := by
  unfold execTimeReq
  try dsimp only
  repeat' (first
    | with_reducible assumption | with_reducible intro _ | with_reducible apply State.domainMsg_kept
    | with_reducible apply State.sendFence_kept | with_reducible apply KeptO.next | with_reducible apply KeptO.fault
    | with_reducible apply Kept.cond | split)

theorem execTimeResp_kept {s0 s : State} (t1 t2 t3 t4 : Nat) (hs : Kept s0 s) : KeptO s0 (execTimeResp t1 t2 t3 t4 s) := by
  unfold execTimeResp
  try dsimp only
  repeat' (first
    | with_reducible assumption | with_reducible intro _ | with_reducible apply State.setServo_kept
    | with_reducible apply State.measure_kept | with_reducible apply KeptO.next | with_reducible apply KeptO.fault
    | with_reducible apply Kept.cond | split
    | (refine Kept.fields rfl rfl rfl rfl rfl ?_; first
      | with_reducible assumption | with_reducible intro _ | with_reducible apply State.setServo_kept
      | with_reducible apply State.measure_kept | with_reducible apply KeptO.next | with_reducible apply KeptO.fault
      | with_reducible apply Kept.cond | split))

theorem expelRule_kept {s0 s : State} (d : Nat) (_u1 : ObjRow) (hs : Kept s0 s) : KeptE s0 (expelRule d _u1 s) := by
  unfold expelRule
  try dsimp only
  repeat' (first
    | with_reducible assumption | with_reducible intro _ | with_reducible apply State.setG_kept
    | with_reducible apply State.declareDevice_kept | with_reducible apply KeptE.ok | with_reducible apply KeptE.error
    | (with_reducible refine KeptE.bindS ?_ (fun _ _ => ?_)) | (with_reducible refine KeptE.bind (fun _ => ?_))
    | with_reducible apply Kept.cond | split
    | (refine Kept.fields rfl rfl rfl rfl rfl ?_; first
      | with_reducible assumption | with_reducible intro _ | with_reducible apply State.setG_kept
      | with_reducible apply State.declareDevice_kept))

theorem execExpel_kept {s0 s : State} (path : Path) (d : Nat) (hs : Kept s0 s) : KeptO s0 (execExpel path d s) := by
  unfold execExpel
  try dsimp only
  repeat' (first
    | with_reducible assumption | with_reducible intro _ | with_reducible apply State.access_kept
    | with_reducible apply expelRule_kept | (with_reducible refine KeptE.get (expelRule_kept _ _  ?_) (by assumption))
    | with_reducible apply KeptO.next)

theorem readmitRule_kept {s0 s : State} (d : Nat) (_u1 : ObjRow) (hs : Kept s0 s) : KeptE s0 (readmitRule d _u1 s) := by
  unfold readmitRule
  try dsimp only
  repeat' (first
    | with_reducible assumption | with_reducible intro _ | with_reducible apply State.changeView_kept
    | with_reducible apply KeptE.ok | with_reducible apply KeptE.error
    | (with_reducible refine KeptE.bindS ?_ (fun _ _ => ?_)) | (with_reducible refine KeptE.bind (fun _ => ?_))
    | with_reducible apply Kept.cond | split
    | (refine Kept.fields rfl rfl rfl rfl rfl ?_; first
      | with_reducible assumption))

theorem execReadmit_kept {s0 s : State} (path : Path) (d : Nat) (hs : Kept s0 s) : KeptO s0 (execReadmit path d s) := by
  unfold execReadmit
  try dsimp only
  repeat' (first
    | with_reducible assumption | with_reducible intro _ | with_reducible apply State.access_kept
    | with_reducible apply readmitRule_kept
    | (with_reducible refine KeptE.get (readmitRule_kept _ _  ?_) (by assumption)) | with_reducible apply KeptO.next)

theorem State.setConfigured_kept {s0 s : State} (value : Nat) (hs : Kept s0 s) : Kept s0 (State.setConfigured s
    value) := by
  unfold State.setConfigured
  try dsimp only
  repeat' (first
    | with_reducible assumption | with_reducible intro _ | with_reducible apply State.setG_kept
    | with_reducible apply State.noticeMgrs_kept | with_reducible apply State.mark_kept
    | with_reducible apply State.relayAll_kept | with_reducible apply Kept.cond)

theorem execConfiguredMasterWrite_kept {s0 s : State} (path : Path) (value : Nat) (hs : Kept s0 s) : KeptO s0
    (execConfiguredMasterWrite path value s) := by
  unfold execConfiguredMasterWrite
  try dsimp only
  repeat' (first
    | with_reducible assumption | with_reducible intro _ | with_reducible apply State.access_kept
    | with_reducible apply storeRule_kept
    | (with_reducible refine KeptE.get (storeRule_kept _ _ _ _ _  ?_) (by assumption))
    | with_reducible apply KeptO.next)

theorem State.storeG_kept {s0 s : State} (index sub v : Nat) (hs : Kept s0 s) : Kept s0 (State.storeG s index sub v) := by
  unfold State.storeG
  try dsimp only
  repeat' (first
    | with_reducible assumption | with_reducible intro _ | with_reducible apply State.setG_kept | split
    | (refine Kept.fields rfl rfl rfl rfl rfl ?_; first
      | with_reducible assumption | with_reducible intro _ | with_reducible apply State.setG_kept))

theorem State.rebuildColophon_kept {s0 s : State}  (hs : Kept s0 s) : Kept s0 (State.rebuildColophon s) := by
  unfold State.rebuildColophon
  try dsimp only
  repeat' (first
    | with_reducible assumption | with_reducible intro _ | with_reducible apply State.setG_kept
    | with_reducible apply State.storeG_kept)

theorem State.destroyAll_kept {s0 s : State}  (xs : List Nat) (hs : Kept s0 s) : Kept s0 (State.destroyAll s xs) := by
  induction xs generalizing s  with
  | nil =>
    unfold State.destroyAll
    try dsimp only
    repeat' (first | with_reducible assumption) | cons e es ih =>
    unfold State.destroyAll
    try dsimp only
    repeat' (first
      | with_reducible assumption | with_reducible intro _ | with_reducible apply ih
      | with_reducible apply State.setO_kept | with_reducible apply State.beginReset_kept)

theorem State.finishUnlock_kept {s0 s : State}  (hs : Kept s0 s) : Kept s0 (State.finishUnlock s) := by
  unfold State.finishUnlock
  try dsimp only
  repeat' (first
    | with_reducible assumption | with_reducible intro _ | with_reducible apply State.setG_kept
    | with_reducible apply State.rotatePages_kept | with_reducible apply State.rebuildColophon_kept
    | with_reducible apply State.destroyAll_kept | split
    | (refine Kept.fields rfl rfl rfl rfl rfl ?_; first
      | with_reducible assumption | with_reducible intro _ | with_reducible apply State.setG_kept
      | with_reducible apply State.rotatePages_kept))

theorem execPbeatSend_kept {s0 s : State}  (hs : Kept s0 s) : KeptO s0 (execPbeatSend s) := by
  unfold execPbeatSend
  try dsimp only
  repeat' (first
    | with_reducible assumption | with_reducible intro _ | with_reducible apply State.onPartnerLanes_kept
    | with_reducible apply KeptO.next | with_reducible apply KeptO.fault | with_reducible apply Kept.cond | split)

theorem execPbeat_kept {s0 s : State} (state frame : Nat) (hs : Kept s0 s) : KeptO s0 (execPbeat state frame s) := by
  unfold execPbeat
  try dsimp only
  repeat' (first
    | with_reducible assumption | with_reducible intro _ | with_reducible apply State.setPartner_kept
    | with_reducible apply State.mark_kept | with_reducible apply KeptO.next | with_reducible apply KeptO.fault
    | with_reducible apply Kept.cond | split)

theorem execPartnerUnprotectedTimeout_kept {s0 s : State}  (hs : Kept s0 s) : KeptO s0 (execPartnerUnprotectedTimeout
    s) := by
  unfold execPartnerUnprotectedTimeout
  try dsimp only
  repeat' (first
    | with_reducible assumption | with_reducible intro _ | with_reducible apply State.raise_kept
    | with_reducible apply State.setPartner_kept | with_reducible apply KeptO.next | with_reducible apply KeptO.fault
    | with_reducible apply Kept.cond | split)

theorem State.shipPieces_kept {s0 s : State} (lanes : List Nat) (total : Nat) (xs : List (List Byte × Nat)) (hs : Kept
    s0 s) : Kept s0 (State.shipPieces s lanes total xs) := by
  induction xs generalizing s lanes total with
  | nil =>
    unfold State.shipPieces
    try dsimp only
    repeat' (first | with_reducible assumption) | cons e es ih =>
    unfold State.shipPieces
    try dsimp only
    repeat' (first
      | with_reducible assumption | with_reducible intro _ | with_reducible apply ih
      | with_reducible apply State.domainOn_kept)

theorem execShipmentStart_kept {s0 s : State}  (hs : Kept s0 s) : KeptO s0 (execShipmentStart s) := by
  unfold execShipmentStart
  try dsimp only
  repeat' (first
    | with_reducible assumption | with_reducible intro _ | with_reducible apply State.setG_kept
    | with_reducible apply State.shipPieces_kept | with_reducible apply KeptO.next | with_reducible apply KeptO.fault
    | with_reducible apply Kept.cond | split)

theorem State.putAt_kept {s0 s : State} (f : Nat) (a : DevAddr) (xs : List (Byte × Nat)) (hs : Kept s0 s) : Kept s0
    (State.putAt s f a xs) := by
  induction xs generalizing s f a with
  | nil =>
    unfold State.putAt
    try dsimp only
    repeat' (first | with_reducible assumption) | cons e es ih =>
    unfold State.putAt
    try dsimp only
    repeat' (first
      | with_reducible assumption | with_reducible intro _ | with_reducible apply ih
      | with_reducible apply State.wr_kept)

theorem State.keepShipment_kept {s0 s : State} (b : List Byte) (hs : Kept s0 s) : Kept s0 (State.keepShipment s b) := by
  unfold State.keepShipment
  try dsimp only
  repeat' (first
    | with_reducible assumption | with_reducible intro _ | with_reducible apply State.setG_kept
    | with_reducible apply State.putAt_kept | split
    | (refine Kept.fields rfl rfl rfl rfl rfl ?_; first
      | with_reducible assumption | with_reducible intro _ | with_reducible apply State.setG_kept
      | with_reducible apply State.putAt_kept))

theorem State.takePiece_kept {s0 s : State} (offset total : Nat) (data : List Byte) (hs : Kept s0 s) : Kept s0
    (State.takePiece s offset total data) := by
  unfold State.takePiece
  try dsimp only
  repeat' (first
    | with_reducible assumption | with_reducible intro _ | with_reducible apply State.closeShipment_kept
    | with_reducible apply State.keepShipment_kept | with_reducible apply Kept.cond | split
    | (refine Kept.fields rfl rfl rfl rfl rfl ?_; first
      | with_reducible assumption))

theorem execPstate_kept {s0 s : State} (frame offset total : Nat) (data : List Byte) (hs : Kept s0 s) : KeptO s0
    (execPstate frame offset total data s) := by
  unfold execPstate
  try dsimp only
  repeat' (first
    | with_reducible assumption | with_reducible intro _ | with_reducible apply State.addG_kept
    | with_reducible apply State.closeShipment_kept | with_reducible apply State.takePiece_kept
    | with_reducible apply KeptO.next | with_reducible apply KeptO.fault | with_reducible apply Kept.cond | split
    | (refine Kept.fields rfl rfl rfl rfl rfl ?_; first
      | with_reducible assumption))

theorem execRelinquish_kept {s0 s : State} (frame : Nat) (hs : Kept s0 s) : KeptO s0 (execRelinquish frame s) := by
  unfold execRelinquish
  try dsimp only
  repeat' (first
    | with_reducible assumption | with_reducible intro _ | with_reducible apply State.acceptTakeover_kept
    | with_reducible apply KeptO.next | with_reducible apply KeptO.fault | with_reducible apply Kept.cond | split)

theorem execClaim_kept {s0 s : State} (frame : Nat) (hs : Kept s0 s) : KeptO s0 (execClaim frame s) := by
  unfold execClaim
  try dsimp only
  repeat' (first
    | with_reducible assumption | with_reducible apply State.stopBy_kept | with_reducible intro _ | with_reducible
        apply KeptO.next
    | with_reducible apply KeptO.fault | with_reducible apply Kept.cond | split
    | (refine Kept.fields rfl rfl rfl rfl rfl ?_; first
      | with_reducible assumption))

theorem execCellsStop_kept {s0 s : State}  (hs : Kept s0 s) : KeptO s0 (execCellsStop s) := by
  unfold execCellsStop
  try dsimp only
  repeat' (first
    | with_reducible assumption | with_reducible apply State.stopHeld_kept | with_reducible intro _ | with_reducible
        apply State.stopCells_kept
    | with_reducible apply State.finishUnlock_kept | with_reducible apply KeptO.next
    | with_reducible apply KeptO.fault | with_reducible apply Kept.cond | split)

theorem handBackRule_kept {s0 s : State} (frame : Nat) (_u1 : ObjRow) (hs : Kept s0 s) : KeptE s0 (handBackRule frame
    _u1 s) := by
  unfold handBackRule
  try dsimp only
  repeat' (first
    | with_reducible assumption | with_reducible intro _ | with_reducible apply State.toPartner_kept
    | with_reducible apply KeptE.ok | with_reducible apply KeptE.error
    | (with_reducible refine KeptE.bindS ?_ (fun _ _ => ?_)) | (with_reducible refine KeptE.bind (fun _ => ?_))
    | split
    | (refine Kept.fields rfl rfl rfl rfl rfl ?_; first
      | with_reducible assumption))

theorem execHandBackWrite_kept {s0 s : State} (path : Path) (frame : Nat) (hs : Kept s0 s) : KeptO s0
    (execHandBackWrite path frame s) := by
  unfold execHandBackWrite
  try dsimp only
  repeat' (first
    | with_reducible assumption | with_reducible intro _ | with_reducible apply State.access_kept
    | with_reducible apply handBackRule_kept
    | (with_reducible refine KeptE.get (handBackRule_kept _ _  ?_) (by assumption)) | with_reducible apply KeptO.next)

theorem State.setFwResult_kept {s0 s : State} (d v : Nat) (hs : Kept s0 s) : Kept s0 (State.setFwResult s d v) := by
  unfold State.setFwResult
  try dsimp only
  repeat' (first | with_reducible assumption | with_reducible intro _ | with_reducible apply State.setG_kept)

theorem State.setFwResults_kept {s0 s : State} (v : Nat) (xs : List Nat) (hs : Kept s0 s) : Kept s0
    (State.setFwResults s v xs) := by
  induction xs generalizing s v with
  | nil =>
    unfold State.setFwResults
    try dsimp only
    repeat' (first | with_reducible assumption) | cons e es ih =>
    unfold State.setFwResults
    try dsimp only
    repeat' (first
      | with_reducible assumption | with_reducible intro _ | with_reducible apply ih
      | with_reducible apply State.setFwResult_kept)

theorem State.sendChunks_kept {s0 s : State}  (xs : List Nat) (hs : Kept s0 s) : Kept s0 (State.sendChunks s xs) := by
  induction xs generalizing s  with
  | nil =>
    unfold State.sendChunks
    try dsimp only
    repeat' (first | with_reducible assumption) | cons e es ih =>
    unfold State.sendChunks
    try dsimp only
    repeat' (first
      | with_reducible assumption | with_reducible intro _ | with_reducible apply ih
      | with_reducible apply State.relayAll_kept)

theorem State.resendChunks_kept {s0 s : State} (d : Nat) (xs : List Nat) (hs : Kept s0 s) : Kept s0
    (State.resendChunks s d xs) := by
  induction xs generalizing s d with
  | nil =>
    unfold State.resendChunks
    try dsimp only
    repeat' (first | with_reducible assumption) | cons e es ih =>
    unfold State.resendChunks
    try dsimp only
    repeat' (first
      | with_reducible assumption | with_reducible intro _ | with_reducible apply ih
      | with_reducible apply State.domainMsg_kept)

theorem distributionRule_kept {s0 s : State} (length version : Nat) (_u1 : ObjRow) (hs : Kept s0 s) : KeptE s0
    (distributionRule length version _u1 s) := by
  unfold distributionRule
  try dsimp only
  repeat' (first
    | with_reducible assumption | with_reducible intro _ | with_reducible apply State.setG_kept
    | with_reducible apply State.setFwResults_kept | with_reducible apply State.sendChunks_kept
    | with_reducible apply KeptE.ok | with_reducible apply KeptE.error
    | (with_reducible refine KeptE.bindS ?_ (fun _ _ => ?_)) | (with_reducible refine KeptE.bind (fun _ => ?_))
    | split
    | (refine Kept.fields rfl rfl rfl rfl rfl ?_; first
      | with_reducible assumption | with_reducible intro _ | with_reducible apply State.setG_kept))

theorem execFirmwareDistributionStart_kept {s0 s : State} (path : Path) (length version : Nat) (hs : Kept s0 s) :
    KeptO s0 (execFirmwareDistributionStart path length version s) := by
  unfold execFirmwareDistributionStart
  try dsimp only
  repeat' (first
    | with_reducible assumption | with_reducible intro _ | with_reducible apply State.access_kept
    | with_reducible apply distributionRule_kept
    | (with_reducible refine KeptE.get (distributionRule_kept _ _ _  ?_) (by assumption))
    | with_reducible apply KeptO.next)

theorem State.beginStage_kept {s0 s : State} (version : Nat) (hs : Kept s0 s) : Kept s0 (State.beginStage s version) := by
  unfold State.beginStage
  try dsimp only
  repeat' (first
    | with_reducible assumption | with_reducible intro _ | with_reducible apply State.setG_kept | split
    | (refine Kept.fields rfl rfl rfl rfl rfl ?_; first
      | with_reducible assumption))

theorem State.checkImage_kept {s0 s : State} (verified : Bool) (hs : Kept s0 s) : Kept s0 (State.checkImage s
    verified) := by
  unfold State.checkImage
  try dsimp only
  repeat' (first
    | with_reducible assumption | with_reducible intro _ | with_reducible apply State.setG_kept
    | with_reducible apply State.fresh_kept | with_reducible apply Kept.cond)

theorem State.holdChunk_kept {s0 s : State} (index count : Nat) (verified : Bool) (hs : Kept s0 s) : Kept s0
    (State.holdChunk s index count verified) := by
  unfold State.holdChunk
  try dsimp only
  repeat' (first
    | with_reducible assumption | with_reducible intro _ | with_reducible apply State.setG_kept
    | with_reducible apply State.checkImage_kept | with_reducible apply Kept.cond | split
    | (refine Kept.fields rfl rfl rfl rfl rfl ?_; first
      | with_reducible assumption))

theorem execChunk_kept {s0 s : State} (index count version : Nat) (verified relay : Bool) (hs : Kept s0 s) : KeptO s0
    (execChunk index count version verified relay s) := by
  unfold execChunk
  try dsimp only
  repeat' (first
    | with_reducible assumption | with_reducible intro _ | with_reducible apply State.domainMsg_kept
    | with_reducible apply State.passOn_kept | with_reducible apply State.beginStage_kept
    | with_reducible apply State.holdChunk_kept | with_reducible apply KeptO.next | with_reducible apply KeptO.fault
    | with_reducible apply Kept.cond | split)

theorem State.tryPrepare_kept {s0 s : State}  (hs : Kept s0 s) : Kept s0 (State.tryPrepare s) := by
  unfold State.tryPrepare
  try dsimp only
  repeat' (first
    | with_reducible assumption | with_reducible intro _ | with_reducible apply State.relayAll_kept
    | with_reducible apply Kept.cond | split
    | (refine Kept.fields rfl rfl rfl rfl rfl ?_; first
      | with_reducible assumption))

theorem State.fwFinish_kept {s0 s : State} (d : Nat) (hs : Kept s0 s) : Kept s0 (State.fwFinish s d) := by
  unfold State.fwFinish
  try dsimp only
  repeat' (first
    | with_reducible assumption | with_reducible intro _ | with_reducible apply State.tryPrepare_kept
    | with_reducible apply Kept.cond | split
    | (refine Kept.fields rfl rfl rfl rfl rfl ?_; first
      | with_reducible assumption))

theorem execBitmap_kept {s0 s : State} (d : Nat) (held : List Nat) (hs : Kept s0 s) : KeptO s0 (execBitmap d held s) := by
  unfold execBitmap
  try dsimp only
  repeat' (first
    | with_reducible assumption | with_reducible intro _ | with_reducible apply State.sendFence_kept
    | with_reducible apply State.setFwResult_kept | with_reducible apply State.resendChunks_kept
    | with_reducible apply State.fwFinish_kept | with_reducible apply KeptO.next | with_reducible apply KeptO.fault
    | with_reducible apply Kept.cond | split
    | (refine Kept.fields rfl rfl rfl rfl rfl ?_; first
      | with_reducible assumption))

theorem execPrepare_kept {s0 s : State} (version : Nat) (relay : Bool) (hs : Kept s0 s) : KeptO s0 (execPrepare
    version relay s) := by
  unfold execPrepare
  try dsimp only
  repeat' (first
    | with_reducible assumption | with_reducible intro _ | with_reducible apply State.setG_kept
    | with_reducible apply State.domainMsg_kept | with_reducible apply State.mark_kept
    | with_reducible apply State.passOn_kept | with_reducible apply KeptO.next | with_reducible apply KeptO.fault
    | with_reducible apply Kept.cond | split)

theorem execVote_kept {s0 s : State} (d : Nat) (yes : Bool) (hs : Kept s0 s) : KeptO s0 (execVote d yes s) := by
  unfold execVote
  try dsimp only
  repeat' (first
    | with_reducible assumption | with_reducible intro _ | with_reducible apply State.domainMsg_kept
    | with_reducible apply State.sendFence_kept | with_reducible apply State.setFwResult_kept
    | with_reducible apply KeptO.next | with_reducible apply KeptO.fault | with_reducible apply Kept.cond | split)

theorem execCommit_kept {s0 s : State} (version : Nat) (hs : Kept s0 s) : KeptO s0 (execCommit version s) := by
  unfold execCommit
  try dsimp only
  repeat' (first
    | with_reducible assumption | with_reducible intro _ | with_reducible apply State.setG_kept
    | with_reducible apply State.storeG_kept | with_reducible apply KeptO.next | with_reducible apply KeptO.fault
    | with_reducible apply Kept.cond | split
    | (refine Kept.fields rfl rfl rfl rfl rfl ?_; first
      | with_reducible assumption | with_reducible intro _ | with_reducible apply State.setG_kept
      | with_reducible apply State.storeG_kept))

theorem execAbort_kept {s0 s : State} (version : Nat) (hs : Kept s0 s) : KeptO s0 (execAbort version s) := by
  unfold execAbort
  try dsimp only
  repeat' (first
    | with_reducible assumption | with_reducible intro _ | with_reducible apply State.setG_kept
    | with_reducible apply KeptO.next | with_reducible apply KeptO.fault | with_reducible apply Kept.cond | split)

theorem execCommitTimeout_kept {s0 s : State}  (hs : Kept s0 s) : KeptO s0 (execCommitTimeout s) := by
  unfold execCommitTimeout
  try dsimp only
  repeat' (first
    | with_reducible assumption | with_reducible intro _ | with_reducible apply State.setG_kept
    | with_reducible apply KeptO.next | with_reducible apply KeptO.fault | with_reducible apply Kept.cond | split)

theorem State.clearConfig_kept {s0 s : State} (f : Nat) (hs : Kept s0 s) : Kept s0 (State.clearConfig s f) := by
  unfold State.clearConfig
  try dsimp only
  repeat' (first
    | with_reducible assumption | with_reducible intro _ | with_reducible apply State.modFn_kept
    | (refine Kept.fields rfl rfl rfl rfl rfl ?_; first
      | with_reducible assumption | with_reducible intro _ | with_reducible apply State.modFn_kept | split))

theorem State.resetFns_kept {s0 s : State}  (xs : List Nat) (hs : Kept s0 s) : Kept s0 (State.resetFns s xs) := by
  induction xs generalizing s  with
  | nil =>
    unfold State.resetFns
    try dsimp only
    repeat' (first | with_reducible assumption) | cons e es ih =>
    unfold State.resetFns
    try dsimp only
    repeat' (first
      | with_reducible assumption | with_reducible intro _ | with_reducible apply ih
      | with_reducible apply State.beginReset_kept | with_reducible apply State.clearConfig_kept
      | with_reducible apply Kept.cond)

theorem State.dropLink_kept {s0 s : State} (p : Nat) (hs : Kept s0 s) : Kept s0 (State.dropLink s p) := by
  unfold State.dropLink
  try dsimp only
  repeat' (first | with_reducible assumption | with_reducible intro _ | with_reducible apply State.setG_kept)

theorem State.clearPort_kept {s0 s : State} (p : Nat) (hs : Kept s0 s) : Kept s0 (State.clearPort s p) := by
  unfold State.clearPort
  try dsimp only
  repeat' (first
    | with_reducible assumption | with_reducible intro _ | with_reducible apply State.setPort_kept
    | (refine Kept.fields rfl rfl rfl rfl rfl ?_; first
      | with_reducible assumption | with_reducible intro _ | with_reducible apply State.setPort_kept | split))

theorem State.portReset_kept {s0 s : State} (p : Nat) (hs : Kept s0 s) : Kept s0 (State.portReset s p) := by
  unfold State.portReset
  try dsimp only
  repeat' (first
    | with_reducible assumption | with_reducible intro _ | with_reducible apply State.resetFns_kept
    | with_reducible apply State.dropLink_kept | with_reducible apply State.clearPort_kept
    | with_reducible apply Kept.cond)

theorem execPcieLinkDown_kept {s0 s : State} (p : Nat) (hs : Kept s0 s) : KeptO s0 (execPcieLinkDown p s) := by
  unfold execPcieLinkDown
  try dsimp only
  repeat' (first
    | with_reducible assumption | with_reducible intro _ | with_reducible apply State.portReset_kept
    | with_reducible apply KeptO.next | with_reducible apply KeptO.fault | with_reducible apply Kept.cond | split)

theorem execHotReset_kept {s0 s : State} (p : Nat) (hs : Kept s0 s) : KeptO s0 (execHotReset p s) := by
  unfold execHotReset
  try dsimp only
  repeat' (first
    | with_reducible assumption | with_reducible intro _ | with_reducible apply State.portReset_kept
    | with_reducible apply KeptO.next | with_reducible apply KeptO.fault | with_reducible apply Kept.cond | split)

theorem execPerstAssert_kept {s0 s : State} (p : Nat) (hs : Kept s0 s) : KeptO s0 (execPerstAssert p s) := by
  unfold execPerstAssert
  try dsimp only
  repeat' (first
    | with_reducible assumption | with_reducible intro _ | with_reducible apply State.setPort_kept
    | with_reducible apply State.portReset_kept | with_reducible apply KeptO.next | with_reducible apply KeptO.fault
    | with_reducible apply Kept.cond | split
    | (refine Kept.fields rfl rfl rfl rfl rfl ?_; first
      | with_reducible assumption | with_reducible intro _ | with_reducible apply State.setPort_kept
      | with_reducible apply State.portReset_kept | with_reducible apply KeptO.next | with_reducible apply KeptO.fault
      | with_reducible apply Kept.cond | split))

theorem execPerstDeassert_kept {s0 s : State} (p : Nat) (hs : Kept s0 s) : KeptO s0 (execPerstDeassert p s) := by
  unfold execPerstDeassert
  try dsimp only
  repeat' (first
    | with_reducible assumption | with_reducible intro _ | with_reducible apply State.setPort_kept
    | with_reducible apply KeptO.next | with_reducible apply KeptO.fault | with_reducible apply Kept.cond | split
    | (refine Kept.fields rfl rfl rfl rfl rfl ?_; first
      | with_reducible assumption | with_reducible intro _ | with_reducible apply State.setPort_kept
      | with_reducible apply KeptO.next | with_reducible apply KeptO.fault | with_reducible apply Kept.cond | split))

theorem execPcieLinkUp_kept {s0 s : State} (p speed width : Nat) (hs : Kept s0 s) : KeptO s0 (execPcieLinkUp p speed
    width s) := by
  unfold execPcieLinkUp
  try dsimp only
  repeat' (first
    | with_reducible assumption | with_reducible intro _ | with_reducible apply State.setG_kept
    | with_reducible apply State.setPort_kept | with_reducible apply KeptO.next | with_reducible apply KeptO.fault
    | with_reducible apply Kept.cond | split
    | (refine Kept.fields rfl rfl rfl rfl rfl ?_; first
      | with_reducible assumption | with_reducible intro _ | with_reducible apply State.setG_kept
      | with_reducible apply State.setPort_kept | with_reducible apply KeptO.next | with_reducible apply KeptO.fault
      | with_reducible apply Kept.cond | split))

theorem execVfFlr_kept {s0 s : State} (f : Nat) (hs : Kept s0 s) : KeptO s0 (execVfFlr f s) := by
  unfold execVfFlr
  try dsimp only
  repeat' (first
    | with_reducible assumption | with_reducible intro _ | with_reducible apply State.resetFns_kept
    | with_reducible apply KeptO.next | with_reducible apply KeptO.fault | with_reducible apply Kept.cond | split)

theorem execPfFlr_kept {s0 s : State} (p : Nat) (hs : Kept s0 s) : KeptO s0 (execPfFlr p s) := by
  unfold execPfFlr
  try dsimp only
  repeat' (first
    | with_reducible assumption | with_reducible intro _ | with_reducible apply State.resetFns_kept
    | with_reducible apply State.clearPort_kept | with_reducible apply KeptO.next | with_reducible apply KeptO.fault
    | with_reducible apply Kept.cond | split)

theorem execD3hotEntry_kept {s0 s : State} (f : Nat) (hs : Kept s0 s) : KeptO s0 (execD3hotEntry f s) := by
  unfold execD3hotEntry
  try dsimp only
  repeat' (first
    | with_reducible assumption | with_reducible intro _ | with_reducible apply State.modFn_kept
    | with_reducible apply KeptO.next | with_reducible apply KeptO.fault | with_reducible apply Kept.cond | split
    | (refine Kept.fields rfl rfl rfl rfl rfl ?_; first
      | with_reducible assumption | with_reducible intro _ | with_reducible apply State.modFn_kept
      | with_reducible apply KeptO.next | with_reducible apply KeptO.fault | with_reducible apply Kept.cond | split))

theorem execD3hotToD0_kept {s0 s : State} (f : Nat) (hs : Kept s0 s) : KeptO s0 (execD3hotToD0 f s) := by
  unfold execD3hotToD0
  try dsimp only
  repeat' (first
    | with_reducible assumption | with_reducible intro _ | with_reducible apply State.clearConfig_kept
    | with_reducible apply State.resetFns_kept | with_reducible apply KeptO.next | with_reducible apply KeptO.fault
    | with_reducible apply Kept.cond | split)

theorem execNumvfsWrite_kept {s0 s : State} (p num : Nat) (enable : Bool) (hs : Kept s0 s) : KeptO s0 (execNumvfsWrite
    p num enable s) := by
  unfold execNumvfsWrite
  try dsimp only
  repeat' (first
    | with_reducible assumption | with_reducible intro _ | with_reducible apply State.setPort_kept
    | with_reducible apply KeptO.next | with_reducible apply KeptO.fault | with_reducible apply Kept.cond | split
    | (refine Kept.fields rfl rfl rfl rfl rfl ?_; first
      | with_reducible assumption | with_reducible intro _ | with_reducible apply State.setPort_kept
      | with_reducible apply KeptO.next | with_reducible apply KeptO.fault | with_reducible apply Kept.cond | split))

theorem execVfEnableClear_kept {s0 s : State} (p : Nat) (hs : Kept s0 s) : KeptO s0 (execVfEnableClear p s) := by
  unfold execVfEnableClear
  try dsimp only
  repeat' (first
    | with_reducible assumption | with_reducible intro _ | with_reducible apply State.setPort_kept
    | with_reducible apply State.resetFns_kept | with_reducible apply KeptO.next | with_reducible apply KeptO.fault
    | with_reducible apply Kept.cond | split
    | (refine Kept.fields rfl rfl rfl rfl rfl ?_; first
      | with_reducible assumption | with_reducible intro _ | with_reducible apply State.setPort_kept
      | with_reducible apply State.resetFns_kept | with_reducible apply KeptO.next | with_reducible apply KeptO.fault
      | with_reducible apply Kept.cond | split))

theorem execPtmEnableClear_kept {s0 s : State}  (hs : Kept s0 s) : KeptO s0 (execPtmEnableClear s) := by
  unfold execPtmEnableClear
  try dsimp only
  repeat' (first
    | with_reducible assumption | with_reducible intro _ | with_reducible apply State.setPort_kept
    | with_reducible apply KeptO.next
    | (refine Kept.fields rfl rfl rfl rfl rfl ?_; first
      | with_reducible assumption | with_reducible intro _ | with_reducible apply State.setPort_kept
      | with_reducible apply KeptO.next | with_reducible apply KeptO.fault | split))

theorem execMsixUnmask_kept {s0 s : State} (f v : Nat) (hs : Kept s0 s) : KeptO s0 (execMsixUnmask f v s) := by
  unfold execMsixUnmask
  try dsimp only
  repeat' (first
    | with_reducible assumption | with_reducible intro _ | with_reducible apply State.modFn_kept
    | with_reducible apply State.msix_kept | with_reducible apply KeptO.next | with_reducible apply KeptO.fault
    | with_reducible apply Kept.cond | split
    | (refine Kept.fields rfl rfl rfl rfl rfl ?_; first
      | with_reducible assumption | with_reducible intro _ | with_reducible apply State.modFn_kept
      | with_reducible apply State.msix_kept | with_reducible apply KeptO.next | with_reducible apply KeptO.fault
      | with_reducible apply Kept.cond | split))

theorem noticeRule_kept {s0 s : State} (f bits : Nat) (_u1 : ObjRow) (hs : Kept s0 s) : KeptE s0 (noticeRule f bits
    _u1 s) := by
  unfold noticeRule
  try dsimp only
  repeat' (first
    | with_reducible assumption | with_reducible intro _ | with_reducible apply State.setO_kept
    | with_reducible apply KeptE.ok)

theorem execNoticeClear_kept {s0 s : State} (path : Path) (f bits : Nat) (hs : Kept s0 s) : KeptO s0 (execNoticeClear
    path f bits s) := by
  unfold execNoticeClear
  try dsimp only
  repeat' (first
    | with_reducible assumption | with_reducible intro _ | with_reducible apply State.access_kept
    | with_reducible apply noticeRule_kept
    | (with_reducible refine KeptE.get (noticeRule_kept _ _ _  ?_) (by assumption)) | with_reducible apply KeptO.next)

theorem State.linkError_kept {s0 s : State} (p f severity : Nat) (hs : Kept s0 s) : Kept s0 (State.linkError s p f
    severity) := by
  unfold State.linkError
  try dsimp only
  repeat' (first
    | with_reducible assumption | with_reducible intro _ | with_reducible apply State.addG_kept
    | with_reducible apply State.send_kept)

theorem execCorrectableLinkError_kept {s0 s : State} (p : Nat) (hs : Kept s0 s) : KeptO s0 (execCorrectableLinkError p
    s) := by
  unfold execCorrectableLinkError
  try dsimp only
  repeat' (first
    | with_reducible assumption | with_reducible intro _ | with_reducible apply State.linkError_kept
    | with_reducible apply KeptO.next | with_reducible apply KeptO.fault | with_reducible apply Kept.cond | split)

theorem execPoisonedWrite_kept {s0 s : State} (f target : Nat) (hs : Kept s0 s) : KeptO s0 (execPoisonedWrite f target
    s) := by
  unfold execPoisonedWrite
  try dsimp only
  repeat' (first
    | with_reducible assumption | with_reducible intro _ | with_reducible apply State.linkError_kept
    | with_reducible apply KeptO.next | with_reducible apply KeptO.fault | with_reducible apply Kept.cond | split)

theorem execHostReadCompletionError_kept {s0 s : State} (p : Nat) (firmware : Bool) (cid : Nat) (hs : Kept s0 s) :
    KeptO s0 (execHostReadCompletionError p firmware cid s) := by
  unfold execHostReadCompletionError
  try dsimp only
  repeat' (first
    | with_reducible assumption | with_reducible intro _ | with_reducible apply State.setG_kept
    | with_reducible apply State.conclude_kept | with_reducible apply State.startFree_kept
    | with_reducible apply State.linkError_kept | with_reducible apply KeptO.next | with_reducible apply KeptO.fault
    | with_reducible apply Kept.cond | split
    | (refine Kept.fields rfl rfl rfl rfl rfl ?_; first
      | with_reducible assumption | with_reducible intro _ | with_reducible apply State.setG_kept
      | with_reducible apply State.conclude_kept | with_reducible apply State.startFree_kept
      | with_reducible apply State.linkError_kept))

theorem execFatalLinkError_kept {s0 s : State} (p : Nat) (hs : Kept s0 s) : KeptO s0 (execFatalLinkError p s) := by
  unfold execFatalLinkError
  try dsimp only
  repeat' (first
    | with_reducible assumption | with_reducible intro _ | with_reducible apply State.portReset_kept
    | with_reducible apply State.linkError_kept | with_reducible apply KeptO.next | with_reducible apply KeptO.fault
    | with_reducible apply Kept.cond | split)

theorem State.setSpdm_kept {s0 s : State} (t : Nat) (x : Spdm) (hs : Kept s0 s) : Kept s0 (State.setSpdm s t x) := by
  unfold State.setSpdm
  try dsimp only
  repeat' (first
    | with_reducible assumption | with_reducible intro _ | split
    | (refine Kept.fields rfl rfl rfl rfl rfl ?_; first
      | with_reducible assumption))

theorem State.spdmAnswer_kept {s0 s : State} (t code : Nat) (data : List Nat) (hs : Kept s0 s) : Kept s0
    (State.spdmAnswer s t code data) := by
  unfold State.spdmAnswer
  try dsimp only
  repeat' (first | with_reducible assumption | with_reducible intro _ | with_reducible apply State.send_kept)

theorem State.spdmError_kept {s0 s : State} (t e : Nat) (hs : Kept s0 s) : Kept s0 (State.spdmError s t e) := by
  unfold State.spdmError
  try dsimp only
  repeat' (first | with_reducible assumption | with_reducible intro _ | with_reducible apply State.spdmAnswer_kept)

theorem State.signed_kept {s0 s : State} (t code : Nat) (data : List Nat) (hs : Kept s0 s) : Kept s0 (State.signed s t
    code data) := by
  unfold State.signed
  try dsimp only
  repeat' (first
    | with_reducible assumption | with_reducible intro _ | with_reducible apply State.fresh_kept
    | with_reducible apply State.spdmAnswer_kept)

theorem State.onSpdm_kept {s0 s : State} (t : Nat) (ready : Spdm → Bool) (k : Spdm → State) (hk : ∀ _x0, Kept s0 (k
    _x0)) (hs : Kept s0 s) : KeptO s0 (State.onSpdm s t ready k) := by
  unfold State.onSpdm
  try dsimp only
  repeat' (first
    | with_reducible assumption | with_reducible intro _ | with_reducible apply State.spdmError_kept
    | with_reducible apply hk | with_reducible apply KeptO.next | with_reducible apply KeptO.fault
    | with_reducible apply Kept.cond | split)

theorem State.inSession_kept {s0 s : State} (t session : Nat) (k : Spdm → State) (hk : ∀ _x0, Kept s0 (k _x0)) (hs :
    Kept s0 s) : KeptO s0 (State.inSession s t session k) := by
  unfold State.inSession
  try dsimp only
  repeat' (first
    | with_reducible assumption | with_reducible intro _ | with_reducible apply State.spdmError_kept
    | with_reducible apply State.onSpdm_kept | with_reducible apply hk | with_reducible apply KeptO.next
    | with_reducible apply KeptO.fault | with_reducible apply Kept.cond)

theorem execGetVersion_kept {s0 s : State} (t : Nat) (hs : Kept s0 s) : KeptO s0 (execGetVersion t s) := by
  unfold execGetVersion
  try dsimp only
  repeat' (first
    | with_reducible assumption | with_reducible intro _ | with_reducible apply State.setSpdm_kept
    | with_reducible apply State.spdmAnswer_kept | with_reducible apply State.onSpdm_kept
    | (refine Kept.fields rfl rfl rfl rfl rfl ?_; first
      | with_reducible assumption | with_reducible intro _ | with_reducible apply State.setSpdm_kept
      | with_reducible apply State.spdmAnswer_kept | with_reducible apply State.onSpdm_kept
      | with_reducible apply KeptO.next | with_reducible apply KeptO.fault | split))

theorem execGetCapabilities_kept {s0 s : State} (t : Nat) (hs : Kept s0 s) : KeptO s0 (execGetCapabilities t s) := by
  unfold execGetCapabilities
  try dsimp only
  repeat' (first
    | with_reducible assumption | with_reducible intro _ | with_reducible apply State.setSpdm_kept
    | with_reducible apply State.spdmAnswer_kept | with_reducible apply State.onSpdm_kept
    | (refine Kept.fields rfl rfl rfl rfl rfl ?_; first
      | with_reducible assumption | with_reducible intro _ | with_reducible apply State.setSpdm_kept
      | with_reducible apply State.spdmAnswer_kept | with_reducible apply State.onSpdm_kept
      | with_reducible apply KeptO.next | with_reducible apply KeptO.fault | split))

theorem execNegotiateAlgorithms_kept {s0 s : State} (t : Nat) (supported : Bool) (hs : Kept s0 s) : KeptO s0
    (execNegotiateAlgorithms t supported s) := by
  unfold execNegotiateAlgorithms
  try dsimp only
  repeat' (first
    | with_reducible assumption | with_reducible intro _ | with_reducible apply State.setSpdm_kept
    | with_reducible apply State.spdmAnswer_kept | with_reducible apply State.onSpdm_kept
    | (refine Kept.fields rfl rfl rfl rfl rfl ?_; first
      | with_reducible assumption | with_reducible intro _ | with_reducible apply State.setSpdm_kept
      | with_reducible apply State.spdmAnswer_kept | with_reducible apply State.onSpdm_kept
      | with_reducible apply KeptO.next | with_reducible apply KeptO.fault | split))

theorem execGetDigests_kept {s0 s : State} (t : Nat) (hs : Kept s0 s) : KeptO s0 (execGetDigests t s) := by
  unfold execGetDigests
  try dsimp only
  repeat' (first
    | with_reducible assumption | with_reducible intro _ | with_reducible apply State.spdmAnswer_kept
    | with_reducible apply State.onSpdm_kept)

theorem execGetCertificate_kept {s0 s : State} (t slot offset length : Nat) (hs : Kept s0 s) : KeptO s0
    (execGetCertificate t slot offset length s) := by
  unfold execGetCertificate
  try dsimp only
  repeat' (first
    | with_reducible assumption | with_reducible intro _ | with_reducible apply State.spdmAnswer_kept
    | with_reducible apply State.spdmError_kept | with_reducible apply State.onSpdm_kept
    | with_reducible apply KeptO.next | with_reducible apply KeptO.fault | with_reducible apply Kept.cond)

theorem execChallenge_kept {s0 s : State} (t slot : Nat) (hs : Kept s0 s) : KeptO s0 (execChallenge t slot s) := by
  unfold execChallenge
  try dsimp only
  repeat' (first
    | with_reducible assumption | with_reducible intro _ | with_reducible apply State.spdmError_kept
    | with_reducible apply State.signed_kept | with_reducible apply State.onSpdm_kept
    | with_reducible apply KeptO.next | with_reducible apply KeptO.fault | with_reducible apply Kept.cond)

theorem execGetMeasurements_kept {s0 s : State} (t index : Nat) (signed : Bool) (hs : Kept s0 s) : KeptO s0
    (execGetMeasurements t index signed s) := by
  unfold execGetMeasurements
  try dsimp only
  repeat' (first
    | with_reducible assumption | with_reducible intro _ | with_reducible apply State.spdmAnswer_kept
    | with_reducible apply State.spdmError_kept | with_reducible apply State.signed_kept
    | with_reducible apply State.onSpdm_kept | with_reducible apply KeptO.next | with_reducible apply KeptO.fault
    | with_reducible apply Kept.cond)

theorem execKeyExchange_kept {s0 s : State} (t : Nat) (hs : Kept s0 s) : KeptO s0 (execKeyExchange t s) := by
  unfold execKeyExchange
  try dsimp only
  repeat' (first
    | with_reducible assumption | with_reducible intro _ | with_reducible apply State.raise_kept
    | with_reducible apply State.setSpdm_kept | with_reducible apply State.spdmError_kept
    | with_reducible apply State.signed_kept | with_reducible apply State.onSpdm_kept
    | with_reducible apply KeptO.next | with_reducible apply KeptO.fault | with_reducible apply Kept.cond
    | (refine Kept.fields rfl rfl rfl rfl rfl ?_; first
      | with_reducible assumption | with_reducible intro _ | with_reducible apply State.raise_kept
      | with_reducible apply State.setSpdm_kept | with_reducible apply State.spdmError_kept
      | with_reducible apply State.signed_kept | with_reducible apply State.onSpdm_kept
      | with_reducible apply KeptO.next | with_reducible apply KeptO.fault | with_reducible apply Kept.cond | split))

theorem execFinish_kept {s0 s : State} (t session : Nat) (macOk : Bool) (hs : Kept s0 s) : KeptO s0 (execFinish t
    session macOk s) := by
  unfold execFinish
  try dsimp only
  repeat' (first
    | with_reducible assumption | with_reducible intro _ | with_reducible apply State.setSpdm_kept
    | with_reducible apply State.spdmAnswer_kept | with_reducible apply State.spdmError_kept
    | with_reducible apply State.onSpdm_kept | with_reducible apply KeptO.next | with_reducible apply KeptO.fault
    | with_reducible apply Kept.cond
    | (refine Kept.fields rfl rfl rfl rfl rfl ?_; first
      | with_reducible assumption | with_reducible intro _ | with_reducible apply State.setSpdm_kept
      | with_reducible apply State.spdmAnswer_kept | with_reducible apply State.spdmError_kept
      | with_reducible apply State.onSpdm_kept | with_reducible apply KeptO.next | with_reducible apply KeptO.fault
      | with_reducible apply Kept.cond | split))

theorem execEndSession_kept {s0 s : State} (t session : Nat) (hs : Kept s0 s) : KeptO s0 (execEndSession t session s) := by
  unfold execEndSession
  try dsimp only
  repeat' (first
    | with_reducible assumption | with_reducible intro _ | with_reducible apply State.setSpdm_kept
    | with_reducible apply State.spdmAnswer_kept | with_reducible apply State.inSession_kept
    | (refine Kept.fields rfl rfl rfl rfl rfl ?_; first
      | with_reducible assumption | with_reducible intro _ | with_reducible apply State.setSpdm_kept
      | with_reducible apply State.spdmAnswer_kept | with_reducible apply State.inSession_kept
      | with_reducible apply KeptO.next | with_reducible apply KeptO.fault | split))

theorem execHeartbeat_kept {s0 s : State} (t session : Nat) (hs : Kept s0 s) : KeptO s0 (execHeartbeat t session s) := by
  unfold execHeartbeat
  try dsimp only
  repeat' (first
    | with_reducible assumption | with_reducible intro _ | with_reducible apply State.spdmAnswer_kept
    | with_reducible apply State.inSession_kept)

theorem execKeyUpdate_kept {s0 s : State} (t session : Nat) (hs : Kept s0 s) : KeptO s0 (execKeyUpdate t session s) := by
  unfold execKeyUpdate
  try dsimp only
  repeat' (first
    | with_reducible assumption | with_reducible intro _ | with_reducible apply State.spdmAnswer_kept
    | with_reducible apply State.inSession_kept)

theorem execChunkSend_kept {s0 s : State} (t : Nat) (last : Bool) (bytes : Nat) (hs : Kept s0 s) : KeptO s0
    (execChunkSend t last bytes s) := by
  unfold execChunkSend
  try dsimp only
  repeat' (first
    | with_reducible assumption | with_reducible intro _ | with_reducible apply State.setSpdm_kept
    | with_reducible apply State.spdmAnswer_kept | with_reducible apply State.onSpdm_kept
    | (refine Kept.fields rfl rfl rfl rfl rfl ?_; first
      | with_reducible assumption | with_reducible intro _ | with_reducible apply State.setSpdm_kept
      | with_reducible apply State.spdmAnswer_kept | with_reducible apply State.onSpdm_kept
      | with_reducible apply KeptO.next | with_reducible apply KeptO.fault | with_reducible apply Kept.cond | split))

theorem execChunkGet_kept {s0 s : State} (t offset : Nat) (hs : Kept s0 s) : KeptO s0 (execChunkGet t offset s) := by
  unfold execChunkGet
  try dsimp only
  repeat' (first
    | with_reducible assumption | with_reducible intro _ | with_reducible apply State.setSpdm_kept
    | with_reducible apply State.spdmAnswer_kept | with_reducible apply State.onSpdm_kept
    | (refine Kept.fields rfl rfl rfl rfl rfl ?_; first
      | with_reducible assumption | with_reducible intro _ | with_reducible apply State.setSpdm_kept
      | with_reducible apply State.spdmAnswer_kept | with_reducible apply State.onSpdm_kept
      | with_reducible apply KeptO.next | with_reducible apply KeptO.fault | split))

theorem State.setIde_kept {s0 s : State} (p : Nat) (l : List Nat) (hs : Kept s0 s) : Kept s0 (State.setIde s p l) := by
  unfold State.setIde
  try dsimp only
  repeat' (first
    | with_reducible assumption | with_reducible intro _ | with_reducible apply State.setG_kept | split
    | (refine Kept.fields rfl rfl rfl rfl rfl ?_; first
      | with_reducible assumption))

theorem State.setTdi_kept {s0 s : State} (f v : Nat) (hs : Kept s0 s) : Kept s0 (State.setTdi s f v) := by
  unfold State.setTdi
  try dsimp only
  repeat' (first | with_reducible assumption | with_reducible intro _ | with_reducible apply State.setO_kept)

theorem State.stopBound_kept {s0 s : State} (p stream : Nat) (xs : List (Nat × Nat)) (hs : Kept s0 s) : Kept s0
    (State.stopBound s p stream xs) := by
  induction xs generalizing s p stream with
  | nil =>
    unfold State.stopBound
    try dsimp only
    repeat' (first | with_reducible assumption) | cons e es ih =>
    unfold State.stopBound
    try dsimp only
    repeat' (first
      | with_reducible assumption | with_reducible intro _ | with_reducible apply ih
      | with_reducible apply State.setTdi_kept | with_reducible apply Kept.cond)

theorem State.ideKm_kept {s0 s : State} (t op stream : Nat) (hs : Kept s0 s) : Kept s0 (State.ideKm s t op stream) := by
  unfold State.ideKm
  try dsimp only
  repeat' (first
    | with_reducible assumption | with_reducible intro _ | with_reducible apply State.spdmAnswer_kept
    | with_reducible apply State.spdmError_kept | with_reducible apply State.setIde_kept
    | with_reducible apply State.stopBound_kept | with_reducible apply Kept.cond | split
    | (refine Kept.fields rfl rfl rfl rfl rfl ?_; first
      | with_reducible assumption | with_reducible intro _ | with_reducible apply State.spdmAnswer_kept
      | with_reducible apply State.spdmError_kept | with_reducible apply State.setIde_kept
      | with_reducible apply State.stopBound_kept | with_reducible apply Kept.cond | split))

theorem State.tdisp_kept {s0 s : State} (t op f : Nat) (hs : Kept s0 s) : Kept s0 (State.tdisp s t op f) := by
  unfold State.tdisp
  try dsimp only
  repeat' (first
    | with_reducible assumption | with_reducible intro _ | with_reducible apply State.spdmAnswer_kept
    | with_reducible apply State.setTdi_kept | with_reducible apply Kept.cond | split
    | (refine Kept.fields rfl rfl rfl rfl rfl ?_; first
      | with_reducible assumption | with_reducible intro _ | with_reducible apply State.spdmAnswer_kept
      | with_reducible apply State.setTdi_kept))

theorem execVendorDefinedRequest_kept {s0 s : State} (t session protocol op arg : Nat) (hs : Kept s0 s) : KeptO s0
    (execVendorDefinedRequest t session protocol op arg s) := by
  unfold execVendorDefinedRequest
  try dsimp only
  repeat' (first
    | with_reducible assumption | with_reducible intro _ | with_reducible apply State.spdmError_kept
    | with_reducible apply State.inSession_kept | with_reducible apply State.ideKm_kept
    | with_reducible apply State.tdisp_kept | with_reducible apply KeptO.next | with_reducible apply KeptO.fault
    | with_reducible apply Kept.cond)

theorem execLockInterface_kept {s0 s : State} (f t session stream : Nat) (hs : Kept s0 s) : KeptO s0
    (execLockInterface f t session stream s) := by
  unfold execLockInterface
  try dsimp only
  repeat' (first
    | with_reducible assumption | with_reducible intro _ | with_reducible apply State.spdmAnswer_kept
    | with_reducible apply State.spdmError_kept | with_reducible apply State.inSession_kept
    | with_reducible apply State.setTdi_kept | with_reducible apply KeptO.next | with_reducible apply KeptO.fault
    | with_reducible apply Kept.cond | split
    | (refine Kept.fields rfl rfl rfl rfl rfl ?_; first
      | with_reducible assumption | with_reducible intro _ | with_reducible apply State.spdmAnswer_kept))

theorem svnRule_kept {s0 s : State} (_u1 : ObjRow) (hs : Kept s0 s) : KeptE s0 (svnRule _u1 s) := by
  unfold svnRule
  try dsimp only
  repeat' (first
    | with_reducible assumption | with_reducible intro _ | with_reducible apply State.setG_kept
    | with_reducible apply State.rebuildColophon_kept | with_reducible apply KeptE.ok
    | with_reducible apply KeptE.error | (with_reducible refine KeptE.bindS ?_ (fun _ _ => ?_))
    | (with_reducible refine KeptE.bind (fun _ => ?_)) | split
    | (refine Kept.fields rfl rfl rfl rfl rfl ?_; first
      | with_reducible assumption))

theorem execSvnCommit_kept {s0 s : State} (path : Path) (hs : Kept s0 s) : KeptO s0 (execSvnCommit path s) := by
  unfold execSvnCommit
  try dsimp only
  repeat' (first
    | with_reducible assumption | with_reducible intro _ | with_reducible apply State.access_kept
    | with_reducible apply svnRule_kept | (with_reducible refine KeptE.get (svnRule_kept _  ?_) (by assumption))
    | with_reducible apply KeptO.next)

theorem execUnlockNonceRead_kept {s0 s : State} (path : Path) (hs : Kept s0 s) : KeptO s0 (execUnlockNonceRead path
    s) := by
  unfold execUnlockNonceRead
  try dsimp only
  repeat' (first
    | with_reducible assumption | with_reducible intro _ | with_reducible apply State.setG_kept
    | with_reducible apply State.fresh_kept | with_reducible apply State.respond_kept
    | with_reducible apply State.gate_kept | (with_reducible refine KeptS.get (State.gate_kept _  ?_) (by assumption))
    | with_reducible apply KeptO.next | with_reducible apply KeptO.fault | with_reducible apply Kept.cond | split
    | (refine Kept.fields rfl rfl rfl rfl rfl ?_; first
      | with_reducible assumption | with_reducible intro _ | with_reducible apply State.setG_kept))

theorem tokenRule_kept {s0 s : State} (k : UnlockToken) (_u1 : ObjRow) (hs : Kept s0 s) : KeptE s0 (tokenRule k _u1
    s) := by
  unfold tokenRule
  try dsimp only
  repeat' (first
    | with_reducible assumption | with_reducible apply State.stopBy_kept | with_reducible intro _ | with_reducible
        apply State.setG_kept
    | with_reducible apply State.relinquish_kept | with_reducible apply State.finishUnlock_kept
    | with_reducible apply KeptE.ok | with_reducible apply KeptE.error
    | (with_reducible refine KeptE.bindS ?_ (fun _ _ => ?_)) | (with_reducible refine KeptE.bind (fun _ => ?_))
    | with_reducible apply Kept.cond | split
    | (refine Kept.fields rfl rfl rfl rfl rfl ?_; first
      | with_reducible assumption | with_reducible intro _ | with_reducible apply State.setG_kept))

theorem State.tokenWrite_kept {s0 s : State} (path : Path) (length : Option Nat) (k : UnlockToken) (hs : Kept s0 s) :
    Kept s0 (State.tokenWrite s path length k) := by
  unfold State.tokenWrite
  try dsimp only
  repeat' (first
    | with_reducible assumption | with_reducible intro _ | with_reducible apply State.addG_kept
    | with_reducible apply State.gate_kept | with_reducible apply State.access_kept
    | with_reducible apply tokenRule_kept | (with_reducible refine KeptS.get (State.gate_kept _  ?_) (by assumption))
    | (with_reducible refine KeptE.get (tokenRule_kept _ _  ?_) (by assumption)) | with_reducible apply KeptE.ok
    | with_reducible apply KeptE.error | (with_reducible refine KeptE.bindS ?_ (fun _ _ => ?_))
    | (with_reducible refine KeptE.bind (fun _ => ?_)) | with_reducible apply Kept.cond
    | (refine Kept.fields rfl rfl rfl rfl rfl ?_; first
      | with_reducible assumption | with_reducible intro _ | with_reducible apply State.addG_kept
      | with_reducible apply State.gate_kept | with_reducible apply State.access_kept
      | with_reducible apply tokenRule_kept
      | (with_reducible refine KeptS.get (State.gate_kept _  ?_) (by assumption))
      | (with_reducible refine KeptE.get (tokenRule_kept _ _  ?_) (by assumption)) | with_reducible apply KeptE.ok
      | with_reducible apply KeptE.error | (with_reducible refine KeptE.bindS ?_ (fun _ _ => ?_))
      | (with_reducible refine KeptE.bind (fun _ => ?_)) | with_reducible apply Kept.cond | split))

theorem execUnlockTokenWrite_kept {s0 s : State} (path : Path) (k : UnlockToken) (hs : Kept s0 s) : KeptO s0
    (execUnlockTokenWrite path k s) := by
  unfold execUnlockTokenWrite
  try dsimp only
  repeat' (first
    | with_reducible assumption | with_reducible intro _ | with_reducible apply State.tokenWrite_kept
    | with_reducible apply KeptO.next)

theorem execEntropyFailure_kept {s0 s : State}  (hs : Kept s0 s) : KeptO s0 (execEntropyFailure s) := by
  unfold execEntropyFailure
  try dsimp only
  repeat' (first
    | with_reducible assumption | with_reducible intro _ | with_reducible apply State.raise_kept
    | with_reducible apply KeptO.next | with_reducible apply KeptO.fault | with_reducible apply Kept.cond | split
    | (refine Kept.fields rfl rfl rfl rfl rfl ?_; first
      | with_reducible assumption))

theorem execEntropyTestPass_kept {s0 s : State}  (hs : Kept s0 s) : KeptO s0 (execEntropyTestPass s) := by
  unfold execEntropyTestPass
  try dsimp only
  repeat' (first
    | with_reducible assumption | with_reducible intro _ | with_reducible apply KeptO.next
    | with_reducible apply KeptO.fault | split
    | (refine Kept.fields rfl rfl rfl rfl rfl ?_; first
      | with_reducible assumption))

theorem timingRule_kept {s0 s : State} (value : Nat) (_u1 : ObjRow) (hs : Kept s0 s) : KeptE s0 (timingRule value _u1
    s) := by
  unfold timingRule
  try dsimp only
  repeat' (first
    | with_reducible assumption | with_reducible intro _ | with_reducible apply KeptE.ok
    | with_reducible apply KeptE.error | (with_reducible refine KeptE.bindS ?_ (fun _ _ => ?_))
    | (with_reducible refine KeptE.bind (fun _ => ?_)))

theorem execTimingModeWrite_kept {s0 s : State} (path : Path) (value : Nat) (hs : Kept s0 s) : KeptO s0
    (execTimingModeWrite path value s) := by
  unfold execTimingModeWrite
  try dsimp only
  repeat' (first
    | with_reducible assumption | with_reducible intro _ | with_reducible apply State.access_kept
    | with_reducible apply timingRule_kept
    | (with_reducible refine KeptE.get (timingRule_kept _ _  ?_) (by assumption)) | with_reducible apply KeptO.next)

theorem State.setTiming_kept {s0 s : State} (value : Nat) (hs : Kept s0 s) : Kept s0 (State.setTiming s value) := by
  unfold State.setTiming
  try dsimp only
  repeat' (first
    | with_reducible assumption | with_reducible intro _ | with_reducible apply State.setG_kept | split
    | (refine Kept.fields rfl rfl rfl rfl rfl ?_; first
      | with_reducible assumption | with_reducible intro _ | with_reducible apply State.setG_kept))

theorem execTimingModeChange_kept {s0 s : State}  (hs : Kept s0 s) : KeptO s0 (execTimingModeChange s) := by
  unfold execTimingModeChange
  try dsimp only
  repeat' (first
    | with_reducible assumption | with_reducible intro _ | with_reducible apply State.setG_kept
    | with_reducible apply State.addG_kept | with_reducible apply State.rebuildColophon_kept
    | with_reducible apply KeptO.next | with_reducible apply KeptO.fault | with_reducible apply Kept.cond | split
    | (refine Kept.fields rfl rfl rfl rfl rfl ?_; first
      | with_reducible assumption | with_reducible intro _ | with_reducible apply State.setG_kept
      | with_reducible apply State.addG_kept))

theorem State.fenceUnit_kept {s0 s : State} (id : Nat) (hs : Kept s0 s) : Kept s0 (State.fenceUnit s id) := by
  unfold State.fenceUnit
  try dsimp only
  repeat' (first
    | with_reducible assumption | with_reducible intro _ | with_reducible apply State.modEngine_kept
    | with_reducible apply State.raise_kept | with_reducible apply State.mapCmds_kept
    | with_reducible apply State.sumpWhere_kept | with_reducible apply State.endHold_kept
    | with_reducible apply State.lateness_kept | with_reducible apply State.rebuildColophon_kept
    | with_reducible apply Kept.cond | split
    | (refine Kept.fields rfl rfl rfl rfl rfl ?_; first
      | with_reducible assumption))

theorem execUnitFence_kept {s0 s : State} (id : Nat) (hs : Kept s0 s) : KeptO s0 (execUnitFence id s) := by
  unfold execUnitFence
  try dsimp only
  repeat' (first
    | with_reducible assumption | with_reducible intro _ | with_reducible apply State.fenceUnit_kept
    | with_reducible apply KeptO.next | with_reducible apply KeptO.fault | with_reducible apply Kept.cond | split)

theorem State.stopDevice_kept {s0 s : State} (cause : Nat) (hs : Kept s0 s) : Kept s0 (State.stopDevice s cause) := by
  unfold State.stopDevice
  try dsimp only
  repeat' (first
    | with_reducible assumption | with_reducible intro _ | with_reducible apply State.setG_kept | split
    | (refine Kept.fields rfl rfl rfl rfl rfl ?_; first
      | with_reducible assumption | with_reducible intro _ | with_reducible apply State.setG_kept))

theorem execRailUndervoltage_kept {s0 s : State} (rail : Nat) (hs : Kept s0 s) : KeptO s0 (execRailUndervoltage rail
    s) := by
  unfold execRailUndervoltage
  try dsimp only
  repeat' (first
    | with_reducible assumption | with_reducible intro _ | with_reducible apply State.stopDevice_kept
    | with_reducible apply KeptO.next | with_reducible apply KeptO.fault | with_reducible apply Kept.cond | split)

theorem execSerRefclkLoss_kept {s0 s : State}  (hs : Kept s0 s) : KeptO s0 (execSerRefclkLoss s) := by
  unfold execSerRefclkLoss
  try dsimp only
  repeat' (first
    | with_reducible assumption | with_reducible intro _ | with_reducible apply State.stopDevice_kept
    | with_reducible apply KeptO.next | with_reducible apply KeptO.fault | with_reducible apply Kept.cond | split)

theorem execThermalTrip_kept {s0 s : State}  (hs : Kept s0 s) : KeptO s0 (execThermalTrip s) := by
  unfold execThermalTrip
  try dsimp only
  repeat' (first
    | with_reducible assumption | with_reducible intro _ | with_reducible apply State.stopDevice_kept
    | with_reducible apply KeptO.next | with_reducible apply KeptO.fault | with_reducible apply Kept.cond | split
    | (refine Kept.fields rfl rfl rfl rfl rfl ?_; first
      | with_reducible assumption | with_reducible intro _ | with_reducible apply State.stopDevice_kept))

theorem State.afterReset_kept {s0 s : State} (h : Kept s0 s) : Kept s0 s.afterReset :=
  ⟨h.pending, fun _ => ⟨SMap.wf_nil, SMap.wf_nil, SMap.wf_nil⟩⟩

theorem State.wf_keptObj (s : State) (more : List (Nat × Nat)) : SMap.wf objDflt (s.keptObj more) = true := by
  unfold State.keptObj
  exact SMap.wf_foldl _ _ (SMap.wf_set _ _ (SMap.wf_set _ _ (SMap.wf_set _ _ SMap.wf_nil)))

theorem State.coldReset_kept {s0 s : State} (source : Nat) (h : Kept s0 s) : Kept s0 (s.coldReset source) :=
  ⟨h.pending, fun _ => ⟨SMap.wf_nil, State.wf_keptObj _ _, SMap.wf_nil⟩⟩

theorem State.warmReset_kept {s0 s : State} (source : Nat) (h : Kept s0 s) : Kept s0 (s.warmReset source) :=
  ⟨h.pending, fun _ => ⟨SMap.wf_nil, State.wf_keptObj _ _, SMap.wf_nil⟩⟩

theorem execVddIo18InTolerance_kept {s0 s : State}  (hs : Kept s0 s) : KeptO s0 (execVddIo18InTolerance s) := by
  unfold execVddIo18InTolerance
  try dsimp only
  repeat' (first
    | with_reducible assumption | with_reducible intro _ | with_reducible apply KeptO.next
    | with_reducible apply KeptO.fault | split
    | (refine Kept.fields rfl rfl rfl rfl rfl ?_; first
      | with_reducible assumption))

theorem execVddAonLoss_kept {s0 s : State}  (hs : Kept s0 s) : KeptO s0 (execVddAonLoss s) := by
  unfold execVddAonLoss
  try dsimp only
  repeat' (first
    | with_reducible assumption | with_reducible intro _ | with_reducible apply State.setG_kept
    | with_reducible apply State.coldReset_kept | with_reducible apply KeptO.next | with_reducible apply KeptO.fault
    | split
    | (refine Kept.fields rfl rfl rfl rfl rfl ?_; first
      | with_reducible assumption | with_reducible intro _ | with_reducible apply State.setG_kept))

theorem execPwrGoodRise_kept {s0 s : State}  (hs : Kept s0 s) : KeptO s0 (execPwrGoodRise s) := by
  unfold execPwrGoodRise
  try dsimp only
  repeat' (first
    | with_reducible assumption | with_reducible intro _ | with_reducible apply State.coldReset_kept
    | with_reducible apply KeptO.next | with_reducible apply KeptO.fault | with_reducible apply Kept.cond | split
    | (refine Kept.fields rfl rfl rfl rfl rfl ?_; first
      | with_reducible assumption))

theorem execPwrGoodFall_kept {s0 s : State}  (hs : Kept s0 s) : KeptO s0 (execPwrGoodFall s) := by
  unfold execPwrGoodFall
  try dsimp only
  repeat' (first
    | with_reducible assumption | with_reducible intro _ | with_reducible apply State.coldReset_kept
    | with_reducible apply KeptO.next | with_reducible apply KeptO.fault | with_reducible apply Kept.cond | split
    | (refine Kept.fields rfl rfl rfl rfl rfl ?_; first
      | with_reducible assumption))

theorem execSysResetNAssert_kept {s0 s : State}  (hs : Kept s0 s) : KeptO s0 (execSysResetNAssert s) := by
  unfold execSysResetNAssert
  try dsimp only
  repeat' (first
    | with_reducible assumption | with_reducible intro _ | with_reducible apply KeptO.next
    | with_reducible apply KeptO.fault | with_reducible apply Kept.cond | split
    | (refine Kept.fields rfl rfl rfl rfl rfl ?_; first
      | with_reducible assumption))

theorem execSysResetNDeassert_kept {s0 s : State}  (hs : Kept s0 s) : KeptO s0 (execSysResetNDeassert s) := by
  unfold execSysResetNDeassert
  try dsimp only
  repeat' (first
    | with_reducible assumption | with_reducible intro _ | with_reducible apply State.coldReset_kept
    | with_reducible apply KeptO.next | with_reducible apply KeptO.fault | with_reducible apply Kept.cond | split
    | (refine Kept.fields rfl rfl rfl rfl rfl ?_; first
      | with_reducible assumption))

theorem State.requestReset_kept {s0 s : State} (kind source : Nat) (hs : Kept s0 s) : Kept s0 (State.requestReset s
    kind source) := by
  unfold State.requestReset
  try dsimp only
  repeat' (first
    | with_reducible assumption | with_reducible intro _ | with_reducible apply State.relinquish_kept
    | with_reducible apply Kept.cond | split
    | (refine Kept.fields rfl rfl rfl rfl rfl ?_; first
      | with_reducible assumption | with_reducible intro _ | with_reducible apply State.relinquish_kept))

theorem resetWriteRule_kept {s0 s : State} (path : Path) (kind : Nat) (_u1 : ObjRow) (hs : Kept s0 s) : KeptE s0
    (resetWriteRule path kind _u1 s) := by
  unfold resetWriteRule
  try dsimp only
  repeat' (first
    | with_reducible assumption | with_reducible intro _ | with_reducible apply State.coldReset_kept
    | with_reducible apply State.requestReset_kept | with_reducible apply KeptE.ok | with_reducible apply KeptE.error
    | (with_reducible refine KeptE.bindS ?_ (fun _ _ => ?_)) | (with_reducible refine KeptE.bind (fun _ => ?_))
    | with_reducible apply Kept.cond | split)

theorem execResetRequestWarm_kept {s0 s : State} (path : Path) (hs : Kept s0 s) : KeptO s0 (execResetRequestWarm path
    s) := by
  unfold execResetRequestWarm
  try dsimp only
  repeat' (first
    | with_reducible assumption | with_reducible intro _ | with_reducible apply State.access_kept
    | with_reducible apply resetWriteRule_kept
    | (with_reducible refine KeptE.get (resetWriteRule_kept _ _ _  ?_) (by assumption))
    | with_reducible apply KeptO.next)

theorem execResetRequestCold_kept {s0 s : State} (path : Path) (hs : Kept s0 s) : KeptO s0 (execResetRequestCold path
    s) := by
  unfold execResetRequestCold
  try dsimp only
  repeat' (first
    | with_reducible assumption | with_reducible intro _ | with_reducible apply State.access_kept
    | with_reducible apply resetWriteRule_kept
    | (with_reducible refine KeptE.get (resetWriteRule_kept _ _ _  ?_) (by assumption))
    | with_reducible apply KeptO.next)

theorem execResetStart_kept {s0 s : State}  (hs : Kept s0 s) : KeptO s0 (execResetStart s) := by
  unfold execResetStart
  try dsimp only
  repeat' (first
    | with_reducible assumption | with_reducible intro _ | with_reducible apply State.request_kept
    | with_reducible apply State.coldReset_kept | with_reducible apply State.warmReset_kept
    | with_reducible apply KeptO.next | with_reducible apply KeptO.fault | with_reducible apply Kept.cond | split
    | (refine Kept.fields rfl rfl rfl rfl rfl ?_; first
      | with_reducible assumption | with_reducible intro _ | with_reducible apply State.request_kept
      | with_reducible apply State.coldReset_kept | with_reducible apply State.warmReset_kept
      | with_reducible apply KeptO.next | with_reducible apply KeptO.fault | with_reducible apply Kept.cond | split))

theorem State.harvestStep_kept {s0 s : State} (r : PrimeResult) (hs : Kept s0 s) : Kept s0 (State.harvestStep s r) := by
  unfold State.harvestStep
  try dsimp only
  repeat' (first
    | with_reducible assumption | with_reducible intro _ | with_reducible apply State.setG_kept
    | with_reducible apply State.raise_kept | with_reducible apply Kept.cond | split
    | (refine Kept.fields rfl rfl rfl rfl rfl ?_; first
      | with_reducible assumption | with_reducible intro _ | with_reducible apply State.setG_kept
      | with_reducible apply State.raise_kept))

theorem State.loadStored_kept {s0 s : State} (rejected : List Nat) (xs : List (Nat × Nat)) (h : Kept s0 s) :
    Kept s0 (s.loadStored rejected xs) := by
  induction xs generalizing s with
  | nil => exact h
  | cons e es ih =>
    unfold State.loadStored
    refine ih (Kept.cond (State.raise_kept _ _ _ _ h) ⟨h.pending, fun c => ?_⟩)
    have k := h.canon c
    exact ⟨k.mem, SMap.wf_set _ _ k.obj, k.floats⟩

theorem State.primeObjects_kept {s0 s : State} (r : PrimeResult) (warm : Bool) (hs : Kept s0 s) : Kept s0
    (State.primeObjects s r warm) := by
  unfold State.primeObjects
  try dsimp only
  repeat' (first
    | with_reducible assumption | with_reducible intro _ | with_reducible apply State.loadStored_kept
    | with_reducible apply Kept.cond | split
    | (refine Kept.fields rfl rfl rfl rfl rfl ?_; first
      | with_reducible assumption | with_reducible intro _ | with_reducible apply State.loadStored_kept))

theorem State.keepCounts_kept {s0 s : State}  (xs : List (Nat × Nat)) (hs : Kept s0 s) : Kept s0 (State.keepCounts s
    xs) := by
  induction xs generalizing s  with
  | nil =>
    unfold State.keepCounts
    try dsimp only
    repeat' (first | with_reducible assumption) | cons e es ih =>
    unfold State.keepCounts
    try dsimp only
    repeat' (first
      | with_reducible assumption | with_reducible intro _ | with_reducible apply ih
      | with_reducible apply State.storeG_kept | with_reducible apply Kept.cond)

theorem State.primePools_kept {s0 s : State} (warm : Bool) (hs : Kept s0 s) : Kept s0 (State.primePools s warm) := by
  unfold State.primePools
  try dsimp only
  repeat' (first | with_reducible assumption | with_reducible intro _ | with_reducible apply State.setG_kept)

theorem State.primeEnergy_kept {s0 s : State}  (hs : Kept s0 s) : Kept s0 (State.primeEnergy s) := by
  unfold State.primeEnergy
  try dsimp only
  repeat' (first | with_reducible assumption | with_reducible intro _ | with_reducible apply State.setG_kept)

theorem State.primeManagers_kept {s0 s : State}  (hs : Kept s0 s) : Kept s0 (State.primeManagers s) := by
  unfold State.primeManagers
  try dsimp only
  repeat' (first
    | with_reducible assumption | with_reducible intro _ | with_reducible apply State.takeGrant_kept
    | with_reducible apply Kept.cond)

theorem State.primeLanes_kept {s0 s : State} (r : PrimeResult) (hs : Kept s0 s) : Kept s0 (State.primeLanes s r) := by
  unfold State.primeLanes
  try dsimp only
  repeat' (first
    | with_reducible assumption | with_reducible intro _ | with_reducible apply State.setG_kept
    | with_reducible apply Kept.cond | split | (with_reducible refine Kept.foldl _ (fun _ _ _ => ?_) _ ?_))

theorem State.primeDomain_kept {s0 s : State}  (hs : Kept s0 s) : Kept s0 (State.primeDomain s) := by
  unfold State.primeDomain
  try dsimp only
  repeat' (first
    | with_reducible assumption | with_reducible intro _ | with_reducible apply State.setG_kept
    | with_reducible apply State.mark_kept | with_reducible apply Kept.cond)

theorem State.passTime_kept {s0 s : State} (ms : Nat) (hs : Kept s0 s) : Kept s0 (State.passTime s ms) := by
  unfold State.passTime
  try dsimp only
  repeat' (first
    | with_reducible assumption | with_reducible intro _ | split
    | (refine Kept.fields rfl rfl rfl rfl rfl ?_; first
      | with_reducible assumption))

theorem State.finishPriming_kept {s0 s : State} (r : PrimeResult) (warm : Bool) (hs : Kept s0 s) : Kept s0
    (State.finishPriming s r warm) := by
  unfold State.finishPriming
  try dsimp only
  repeat' (first
    | with_reducible assumption | with_reducible intro _ | with_reducible apply State.setG_kept
    | with_reducible apply State.rebuildColophon_kept | with_reducible apply State.harvestStep_kept
    | with_reducible apply State.keepCounts_kept | with_reducible apply State.primePools_kept
    | with_reducible apply State.primeEnergy_kept | with_reducible apply State.primeManagers_kept
    | with_reducible apply State.primeLanes_kept | with_reducible apply State.primeDomain_kept
    | with_reducible apply Kept.cond | split
    | (refine Kept.fields rfl rfl rfl rfl rfl ?_; first
      | with_reducible assumption | with_reducible intro _ | with_reducible apply State.setG_kept
      | with_reducible apply State.rebuildColophon_kept | with_reducible apply State.harvestStep_kept
      | with_reducible apply State.keepCounts_kept | with_reducible apply State.primePools_kept
      | with_reducible apply State.primeEnergy_kept | with_reducible apply State.primeManagers_kept
      | with_reducible apply State.primeLanes_kept | with_reducible apply State.primeDomain_kept))

theorem State.prime_kept {s0 s : State} (r : PrimeResult) (warm : Bool) (hs : Kept s0 s) : Kept s0 (State.prime s r
    warm) := by
  unfold State.prime
  try dsimp only
  repeat' (first
    | with_reducible assumption | with_reducible intro _ | with_reducible apply State.setG_kept
    | with_reducible apply State.storeG_kept | with_reducible apply State.primeObjects_kept
    | with_reducible apply State.passTime_kept | with_reducible apply State.finishPriming_kept
    | with_reducible apply Kept.cond | split
    | (refine Kept.fields rfl rfl rfl rfl rfl ?_; first
      | with_reducible assumption | with_reducible intro _ | with_reducible apply State.setG_kept
      | with_reducible apply State.storeG_kept))

theorem execColdPriming_kept {s0 s : State} (r : PrimeResult) (hs : Kept s0 s) : KeptO s0 (execColdPriming r s) := by
  unfold execColdPriming
  try dsimp only
  repeat' (first
    | with_reducible assumption | with_reducible intro _ | with_reducible apply State.prime_kept
    | with_reducible apply KeptO.next | with_reducible apply KeptO.fault | with_reducible apply Kept.cond | split)

theorem execWarmPriming_kept {s0 s : State} (r : PrimeResult) (hs : Kept s0 s) : KeptO s0 (execWarmPriming r s) := by
  unfold execWarmPriming
  try dsimp only
  repeat' (first
    | with_reducible assumption | with_reducible intro _ | with_reducible apply State.prime_kept
    | with_reducible apply KeptO.next | with_reducible apply KeptO.fault | with_reducible apply Kept.cond | split)

end Sys2Proof.Machine
end

