-- ==== Sys2Proof/Laws/KeptDictionary.lean ====
section
/-!
SUPPORT. The operations of Machine/Values, Machine/Holders, Machine/Dictionary, Machine/Tick keep the queue and the
    canonical form.
-/

namespace Sys2Proof.Machine

theorem State.senseRead_kept {s0 s : State} (index sub v : Nat) (hs : Kept s0 s) : Kept s0 (State.senseRead s index
    sub v).2 := by
  unfold State.senseRead
  try dsimp only
  repeat' (first
    | with_reducible assumption | with_reducible intro _ | with_reducible apply State.fresh_kept
    | with_reducible apply Kept.cond | split)

theorem State.nonceRead_kept {s0 s : State}  (hs : Kept s0 s) : Kept s0 (State.nonceRead s).2 := by
  unfold State.nonceRead
  try dsimp only
  repeat' (first
    | with_reducible assumption | with_reducible intro _ | with_reducible apply State.setG_kept
    | with_reducible apply State.fresh_kept | split
    | (refine Kept.fields rfl rfl rfl rfl rfl ?_; first
      | with_reducible assumption | with_reducible intro _ | with_reducible apply State.setG_kept
      | with_reducible apply State.fresh_kept))

theorem State.readBytes_kept {s0 s : State} (r : ObjRow) (sel index sub : Nat) (hs : Kept s0 s) : Kept s0
    (State.readBytes s r sel index sub).2 := by
  unfold State.readBytes
  try dsimp only
  repeat' (first
    | with_reducible assumption | with_reducible intro _ | with_reducible apply State.evaluate_kept
    | with_reducible apply State.senseRead_kept | with_reducible apply State.nonceRead_kept
    | with_reducible apply Kept.cond | split
    | (refine Kept.fields rfl rfl rfl rfl rfl ?_; first
      | with_reducible assumption | with_reducible intro _ | with_reducible apply State.evaluate_kept
      | with_reducible apply State.senseRead_kept | with_reducible apply State.nonceRead_kept
      | with_reducible apply Kept.cond | split))

theorem State.readCore_kept {s0 s : State} (path : Path) (sel index sub offset length : Nat) (hs : Kept s0 s) :
    Kept s0 (s.readCore path sel index sub offset length) := by
  unfold State.readCore
  split
  · exact State.respond_kept _ _ _ _ hs
  · rename_i bytes t first he
    have hb : ∀ {β : Type} (x : Except Refused β) (f : β → Except Refused ((List Byte × State) × Bool)),
        (∀ a, ∀ p, f a = .ok p → Kept s0 p.1.2) → ∀ p, (x >>= f) = .ok p → Kept s0 p.1.2 := by
      intro β x f hf p hp
      cases x with
      | error e => cases hp
      | ok a => exact hf a p hp
    have ht : Kept s0 t := by
      refine hb _ _ (fun r => hb _ _ (fun _ => ?_)) _ he
      intro p hp
      split at hp
      · cases hp; exact State.readBytes_kept _ _ _ _ hs
      · split at hp
        · exact hb _ _ (fun _ q hq => by cases hq; exact hs) _ hp
        · cases hp
    refine State.respond_kept _ _ _ _ ?_
    exact Kept.cond (Kept.upd (t := t) rfl rfl rfl rfl rfl ht) ht

theorem State.dictRead_kept {s0 s : State} (path : Path) (sel index sub offset length : Nat) (hs : Kept s0 s) : Kept
    s0 (State.dictRead s path sel index sub offset length) := by
  unfold State.dictRead
  try dsimp only
  repeat' (first
    | with_reducible assumption | with_reducible intro _ | with_reducible apply State.send_kept
    | with_reducible apply State.gate_kept | with_reducible apply State.readCore_kept
    | (with_reducible refine KeptS.get (State.gate_kept _  ?_) (by assumption)) | with_reducible apply Kept.cond
    | split
    | (refine Kept.fields rfl rfl rfl rfl rfl ?_; first
      | with_reducible assumption | with_reducible intro _ | with_reducible apply State.send_kept
      | with_reducible apply State.gate_kept | with_reducible apply State.readCore_kept
      | (with_reducible refine KeptS.get (State.gate_kept _  ?_) (by assumption)) | with_reducible apply Kept.cond
      | split))

theorem execDictRead_kept {s0 s : State} (path : Path) (sel index sub offset length : Nat) (hs : Kept s0 s) : KeptO s0
    (execDictRead path sel index sub offset length s) := by
  unfold execDictRead
  try dsimp only
  repeat' (first
    | with_reducible assumption | with_reducible intro _ | with_reducible apply State.dictRead_kept
    | with_reducible apply KeptO.next)

theorem execLedgerRead_kept {s0 s : State} (path : Path) (sel index sub : Nat) (hs : Kept s0 s) : KeptO s0
    (execLedgerRead path sel index sub s) := by
  unfold execLedgerRead
  try dsimp only
  repeat' (first
    | with_reducible assumption | with_reducible intro _ | with_reducible apply State.dictRead_kept
    | with_reducible apply KeptO.next)

theorem State.infoCore_kept {s0 s : State} (path : Path) (sel index sub : Nat) (hs : Kept s0 s) : Kept s0
    (State.infoCore s path sel index sub) := by
  unfold State.infoCore
  try dsimp only
  repeat' (first
    | with_reducible assumption | with_reducible intro _ | with_reducible apply State.respond_kept
    | with_reducible apply Kept.cond | split
    | (refine Kept.fields rfl rfl rfl rfl rfl ?_; first
      | with_reducible assumption | with_reducible intro _ | with_reducible apply State.respond_kept
      | with_reducible apply Kept.cond | split))

theorem execDictInfo_kept {s0 s : State} (path : Path) (sel index sub : Nat) (hs : Kept s0 s) : KeptO s0 (execDictInfo
    path sel index sub s) := by
  unfold execDictInfo
  try dsimp only
  repeat' (first
    | with_reducible assumption | with_reducible intro _ | with_reducible apply State.gate_kept
    | with_reducible apply State.infoCore_kept
    | (with_reducible refine KeptS.get (State.gate_kept _  ?_) (by assumption)) | with_reducible apply KeptO.next
    | with_reducible apply KeptO.fault | with_reducible apply Kept.cond | split
    | (refine Kept.fields rfl rfl rfl rfl rfl ?_; first
      | with_reducible assumption | with_reducible intro _ | with_reducible apply State.gate_kept
      | with_reducible apply State.infoCore_kept
      | (with_reducible refine KeptS.get (State.gate_kept _  ?_) (by assumption)) | with_reducible apply KeptO.next
      | with_reducible apply KeptO.fault | with_reducible apply Kept.cond | split))

theorem execDictLatchExpiry_kept {s0 s : State} (path : Path) (hs : Kept s0 s) : KeptO s0 (execDictLatchExpiry path
    s) := by
  unfold execDictLatchExpiry
  try dsimp only
  repeat' (first
    | with_reducible assumption | with_reducible intro _ | with_reducible apply KeptO.next
    | with_reducible apply KeptO.fault | split
    | (refine Kept.fields rfl rfl rfl rfl rfl ?_; first
      | with_reducible assumption))

theorem execHealthScoreUpdate_kept {s0 s : State}  (hs : Kept s0 s) : KeptO s0 (execHealthScoreUpdate s) := by
  unfold execHealthScoreUpdate
  try dsimp only
  repeat' (first
    | with_reducible assumption | with_reducible intro _ | with_reducible apply State.setG_kept
    | with_reducible apply KeptO.next | with_reducible apply KeptO.fault | with_reducible apply Kept.cond | split
    | (with_reducible refine Kept.foldl _ (fun _ _ _ => ?_) _ ?_)
    | (refine Kept.fields rfl rfl rfl rfl rfl ?_; first
      | with_reducible assumption))

theorem holderRule_kept {s0 s : State} (path : Path) (index sub value : Nat) (r : ObjRow) (hs : Kept s0 s) : KeptE s0
    (holderRule path index sub value r s) := by
  unfold holderRule
  try dsimp only
  repeat' (first
    | with_reducible assumption | with_reducible intro _ | with_reducible apply State.putHolder_kept
    | with_reducible apply radioOwnerRule_kept
    | (with_reducible refine KeptE.get (radioOwnerRule_kept _ _ _  ?_) (by assumption))
    | with_reducible apply KeptE.ok | with_reducible apply KeptE.error
    | (with_reducible refine KeptE.bindS ?_ (fun _ _ => ?_)) | (with_reducible refine KeptE.bind (fun _ => ?_))
    | with_reducible apply Kept.cond | split)

theorem execHolderClaim_kept {s0 s : State} (path : Path) (index sub sel : Nat) (hs : Kept s0 s) : KeptO s0
    (execHolderClaim path index sub sel s) := by
  unfold execHolderClaim
  try dsimp only
  repeat' (first
    | with_reducible assumption | with_reducible intro _ | with_reducible apply State.access_kept
    | with_reducible apply holderRule_kept
    | (with_reducible refine KeptE.get (holderRule_kept _ _ _ _ _  ?_) (by assumption))
    | with_reducible apply KeptO.next | with_reducible apply KeptO.fault | with_reducible apply KeptE.ok
    | with_reducible apply KeptE.error | (with_reducible refine KeptE.bindS ?_ (fun _ _ => ?_))
    | (with_reducible refine KeptE.bind (fun _ => ?_)) | with_reducible apply Kept.cond | split)

theorem execHolderRelease_kept {s0 s : State} (path : Path) (index sub : Nat) (hs : Kept s0 s) : KeptO s0
    (execHolderRelease path index sub s) := by
  unfold execHolderRelease
  try dsimp only
  repeat' (first
    | with_reducible assumption | with_reducible intro _ | with_reducible apply State.access_kept
    | with_reducible apply holderRule_kept
    | (with_reducible refine KeptE.get (holderRule_kept _ _ _ _ _  ?_) (by assumption))
    | with_reducible apply KeptO.next | with_reducible apply KeptO.fault | with_reducible apply KeptE.ok
    | with_reducible apply KeptE.error | (with_reducible refine KeptE.bindS ?_ (fun _ _ => ?_))
    | (with_reducible refine KeptE.bind (fun _ => ?_)) | with_reducible apply Kept.cond | split)

theorem execHolderTakeAway_kept {s0 s : State} (path : Path) (index sub value : Nat) (hs : Kept s0 s) : KeptO s0
    (execHolderTakeAway path index sub value s) := by
  unfold execHolderTakeAway
  try dsimp only
  repeat' (first
    | with_reducible assumption | with_reducible intro _ | with_reducible apply State.access_kept
    | with_reducible apply holderRule_kept
    | (with_reducible refine KeptE.get (holderRule_kept _ _ _ _ _  ?_) (by assumption))
    | with_reducible apply KeptO.next | with_reducible apply KeptO.fault | with_reducible apply KeptE.ok
    | with_reducible apply KeptE.error | (with_reducible refine KeptE.bindS ?_ (fun _ _ => ?_))
    | (with_reducible refine KeptE.bind (fun _ => ?_)) | with_reducible apply Kept.cond | split)

theorem State.openWindow_kept {s0 s : State} (sub : Nat) (hs : Kept s0 s) : Kept s0 (State.openWindow s sub) := by
  unfold State.openWindow
  try dsimp only
  repeat' (first
    | with_reducible assumption | with_reducible intro _ | split
    | (refine Kept.fields rfl rfl rfl rfl rfl ?_; first
      | with_reducible assumption))

theorem watchdogRule_kept {s0 s : State} (path : Path) (sub value : Nat) (_u1 : ObjRow) (hs : Kept s0 s) : KeptE s0
    (watchdogRule path sub value _u1 s) := by
  unfold watchdogRule
  try dsimp only
  repeat' (first
    | with_reducible assumption | with_reducible intro _ | with_reducible apply State.setG_kept
    | with_reducible apply State.openWindow_kept | with_reducible apply KeptE.ok | with_reducible apply KeptE.error
    | (with_reducible refine KeptE.bindS ?_ (fun _ _ => ?_)) | (with_reducible refine KeptE.bind (fun _ => ?_)))

theorem execWatchdogArm_kept {s0 s : State} (path : Path) (timer setting : Nat) (hs : Kept s0 s) : KeptO s0
    (execWatchdogArm path timer setting s) := by
  unfold execWatchdogArm
  try dsimp only
  repeat' (first
    | with_reducible assumption | with_reducible intro _ | with_reducible apply State.access_kept
    | with_reducible apply watchdogRule_kept
    | (with_reducible refine KeptE.get (watchdogRule_kept _ _ _ _  ?_) (by assumption))
    | with_reducible apply KeptO.next)

theorem kickRule_kept {s0 s : State} (path : Path) (sub : Nat) (_u1 : ObjRow) (hs : Kept s0 s) : KeptE s0 (kickRule
    path sub _u1 s) := by
  unfold kickRule
  try dsimp only
  repeat' (first
    | with_reducible assumption | with_reducible intro _ | with_reducible apply State.openWindow_kept
    | with_reducible apply KeptE.ok | with_reducible apply KeptE.error
    | (with_reducible refine KeptE.bindS ?_ (fun _ _ => ?_)) | (with_reducible refine KeptE.bind (fun _ => ?_))
    | with_reducible apply Kept.cond)

theorem execWatchdogKick_kept {s0 s : State} (path : Path) (timer : Nat) (hs : Kept s0 s) : KeptO s0 (execWatchdogKick
    path timer s) := by
  unfold execWatchdogKick
  try dsimp only
  repeat' (first
    | with_reducible assumption | with_reducible intro _ | with_reducible apply State.access_kept
    | with_reducible apply kickRule_kept | (with_reducible refine KeptE.get (kickRule_kept _ _ _  ?_) (by assumption))
    | with_reducible apply KeptO.next)

theorem State.watchdogAct_kept {s0 s : State} (timer action : Nat) (hs : Kept s0 s) : Kept s0 (State.watchdogAct s
    timer action) := by
  unfold State.watchdogAct
  try dsimp only
  repeat' (first
    | with_reducible assumption | with_reducible intro _ | with_reducible apply State.raise_kept
    | with_reducible apply State.beginReset_kept | with_reducible apply State.requestReset_kept
    | with_reducible apply Kept.cond)

theorem execWatchdogExpiry_kept {s0 s : State} (timer : Nat) (hs : Kept s0 s) : KeptO s0 (execWatchdogExpiry timer s) := by
  unfold execWatchdogExpiry
  try dsimp only
  repeat' (first
    | with_reducible assumption | with_reducible intro _ | with_reducible apply State.setG_kept
    | with_reducible apply State.addG_kept | with_reducible apply State.watchdogAct_kept
    | with_reducible apply KeptO.next | with_reducible apply KeptO.fault | with_reducible apply Kept.cond | split)

theorem gpioRule_kept {s0 s : State} (path : Path) (sub value : Nat) (_u1 : ObjRow) (hs : Kept s0 s) : KeptE s0
    (gpioRule path sub value _u1 s) := by
  unfold gpioRule
  try dsimp only
  repeat' (first
    | with_reducible assumption | with_reducible intro _ | with_reducible apply State.setG_kept
    | with_reducible apply KeptE.ok | with_reducible apply KeptE.error
    | (with_reducible refine KeptE.bindS ?_ (fun _ _ => ?_)) | (with_reducible refine KeptE.bind (fun _ => ?_)))

theorem execGpioControlWrite_kept {s0 s : State} (path : Path) (pin value : Nat) (hs : Kept s0 s) : KeptO s0
    (execGpioControlWrite path pin value s) := by
  unfold execGpioControlWrite
  try dsimp only
  repeat' (first
    | with_reducible assumption | with_reducible intro _ | with_reducible apply State.access_kept
    | with_reducible apply gpioRule_kept
    | (with_reducible refine KeptE.get (gpioRule_kept _ _ _ _  ?_) (by assumption)) | with_reducible apply KeptO.next)

theorem guarded_kept {s0 s : State} (ok : Bool) (rule : ObjRow → State → Except Refused State) (r : ObjRow) (hrule : ∀
    _x0 t, Kept s0 t → KeptE s0 (rule _x0 t)) (hs : Kept s0 s) : KeptE s0 (guarded ok rule r s) := by
  unfold guarded
  try dsimp only
  repeat' (first
    | with_reducible assumption | with_reducible intro _ | with_reducible apply hrule | with_reducible apply KeptE.ok
    | with_reducible apply KeptE.error | (with_reducible refine KeptE.bindS ?_ (fun _ _ => ?_))
    | (with_reducible refine KeptE.bind (fun _ => ?_)) | with_reducible apply Kept.cond | split)

theorem lifeRule_kept {s0 s : State} (f sub value : Nat) (r : ObjRow) (hs : Kept s0 s) : KeptE s0 (lifeRule f sub
    value r s) := by
  unfold lifeRule
  try dsimp only
  repeat' (first
    | with_reducible assumption | with_reducible intro _ | with_reducible apply storeRule_kept
    | with_reducible apply releaseRule_kept | with_reducible apply preemptRule_kept
    | with_reducible apply createRule_kept | with_reducible apply resetRule_kept
    | with_reducible apply destroyRule_kept
    | (with_reducible refine KeptE.get (storeRule_kept _ _ _ _ _  ?_) (by assumption))
    | (with_reducible refine KeptE.get (releaseRule_kept _ _ _  ?_) (by assumption))
    | (with_reducible refine KeptE.get (preemptRule_kept _ _  ?_) (by assumption))
    | (with_reducible refine KeptE.get (createRule_kept _ _  ?_) (by assumption))
    | (with_reducible refine KeptE.get (resetRule_kept _ _  ?_) (by assumption))
    | (with_reducible refine KeptE.get (destroyRule_kept _ _  ?_) (by assumption)) | with_reducible apply KeptE.ok
    | with_reducible apply KeptE.error | (with_reducible refine KeptE.bindS ?_ (fun _ _ => ?_))
    | (with_reducible refine KeptE.bind (fun _ => ?_)) | with_reducible apply Kept.cond | split
    | (refine Kept.fields rfl rfl rfl rfl rfl ?_; first
      | with_reducible assumption | with_reducible intro _ | with_reducible apply storeRule_kept
      | with_reducible apply releaseRule_kept | with_reducible apply preemptRule_kept
      | with_reducible apply createRule_kept | with_reducible apply resetRule_kept
      | with_reducible apply destroyRule_kept
      | (with_reducible refine KeptE.get (storeRule_kept _ _ _ _ _  ?_) (by assumption))
      | (with_reducible refine KeptE.get (releaseRule_kept _ _ _  ?_) (by assumption))
      | (with_reducible refine KeptE.get (preemptRule_kept _ _  ?_) (by assumption))
      | (with_reducible refine KeptE.get (createRule_kept _ _  ?_) (by assumption))
      | (with_reducible refine KeptE.get (resetRule_kept _ _  ?_) (by assumption))
      | (with_reducible refine KeptE.get (destroyRule_kept _ _  ?_) (by assumption)) | with_reducible apply KeptE.ok
      | with_reducible apply KeptE.error | (with_reducible refine KeptE.bindS ?_ (fun _ _ => ?_))
      | (with_reducible refine KeptE.bind (fun _ => ?_)) | with_reducible apply Kept.cond | split))

theorem ringRule_kept {s0 s : State} (f sub value : Nat) (r : ObjRow) (hs : Kept s0 s) : KeptE s0 (ringRule f sub
    value r s) := by
  unfold ringRule
  try dsimp only
  repeat' (first
    | with_reducible assumption | with_reducible intro _ | with_reducible apply storeRule_kept
    | (with_reducible refine KeptE.get (storeRule_kept _ _ _ _ _  ?_) (by assumption)) | with_reducible apply KeptE.ok
    | with_reducible apply KeptE.error | (with_reducible refine KeptE.bindS ?_ (fun _ _ => ?_))
    | (with_reducible refine KeptE.bind (fun _ => ?_)))

theorem cellObjRule_kept {s0 s : State} (f cell sub value : Nat) (r : ObjRow) (hs : Kept s0 s) : KeptE s0 (cellObjRule
    f cell sub value r s) := by
  unfold cellObjRule
  try dsimp only
  repeat' (first
    | with_reducible assumption | with_reducible intro _ | with_reducible apply storeRule_kept
    | with_reducible apply activateRule_kept | with_reducible apply deactivateRule_kept
    | with_reducible apply cellRule_kept | with_reducible apply standbyRule_kept
    | (with_reducible refine KeptE.get (storeRule_kept _ _ _ _ _  ?_) (by assumption))
    | (with_reducible refine KeptE.get (activateRule_kept _ _  ?_) (by assumption))
    | (with_reducible refine KeptE.get (deactivateRule_kept _ _  ?_) (by assumption))
    | (with_reducible refine KeptE.get (cellRule_kept _ _ _ _  ?_) (by assumption))
    | (with_reducible refine KeptE.get (standbyRule_kept _ _ _  ?_) (by assumption)) | with_reducible apply KeptE.ok
    | with_reducible apply KeptE.error | (with_reducible refine KeptE.bindS ?_ (fun _ _ => ?_))
    | (with_reducible refine KeptE.bind (fun _ => ?_)) | with_reducible apply Kept.cond | split)

theorem fnRule_kept {s0 s : State} (f index sub value : Nat) (r : ObjRow) (hs : Kept s0 s) : KeptE s0 (fnRule f index
    sub value r s) := by
  unfold fnRule
  try dsimp only
  repeat' (first
    | with_reducible assumption | with_reducible intro _ | with_reducible apply storeRule_kept
    | with_reducible apply State.openRule_kept | with_reducible apply State.closeRule_kept
    | with_reducible apply endpointRule_kept | with_reducible apply regionRule_kept
    | with_reducible apply procedureRule_kept | with_reducible apply floatRangeRule_kept
    | with_reducible apply crbRule_kept | with_reducible apply componentRule_kept
    | with_reducible apply noticeRule_kept | with_reducible apply guarded_kept | with_reducible apply lifeRule_kept
    | with_reducible apply ringRule_kept | with_reducible apply cellObjRule_kept
    | (with_reducible refine KeptE.get (storeRule_kept _ _ _ _ _  ?_) (by assumption))
    | (with_reducible refine KeptE.get (State.openRule_kept _ _ _  ?_) (by assumption))
    | (with_reducible refine KeptE.get (State.closeRule_kept _ _ _  ?_) (by assumption))
    | (with_reducible refine KeptE.get (endpointRule_kept _ _ _  ?_) (by assumption))
    | (with_reducible refine KeptE.get (regionRule_kept _ _ _  ?_) (by assumption))
    | (with_reducible refine KeptE.get (procedureRule_kept _ _ _  ?_) (by assumption))
    | (with_reducible refine KeptE.get (floatRangeRule_kept _ _ _ _  ?_) (by assumption))
    | (with_reducible refine KeptE.get (crbRule_kept _ _  ?_) (by assumption))
    | (with_reducible refine KeptE.get (componentRule_kept _ _ _ _  ?_) (by assumption))
    | (with_reducible refine KeptE.get (noticeRule_kept _ _ _  ?_) (by assumption))
    | (with_reducible refine KeptE.get (lifeRule_kept _ _ _ _  ?_) (by assumption))
    | (with_reducible refine KeptE.get (ringRule_kept _ _ _ _  ?_) (by assumption))
    | (with_reducible refine KeptE.get (cellObjRule_kept _ _ _ _ _  ?_) (by assumption))
    | with_reducible apply KeptE.ok | with_reducible apply KeptE.error
    | (with_reducible refine KeptE.bindS ?_ (fun _ _ => ?_)) | (with_reducible refine KeptE.bind (fun _ => ?_))
    | with_reducible apply Kept.cond | split
    | (refine Kept.fields rfl rfl rfl rfl rfl ?_; first
      | with_reducible assumption | with_reducible intro _ | with_reducible apply storeRule_kept
      | with_reducible apply State.openRule_kept | with_reducible apply State.closeRule_kept
      | with_reducible apply endpointRule_kept | with_reducible apply regionRule_kept
      | with_reducible apply procedureRule_kept | with_reducible apply floatRangeRule_kept
      | with_reducible apply crbRule_kept | with_reducible apply componentRule_kept
      | with_reducible apply noticeRule_kept | with_reducible apply guarded_kept | with_reducible apply lifeRule_kept
      | with_reducible apply ringRule_kept | with_reducible apply cellObjRule_kept
      | (with_reducible refine KeptE.get (storeRule_kept _ _ _ _ _  ?_) (by assumption))
      | (with_reducible refine KeptE.get (State.openRule_kept _ _ _  ?_) (by assumption))
      | (with_reducible refine KeptE.get (State.closeRule_kept _ _ _  ?_) (by assumption))
      | (with_reducible refine KeptE.get (endpointRule_kept _ _ _  ?_) (by assumption))
      | (with_reducible refine KeptE.get (regionRule_kept _ _ _  ?_) (by assumption))
      | (with_reducible refine KeptE.get (procedureRule_kept _ _ _  ?_) (by assumption))
      | (with_reducible refine KeptE.get (floatRangeRule_kept _ _ _ _  ?_) (by assumption))
      | (with_reducible refine KeptE.get (crbRule_kept _ _  ?_) (by assumption))
      | (with_reducible refine KeptE.get (componentRule_kept _ _ _ _  ?_) (by assumption))
      | (with_reducible refine KeptE.get (noticeRule_kept _ _ _  ?_) (by assumption))
      | (with_reducible refine KeptE.get (lifeRule_kept _ _ _ _  ?_) (by assumption))
      | (with_reducible refine KeptE.get (ringRule_kept _ _ _ _  ?_) (by assumption))
      | (with_reducible refine KeptE.get (cellObjRule_kept _ _ _ _ _  ?_) (by assumption))
      | with_reducible apply KeptE.ok | with_reducible apply KeptE.error
      | (with_reducible refine KeptE.bindS ?_ (fun _ _ => ?_)) | (with_reducible refine KeptE.bind (fun _ => ?_))
      | with_reducible apply Kept.cond | split))

theorem swapRule_kept {s0 s : State} (sub value : Nat) (r : ObjRow) (hs : Kept s0 s) : KeptE s0 (swapRule sub value r
    s) := by
  unfold swapRule
  try dsimp only
  repeat' (first
    | with_reducible assumption | with_reducible intro _ | with_reducible apply storeRule_kept
    | with_reducible apply armRule_kept | with_reducible apply disarmRule_kept | with_reducible apply guarded_kept
    | (with_reducible refine KeptE.get (storeRule_kept _ _ _ _ _  ?_) (by assumption))
    | (with_reducible refine KeptE.get (armRule_kept _ _  ?_) (by assumption))
    | (with_reducible refine KeptE.get (disarmRule_kept _  ?_) (by assumption)) | with_reducible apply KeptE.ok
    | with_reducible apply KeptE.error | (with_reducible refine KeptE.bindS ?_ (fun _ _ => ?_))
    | (with_reducible refine KeptE.bind (fun _ => ?_)) | with_reducible apply Kept.cond | split)

theorem tb0Rule_kept {s0 s : State} (path : Path) (index sub value : Nat) (r : ObjRow) (hs : Kept s0 s) : KeptE s0
    (tb0Rule path index sub value r s) := by
  unfold tb0Rule
  try dsimp only
  repeat' (first
    | with_reducible assumption | with_reducible intro _ | with_reducible apply storeRule_kept
    | (with_reducible refine KeptE.get (storeRule_kept _ _ _ _ _  ?_) (by assumption)) | with_reducible apply KeptE.ok
    | with_reducible apply KeptE.error | (with_reducible refine KeptE.bindS ?_ (fun _ _ => ?_))
    | (with_reducible refine KeptE.bind (fun _ => ?_)))

theorem baseRule_kept {s0 s : State} (path : Path) (n sub value : Nat) (r : ObjRow) (hs : Kept s0 s) : KeptE s0
    (baseRule path n sub value r s) := by
  unfold baseRule
  try dsimp only
  repeat' (first
    | with_reducible assumption | with_reducible intro _ | with_reducible apply storeRule_kept
    | with_reducible apply rearmRule_kept | with_reducible apply tb0Rule_kept
    | (with_reducible refine KeptE.get (storeRule_kept _ _ _ _ _  ?_) (by assumption))
    | (with_reducible refine KeptE.get (rearmRule_kept _ _ _  ?_) (by assumption))
    | (with_reducible refine KeptE.get (tb0Rule_kept _ _ _ _ _  ?_) (by assumption)) | with_reducible apply KeptE.ok
    | with_reducible apply KeptE.error | (with_reducible refine KeptE.bindS ?_ (fun _ _ => ?_))
    | (with_reducible refine KeptE.bind (fun _ => ?_)) | with_reducible apply Kept.cond | split)

theorem beatRule_kept {s0 s : State} (sub value : Nat) (r : ObjRow) (hs : Kept s0 s) : KeptE s0 (beatRule sub value r
    s) := by
  unfold beatRule
  try dsimp only
  repeat' (first
    | with_reducible assumption | with_reducible intro _ | with_reducible apply storeRule_kept
    | with_reducible apply guarded_kept)

theorem partnerRule_kept {s0 s : State} (path : Path) (sub value : Nat) (r : ObjRow) (hs : Kept s0 s) : KeptE s0
    (partnerRule path sub value r s) := by
  unfold partnerRule
  try dsimp only
  repeat' (first
    | with_reducible assumption | with_reducible intro _ | with_reducible apply storeRule_kept
    | with_reducible apply handBackRule_kept | with_reducible apply guarded_kept
    | (with_reducible refine KeptE.get (storeRule_kept _ _ _ _ _  ?_) (by assumption))
    | (with_reducible refine KeptE.get (handBackRule_kept _ _  ?_) (by assumption)) | with_reducible apply KeptE.ok
    | with_reducible apply KeptE.error | (with_reducible refine KeptE.bindS ?_ (fun _ _ => ?_))
    | (with_reducible refine KeptE.bind (fun _ => ?_)) | with_reducible apply Kept.cond | split)

theorem spareRule_kept {s0 s : State} (sub value : Nat) (r : ObjRow) (hs : Kept s0 s) : KeptE s0 (spareRule sub value
    r s) := by
  unfold spareRule
  try dsimp only
  repeat' (first
    | with_reducible assumption | with_reducible intro _ | with_reducible apply State.setG_kept
    | with_reducible apply storeRule_kept | with_reducible apply State.reconsider_kept
    | with_reducible apply expelRule_kept | with_reducible apply readmitRule_kept
    | (with_reducible refine KeptE.get (storeRule_kept _ _ _ _ _  ?_) (by assumption))
    | (with_reducible refine KeptE.get (expelRule_kept _ _  ?_) (by assumption))
    | (with_reducible refine KeptE.get (readmitRule_kept _ _  ?_) (by assumption)) | with_reducible apply KeptE.ok
    | with_reducible apply KeptE.error | (with_reducible refine KeptE.bindS ?_ (fun _ _ => ?_))
    | (with_reducible refine KeptE.bind (fun _ => ?_)) | split
    | (refine Kept.fields rfl rfl rfl rfl rfl ?_; first
      | with_reducible assumption | with_reducible intro _ | with_reducible apply State.setG_kept
      | with_reducible apply storeRule_kept | with_reducible apply State.reconsider_kept
      | with_reducible apply expelRule_kept | with_reducible apply readmitRule_kept
      | (with_reducible refine KeptE.get (storeRule_kept _ _ _ _ _  ?_) (by assumption))
      | (with_reducible refine KeptE.get (expelRule_kept _ _  ?_) (by assumption))
      | (with_reducible refine KeptE.get (readmitRule_kept _ _  ?_) (by assumption)) | with_reducible apply KeptE.ok
      | with_reducible apply KeptE.error | (with_reducible refine KeptE.bindS ?_ (fun _ _ => ?_))
      | (with_reducible refine KeptE.bind (fun _ => ?_)) | split))

theorem imageRule_kept {s0 s : State} (sub value : Nat) (r : ObjRow) (hs : Kept s0 s) : KeptE s0 (imageRule sub value
    r s) := by
  unfold imageRule
  try dsimp only
  repeat' (first
    | with_reducible assumption | with_reducible intro _ | with_reducible apply State.fresh_kept
    | with_reducible apply storeRule_kept | with_reducible apply distributionRule_kept
    | (with_reducible refine KeptE.get (storeRule_kept _ _ _ _ _  ?_) (by assumption))
    | (with_reducible refine KeptE.get (distributionRule_kept _ _ _  ?_) (by assumption))
    | with_reducible apply KeptE.ok | with_reducible apply KeptE.error
    | (with_reducible refine KeptE.bindS ?_ (fun _ _ => ?_)) | (with_reducible refine KeptE.bind (fun _ => ?_))
    | with_reducible apply Kept.cond | split)

theorem devRule_kept {s0 s : State} (path : Path) (index sub value : Nat) (r : ObjRow) (hs : Kept s0 s) : KeptE s0
    (devRule path index sub value r s) := by
  unfold devRule
  try dsimp only
  repeat' (first
    | with_reducible assumption | with_reducible intro _ | with_reducible apply storeRule_kept
    | with_reducible apply roleRule_kept | with_reducible apply groupRule_kept
    | with_reducible apply snapshotRule_kept | with_reducible apply powerRule_kept | with_reducible apply svnRule_kept
    | with_reducible apply timingRule_kept | with_reducible apply resetWriteRule_kept
    | with_reducible apply holderRule_kept | with_reducible apply watchdogRule_kept
    | with_reducible apply kickRule_kept | with_reducible apply gpioRule_kept | with_reducible apply guarded_kept
    | with_reducible apply swapRule_kept | with_reducible apply tb0Rule_kept | with_reducible apply baseRule_kept
    | with_reducible apply beatRule_kept | with_reducible apply partnerRule_kept | with_reducible apply spareRule_kept
    | with_reducible apply imageRule_kept
    | (with_reducible refine KeptE.get (storeRule_kept _ _ _ _ _  ?_) (by assumption))
    | (with_reducible refine KeptE.get (roleRule_kept _ _ _  ?_) (by assumption))
    | (with_reducible refine KeptE.get (groupRule_kept _ _  ?_) (by assumption))
    | (with_reducible refine KeptE.get (snapshotRule_kept _  ?_) (by assumption))
    | (with_reducible refine KeptE.get (powerRule_kept _ _  ?_) (by assumption))
    | (with_reducible refine KeptE.get (svnRule_kept _  ?_) (by assumption))
    | (with_reducible refine KeptE.get (timingRule_kept _ _  ?_) (by assumption))
    | (with_reducible refine KeptE.get (resetWriteRule_kept _ _ _  ?_) (by assumption))
    | (with_reducible refine KeptE.get (holderRule_kept _ _ _ _ _  ?_) (by assumption))
    | (with_reducible refine KeptE.get (watchdogRule_kept _ _ _ _  ?_) (by assumption))
    | (with_reducible refine KeptE.get (kickRule_kept _ _ _  ?_) (by assumption))
    | (with_reducible refine KeptE.get (gpioRule_kept _ _ _ _  ?_) (by assumption))
    | (with_reducible refine KeptE.get (swapRule_kept _ _ _  ?_) (by assumption))
    | (with_reducible refine KeptE.get (tb0Rule_kept _ _ _ _ _  ?_) (by assumption))
    | (with_reducible refine KeptE.get (baseRule_kept _ _ _ _ _  ?_) (by assumption))
    | (with_reducible refine KeptE.get (beatRule_kept _ _ _  ?_) (by assumption))
    | (with_reducible refine KeptE.get (partnerRule_kept _ _ _ _  ?_) (by assumption))
    | (with_reducible refine KeptE.get (spareRule_kept _ _ _  ?_) (by assumption))
    | (with_reducible refine KeptE.get (imageRule_kept _ _ _  ?_) (by assumption)) | with_reducible apply KeptE.ok
    | with_reducible apply KeptE.error | (with_reducible refine KeptE.bindS ?_ (fun _ _ => ?_))
    | (with_reducible refine KeptE.bind (fun _ => ?_)) | with_reducible apply Kept.cond | split
    | (refine Kept.fields rfl rfl rfl rfl rfl ?_; first
      | with_reducible assumption | with_reducible intro _ | with_reducible apply storeRule_kept
      | with_reducible apply roleRule_kept | with_reducible apply groupRule_kept
      | with_reducible apply snapshotRule_kept | with_reducible apply powerRule_kept
      | with_reducible apply svnRule_kept | with_reducible apply timingRule_kept
      | with_reducible apply resetWriteRule_kept | with_reducible apply holderRule_kept
      | with_reducible apply watchdogRule_kept | with_reducible apply kickRule_kept
      | with_reducible apply gpioRule_kept | with_reducible apply guarded_kept | with_reducible apply swapRule_kept
      | with_reducible apply tb0Rule_kept | with_reducible apply baseRule_kept | with_reducible apply beatRule_kept
      | with_reducible apply partnerRule_kept | with_reducible apply spareRule_kept
      | with_reducible apply imageRule_kept
      | (with_reducible refine KeptE.get (storeRule_kept _ _ _ _ _  ?_) (by assumption))
      | (with_reducible refine KeptE.get (roleRule_kept _ _ _  ?_) (by assumption))
      | (with_reducible refine KeptE.get (groupRule_kept _ _  ?_) (by assumption))
      | (with_reducible refine KeptE.get (snapshotRule_kept _  ?_) (by assumption))
      | (with_reducible refine KeptE.get (powerRule_kept _ _  ?_) (by assumption))
      | (with_reducible refine KeptE.get (svnRule_kept _  ?_) (by assumption))
      | (with_reducible refine KeptE.get (timingRule_kept _ _  ?_) (by assumption))
      | (with_reducible refine KeptE.get (resetWriteRule_kept _ _ _  ?_) (by assumption))
      | (with_reducible refine KeptE.get (holderRule_kept _ _ _ _ _  ?_) (by assumption))
      | (with_reducible refine KeptE.get (watchdogRule_kept _ _ _ _  ?_) (by assumption))
      | (with_reducible refine KeptE.get (kickRule_kept _ _ _  ?_) (by assumption))
      | (with_reducible refine KeptE.get (gpioRule_kept _ _ _ _  ?_) (by assumption))
      | (with_reducible refine KeptE.get (swapRule_kept _ _ _  ?_) (by assumption))
      | (with_reducible refine KeptE.get (tb0Rule_kept _ _ _ _ _  ?_) (by assumption))
      | (with_reducible refine KeptE.get (baseRule_kept _ _ _ _ _  ?_) (by assumption))
      | (with_reducible refine KeptE.get (beatRule_kept _ _ _  ?_) (by assumption))
      | (with_reducible refine KeptE.get (partnerRule_kept _ _ _ _  ?_) (by assumption))
      | (with_reducible refine KeptE.get (spareRule_kept _ _ _  ?_) (by assumption))
      | (with_reducible refine KeptE.get (imageRule_kept _ _ _  ?_) (by assumption)) | with_reducible apply KeptE.ok
      | with_reducible apply KeptE.error | (with_reducible refine KeptE.bindS ?_ (fun _ _ => ?_))
      | (with_reducible refine KeptE.bind (fun _ => ?_)) | with_reducible apply Kept.cond | split))

theorem writeRule_kept {s0 s : State} (path : Path) (sel index sub value : Nat) (r : ObjRow) (hs : Kept s0 s) : KeptE
    s0 (writeRule path sel index sub value r s) := by
  unfold writeRule
  try dsimp only
  repeat' (first
    | with_reducible assumption | with_reducible intro _ | with_reducible apply fnRule_kept
    | with_reducible apply devRule_kept
    | (with_reducible refine KeptE.get (fnRule_kept _ _ _ _ _  ?_) (by assumption))
    | (with_reducible refine KeptE.get (devRule_kept _ _ _ _ _  ?_) (by assumption)) | with_reducible apply KeptE.ok
    | with_reducible apply KeptE.error | (with_reducible refine KeptE.bindS ?_ (fun _ _ => ?_))
    | (with_reducible refine KeptE.bind (fun _ => ?_)) | with_reducible apply Kept.cond | split)

theorem State.plainWrite_kept {s0 s : State} (path : Path) (sel index sub length value : Nat) (hs : Kept s0 s) : Kept
    s0 (State.plainWrite s path sel index sub length value) := by
  unfold State.plainWrite
  try dsimp only
  repeat' (first
    | with_reducible assumption | with_reducible intro _ | with_reducible apply State.access_kept
    | with_reducible apply State.tokenWrite_kept | with_reducible apply writeRule_kept
    | (with_reducible refine KeptE.get (writeRule_kept _ _ _ _ _ _  ?_) (by assumption))
    | with_reducible apply KeptE.ok | with_reducible apply KeptE.error
    | (with_reducible refine KeptE.bindS ?_ (fun _ _ => ?_)) | (with_reducible refine KeptE.bind (fun _ => ?_))
    | with_reducible apply Kept.cond)

theorem State.applyRequest_kept {s0 s : State} (h : Nat) (data : List Byte) (hs : Kept s0 s) : Kept s0
    (State.applyRequest s h data) := by
  unfold State.applyRequest
  try dsimp only
  repeat' (first
    | with_reducible assumption | with_reducible intro _ | with_reducible apply State.respond_kept
    | with_reducible apply State.readCore_kept | with_reducible apply State.infoCore_kept
    | with_reducible apply State.plainWrite_kept | split
    | (refine Kept.fields rfl rfl rfl rfl rfl ?_; first
      | with_reducible assumption))

theorem State.remoteOutcome_kept {s0 s : State} (h : Nat) (data : List Byte) (hs : Kept s0 s) : Kept s0
    (State.remoteOutcome s h data) := by
  unfold State.remoteOutcome
  try dsimp only
  repeat' (first
    | with_reducible assumption | with_reducible intro _ | with_reducible apply State.setG_kept | split
    | (refine Kept.fields rfl rfl rfl rfl rfl ?_; first
      | with_reducible assumption))

theorem State.broadcastOutcome_kept {s0 s : State} (h : Nat) (answers : List (Nat × Nat)) (hs : Kept s0 s) : Kept s0
    (State.broadcastOutcome s h answers) := by
  unfold State.broadcastOutcome
  try dsimp only
  repeat' (first
    | with_reducible assumption | with_reducible intro _ | with_reducible apply State.setG_kept
    | with_reducible apply State.remoteOutcome_kept)

theorem State.closeRemote_kept {s0 s : State}  (hs : Kept s0 s) : Kept s0 (State.closeRemote s) := by
  unfold State.closeRemote
  try dsimp only
  repeat' (first
    | with_reducible assumption | with_reducible intro _ | with_reducible apply State.remoteOutcome_kept
    | with_reducible apply State.broadcastOutcome_kept | with_reducible apply Kept.cond | split
    | (refine Kept.fields rfl rfl rfl rfl rfl ?_; first
      | with_reducible assumption | with_reducible intro _ | with_reducible apply State.remoteOutcome_kept
      | with_reducible apply State.broadcastOutcome_kept | with_reducible apply Kept.cond | split))

theorem State.sendRemote_kept {s0 s : State}  (hs : Kept s0 s) : Kept s0 (State.sendRemote s) := by
  unfold State.sendRemote
  try dsimp only
  repeat' (first
    | with_reducible assumption | with_reducible intro _ | with_reducible apply State.domainMsg_kept
    | with_reducible apply State.relayAll_kept | with_reducible apply Kept.cond | split
    | (refine Kept.fields rfl rfl rfl rfl rfl ?_; first
      | with_reducible assumption | with_reducible intro _ | with_reducible apply State.domainMsg_kept
      | with_reducible apply State.relayAll_kept | with_reducible apply Kept.cond | split))

theorem submitRule_kept {s0 s : State} (h : Nat) (_u1 : ObjRow) (hs : Kept s0 s) : KeptE s0 (submitRule h _u1 s) := by
  unfold submitRule
  try dsimp only
  repeat' (first
    | with_reducible assumption | with_reducible intro _ | with_reducible apply State.applyRequest_kept
    | with_reducible apply State.remoteOutcome_kept | with_reducible apply State.closeRemote_kept
    | with_reducible apply State.sendRemote_kept | with_reducible apply KeptE.ok | with_reducible apply KeptE.error
    | (with_reducible refine KeptE.bindS ?_ (fun _ _ => ?_)) | (with_reducible refine KeptE.bind (fun _ => ?_))
    | with_reducible apply Kept.cond | split
    | (refine Kept.fields rfl rfl rfl rfl rfl ?_; first
      | with_reducible assumption))

theorem execRemoteDictSubmit_kept {s0 s : State} (path : Path) (h : Nat) (hs : Kept s0 s) : KeptO s0
    (execRemoteDictSubmit path h s) := by
  unfold execRemoteDictSubmit
  try dsimp only
  repeat' (first
    | with_reducible assumption | with_reducible intro _ | with_reducible apply State.access_kept
    | with_reducible apply submitRule_kept
    | (with_reducible refine KeptE.get (submitRule_kept _ _  ?_) (by assumption)) | with_reducible apply KeptO.next)

theorem execRemoteDictRetry_kept {s0 s : State}  (hs : Kept s0 s) : KeptO s0 (execRemoteDictRetry s) := by
  unfold execRemoteDictRetry
  try dsimp only
  repeat' (first
    | with_reducible assumption | with_reducible intro _ | with_reducible apply State.sendRemote_kept
    | with_reducible apply KeptO.next | with_reducible apply KeptO.fault | with_reducible apply Kept.cond | split
    | (refine Kept.fields rfl rfl rfl rfl rfl ?_; first
      | with_reducible assumption))

theorem execRemoteDictTimeout_kept {s0 s : State}  (hs : Kept s0 s) : KeptO s0 (execRemoteDictTimeout s) := by
  unfold execRemoteDictTimeout
  try dsimp only
  repeat' (first
    | with_reducible assumption | with_reducible intro _ | with_reducible apply State.remoteOutcome_kept
    | with_reducible apply State.broadcastOutcome_kept | with_reducible apply KeptO.next
    | with_reducible apply KeptO.fault | with_reducible apply Kept.cond | split
    | (refine Kept.fields rfl rfl rfl rfl rfl ?_; first
      | with_reducible assumption | with_reducible intro _ | with_reducible apply State.remoteOutcome_kept
      | with_reducible apply State.broadcastOutcome_kept | with_reducible apply KeptO.next
      | with_reducible apply KeptO.fault | with_reducible apply Kept.cond | split))

theorem execDictReq_kept {s0 s : State} (h : Nat) (data : List Byte) (relay : Bool) (hs : Kept s0 s) : KeptO s0
    (execDictReq h data relay s) := by
  unfold execDictReq
  try dsimp only
  repeat' (first
    | with_reducible assumption | with_reducible intro _ | with_reducible apply State.domainMsg_kept
    | with_reducible apply State.passOn_kept | with_reducible apply State.applyRequest_kept
    | with_reducible apply KeptO.next | with_reducible apply KeptO.fault | with_reducible apply Kept.cond | split
    | (refine Kept.fields rfl rfl rfl rfl rfl ?_; first
      | with_reducible assumption | with_reducible intro _ | with_reducible apply State.domainMsg_kept
      | with_reducible apply State.passOn_kept | with_reducible apply State.applyRequest_kept
      | with_reducible apply KeptO.next | with_reducible apply KeptO.fault | with_reducible apply Kept.cond | split))

theorem execDictResp_kept {s0 s : State} (d h : Nat) (data : List Byte) (hs : Kept s0 s) : KeptO s0 (execDictResp d h
    data s) := by
  unfold execDictResp
  try dsimp only
  repeat' (first
    | with_reducible assumption | with_reducible intro _ | with_reducible apply State.remoteOutcome_kept
    | with_reducible apply State.closeRemote_kept | with_reducible apply KeptO.next | with_reducible apply KeptO.fault
    | with_reducible apply Kept.cond | split
    | (refine Kept.fields rfl rfl rfl rfl rfl ?_; first
      | with_reducible assumption))

theorem execObjectWrite_kept {s0 s : State} (path : Path) (sel index sub length value : Nat) (hs : Kept s0 s) :
    KeptO s0 (execObjectWrite path sel index sub length value s) := by
  unfold execObjectWrite
  split
  · exact KeptO.next (State.access_kept _ _ _ _ _ _ _ (fun r t ht => submitRule_kept _ _ ht) hs)
  · exact KeptO.next (State.plainWrite_kept _ _ _ _ _ _ hs)

theorem State.commitStored_kept {s0 s : State} (key value : Nat) (hs : Kept s0 s) : Kept s0 (State.commitStored s key
    value) := by
  unfold State.commitStored
  try dsimp only
  repeat' (first
    | with_reducible assumption | with_reducible intro _ | with_reducible apply State.setG_kept
    | with_reducible apply State.setRole_kept | with_reducible apply State.retrainGroup_kept
    | with_reducible apply State.setPower_kept | with_reducible apply State.setConfigured_kept
    | with_reducible apply State.setTiming_kept | with_reducible apply Kept.cond | split
    | (refine Kept.fields rfl rfl rfl rfl rfl ?_; first
      | with_reducible assumption | with_reducible intro _ | with_reducible apply State.setG_kept
      | with_reducible apply State.setRole_kept | with_reducible apply State.retrainGroup_kept
      | with_reducible apply State.setPower_kept | with_reducible apply State.setConfigured_kept
      | with_reducible apply State.setTiming_kept | with_reducible apply Kept.cond | split))

theorem State.freeWindow_kept {s0 s : State}  (xs : Path) (hs : Kept s0 s) : Kept s0 (State.freeWindow s xs) := by
  unfold State.freeWindow
  try dsimp only
  repeat' (first
    | with_reducible assumption | with_reducible intro _ | with_reducible apply State.modFn_kept | split
    | (refine Kept.fields rfl rfl rfl rfl rfl ?_; first
      | with_reducible assumption | with_reducible intro _ | with_reducible apply State.modFn_kept | split))

theorem execStoredWriteCommit_kept {s0 s : State} (flashOk : Bool) (hs : Kept s0 s) : KeptO s0 (execStoredWriteCommit
    flashOk s) := by
  unfold execStoredWriteCommit
  try dsimp only
  repeat' (first
    | with_reducible assumption | with_reducible intro _ | with_reducible apply State.addG_kept
    | with_reducible apply State.respond_kept | with_reducible apply State.closeRemote_kept
    | with_reducible apply State.commitStored_kept | with_reducible apply State.freeWindow_kept
    | with_reducible apply KeptO.next | with_reducible apply KeptO.fault | with_reducible apply Kept.cond | split
    | (refine Kept.fields rfl rfl rfl rfl rfl ?_; first
      | with_reducible assumption | with_reducible intro _ | with_reducible apply State.addG_kept
      | with_reducible apply State.respond_kept | with_reducible apply State.closeRemote_kept
      | with_reducible apply State.commitStored_kept | with_reducible apply State.freeWindow_kept))

theorem execMctpControlMessage_kept {s0 s : State} (path : Path) (command value : Nat) (hs : Kept s0 s) : KeptO s0
    (execMctpControlMessage path command value s) := by
  unfold execMctpControlMessage
  try dsimp only
  repeat' (first
    | with_reducible assumption | with_reducible intro _ | with_reducible apply State.setG_kept
    | with_reducible apply State.send_kept | with_reducible apply KeptO.next | with_reducible apply KeptO.fault
    | with_reducible apply Kept.cond | split
    | (refine Kept.fields rfl rfl rfl rfl rfl ?_; first
      | with_reducible assumption))

theorem State.tickBases_kept {s0 s : State}  (hs : Kept s0 s) : Kept s0 (State.tickBases s) := by
  unfold State.tickBases
  try dsimp only
  repeat' (first
    | with_reducible assumption | with_reducible intro _ | split
    | (refine Kept.fields rfl rfl rfl rfl rfl ?_; first
      | with_reducible assumption))

theorem State.tickFill_kept {s0 s : State}  (hs : Kept s0 s) : Kept s0 (State.tickFill s) := by
  unfold State.tickFill
  try dsimp only
  repeat' (first
    | with_reducible assumption | with_reducible intro _ | split
    | (with_reducible refine Kept.foldl _ (fun _ _ _ => ?_) _ ?_)
    | (refine Kept.fields rfl rfl rfl rfl rfl ?_; first
      | with_reducible assumption))

theorem State.tickDemand_kept {s0 s : State}  (xs : List Cmd) (hs : Kept s0 s) : Kept s0 (State.tickDemand s xs) := by
  induction xs generalizing s  with
  | nil =>
    unfold State.tickDemand
    try dsimp only
    repeat' (first | with_reducible assumption) | cons e es ih =>
    unfold State.tickDemand
    try dsimp only
    repeat' (first
      | with_reducible assumption | with_reducible intro _ | with_reducible apply ih
      | with_reducible apply State.noteDemand_kept | split | (with_reducible refine Kept.elim _ ?_ (fun _ => ?_)))

theorem State.tickChans_kept {s0 s : State}  (xs : List (Nat × ChanCore)) (hs : Kept s0 s) : Kept s0 (State.tickChans
    s xs) := by
  induction xs generalizing s  with
  | nil =>
    unfold State.tickChans
    try dsimp only
    repeat' (first | with_reducible assumption) | cons e es ih =>
    unfold State.tickChans
    try dsimp only
    repeat' (first
      | with_reducible assumption | with_reducible intro _ | with_reducible apply ih
      | with_reducible apply State.addG_kept | with_reducible apply Kept.cond)

theorem State.tick_kept {s0 s : State} (hs : Kept s0 s) : Kept s0 (State.tick s) := by
  unfold State.tick
  dsimp only
  split
  · apply State.noteRetired_kept
    apply State.checkHeads_kept
    refine Kept.fields (t := ((s.tickFill.tickDemand s.cmds).tickChans s.chans).tickBases) rfl rfl rfl rfl rfl ?_
    exact State.tickBases_kept (State.tickChans_kept _ (State.tickDemand_kept _ (State.tickFill_kept hs)))
  · exact hs

end Sys2Proof.Machine
end

