-- ==== Sys2Proof/Laws/State.lean ====
section
/-!
SUPPORT. What the updates of the state leave alone, one lemma per update with a clause for each field that it does not write;
what a register, a unit or a byte reads after it was written; and which objects share no register.
-/

namespace Sys2Proof.Machine

/-! ### Frames of the updates -/

@[simp] theorem State.setO_frame (s : State) (sel index sub v : Nat) :
  (s.setO sel index sub v).mem = s.mem ∧ (s.setO sel index sub v).garbled = s.garbled ∧ (s.setO sel index sub v).ecc = s.ecc ∧
  (s.setO sel index sub v).floats = s.floats ∧ (s.setO sel index sub v).fAdds = s.fAdds ∧ (s.setO sel index sub v).fSets =
  s.fSets ∧ (s.setO sel index sub v).cycle = s.cycle ∧ (s.setO sel index sub v).clock = s.clock ∧ (s.setO sel index sub v).tb
  = s.tb ∧ (s.setO sel index sub v).servo = s.servo ∧ (s.setO sel index sub v).tb0Ready = s.tb0Ready ∧ (s.setO sel index sub
  v).cal = s.cal ∧ (s.setO sel index sub v).ctxs = s.ctxs ∧ (s.setO sel index sub v).fns = s.fns ∧ (s.setO sel index sub
  v).cmds = s.cmds ∧ (s.setO sel index sub v).nextId = s.nextId ∧ (s.setO sel index sub v).retired = s.retired ∧ (s.setO sel
  index sub v).engines = s.engines ∧ (s.setO sel index sub v).pieces = s.pieces ∧ (s.setO sel index sub v).reads = s.reads ∧
  (s.setO sel index sub v).cores = s.cores ∧ (s.setO sel index sub v).chans = s.chans ∧ (s.setO sel index sub v).cellsAt =
  s.cellsAt ∧ (s.setO sel index sub v).recs = s.recs ∧ (s.setO sel index sub v).inCal = s.inCal ∧ (s.setO sel index sub
  v).standby = s.standby ∧ (s.setO sel index sub v).tracks = s.tracks ∧ (s.setO sel index sub v).failedTb = s.failedTb ∧
  (s.setO sel index sub v).staging = s.staging ∧ (s.setO sel index sub v).txq = s.txq ∧ (s.setO sel index sub v).seqRx =
  s.seqRx ∧ (s.setO sel index sub v).seqTx = s.seqTx ∧ (s.setO sel index sub v).ptpSeq = s.ptpSeq ∧ (s.setO sel index sub
  v).parent = s.parent ∧ (s.setO sel index sub v).rxHeld = s.rxHeld ∧ (s.setO sel index sub v).delaySent = s.delaySent ∧
  (s.setO sel index sub v).energy = s.energy ∧ (s.setO sel index sub v).modeAt = s.modeAt ∧ (s.setO sel index sub v).eccMode =
  s.eccMode ∧ (s.setO sel index sub v).owed = s.owed ∧ (s.setO sel index sub v).scrub = s.scrub ∧ (s.setO sel index sub
  v).cscrub = s.cscrub ∧ (s.setO sel index sub v).lanes = s.lanes ∧ (s.setO sel index sub v).sessions = s.sessions ∧ (s.setO
  sel index sub v).streams = s.streams ∧ (s.setO sel index sub v).awaits = s.awaits ∧ (s.setO sel index sub v).answers =
  s.answers ∧ (s.setO sel index sub v).atomics = s.atomics ∧ (s.setO sel index sub v).procs = s.procs ∧ (s.setO sel index sub
  v).triggers = s.triggers ∧ (s.setO sel index sub v).domain = s.domain ∧ (s.setO sel index sub v).sec = s.sec ∧ (s.setO sel
  index sub v).latches = s.latches ∧ (s.setO sel index sub v).vdmEid = s.vdmEid ∧ (s.setO sel index sub v).healthAt =
  s.healthAt ∧ (s.setO sel index sub v).wdog = s.wdog ∧ (s.setO sel index sub v).hourly = s.hourly ∧ (s.setO sel index sub
  v).minutely = s.minutely ∧ (s.setO sel index sub v).logNext = s.logNext ∧ (s.setO sel index sub v).debits = s.debits ∧
  (s.setO sel index sub v).harvest = s.harvest ∧ (s.setO sel index sub v).badPhys = s.badPhys ∧ (s.setO sel index sub
  v).fenced = s.fenced ∧ (s.setO sel index sub v).ports = s.ports ∧ (s.setO sel index sub v).host = s.host ∧ (s.setO sel index
  sub v).power = s.power ∧ (s.setO sel index sub v).out = s.out ∧ (s.setO sel index sub v).pending = s.pending ∧ (s.setO sel
  index sub v).freeCtr = s.freeCtr :=
  ⟨rfl, rfl, rfl, rfl, rfl, rfl, rfl, rfl, rfl, rfl, rfl, rfl, rfl, rfl, rfl, rfl, rfl, rfl, rfl, rfl, rfl, rfl, rfl, rfl,
  rfl, rfl, rfl, rfl, rfl, rfl, rfl, rfl, rfl, rfl, rfl, rfl, rfl, rfl, rfl, rfl, rfl, rfl, rfl, rfl, rfl, rfl, rfl, rfl, rfl,
  rfl, rfl, rfl, rfl, rfl, rfl, rfl, rfl, rfl, rfl, rfl, rfl, rfl, rfl, rfl, rfl, rfl, rfl, rfl, rfl⟩

@[simp] theorem State.addO_frame (s : State) (sel index sub n : Nat) :
  (s.addO sel index sub n).mem = s.mem ∧ (s.addO sel index sub n).garbled = s.garbled ∧ (s.addO sel index sub n).ecc = s.ecc ∧
  (s.addO sel index sub n).floats = s.floats ∧ (s.addO sel index sub n).fAdds = s.fAdds ∧ (s.addO sel index sub n).fSets =
  s.fSets ∧ (s.addO sel index sub n).cycle = s.cycle ∧ (s.addO sel index sub n).clock = s.clock ∧ (s.addO sel index sub n).tb
  = s.tb ∧ (s.addO sel index sub n).servo = s.servo ∧ (s.addO sel index sub n).tb0Ready = s.tb0Ready ∧ (s.addO sel index sub
  n).cal = s.cal ∧ (s.addO sel index sub n).ctxs = s.ctxs ∧ (s.addO sel index sub n).fns = s.fns ∧ (s.addO sel index sub
  n).cmds = s.cmds ∧ (s.addO sel index sub n).nextId = s.nextId ∧ (s.addO sel index sub n).retired = s.retired ∧ (s.addO sel
  index sub n).engines = s.engines ∧ (s.addO sel index sub n).pieces = s.pieces ∧ (s.addO sel index sub n).reads = s.reads ∧
  (s.addO sel index sub n).cores = s.cores ∧ (s.addO sel index sub n).chans = s.chans ∧ (s.addO sel index sub n).cellsAt =
  s.cellsAt ∧ (s.addO sel index sub n).recs = s.recs ∧ (s.addO sel index sub n).inCal = s.inCal ∧ (s.addO sel index sub
  n).standby = s.standby ∧ (s.addO sel index sub n).tracks = s.tracks ∧ (s.addO sel index sub n).failedTb = s.failedTb ∧
  (s.addO sel index sub n).staging = s.staging ∧ (s.addO sel index sub n).txq = s.txq ∧ (s.addO sel index sub n).seqRx =
  s.seqRx ∧ (s.addO sel index sub n).seqTx = s.seqTx ∧ (s.addO sel index sub n).ptpSeq = s.ptpSeq ∧ (s.addO sel index sub
  n).parent = s.parent ∧ (s.addO sel index sub n).rxHeld = s.rxHeld ∧ (s.addO sel index sub n).delaySent = s.delaySent ∧
  (s.addO sel index sub n).energy = s.energy ∧ (s.addO sel index sub n).modeAt = s.modeAt ∧ (s.addO sel index sub n).eccMode =
  s.eccMode ∧ (s.addO sel index sub n).owed = s.owed ∧ (s.addO sel index sub n).scrub = s.scrub ∧ (s.addO sel index sub
  n).cscrub = s.cscrub ∧ (s.addO sel index sub n).lanes = s.lanes ∧ (s.addO sel index sub n).sessions = s.sessions ∧ (s.addO
  sel index sub n).streams = s.streams ∧ (s.addO sel index sub n).awaits = s.awaits ∧ (s.addO sel index sub n).answers =
  s.answers ∧ (s.addO sel index sub n).atomics = s.atomics ∧ (s.addO sel index sub n).procs = s.procs ∧ (s.addO sel index sub
  n).triggers = s.triggers ∧ (s.addO sel index sub n).domain = s.domain ∧ (s.addO sel index sub n).sec = s.sec ∧ (s.addO sel
  index sub n).latches = s.latches ∧ (s.addO sel index sub n).vdmEid = s.vdmEid ∧ (s.addO sel index sub n).healthAt =
  s.healthAt ∧ (s.addO sel index sub n).wdog = s.wdog ∧ (s.addO sel index sub n).hourly = s.hourly ∧ (s.addO sel index sub
  n).minutely = s.minutely ∧ (s.addO sel index sub n).logNext = s.logNext ∧ (s.addO sel index sub n).debits = s.debits ∧
  (s.addO sel index sub n).harvest = s.harvest ∧ (s.addO sel index sub n).badPhys = s.badPhys ∧ (s.addO sel index sub
  n).fenced = s.fenced ∧ (s.addO sel index sub n).ports = s.ports ∧ (s.addO sel index sub n).host = s.host ∧ (s.addO sel index
  sub n).power = s.power ∧ (s.addO sel index sub n).out = s.out ∧ (s.addO sel index sub n).pending = s.pending ∧ (s.addO sel
  index sub n).freeCtr = s.freeCtr :=
  ⟨rfl, rfl, rfl, rfl, rfl, rfl, rfl, rfl, rfl, rfl, rfl, rfl, rfl, rfl, rfl, rfl, rfl, rfl, rfl, rfl, rfl, rfl, rfl, rfl,
  rfl, rfl, rfl, rfl, rfl, rfl, rfl, rfl, rfl, rfl, rfl, rfl, rfl, rfl, rfl, rfl, rfl, rfl, rfl, rfl, rfl, rfl, rfl, rfl, rfl,
  rfl, rfl, rfl, rfl, rfl, rfl, rfl, rfl, rfl, rfl, rfl, rfl, rfl, rfl, rfl, rfl, rfl, rfl, rfl, rfl⟩

@[simp] theorem State.setG_frame (s : State) (index sub v : Nat) :
  (s.setG index sub v).mem = s.mem ∧ (s.setG index sub v).garbled = s.garbled ∧ (s.setG index sub v).ecc = s.ecc ∧ (s.setG
  index sub v).floats = s.floats ∧ (s.setG index sub v).fAdds = s.fAdds ∧ (s.setG index sub v).fSets = s.fSets ∧ (s.setG index
  sub v).cycle = s.cycle ∧ (s.setG index sub v).clock = s.clock ∧ (s.setG index sub v).tb = s.tb ∧ (s.setG index sub v).servo
  = s.servo ∧ (s.setG index sub v).tb0Ready = s.tb0Ready ∧ (s.setG index sub v).cal = s.cal ∧ (s.setG index sub v).ctxs =
  s.ctxs ∧ (s.setG index sub v).fns = s.fns ∧ (s.setG index sub v).cmds = s.cmds ∧ (s.setG index sub v).nextId = s.nextId ∧
  (s.setG index sub v).retired = s.retired ∧ (s.setG index sub v).engines = s.engines ∧ (s.setG index sub v).pieces = s.pieces
  ∧ (s.setG index sub v).reads = s.reads ∧ (s.setG index sub v).cores = s.cores ∧ (s.setG index sub v).chans = s.chans ∧
  (s.setG index sub v).cellsAt = s.cellsAt ∧ (s.setG index sub v).recs = s.recs ∧ (s.setG index sub v).inCal = s.inCal ∧
  (s.setG index sub v).standby = s.standby ∧ (s.setG index sub v).tracks = s.tracks ∧ (s.setG index sub v).failedTb =
  s.failedTb ∧ (s.setG index sub v).staging = s.staging ∧ (s.setG index sub v).txq = s.txq ∧ (s.setG index sub v).seqRx =
  s.seqRx ∧ (s.setG index sub v).seqTx = s.seqTx ∧ (s.setG index sub v).ptpSeq = s.ptpSeq ∧ (s.setG index sub v).parent =
  s.parent ∧ (s.setG index sub v).rxHeld = s.rxHeld ∧ (s.setG index sub v).delaySent = s.delaySent ∧ (s.setG index sub
  v).energy = s.energy ∧ (s.setG index sub v).modeAt = s.modeAt ∧ (s.setG index sub v).eccMode = s.eccMode ∧ (s.setG index sub
  v).owed = s.owed ∧ (s.setG index sub v).scrub = s.scrub ∧ (s.setG index sub v).cscrub = s.cscrub ∧ (s.setG index sub
  v).lanes = s.lanes ∧ (s.setG index sub v).sessions = s.sessions ∧ (s.setG index sub v).streams = s.streams ∧ (s.setG index
  sub v).awaits = s.awaits ∧ (s.setG index sub v).answers = s.answers ∧ (s.setG index sub v).atomics = s.atomics ∧ (s.setG
  index sub v).procs = s.procs ∧ (s.setG index sub v).triggers = s.triggers ∧ (s.setG index sub v).domain = s.domain ∧ (s.setG
  index sub v).sec = s.sec ∧ (s.setG index sub v).latches = s.latches ∧ (s.setG index sub v).vdmEid = s.vdmEid ∧ (s.setG index
  sub v).healthAt = s.healthAt ∧ (s.setG index sub v).wdog = s.wdog ∧ (s.setG index sub v).hourly = s.hourly ∧ (s.setG index
  sub v).minutely = s.minutely ∧ (s.setG index sub v).logNext = s.logNext ∧ (s.setG index sub v).debits = s.debits ∧ (s.setG
  index sub v).harvest = s.harvest ∧ (s.setG index sub v).badPhys = s.badPhys ∧ (s.setG index sub v).fenced = s.fenced ∧
  (s.setG index sub v).ports = s.ports ∧ (s.setG index sub v).host = s.host ∧ (s.setG index sub v).power = s.power ∧ (s.setG
  index sub v).out = s.out ∧ (s.setG index sub v).pending = s.pending ∧ (s.setG index sub v).freeCtr = s.freeCtr :=
  ⟨rfl, rfl, rfl, rfl, rfl, rfl, rfl, rfl, rfl, rfl, rfl, rfl, rfl, rfl, rfl, rfl, rfl, rfl, rfl, rfl, rfl, rfl, rfl, rfl,
  rfl, rfl, rfl, rfl, rfl, rfl, rfl, rfl, rfl, rfl, rfl, rfl, rfl, rfl, rfl, rfl, rfl, rfl, rfl, rfl, rfl, rfl, rfl, rfl, rfl,
  rfl, rfl, rfl, rfl, rfl, rfl, rfl, rfl, rfl, rfl, rfl, rfl, rfl, rfl, rfl, rfl, rfl, rfl, rfl, rfl⟩

@[simp] theorem State.addG_frame (s : State) (index sub n : Nat) :
  (s.addG index sub n).mem = s.mem ∧ (s.addG index sub n).garbled = s.garbled ∧ (s.addG index sub n).ecc = s.ecc ∧ (s.addG
  index sub n).floats = s.floats ∧ (s.addG index sub n).fAdds = s.fAdds ∧ (s.addG index sub n).fSets = s.fSets ∧ (s.addG index
  sub n).cycle = s.cycle ∧ (s.addG index sub n).clock = s.clock ∧ (s.addG index sub n).tb = s.tb ∧ (s.addG index sub n).servo
  = s.servo ∧ (s.addG index sub n).tb0Ready = s.tb0Ready ∧ (s.addG index sub n).cal = s.cal ∧ (s.addG index sub n).ctxs =
  s.ctxs ∧ (s.addG index sub n).fns = s.fns ∧ (s.addG index sub n).cmds = s.cmds ∧ (s.addG index sub n).nextId = s.nextId ∧
  (s.addG index sub n).retired = s.retired ∧ (s.addG index sub n).engines = s.engines ∧ (s.addG index sub n).pieces = s.pieces
  ∧ (s.addG index sub n).reads = s.reads ∧ (s.addG index sub n).cores = s.cores ∧ (s.addG index sub n).chans = s.chans ∧
  (s.addG index sub n).cellsAt = s.cellsAt ∧ (s.addG index sub n).recs = s.recs ∧ (s.addG index sub n).inCal = s.inCal ∧
  (s.addG index sub n).standby = s.standby ∧ (s.addG index sub n).tracks = s.tracks ∧ (s.addG index sub n).failedTb =
  s.failedTb ∧ (s.addG index sub n).staging = s.staging ∧ (s.addG index sub n).txq = s.txq ∧ (s.addG index sub n).seqRx =
  s.seqRx ∧ (s.addG index sub n).seqTx = s.seqTx ∧ (s.addG index sub n).ptpSeq = s.ptpSeq ∧ (s.addG index sub n).parent =
  s.parent ∧ (s.addG index sub n).rxHeld = s.rxHeld ∧ (s.addG index sub n).delaySent = s.delaySent ∧ (s.addG index sub
  n).energy = s.energy ∧ (s.addG index sub n).modeAt = s.modeAt ∧ (s.addG index sub n).eccMode = s.eccMode ∧ (s.addG index sub
  n).owed = s.owed ∧ (s.addG index sub n).scrub = s.scrub ∧ (s.addG index sub n).cscrub = s.cscrub ∧ (s.addG index sub
  n).lanes = s.lanes ∧ (s.addG index sub n).sessions = s.sessions ∧ (s.addG index sub n).streams = s.streams ∧ (s.addG index
  sub n).awaits = s.awaits ∧ (s.addG index sub n).answers = s.answers ∧ (s.addG index sub n).atomics = s.atomics ∧ (s.addG
  index sub n).procs = s.procs ∧ (s.addG index sub n).triggers = s.triggers ∧ (s.addG index sub n).domain = s.domain ∧ (s.addG
  index sub n).sec = s.sec ∧ (s.addG index sub n).latches = s.latches ∧ (s.addG index sub n).vdmEid = s.vdmEid ∧ (s.addG index
  sub n).healthAt = s.healthAt ∧ (s.addG index sub n).wdog = s.wdog ∧ (s.addG index sub n).hourly = s.hourly ∧ (s.addG index
  sub n).minutely = s.minutely ∧ (s.addG index sub n).logNext = s.logNext ∧ (s.addG index sub n).debits = s.debits ∧ (s.addG
  index sub n).harvest = s.harvest ∧ (s.addG index sub n).badPhys = s.badPhys ∧ (s.addG index sub n).fenced = s.fenced ∧
  (s.addG index sub n).ports = s.ports ∧ (s.addG index sub n).host = s.host ∧ (s.addG index sub n).power = s.power ∧ (s.addG
  index sub n).out = s.out ∧ (s.addG index sub n).pending = s.pending ∧ (s.addG index sub n).freeCtr = s.freeCtr :=
  ⟨rfl, rfl, rfl, rfl, rfl, rfl, rfl, rfl, rfl, rfl, rfl, rfl, rfl, rfl, rfl, rfl, rfl, rfl, rfl, rfl, rfl, rfl, rfl, rfl,
  rfl, rfl, rfl, rfl, rfl, rfl, rfl, rfl, rfl, rfl, rfl, rfl, rfl, rfl, rfl, rfl, rfl, rfl, rfl, rfl, rfl, rfl, rfl, rfl, rfl,
  rfl, rfl, rfl, rfl, rfl, rfl, rfl, rfl, rfl, rfl, rfl, rfl, rfl, rfl, rfl, rfl, rfl, rfl, rfl, rfl⟩

@[simp] theorem State.setFn_frame (s : State) (f : Nat) (x : Fn) :
  (s.setFn f x).obj = s.obj ∧ (s.setFn f x).mem = s.mem ∧ (s.setFn f x).garbled = s.garbled ∧ (s.setFn f x).ecc = s.ecc ∧
  (s.setFn f x).floats = s.floats ∧ (s.setFn f x).fAdds = s.fAdds ∧ (s.setFn f x).fSets = s.fSets ∧ (s.setFn f x).cycle =
  s.cycle ∧ (s.setFn f x).clock = s.clock ∧ (s.setFn f x).tb = s.tb ∧ (s.setFn f x).servo = s.servo ∧ (s.setFn f x).tb0Ready =
  s.tb0Ready ∧ (s.setFn f x).cal = s.cal ∧ (s.setFn f x).ctxs = s.ctxs ∧ (s.setFn f x).cmds = s.cmds ∧ (s.setFn f x).nextId =
  s.nextId ∧ (s.setFn f x).retired = s.retired ∧ (s.setFn f x).engines = s.engines ∧ (s.setFn f x).pieces = s.pieces ∧
  (s.setFn f x).reads = s.reads ∧ (s.setFn f x).cores = s.cores ∧ (s.setFn f x).chans = s.chans ∧ (s.setFn f x).cellsAt =
  s.cellsAt ∧ (s.setFn f x).recs = s.recs ∧ (s.setFn f x).inCal = s.inCal ∧ (s.setFn f x).standby = s.standby ∧ (s.setFn f
  x).tracks = s.tracks ∧ (s.setFn f x).failedTb = s.failedTb ∧ (s.setFn f x).staging = s.staging ∧ (s.setFn f x).txq = s.txq ∧
  (s.setFn f x).seqRx = s.seqRx ∧ (s.setFn f x).seqTx = s.seqTx ∧ (s.setFn f x).ptpSeq = s.ptpSeq ∧ (s.setFn f x).parent =
  s.parent ∧ (s.setFn f x).rxHeld = s.rxHeld ∧ (s.setFn f x).delaySent = s.delaySent ∧ (s.setFn f x).energy = s.energy ∧
  (s.setFn f x).modeAt = s.modeAt ∧ (s.setFn f x).eccMode = s.eccMode ∧ (s.setFn f x).owed = s.owed ∧ (s.setFn f x).scrub =
  s.scrub ∧ (s.setFn f x).cscrub = s.cscrub ∧ (s.setFn f x).lanes = s.lanes ∧ (s.setFn f x).sessions = s.sessions ∧ (s.setFn f
  x).streams = s.streams ∧ (s.setFn f x).awaits = s.awaits ∧ (s.setFn f x).answers = s.answers ∧ (s.setFn f x).atomics =
  s.atomics ∧ (s.setFn f x).procs = s.procs ∧ (s.setFn f x).triggers = s.triggers ∧ (s.setFn f x).domain = s.domain ∧ (s.setFn
  f x).sec = s.sec ∧ (s.setFn f x).latches = s.latches ∧ (s.setFn f x).vdmEid = s.vdmEid ∧ (s.setFn f x).healthAt = s.healthAt
  ∧ (s.setFn f x).wdog = s.wdog ∧ (s.setFn f x).hourly = s.hourly ∧ (s.setFn f x).minutely = s.minutely ∧ (s.setFn f
  x).logNext = s.logNext ∧ (s.setFn f x).debits = s.debits ∧ (s.setFn f x).harvest = s.harvest ∧ (s.setFn f x).badPhys =
  s.badPhys ∧ (s.setFn f x).fenced = s.fenced ∧ (s.setFn f x).ports = s.ports ∧ (s.setFn f x).host = s.host ∧ (s.setFn f
  x).power = s.power ∧ (s.setFn f x).out = s.out ∧ (s.setFn f x).pending = s.pending ∧ (s.setFn f x).freeCtr = s.freeCtr :=
  ⟨rfl, rfl, rfl, rfl, rfl, rfl, rfl, rfl, rfl, rfl, rfl, rfl, rfl, rfl, rfl, rfl, rfl, rfl, rfl, rfl, rfl, rfl, rfl, rfl,
  rfl, rfl, rfl, rfl, rfl, rfl, rfl, rfl, rfl, rfl, rfl, rfl, rfl, rfl, rfl, rfl, rfl, rfl, rfl, rfl, rfl, rfl, rfl, rfl, rfl,
  rfl, rfl, rfl, rfl, rfl, rfl, rfl, rfl, rfl, rfl, rfl, rfl, rfl, rfl, rfl, rfl, rfl, rfl, rfl, rfl⟩

@[simp] theorem State.modFn_frame (s : State) (f : Nat) (k : Fn → Fn) :
  (s.modFn f k).obj = s.obj ∧ (s.modFn f k).mem = s.mem ∧ (s.modFn f k).garbled = s.garbled ∧ (s.modFn f k).ecc = s.ecc ∧
  (s.modFn f k).floats = s.floats ∧ (s.modFn f k).fAdds = s.fAdds ∧ (s.modFn f k).fSets = s.fSets ∧ (s.modFn f k).cycle =
  s.cycle ∧ (s.modFn f k).clock = s.clock ∧ (s.modFn f k).tb = s.tb ∧ (s.modFn f k).servo = s.servo ∧ (s.modFn f k).tb0Ready =
  s.tb0Ready ∧ (s.modFn f k).cal = s.cal ∧ (s.modFn f k).ctxs = s.ctxs ∧ (s.modFn f k).cmds = s.cmds ∧ (s.modFn f k).nextId =
  s.nextId ∧ (s.modFn f k).retired = s.retired ∧ (s.modFn f k).engines = s.engines ∧ (s.modFn f k).pieces = s.pieces ∧
  (s.modFn f k).reads = s.reads ∧ (s.modFn f k).cores = s.cores ∧ (s.modFn f k).chans = s.chans ∧ (s.modFn f k).cellsAt =
  s.cellsAt ∧ (s.modFn f k).recs = s.recs ∧ (s.modFn f k).inCal = s.inCal ∧ (s.modFn f k).standby = s.standby ∧ (s.modFn f
  k).tracks = s.tracks ∧ (s.modFn f k).failedTb = s.failedTb ∧ (s.modFn f k).staging = s.staging ∧ (s.modFn f k).txq = s.txq ∧
  (s.modFn f k).seqRx = s.seqRx ∧ (s.modFn f k).seqTx = s.seqTx ∧ (s.modFn f k).ptpSeq = s.ptpSeq ∧ (s.modFn f k).parent =
  s.parent ∧ (s.modFn f k).rxHeld = s.rxHeld ∧ (s.modFn f k).delaySent = s.delaySent ∧ (s.modFn f k).energy = s.energy ∧
  (s.modFn f k).modeAt = s.modeAt ∧ (s.modFn f k).eccMode = s.eccMode ∧ (s.modFn f k).owed = s.owed ∧ (s.modFn f k).scrub =
  s.scrub ∧ (s.modFn f k).cscrub = s.cscrub ∧ (s.modFn f k).lanes = s.lanes ∧ (s.modFn f k).sessions = s.sessions ∧ (s.modFn f
  k).streams = s.streams ∧ (s.modFn f k).awaits = s.awaits ∧ (s.modFn f k).answers = s.answers ∧ (s.modFn f k).atomics =
  s.atomics ∧ (s.modFn f k).procs = s.procs ∧ (s.modFn f k).triggers = s.triggers ∧ (s.modFn f k).domain = s.domain ∧ (s.modFn
  f k).sec = s.sec ∧ (s.modFn f k).latches = s.latches ∧ (s.modFn f k).vdmEid = s.vdmEid ∧ (s.modFn f k).healthAt = s.healthAt
  ∧ (s.modFn f k).wdog = s.wdog ∧ (s.modFn f k).hourly = s.hourly ∧ (s.modFn f k).minutely = s.minutely ∧ (s.modFn f
  k).logNext = s.logNext ∧ (s.modFn f k).debits = s.debits ∧ (s.modFn f k).harvest = s.harvest ∧ (s.modFn f k).badPhys =
  s.badPhys ∧ (s.modFn f k).fenced = s.fenced ∧ (s.modFn f k).ports = s.ports ∧ (s.modFn f k).host = s.host ∧ (s.modFn f
  k).power = s.power ∧ (s.modFn f k).out = s.out ∧ (s.modFn f k).pending = s.pending ∧ (s.modFn f k).freeCtr = s.freeCtr :=
  ⟨rfl, rfl, rfl, rfl, rfl, rfl, rfl, rfl, rfl, rfl, rfl, rfl, rfl, rfl, rfl, rfl, rfl, rfl, rfl, rfl, rfl, rfl, rfl, rfl,
  rfl, rfl, rfl, rfl, rfl, rfl, rfl, rfl, rfl, rfl, rfl, rfl, rfl, rfl, rfl, rfl, rfl, rfl, rfl, rfl, rfl, rfl, rfl, rfl, rfl,
  rfl, rfl, rfl, rfl, rfl, rfl, rfl, rfl, rfl, rfl, rfl, rfl, rfl, rfl, rfl, rfl, rfl, rfl, rfl, rfl⟩

@[simp] theorem State.setCtx_frame (s : State) (c : Nat) (x : Ctx) :
  (s.setCtx c x).obj = s.obj ∧ (s.setCtx c x).mem = s.mem ∧ (s.setCtx c x).garbled = s.garbled ∧ (s.setCtx c x).ecc = s.ecc ∧
  (s.setCtx c x).floats = s.floats ∧ (s.setCtx c x).fAdds = s.fAdds ∧ (s.setCtx c x).fSets = s.fSets ∧ (s.setCtx c x).cycle =
  s.cycle ∧ (s.setCtx c x).clock = s.clock ∧ (s.setCtx c x).tb = s.tb ∧ (s.setCtx c x).servo = s.servo ∧ (s.setCtx c
  x).tb0Ready = s.tb0Ready ∧ (s.setCtx c x).cal = s.cal ∧ (s.setCtx c x).fns = s.fns ∧ (s.setCtx c x).cmds = s.cmds ∧
  (s.setCtx c x).nextId = s.nextId ∧ (s.setCtx c x).retired = s.retired ∧ (s.setCtx c x).engines = s.engines ∧ (s.setCtx c
  x).pieces = s.pieces ∧ (s.setCtx c x).reads = s.reads ∧ (s.setCtx c x).cores = s.cores ∧ (s.setCtx c x).chans = s.chans ∧
  (s.setCtx c x).cellsAt = s.cellsAt ∧ (s.setCtx c x).recs = s.recs ∧ (s.setCtx c x).inCal = s.inCal ∧ (s.setCtx c x).standby
  = s.standby ∧ (s.setCtx c x).tracks = s.tracks ∧ (s.setCtx c x).failedTb = s.failedTb ∧ (s.setCtx c x).staging = s.staging ∧
  (s.setCtx c x).txq = s.txq ∧ (s.setCtx c x).seqRx = s.seqRx ∧ (s.setCtx c x).seqTx = s.seqTx ∧ (s.setCtx c x).ptpSeq =
  s.ptpSeq ∧ (s.setCtx c x).parent = s.parent ∧ (s.setCtx c x).rxHeld = s.rxHeld ∧ (s.setCtx c x).delaySent = s.delaySent ∧
  (s.setCtx c x).energy = s.energy ∧ (s.setCtx c x).modeAt = s.modeAt ∧ (s.setCtx c x).eccMode = s.eccMode ∧ (s.setCtx c
  x).owed = s.owed ∧ (s.setCtx c x).scrub = s.scrub ∧ (s.setCtx c x).cscrub = s.cscrub ∧ (s.setCtx c x).lanes = s.lanes ∧
  (s.setCtx c x).sessions = s.sessions ∧ (s.setCtx c x).streams = s.streams ∧ (s.setCtx c x).awaits = s.awaits ∧ (s.setCtx c
  x).answers = s.answers ∧ (s.setCtx c x).atomics = s.atomics ∧ (s.setCtx c x).procs = s.procs ∧ (s.setCtx c x).triggers =
  s.triggers ∧ (s.setCtx c x).domain = s.domain ∧ (s.setCtx c x).sec = s.sec ∧ (s.setCtx c x).latches = s.latches ∧ (s.setCtx
  c x).vdmEid = s.vdmEid ∧ (s.setCtx c x).healthAt = s.healthAt ∧ (s.setCtx c x).wdog = s.wdog ∧ (s.setCtx c x).hourly =
  s.hourly ∧ (s.setCtx c x).minutely = s.minutely ∧ (s.setCtx c x).logNext = s.logNext ∧ (s.setCtx c x).debits = s.debits ∧
  (s.setCtx c x).harvest = s.harvest ∧ (s.setCtx c x).badPhys = s.badPhys ∧ (s.setCtx c x).fenced = s.fenced ∧ (s.setCtx c
  x).ports = s.ports ∧ (s.setCtx c x).host = s.host ∧ (s.setCtx c x).power = s.power ∧ (s.setCtx c x).out = s.out ∧ (s.setCtx
  c x).pending = s.pending ∧ (s.setCtx c x).freeCtr = s.freeCtr :=
  ⟨rfl, rfl, rfl, rfl, rfl, rfl, rfl, rfl, rfl, rfl, rfl, rfl, rfl, rfl, rfl, rfl, rfl, rfl, rfl, rfl, rfl, rfl, rfl, rfl,
  rfl, rfl, rfl, rfl, rfl, rfl, rfl, rfl, rfl, rfl, rfl, rfl, rfl, rfl, rfl, rfl, rfl, rfl, rfl, rfl, rfl, rfl, rfl, rfl, rfl,
  rfl, rfl, rfl, rfl, rfl, rfl, rfl, rfl, rfl, rfl, rfl, rfl, rfl, rfl, rfl, rfl, rfl, rfl, rfl, rfl⟩

@[simp] theorem State.modCtx_frame (s : State) (c : Nat) (k : Ctx → Ctx) :
  (s.modCtx c k).obj = s.obj ∧ (s.modCtx c k).mem = s.mem ∧ (s.modCtx c k).garbled = s.garbled ∧ (s.modCtx c k).ecc = s.ecc ∧
  (s.modCtx c k).floats = s.floats ∧ (s.modCtx c k).fAdds = s.fAdds ∧ (s.modCtx c k).fSets = s.fSets ∧ (s.modCtx c k).cycle =
  s.cycle ∧ (s.modCtx c k).clock = s.clock ∧ (s.modCtx c k).tb = s.tb ∧ (s.modCtx c k).servo = s.servo ∧ (s.modCtx c
  k).tb0Ready = s.tb0Ready ∧ (s.modCtx c k).cal = s.cal ∧ (s.modCtx c k).fns = s.fns ∧ (s.modCtx c k).cmds = s.cmds ∧
  (s.modCtx c k).nextId = s.nextId ∧ (s.modCtx c k).retired = s.retired ∧ (s.modCtx c k).engines = s.engines ∧ (s.modCtx c
  k).pieces = s.pieces ∧ (s.modCtx c k).reads = s.reads ∧ (s.modCtx c k).cores = s.cores ∧ (s.modCtx c k).chans = s.chans ∧
  (s.modCtx c k).cellsAt = s.cellsAt ∧ (s.modCtx c k).recs = s.recs ∧ (s.modCtx c k).inCal = s.inCal ∧ (s.modCtx c k).standby
  = s.standby ∧ (s.modCtx c k).tracks = s.tracks ∧ (s.modCtx c k).failedTb = s.failedTb ∧ (s.modCtx c k).staging = s.staging ∧
  (s.modCtx c k).txq = s.txq ∧ (s.modCtx c k).seqRx = s.seqRx ∧ (s.modCtx c k).seqTx = s.seqTx ∧ (s.modCtx c k).ptpSeq =
  s.ptpSeq ∧ (s.modCtx c k).parent = s.parent ∧ (s.modCtx c k).rxHeld = s.rxHeld ∧ (s.modCtx c k).delaySent = s.delaySent ∧
  (s.modCtx c k).energy = s.energy ∧ (s.modCtx c k).modeAt = s.modeAt ∧ (s.modCtx c k).eccMode = s.eccMode ∧ (s.modCtx c
  k).owed = s.owed ∧ (s.modCtx c k).scrub = s.scrub ∧ (s.modCtx c k).cscrub = s.cscrub ∧ (s.modCtx c k).lanes = s.lanes ∧
  (s.modCtx c k).sessions = s.sessions ∧ (s.modCtx c k).streams = s.streams ∧ (s.modCtx c k).awaits = s.awaits ∧ (s.modCtx c
  k).answers = s.answers ∧ (s.modCtx c k).atomics = s.atomics ∧ (s.modCtx c k).procs = s.procs ∧ (s.modCtx c k).triggers =
  s.triggers ∧ (s.modCtx c k).domain = s.domain ∧ (s.modCtx c k).sec = s.sec ∧ (s.modCtx c k).latches = s.latches ∧ (s.modCtx
  c k).vdmEid = s.vdmEid ∧ (s.modCtx c k).healthAt = s.healthAt ∧ (s.modCtx c k).wdog = s.wdog ∧ (s.modCtx c k).hourly =
  s.hourly ∧ (s.modCtx c k).minutely = s.minutely ∧ (s.modCtx c k).logNext = s.logNext ∧ (s.modCtx c k).debits = s.debits ∧
  (s.modCtx c k).harvest = s.harvest ∧ (s.modCtx c k).badPhys = s.badPhys ∧ (s.modCtx c k).fenced = s.fenced ∧ (s.modCtx c
  k).ports = s.ports ∧ (s.modCtx c k).host = s.host ∧ (s.modCtx c k).power = s.power ∧ (s.modCtx c k).out = s.out ∧ (s.modCtx
  c k).pending = s.pending ∧ (s.modCtx c k).freeCtr = s.freeCtr :=
  ⟨rfl, rfl, rfl, rfl, rfl, rfl, rfl, rfl, rfl, rfl, rfl, rfl, rfl, rfl, rfl, rfl, rfl, rfl, rfl, rfl, rfl, rfl, rfl, rfl,
  rfl, rfl, rfl, rfl, rfl, rfl, rfl, rfl, rfl, rfl, rfl, rfl, rfl, rfl, rfl, rfl, rfl, rfl, rfl, rfl, rfl, rfl, rfl, rfl, rfl,
  rfl, rfl, rfl, rfl, rfl, rfl, rfl, rfl, rfl, rfl, rfl, rfl, rfl, rfl, rfl, rfl, rfl, rfl, rfl, rfl⟩

@[simp] theorem State.setEngine_frame (s : State) (e : Nat) (x : Engine) :
  (s.setEngine e x).obj = s.obj ∧ (s.setEngine e x).mem = s.mem ∧ (s.setEngine e x).garbled = s.garbled ∧ (s.setEngine e
  x).ecc = s.ecc ∧ (s.setEngine e x).floats = s.floats ∧ (s.setEngine e x).fAdds = s.fAdds ∧ (s.setEngine e x).fSets = s.fSets
  ∧ (s.setEngine e x).cycle = s.cycle ∧ (s.setEngine e x).clock = s.clock ∧ (s.setEngine e x).tb = s.tb ∧ (s.setEngine e
  x).servo = s.servo ∧ (s.setEngine e x).tb0Ready = s.tb0Ready ∧ (s.setEngine e x).cal = s.cal ∧ (s.setEngine e x).ctxs =
  s.ctxs ∧ (s.setEngine e x).fns = s.fns ∧ (s.setEngine e x).cmds = s.cmds ∧ (s.setEngine e x).nextId = s.nextId ∧
  (s.setEngine e x).retired = s.retired ∧ (s.setEngine e x).pieces = s.pieces ∧ (s.setEngine e x).reads = s.reads ∧
  (s.setEngine e x).cores = s.cores ∧ (s.setEngine e x).chans = s.chans ∧ (s.setEngine e x).cellsAt = s.cellsAt ∧ (s.setEngine
  e x).recs = s.recs ∧ (s.setEngine e x).inCal = s.inCal ∧ (s.setEngine e x).standby = s.standby ∧ (s.setEngine e x).tracks =
  s.tracks ∧ (s.setEngine e x).failedTb = s.failedTb ∧ (s.setEngine e x).staging = s.staging ∧ (s.setEngine e x).txq = s.txq ∧
  (s.setEngine e x).seqRx = s.seqRx ∧ (s.setEngine e x).seqTx = s.seqTx ∧ (s.setEngine e x).ptpSeq = s.ptpSeq ∧ (s.setEngine e
  x).parent = s.parent ∧ (s.setEngine e x).rxHeld = s.rxHeld ∧ (s.setEngine e x).delaySent = s.delaySent ∧ (s.setEngine e
  x).energy = s.energy ∧ (s.setEngine e x).modeAt = s.modeAt ∧ (s.setEngine e x).eccMode = s.eccMode ∧ (s.setEngine e x).owed
  = s.owed ∧ (s.setEngine e x).scrub = s.scrub ∧ (s.setEngine e x).cscrub = s.cscrub ∧ (s.setEngine e x).lanes = s.lanes ∧
  (s.setEngine e x).sessions = s.sessions ∧ (s.setEngine e x).streams = s.streams ∧ (s.setEngine e x).awaits = s.awaits ∧
  (s.setEngine e x).answers = s.answers ∧ (s.setEngine e x).atomics = s.atomics ∧ (s.setEngine e x).procs = s.procs ∧
  (s.setEngine e x).triggers = s.triggers ∧ (s.setEngine e x).domain = s.domain ∧ (s.setEngine e x).sec = s.sec ∧ (s.setEngine
  e x).latches = s.latches ∧ (s.setEngine e x).vdmEid = s.vdmEid ∧ (s.setEngine e x).healthAt = s.healthAt ∧ (s.setEngine e
  x).wdog = s.wdog ∧ (s.setEngine e x).hourly = s.hourly ∧ (s.setEngine e x).minutely = s.minutely ∧ (s.setEngine e x).logNext
  = s.logNext ∧ (s.setEngine e x).debits = s.debits ∧ (s.setEngine e x).harvest = s.harvest ∧ (s.setEngine e x).badPhys =
  s.badPhys ∧ (s.setEngine e x).fenced = s.fenced ∧ (s.setEngine e x).ports = s.ports ∧ (s.setEngine e x).host = s.host ∧
  (s.setEngine e x).power = s.power ∧ (s.setEngine e x).out = s.out ∧ (s.setEngine e x).pending = s.pending ∧ (s.setEngine e
  x).freeCtr = s.freeCtr :=
  ⟨rfl, rfl, rfl, rfl, rfl, rfl, rfl, rfl, rfl, rfl, rfl, rfl, rfl, rfl, rfl, rfl, rfl, rfl, rfl, rfl, rfl, rfl, rfl, rfl,
  rfl, rfl, rfl, rfl, rfl, rfl, rfl, rfl, rfl, rfl, rfl, rfl, rfl, rfl, rfl, rfl, rfl, rfl, rfl, rfl, rfl, rfl, rfl, rfl, rfl,
  rfl, rfl, rfl, rfl, rfl, rfl, rfl, rfl, rfl, rfl, rfl, rfl, rfl, rfl, rfl, rfl, rfl, rfl, rfl, rfl⟩

@[simp] theorem State.modEngine_frame (s : State) (e : Nat) (k : Engine → Engine) :
  (s.modEngine e k).obj = s.obj ∧ (s.modEngine e k).mem = s.mem ∧ (s.modEngine e k).garbled = s.garbled ∧ (s.modEngine e
  k).ecc = s.ecc ∧ (s.modEngine e k).floats = s.floats ∧ (s.modEngine e k).fAdds = s.fAdds ∧ (s.modEngine e k).fSets = s.fSets
  ∧ (s.modEngine e k).cycle = s.cycle ∧ (s.modEngine e k).clock = s.clock ∧ (s.modEngine e k).tb = s.tb ∧ (s.modEngine e
  k).servo = s.servo ∧ (s.modEngine e k).tb0Ready = s.tb0Ready ∧ (s.modEngine e k).cal = s.cal ∧ (s.modEngine e k).ctxs =
  s.ctxs ∧ (s.modEngine e k).fns = s.fns ∧ (s.modEngine e k).cmds = s.cmds ∧ (s.modEngine e k).nextId = s.nextId ∧
  (s.modEngine e k).retired = s.retired ∧ (s.modEngine e k).pieces = s.pieces ∧ (s.modEngine e k).reads = s.reads ∧
  (s.modEngine e k).cores = s.cores ∧ (s.modEngine e k).chans = s.chans ∧ (s.modEngine e k).cellsAt = s.cellsAt ∧ (s.modEngine
  e k).recs = s.recs ∧ (s.modEngine e k).inCal = s.inCal ∧ (s.modEngine e k).standby = s.standby ∧ (s.modEngine e k).tracks =
  s.tracks ∧ (s.modEngine e k).failedTb = s.failedTb ∧ (s.modEngine e k).staging = s.staging ∧ (s.modEngine e k).txq = s.txq ∧
  (s.modEngine e k).seqRx = s.seqRx ∧ (s.modEngine e k).seqTx = s.seqTx ∧ (s.modEngine e k).ptpSeq = s.ptpSeq ∧ (s.modEngine e
  k).parent = s.parent ∧ (s.modEngine e k).rxHeld = s.rxHeld ∧ (s.modEngine e k).delaySent = s.delaySent ∧ (s.modEngine e
  k).energy = s.energy ∧ (s.modEngine e k).modeAt = s.modeAt ∧ (s.modEngine e k).eccMode = s.eccMode ∧ (s.modEngine e k).owed
  = s.owed ∧ (s.modEngine e k).scrub = s.scrub ∧ (s.modEngine e k).cscrub = s.cscrub ∧ (s.modEngine e k).lanes = s.lanes ∧
  (s.modEngine e k).sessions = s.sessions ∧ (s.modEngine e k).streams = s.streams ∧ (s.modEngine e k).awaits = s.awaits ∧
  (s.modEngine e k).answers = s.answers ∧ (s.modEngine e k).atomics = s.atomics ∧ (s.modEngine e k).procs = s.procs ∧
  (s.modEngine e k).triggers = s.triggers ∧ (s.modEngine e k).domain = s.domain ∧ (s.modEngine e k).sec = s.sec ∧ (s.modEngine
  e k).latches = s.latches ∧ (s.modEngine e k).vdmEid = s.vdmEid ∧ (s.modEngine e k).healthAt = s.healthAt ∧ (s.modEngine e
  k).wdog = s.wdog ∧ (s.modEngine e k).hourly = s.hourly ∧ (s.modEngine e k).minutely = s.minutely ∧ (s.modEngine e k).logNext
  = s.logNext ∧ (s.modEngine e k).debits = s.debits ∧ (s.modEngine e k).harvest = s.harvest ∧ (s.modEngine e k).badPhys =
  s.badPhys ∧ (s.modEngine e k).fenced = s.fenced ∧ (s.modEngine e k).ports = s.ports ∧ (s.modEngine e k).host = s.host ∧
  (s.modEngine e k).power = s.power ∧ (s.modEngine e k).out = s.out ∧ (s.modEngine e k).pending = s.pending ∧ (s.modEngine e
  k).freeCtr = s.freeCtr :=
  ⟨rfl, rfl, rfl, rfl, rfl, rfl, rfl, rfl, rfl, rfl, rfl, rfl, rfl, rfl, rfl, rfl, rfl, rfl, rfl, rfl, rfl, rfl, rfl, rfl,
  rfl, rfl, rfl, rfl, rfl, rfl, rfl, rfl, rfl, rfl, rfl, rfl, rfl, rfl, rfl, rfl, rfl, rfl, rfl, rfl, rfl, rfl, rfl, rfl, rfl,
  rfl, rfl, rfl, rfl, rfl, rfl, rfl, rfl, rfl, rfl, rfl, rfl, rfl, rfl, rfl, rfl, rfl, rfl, rfl, rfl⟩

@[simp] theorem State.setCore_frame (s : State) (c : Nat) (x : Core) :
  (s.setCore c x).obj = s.obj ∧ (s.setCore c x).mem = s.mem ∧ (s.setCore c x).garbled = s.garbled ∧ (s.setCore c x).ecc =
  s.ecc ∧ (s.setCore c x).floats = s.floats ∧ (s.setCore c x).fAdds = s.fAdds ∧ (s.setCore c x).fSets = s.fSets ∧ (s.setCore c
  x).cycle = s.cycle ∧ (s.setCore c x).clock = s.clock ∧ (s.setCore c x).tb = s.tb ∧ (s.setCore c x).servo = s.servo ∧
  (s.setCore c x).tb0Ready = s.tb0Ready ∧ (s.setCore c x).cal = s.cal ∧ (s.setCore c x).ctxs = s.ctxs ∧ (s.setCore c x).fns =
  s.fns ∧ (s.setCore c x).cmds = s.cmds ∧ (s.setCore c x).nextId = s.nextId ∧ (s.setCore c x).retired = s.retired ∧ (s.setCore
  c x).engines = s.engines ∧ (s.setCore c x).pieces = s.pieces ∧ (s.setCore c x).reads = s.reads ∧ (s.setCore c x).chans =
  s.chans ∧ (s.setCore c x).cellsAt = s.cellsAt ∧ (s.setCore c x).recs = s.recs ∧ (s.setCore c x).inCal = s.inCal ∧ (s.setCore
  c x).standby = s.standby ∧ (s.setCore c x).tracks = s.tracks ∧ (s.setCore c x).failedTb = s.failedTb ∧ (s.setCore c
  x).staging = s.staging ∧ (s.setCore c x).txq = s.txq ∧ (s.setCore c x).seqRx = s.seqRx ∧ (s.setCore c x).seqTx = s.seqTx ∧
  (s.setCore c x).ptpSeq = s.ptpSeq ∧ (s.setCore c x).parent = s.parent ∧ (s.setCore c x).rxHeld = s.rxHeld ∧ (s.setCore c
  x).delaySent = s.delaySent ∧ (s.setCore c x).energy = s.energy ∧ (s.setCore c x).modeAt = s.modeAt ∧ (s.setCore c x).eccMode
  = s.eccMode ∧ (s.setCore c x).owed = s.owed ∧ (s.setCore c x).scrub = s.scrub ∧ (s.setCore c x).cscrub = s.cscrub ∧
  (s.setCore c x).lanes = s.lanes ∧ (s.setCore c x).sessions = s.sessions ∧ (s.setCore c x).streams = s.streams ∧ (s.setCore c
  x).awaits = s.awaits ∧ (s.setCore c x).answers = s.answers ∧ (s.setCore c x).atomics = s.atomics ∧ (s.setCore c x).procs =
  s.procs ∧ (s.setCore c x).triggers = s.triggers ∧ (s.setCore c x).domain = s.domain ∧ (s.setCore c x).sec = s.sec ∧
  (s.setCore c x).latches = s.latches ∧ (s.setCore c x).vdmEid = s.vdmEid ∧ (s.setCore c x).healthAt = s.healthAt ∧ (s.setCore
  c x).wdog = s.wdog ∧ (s.setCore c x).hourly = s.hourly ∧ (s.setCore c x).minutely = s.minutely ∧ (s.setCore c x).logNext =
  s.logNext ∧ (s.setCore c x).debits = s.debits ∧ (s.setCore c x).harvest = s.harvest ∧ (s.setCore c x).badPhys = s.badPhys ∧
  (s.setCore c x).fenced = s.fenced ∧ (s.setCore c x).ports = s.ports ∧ (s.setCore c x).host = s.host ∧ (s.setCore c x).power
  = s.power ∧ (s.setCore c x).out = s.out ∧ (s.setCore c x).pending = s.pending ∧ (s.setCore c x).freeCtr = s.freeCtr :=
  ⟨rfl, rfl, rfl, rfl, rfl, rfl, rfl, rfl, rfl, rfl, rfl, rfl, rfl, rfl, rfl, rfl, rfl, rfl, rfl, rfl, rfl, rfl, rfl, rfl,
  rfl, rfl, rfl, rfl, rfl, rfl, rfl, rfl, rfl, rfl, rfl, rfl, rfl, rfl, rfl, rfl, rfl, rfl, rfl, rfl, rfl, rfl, rfl, rfl, rfl,
  rfl, rfl, rfl, rfl, rfl, rfl, rfl, rfl, rfl, rfl, rfl, rfl, rfl, rfl, rfl, rfl, rfl, rfl, rfl, rfl⟩

@[simp] theorem State.modCore_frame (s : State) (c : Nat) (k : Core → Core) :
  (s.modCore c k).obj = s.obj ∧ (s.modCore c k).mem = s.mem ∧ (s.modCore c k).garbled = s.garbled ∧ (s.modCore c k).ecc =
  s.ecc ∧ (s.modCore c k).floats = s.floats ∧ (s.modCore c k).fAdds = s.fAdds ∧ (s.modCore c k).fSets = s.fSets ∧ (s.modCore c
  k).cycle = s.cycle ∧ (s.modCore c k).clock = s.clock ∧ (s.modCore c k).tb = s.tb ∧ (s.modCore c k).servo = s.servo ∧
  (s.modCore c k).tb0Ready = s.tb0Ready ∧ (s.modCore c k).cal = s.cal ∧ (s.modCore c k).ctxs = s.ctxs ∧ (s.modCore c k).fns =
  s.fns ∧ (s.modCore c k).cmds = s.cmds ∧ (s.modCore c k).nextId = s.nextId ∧ (s.modCore c k).retired = s.retired ∧ (s.modCore
  c k).engines = s.engines ∧ (s.modCore c k).pieces = s.pieces ∧ (s.modCore c k).reads = s.reads ∧ (s.modCore c k).chans =
  s.chans ∧ (s.modCore c k).cellsAt = s.cellsAt ∧ (s.modCore c k).recs = s.recs ∧ (s.modCore c k).inCal = s.inCal ∧ (s.modCore
  c k).standby = s.standby ∧ (s.modCore c k).tracks = s.tracks ∧ (s.modCore c k).failedTb = s.failedTb ∧ (s.modCore c
  k).staging = s.staging ∧ (s.modCore c k).txq = s.txq ∧ (s.modCore c k).seqRx = s.seqRx ∧ (s.modCore c k).seqTx = s.seqTx ∧
  (s.modCore c k).ptpSeq = s.ptpSeq ∧ (s.modCore c k).parent = s.parent ∧ (s.modCore c k).rxHeld = s.rxHeld ∧ (s.modCore c
  k).delaySent = s.delaySent ∧ (s.modCore c k).energy = s.energy ∧ (s.modCore c k).modeAt = s.modeAt ∧ (s.modCore c k).eccMode
  = s.eccMode ∧ (s.modCore c k).owed = s.owed ∧ (s.modCore c k).scrub = s.scrub ∧ (s.modCore c k).cscrub = s.cscrub ∧
  (s.modCore c k).lanes = s.lanes ∧ (s.modCore c k).sessions = s.sessions ∧ (s.modCore c k).streams = s.streams ∧ (s.modCore c
  k).awaits = s.awaits ∧ (s.modCore c k).answers = s.answers ∧ (s.modCore c k).atomics = s.atomics ∧ (s.modCore c k).procs =
  s.procs ∧ (s.modCore c k).triggers = s.triggers ∧ (s.modCore c k).domain = s.domain ∧ (s.modCore c k).sec = s.sec ∧
  (s.modCore c k).latches = s.latches ∧ (s.modCore c k).vdmEid = s.vdmEid ∧ (s.modCore c k).healthAt = s.healthAt ∧ (s.modCore
  c k).wdog = s.wdog ∧ (s.modCore c k).hourly = s.hourly ∧ (s.modCore c k).minutely = s.minutely ∧ (s.modCore c k).logNext =
  s.logNext ∧ (s.modCore c k).debits = s.debits ∧ (s.modCore c k).harvest = s.harvest ∧ (s.modCore c k).badPhys = s.badPhys ∧
  (s.modCore c k).fenced = s.fenced ∧ (s.modCore c k).ports = s.ports ∧ (s.modCore c k).host = s.host ∧ (s.modCore c k).power
  = s.power ∧ (s.modCore c k).out = s.out ∧ (s.modCore c k).pending = s.pending ∧ (s.modCore c k).freeCtr = s.freeCtr :=
  ⟨rfl, rfl, rfl, rfl, rfl, rfl, rfl, rfl, rfl, rfl, rfl, rfl, rfl, rfl, rfl, rfl, rfl, rfl, rfl, rfl, rfl, rfl, rfl, rfl,
  rfl, rfl, rfl, rfl, rfl, rfl, rfl, rfl, rfl, rfl, rfl, rfl, rfl, rfl, rfl, rfl, rfl, rfl, rfl, rfl, rfl, rfl, rfl, rfl, rfl,
  rfl, rfl, rfl, rfl, rfl, rfl, rfl, rfl, rfl, rfl, rfl, rfl, rfl, rfl, rfl, rfl, rfl, rfl, rfl, rfl⟩

@[simp] theorem State.setChan_frame (s : State) (c : Nat) (x : ChanCore) :
  (s.setChan c x).obj = s.obj ∧ (s.setChan c x).mem = s.mem ∧ (s.setChan c x).garbled = s.garbled ∧ (s.setChan c x).ecc =
  s.ecc ∧ (s.setChan c x).floats = s.floats ∧ (s.setChan c x).fAdds = s.fAdds ∧ (s.setChan c x).fSets = s.fSets ∧ (s.setChan c
  x).cycle = s.cycle ∧ (s.setChan c x).clock = s.clock ∧ (s.setChan c x).tb = s.tb ∧ (s.setChan c x).servo = s.servo ∧
  (s.setChan c x).tb0Ready = s.tb0Ready ∧ (s.setChan c x).cal = s.cal ∧ (s.setChan c x).ctxs = s.ctxs ∧ (s.setChan c x).fns =
  s.fns ∧ (s.setChan c x).cmds = s.cmds ∧ (s.setChan c x).nextId = s.nextId ∧ (s.setChan c x).retired = s.retired ∧ (s.setChan
  c x).engines = s.engines ∧ (s.setChan c x).pieces = s.pieces ∧ (s.setChan c x).reads = s.reads ∧ (s.setChan c x).cores =
  s.cores ∧ (s.setChan c x).cellsAt = s.cellsAt ∧ (s.setChan c x).recs = s.recs ∧ (s.setChan c x).inCal = s.inCal ∧ (s.setChan
  c x).standby = s.standby ∧ (s.setChan c x).tracks = s.tracks ∧ (s.setChan c x).failedTb = s.failedTb ∧ (s.setChan c
  x).staging = s.staging ∧ (s.setChan c x).txq = s.txq ∧ (s.setChan c x).seqRx = s.seqRx ∧ (s.setChan c x).seqTx = s.seqTx ∧
  (s.setChan c x).ptpSeq = s.ptpSeq ∧ (s.setChan c x).parent = s.parent ∧ (s.setChan c x).rxHeld = s.rxHeld ∧ (s.setChan c
  x).delaySent = s.delaySent ∧ (s.setChan c x).energy = s.energy ∧ (s.setChan c x).modeAt = s.modeAt ∧ (s.setChan c x).eccMode
  = s.eccMode ∧ (s.setChan c x).owed = s.owed ∧ (s.setChan c x).scrub = s.scrub ∧ (s.setChan c x).cscrub = s.cscrub ∧
  (s.setChan c x).lanes = s.lanes ∧ (s.setChan c x).sessions = s.sessions ∧ (s.setChan c x).streams = s.streams ∧ (s.setChan c
  x).awaits = s.awaits ∧ (s.setChan c x).answers = s.answers ∧ (s.setChan c x).atomics = s.atomics ∧ (s.setChan c x).procs =
  s.procs ∧ (s.setChan c x).triggers = s.triggers ∧ (s.setChan c x).domain = s.domain ∧ (s.setChan c x).sec = s.sec ∧
  (s.setChan c x).latches = s.latches ∧ (s.setChan c x).vdmEid = s.vdmEid ∧ (s.setChan c x).healthAt = s.healthAt ∧ (s.setChan
  c x).wdog = s.wdog ∧ (s.setChan c x).hourly = s.hourly ∧ (s.setChan c x).minutely = s.minutely ∧ (s.setChan c x).logNext =
  s.logNext ∧ (s.setChan c x).debits = s.debits ∧ (s.setChan c x).harvest = s.harvest ∧ (s.setChan c x).badPhys = s.badPhys ∧
  (s.setChan c x).fenced = s.fenced ∧ (s.setChan c x).ports = s.ports ∧ (s.setChan c x).host = s.host ∧ (s.setChan c x).power
  = s.power ∧ (s.setChan c x).out = s.out ∧ (s.setChan c x).pending = s.pending ∧ (s.setChan c x).freeCtr = s.freeCtr :=
  ⟨rfl, rfl, rfl, rfl, rfl, rfl, rfl, rfl, rfl, rfl, rfl, rfl, rfl, rfl, rfl, rfl, rfl, rfl, rfl, rfl, rfl, rfl, rfl, rfl,
  rfl, rfl, rfl, rfl, rfl, rfl, rfl, rfl, rfl, rfl, rfl, rfl, rfl, rfl, rfl, rfl, rfl, rfl, rfl, rfl, rfl, rfl, rfl, rfl, rfl,
  rfl, rfl, rfl, rfl, rfl, rfl, rfl, rfl, rfl, rfl, rfl, rfl, rfl, rfl, rfl, rfl, rfl, rfl, rfl, rfl⟩

@[simp] theorem State.setLane_frame (s : State) (l : Nat) (x : Lane) :
  (s.setLane l x).obj = s.obj ∧ (s.setLane l x).mem = s.mem ∧ (s.setLane l x).garbled = s.garbled ∧ (s.setLane l x).ecc =
  s.ecc ∧ (s.setLane l x).floats = s.floats ∧ (s.setLane l x).fAdds = s.fAdds ∧ (s.setLane l x).fSets = s.fSets ∧ (s.setLane l
  x).cycle = s.cycle ∧ (s.setLane l x).clock = s.clock ∧ (s.setLane l x).tb = s.tb ∧ (s.setLane l x).servo = s.servo ∧
  (s.setLane l x).tb0Ready = s.tb0Ready ∧ (s.setLane l x).cal = s.cal ∧ (s.setLane l x).ctxs = s.ctxs ∧ (s.setLane l x).fns =
  s.fns ∧ (s.setLane l x).cmds = s.cmds ∧ (s.setLane l x).nextId = s.nextId ∧ (s.setLane l x).retired = s.retired ∧ (s.setLane
  l x).engines = s.engines ∧ (s.setLane l x).pieces = s.pieces ∧ (s.setLane l x).reads = s.reads ∧ (s.setLane l x).cores =
  s.cores ∧ (s.setLane l x).chans = s.chans ∧ (s.setLane l x).cellsAt = s.cellsAt ∧ (s.setLane l x).recs = s.recs ∧ (s.setLane
  l x).inCal = s.inCal ∧ (s.setLane l x).standby = s.standby ∧ (s.setLane l x).tracks = s.tracks ∧ (s.setLane l x).failedTb =
  s.failedTb ∧ (s.setLane l x).staging = s.staging ∧ (s.setLane l x).txq = s.txq ∧ (s.setLane l x).seqRx = s.seqRx ∧
  (s.setLane l x).seqTx = s.seqTx ∧ (s.setLane l x).ptpSeq = s.ptpSeq ∧ (s.setLane l x).parent = s.parent ∧ (s.setLane l
  x).rxHeld = s.rxHeld ∧ (s.setLane l x).delaySent = s.delaySent ∧ (s.setLane l x).energy = s.energy ∧ (s.setLane l x).modeAt
  = s.modeAt ∧ (s.setLane l x).eccMode = s.eccMode ∧ (s.setLane l x).owed = s.owed ∧ (s.setLane l x).scrub = s.scrub ∧
  (s.setLane l x).cscrub = s.cscrub ∧ (s.setLane l x).sessions = s.sessions ∧ (s.setLane l x).streams = s.streams ∧ (s.setLane
  l x).awaits = s.awaits ∧ (s.setLane l x).answers = s.answers ∧ (s.setLane l x).atomics = s.atomics ∧ (s.setLane l x).procs =
  s.procs ∧ (s.setLane l x).triggers = s.triggers ∧ (s.setLane l x).domain = s.domain ∧ (s.setLane l x).sec = s.sec ∧
  (s.setLane l x).latches = s.latches ∧ (s.setLane l x).vdmEid = s.vdmEid ∧ (s.setLane l x).healthAt = s.healthAt ∧ (s.setLane
  l x).wdog = s.wdog ∧ (s.setLane l x).hourly = s.hourly ∧ (s.setLane l x).minutely = s.minutely ∧ (s.setLane l x).logNext =
  s.logNext ∧ (s.setLane l x).debits = s.debits ∧ (s.setLane l x).harvest = s.harvest ∧ (s.setLane l x).badPhys = s.badPhys ∧
  (s.setLane l x).fenced = s.fenced ∧ (s.setLane l x).ports = s.ports ∧ (s.setLane l x).host = s.host ∧ (s.setLane l x).power
  = s.power ∧ (s.setLane l x).out = s.out ∧ (s.setLane l x).pending = s.pending ∧ (s.setLane l x).freeCtr = s.freeCtr :=
  ⟨rfl, rfl, rfl, rfl, rfl, rfl, rfl, rfl, rfl, rfl, rfl, rfl, rfl, rfl, rfl, rfl, rfl, rfl, rfl, rfl, rfl, rfl, rfl, rfl,
  rfl, rfl, rfl, rfl, rfl, rfl, rfl, rfl, rfl, rfl, rfl, rfl, rfl, rfl, rfl, rfl, rfl, rfl, rfl, rfl, rfl, rfl, rfl, rfl, rfl,
  rfl, rfl, rfl, rfl, rfl, rfl, rfl, rfl, rfl, rfl, rfl, rfl, rfl, rfl, rfl, rfl, rfl, rfl, rfl, rfl⟩

@[simp] theorem State.setPort_frame (s : State) (p : Nat) (x : Port) :
  (s.setPort p x).obj = s.obj ∧ (s.setPort p x).mem = s.mem ∧ (s.setPort p x).garbled = s.garbled ∧ (s.setPort p x).ecc =
  s.ecc ∧ (s.setPort p x).floats = s.floats ∧ (s.setPort p x).fAdds = s.fAdds ∧ (s.setPort p x).fSets = s.fSets ∧ (s.setPort p
  x).cycle = s.cycle ∧ (s.setPort p x).clock = s.clock ∧ (s.setPort p x).tb = s.tb ∧ (s.setPort p x).servo = s.servo ∧
  (s.setPort p x).tb0Ready = s.tb0Ready ∧ (s.setPort p x).cal = s.cal ∧ (s.setPort p x).ctxs = s.ctxs ∧ (s.setPort p x).fns =
  s.fns ∧ (s.setPort p x).cmds = s.cmds ∧ (s.setPort p x).nextId = s.nextId ∧ (s.setPort p x).retired = s.retired ∧ (s.setPort
  p x).engines = s.engines ∧ (s.setPort p x).pieces = s.pieces ∧ (s.setPort p x).reads = s.reads ∧ (s.setPort p x).cores =
  s.cores ∧ (s.setPort p x).chans = s.chans ∧ (s.setPort p x).cellsAt = s.cellsAt ∧ (s.setPort p x).recs = s.recs ∧ (s.setPort
  p x).inCal = s.inCal ∧ (s.setPort p x).standby = s.standby ∧ (s.setPort p x).tracks = s.tracks ∧ (s.setPort p x).failedTb =
  s.failedTb ∧ (s.setPort p x).staging = s.staging ∧ (s.setPort p x).txq = s.txq ∧ (s.setPort p x).seqRx = s.seqRx ∧
  (s.setPort p x).seqTx = s.seqTx ∧ (s.setPort p x).ptpSeq = s.ptpSeq ∧ (s.setPort p x).parent = s.parent ∧ (s.setPort p
  x).rxHeld = s.rxHeld ∧ (s.setPort p x).delaySent = s.delaySent ∧ (s.setPort p x).energy = s.energy ∧ (s.setPort p x).modeAt
  = s.modeAt ∧ (s.setPort p x).eccMode = s.eccMode ∧ (s.setPort p x).owed = s.owed ∧ (s.setPort p x).scrub = s.scrub ∧
  (s.setPort p x).cscrub = s.cscrub ∧ (s.setPort p x).lanes = s.lanes ∧ (s.setPort p x).sessions = s.sessions ∧ (s.setPort p
  x).streams = s.streams ∧ (s.setPort p x).awaits = s.awaits ∧ (s.setPort p x).answers = s.answers ∧ (s.setPort p x).atomics =
  s.atomics ∧ (s.setPort p x).procs = s.procs ∧ (s.setPort p x).triggers = s.triggers ∧ (s.setPort p x).domain = s.domain ∧
  (s.setPort p x).sec = s.sec ∧ (s.setPort p x).latches = s.latches ∧ (s.setPort p x).vdmEid = s.vdmEid ∧ (s.setPort p
  x).healthAt = s.healthAt ∧ (s.setPort p x).wdog = s.wdog ∧ (s.setPort p x).hourly = s.hourly ∧ (s.setPort p x).minutely =
  s.minutely ∧ (s.setPort p x).logNext = s.logNext ∧ (s.setPort p x).debits = s.debits ∧ (s.setPort p x).harvest = s.harvest ∧
  (s.setPort p x).badPhys = s.badPhys ∧ (s.setPort p x).fenced = s.fenced ∧ (s.setPort p x).host = s.host ∧ (s.setPort p
  x).power = s.power ∧ (s.setPort p x).out = s.out ∧ (s.setPort p x).pending = s.pending ∧ (s.setPort p x).freeCtr = s.freeCtr :=
  ⟨rfl, rfl, rfl, rfl, rfl, rfl, rfl, rfl, rfl, rfl, rfl, rfl, rfl, rfl, rfl, rfl, rfl, rfl, rfl, rfl, rfl, rfl, rfl, rfl,
  rfl, rfl, rfl, rfl, rfl, rfl, rfl, rfl, rfl, rfl, rfl, rfl, rfl, rfl, rfl, rfl, rfl, rfl, rfl, rfl, rfl, rfl, rfl, rfl, rfl,
  rfl, rfl, rfl, rfl, rfl, rfl, rfl, rfl, rfl, rfl, rfl, rfl, rfl, rfl, rfl, rfl, rfl, rfl, rfl, rfl⟩

@[simp] theorem State.wr_frame (s : State) (a : Nat) (b : Byte) :
  (s.wr a b).obj = s.obj ∧ (s.wr a b).garbled = s.garbled ∧ (s.wr a b).ecc = s.ecc ∧ (s.wr a b).floats = s.floats ∧ (s.wr a
  b).fAdds = s.fAdds ∧ (s.wr a b).fSets = s.fSets ∧ (s.wr a b).cycle = s.cycle ∧ (s.wr a b).clock = s.clock ∧ (s.wr a b).tb =
  s.tb ∧ (s.wr a b).servo = s.servo ∧ (s.wr a b).tb0Ready = s.tb0Ready ∧ (s.wr a b).cal = s.cal ∧ (s.wr a b).ctxs = s.ctxs ∧
  (s.wr a b).fns = s.fns ∧ (s.wr a b).cmds = s.cmds ∧ (s.wr a b).nextId = s.nextId ∧ (s.wr a b).retired = s.retired ∧ (s.wr a
  b).engines = s.engines ∧ (s.wr a b).pieces = s.pieces ∧ (s.wr a b).reads = s.reads ∧ (s.wr a b).cores = s.cores ∧ (s.wr a
  b).chans = s.chans ∧ (s.wr a b).cellsAt = s.cellsAt ∧ (s.wr a b).recs = s.recs ∧ (s.wr a b).inCal = s.inCal ∧ (s.wr a
  b).standby = s.standby ∧ (s.wr a b).tracks = s.tracks ∧ (s.wr a b).failedTb = s.failedTb ∧ (s.wr a b).staging = s.staging ∧
  (s.wr a b).txq = s.txq ∧ (s.wr a b).seqRx = s.seqRx ∧ (s.wr a b).seqTx = s.seqTx ∧ (s.wr a b).ptpSeq = s.ptpSeq ∧ (s.wr a
  b).parent = s.parent ∧ (s.wr a b).rxHeld = s.rxHeld ∧ (s.wr a b).delaySent = s.delaySent ∧ (s.wr a b).energy = s.energy ∧
  (s.wr a b).modeAt = s.modeAt ∧ (s.wr a b).eccMode = s.eccMode ∧ (s.wr a b).owed = s.owed ∧ (s.wr a b).scrub = s.scrub ∧
  (s.wr a b).cscrub = s.cscrub ∧ (s.wr a b).lanes = s.lanes ∧ (s.wr a b).sessions = s.sessions ∧ (s.wr a b).streams =
  s.streams ∧ (s.wr a b).awaits = s.awaits ∧ (s.wr a b).answers = s.answers ∧ (s.wr a b).atomics = s.atomics ∧ (s.wr a
  b).procs = s.procs ∧ (s.wr a b).triggers = s.triggers ∧ (s.wr a b).domain = s.domain ∧ (s.wr a b).sec = s.sec ∧ (s.wr a
  b).latches = s.latches ∧ (s.wr a b).vdmEid = s.vdmEid ∧ (s.wr a b).healthAt = s.healthAt ∧ (s.wr a b).wdog = s.wdog ∧ (s.wr
  a b).hourly = s.hourly ∧ (s.wr a b).minutely = s.minutely ∧ (s.wr a b).logNext = s.logNext ∧ (s.wr a b).debits = s.debits ∧
  (s.wr a b).harvest = s.harvest ∧ (s.wr a b).badPhys = s.badPhys ∧ (s.wr a b).fenced = s.fenced ∧ (s.wr a b).ports = s.ports
  ∧ (s.wr a b).host = s.host ∧ (s.wr a b).power = s.power ∧ (s.wr a b).out = s.out ∧ (s.wr a b).pending = s.pending ∧ (s.wr a
  b).freeCtr = s.freeCtr :=
  ⟨rfl, rfl, rfl, rfl, rfl, rfl, rfl, rfl, rfl, rfl, rfl, rfl, rfl, rfl, rfl, rfl, rfl, rfl, rfl, rfl, rfl, rfl, rfl, rfl,
  rfl, rfl, rfl, rfl, rfl, rfl, rfl, rfl, rfl, rfl, rfl, rfl, rfl, rfl, rfl, rfl, rfl, rfl, rfl, rfl, rfl, rfl, rfl, rfl, rfl,
  rfl, rfl, rfl, rfl, rfl, rfl, rfl, rfl, rfl, rfl, rfl, rfl, rfl, rfl, rfl, rfl, rfl, rfl, rfl, rfl⟩

@[simp] theorem State.setFloat_frame (s : State) (f : Nat) (v : W64) :
  (s.setFloat f v).obj = s.obj ∧ (s.setFloat f v).mem = s.mem ∧ (s.setFloat f v).garbled = s.garbled ∧ (s.setFloat f v).ecc =
  s.ecc ∧ (s.setFloat f v).fAdds = s.fAdds ∧ (s.setFloat f v).fSets = s.fSets ∧ (s.setFloat f v).cycle = s.cycle ∧ (s.setFloat
  f v).clock = s.clock ∧ (s.setFloat f v).tb = s.tb ∧ (s.setFloat f v).servo = s.servo ∧ (s.setFloat f v).tb0Ready =
  s.tb0Ready ∧ (s.setFloat f v).cal = s.cal ∧ (s.setFloat f v).ctxs = s.ctxs ∧ (s.setFloat f v).fns = s.fns ∧ (s.setFloat f
  v).cmds = s.cmds ∧ (s.setFloat f v).nextId = s.nextId ∧ (s.setFloat f v).retired = s.retired ∧ (s.setFloat f v).engines =
  s.engines ∧ (s.setFloat f v).pieces = s.pieces ∧ (s.setFloat f v).reads = s.reads ∧ (s.setFloat f v).cores = s.cores ∧
  (s.setFloat f v).chans = s.chans ∧ (s.setFloat f v).cellsAt = s.cellsAt ∧ (s.setFloat f v).recs = s.recs ∧ (s.setFloat f
  v).inCal = s.inCal ∧ (s.setFloat f v).standby = s.standby ∧ (s.setFloat f v).tracks = s.tracks ∧ (s.setFloat f v).failedTb =
  s.failedTb ∧ (s.setFloat f v).staging = s.staging ∧ (s.setFloat f v).txq = s.txq ∧ (s.setFloat f v).seqRx = s.seqRx ∧
  (s.setFloat f v).seqTx = s.seqTx ∧ (s.setFloat f v).ptpSeq = s.ptpSeq ∧ (s.setFloat f v).parent = s.parent ∧ (s.setFloat f
  v).rxHeld = s.rxHeld ∧ (s.setFloat f v).delaySent = s.delaySent ∧ (s.setFloat f v).energy = s.energy ∧ (s.setFloat f
  v).modeAt = s.modeAt ∧ (s.setFloat f v).eccMode = s.eccMode ∧ (s.setFloat f v).owed = s.owed ∧ (s.setFloat f v).scrub =
  s.scrub ∧ (s.setFloat f v).cscrub = s.cscrub ∧ (s.setFloat f v).lanes = s.lanes ∧ (s.setFloat f v).sessions = s.sessions ∧
  (s.setFloat f v).streams = s.streams ∧ (s.setFloat f v).awaits = s.awaits ∧ (s.setFloat f v).answers = s.answers ∧
  (s.setFloat f v).atomics = s.atomics ∧ (s.setFloat f v).procs = s.procs ∧ (s.setFloat f v).triggers = s.triggers ∧
  (s.setFloat f v).domain = s.domain ∧ (s.setFloat f v).sec = s.sec ∧ (s.setFloat f v).latches = s.latches ∧ (s.setFloat f
  v).vdmEid = s.vdmEid ∧ (s.setFloat f v).healthAt = s.healthAt ∧ (s.setFloat f v).wdog = s.wdog ∧ (s.setFloat f v).hourly =
  s.hourly ∧ (s.setFloat f v).minutely = s.minutely ∧ (s.setFloat f v).logNext = s.logNext ∧ (s.setFloat f v).debits =
  s.debits ∧ (s.setFloat f v).harvest = s.harvest ∧ (s.setFloat f v).badPhys = s.badPhys ∧ (s.setFloat f v).fenced = s.fenced
  ∧ (s.setFloat f v).ports = s.ports ∧ (s.setFloat f v).host = s.host ∧ (s.setFloat f v).power = s.power ∧ (s.setFloat f
  v).out = s.out ∧ (s.setFloat f v).pending = s.pending ∧ (s.setFloat f v).freeCtr = s.freeCtr :=
  ⟨rfl, rfl, rfl, rfl, rfl, rfl, rfl, rfl, rfl, rfl, rfl, rfl, rfl, rfl, rfl, rfl, rfl, rfl, rfl, rfl, rfl, rfl, rfl, rfl,
  rfl, rfl, rfl, rfl, rfl, rfl, rfl, rfl, rfl, rfl, rfl, rfl, rfl, rfl, rfl, rfl, rfl, rfl, rfl, rfl, rfl, rfl, rfl, rfl, rfl,
  rfl, rfl, rfl, rfl, rfl, rfl, rfl, rfl, rfl, rfl, rfl, rfl, rfl, rfl, rfl, rfl, rfl, rfl, rfl, rfl⟩

@[simp] theorem State.addFloat_frame (s : State) (f n : Nat) :
  (s.addFloat f n).obj = s.obj ∧ (s.addFloat f n).mem = s.mem ∧ (s.addFloat f n).garbled = s.garbled ∧ (s.addFloat f n).ecc =
  s.ecc ∧ (s.addFloat f n).fSets = s.fSets ∧ (s.addFloat f n).cycle = s.cycle ∧ (s.addFloat f n).clock = s.clock ∧ (s.addFloat
  f n).tb = s.tb ∧ (s.addFloat f n).servo = s.servo ∧ (s.addFloat f n).tb0Ready = s.tb0Ready ∧ (s.addFloat f n).cal = s.cal ∧
  (s.addFloat f n).ctxs = s.ctxs ∧ (s.addFloat f n).fns = s.fns ∧ (s.addFloat f n).cmds = s.cmds ∧ (s.addFloat f n).nextId =
  s.nextId ∧ (s.addFloat f n).retired = s.retired ∧ (s.addFloat f n).engines = s.engines ∧ (s.addFloat f n).pieces = s.pieces
  ∧ (s.addFloat f n).reads = s.reads ∧ (s.addFloat f n).cores = s.cores ∧ (s.addFloat f n).chans = s.chans ∧ (s.addFloat f
  n).cellsAt = s.cellsAt ∧ (s.addFloat f n).recs = s.recs ∧ (s.addFloat f n).inCal = s.inCal ∧ (s.addFloat f n).standby =
  s.standby ∧ (s.addFloat f n).tracks = s.tracks ∧ (s.addFloat f n).failedTb = s.failedTb ∧ (s.addFloat f n).staging =
  s.staging ∧ (s.addFloat f n).txq = s.txq ∧ (s.addFloat f n).seqRx = s.seqRx ∧ (s.addFloat f n).seqTx = s.seqTx ∧ (s.addFloat
  f n).ptpSeq = s.ptpSeq ∧ (s.addFloat f n).parent = s.parent ∧ (s.addFloat f n).rxHeld = s.rxHeld ∧ (s.addFloat f
  n).delaySent = s.delaySent ∧ (s.addFloat f n).energy = s.energy ∧ (s.addFloat f n).modeAt = s.modeAt ∧ (s.addFloat f
  n).eccMode = s.eccMode ∧ (s.addFloat f n).owed = s.owed ∧ (s.addFloat f n).scrub = s.scrub ∧ (s.addFloat f n).cscrub =
  s.cscrub ∧ (s.addFloat f n).lanes = s.lanes ∧ (s.addFloat f n).sessions = s.sessions ∧ (s.addFloat f n).streams = s.streams
  ∧ (s.addFloat f n).awaits = s.awaits ∧ (s.addFloat f n).answers = s.answers ∧ (s.addFloat f n).atomics = s.atomics ∧
  (s.addFloat f n).procs = s.procs ∧ (s.addFloat f n).triggers = s.triggers ∧ (s.addFloat f n).domain = s.domain ∧ (s.addFloat
  f n).sec = s.sec ∧ (s.addFloat f n).latches = s.latches ∧ (s.addFloat f n).vdmEid = s.vdmEid ∧ (s.addFloat f n).healthAt =
  s.healthAt ∧ (s.addFloat f n).wdog = s.wdog ∧ (s.addFloat f n).hourly = s.hourly ∧ (s.addFloat f n).minutely = s.minutely ∧
  (s.addFloat f n).logNext = s.logNext ∧ (s.addFloat f n).debits = s.debits ∧ (s.addFloat f n).harvest = s.harvest ∧
  (s.addFloat f n).badPhys = s.badPhys ∧ (s.addFloat f n).fenced = s.fenced ∧ (s.addFloat f n).ports = s.ports ∧ (s.addFloat f
  n).host = s.host ∧ (s.addFloat f n).power = s.power ∧ (s.addFloat f n).out = s.out ∧ (s.addFloat f n).pending = s.pending ∧
  (s.addFloat f n).freeCtr = s.freeCtr :=
  ⟨rfl, rfl, rfl, rfl, rfl, rfl, rfl, rfl, rfl, rfl, rfl, rfl, rfl, rfl, rfl, rfl, rfl, rfl, rfl, rfl, rfl, rfl, rfl, rfl,
  rfl, rfl, rfl, rfl, rfl, rfl, rfl, rfl, rfl, rfl, rfl, rfl, rfl, rfl, rfl, rfl, rfl, rfl, rfl, rfl, rfl, rfl, rfl, rfl, rfl,
  rfl, rfl, rfl, rfl, rfl, rfl, rfl, rfl, rfl, rfl, rfl, rfl, rfl, rfl, rfl, rfl, rfl, rfl, rfl⟩

@[simp] theorem State.setTerm_frame (s : State) (k v : Nat) :
  (s.setTerm k v).obj = s.obj ∧ (s.setTerm k v).mem = s.mem ∧ (s.setTerm k v).garbled = s.garbled ∧ (s.setTerm k v).ecc =
  s.ecc ∧ (s.setTerm k v).floats = s.floats ∧ (s.setTerm k v).fAdds = s.fAdds ∧ (s.setTerm k v).fSets = s.fSets ∧ (s.setTerm k
  v).cycle = s.cycle ∧ (s.setTerm k v).clock = s.clock ∧ (s.setTerm k v).tb = s.tb ∧ (s.setTerm k v).servo = s.servo ∧
  (s.setTerm k v).tb0Ready = s.tb0Ready ∧ (s.setTerm k v).cal = s.cal ∧ (s.setTerm k v).ctxs = s.ctxs ∧ (s.setTerm k v).fns =
  s.fns ∧ (s.setTerm k v).cmds = s.cmds ∧ (s.setTerm k v).nextId = s.nextId ∧ (s.setTerm k v).retired = s.retired ∧ (s.setTerm
  k v).engines = s.engines ∧ (s.setTerm k v).pieces = s.pieces ∧ (s.setTerm k v).reads = s.reads ∧ (s.setTerm k v).cores =
  s.cores ∧ (s.setTerm k v).chans = s.chans ∧ (s.setTerm k v).cellsAt = s.cellsAt ∧ (s.setTerm k v).recs = s.recs ∧ (s.setTerm
  k v).inCal = s.inCal ∧ (s.setTerm k v).standby = s.standby ∧ (s.setTerm k v).tracks = s.tracks ∧ (s.setTerm k v).failedTb =
  s.failedTb ∧ (s.setTerm k v).staging = s.staging ∧ (s.setTerm k v).txq = s.txq ∧ (s.setTerm k v).seqRx = s.seqRx ∧
  (s.setTerm k v).seqTx = s.seqTx ∧ (s.setTerm k v).ptpSeq = s.ptpSeq ∧ (s.setTerm k v).parent = s.parent ∧ (s.setTerm k
  v).rxHeld = s.rxHeld ∧ (s.setTerm k v).delaySent = s.delaySent ∧ (s.setTerm k v).energy = s.energy ∧ (s.setTerm k v).modeAt
  = s.modeAt ∧ (s.setTerm k v).eccMode = s.eccMode ∧ (s.setTerm k v).owed = s.owed ∧ (s.setTerm k v).scrub = s.scrub ∧
  (s.setTerm k v).cscrub = s.cscrub ∧ (s.setTerm k v).lanes = s.lanes ∧ (s.setTerm k v).sessions = s.sessions ∧ (s.setTerm k
  v).streams = s.streams ∧ (s.setTerm k v).awaits = s.awaits ∧ (s.setTerm k v).answers = s.answers ∧ (s.setTerm k v).atomics =
  s.atomics ∧ (s.setTerm k v).procs = s.procs ∧ (s.setTerm k v).triggers = s.triggers ∧ (s.setTerm k v).domain = s.domain ∧
  (s.setTerm k v).sec = s.sec ∧ (s.setTerm k v).latches = s.latches ∧ (s.setTerm k v).vdmEid = s.vdmEid ∧ (s.setTerm k
  v).healthAt = s.healthAt ∧ (s.setTerm k v).wdog = s.wdog ∧ (s.setTerm k v).hourly = s.hourly ∧ (s.setTerm k v).minutely =
  s.minutely ∧ (s.setTerm k v).logNext = s.logNext ∧ (s.setTerm k v).harvest = s.harvest ∧ (s.setTerm k v).badPhys = s.badPhys
  ∧ (s.setTerm k v).fenced = s.fenced ∧ (s.setTerm k v).ports = s.ports ∧ (s.setTerm k v).host = s.host ∧ (s.setTerm k
  v).power = s.power ∧ (s.setTerm k v).out = s.out ∧ (s.setTerm k v).pending = s.pending ∧ (s.setTerm k v).freeCtr = s.freeCtr :=
  ⟨rfl, rfl, rfl, rfl, rfl, rfl, rfl, rfl, rfl, rfl, rfl, rfl, rfl, rfl, rfl, rfl, rfl, rfl, rfl, rfl, rfl, rfl, rfl, rfl,
  rfl, rfl, rfl, rfl, rfl, rfl, rfl, rfl, rfl, rfl, rfl, rfl, rfl, rfl, rfl, rfl, rfl, rfl, rfl, rfl, rfl, rfl, rfl, rfl, rfl,
  rfl, rfl, rfl, rfl, rfl, rfl, rfl, rfl, rfl, rfl, rfl, rfl, rfl, rfl, rfl, rfl, rfl, rfl, rfl, rfl⟩

@[simp] theorem State.addTerm_frame (s : State) (k n : Nat) :
  (s.addTerm k n).obj = s.obj ∧ (s.addTerm k n).mem = s.mem ∧ (s.addTerm k n).garbled = s.garbled ∧ (s.addTerm k n).ecc =
  s.ecc ∧ (s.addTerm k n).floats = s.floats ∧ (s.addTerm k n).fAdds = s.fAdds ∧ (s.addTerm k n).fSets = s.fSets ∧ (s.addTerm k
  n).cycle = s.cycle ∧ (s.addTerm k n).clock = s.clock ∧ (s.addTerm k n).tb = s.tb ∧ (s.addTerm k n).servo = s.servo ∧
  (s.addTerm k n).tb0Ready = s.tb0Ready ∧ (s.addTerm k n).cal = s.cal ∧ (s.addTerm k n).ctxs = s.ctxs ∧ (s.addTerm k n).fns =
  s.fns ∧ (s.addTerm k n).cmds = s.cmds ∧ (s.addTerm k n).nextId = s.nextId ∧ (s.addTerm k n).retired = s.retired ∧ (s.addTerm
  k n).engines = s.engines ∧ (s.addTerm k n).pieces = s.pieces ∧ (s.addTerm k n).reads = s.reads ∧ (s.addTerm k n).cores =
  s.cores ∧ (s.addTerm k n).chans = s.chans ∧ (s.addTerm k n).cellsAt = s.cellsAt ∧ (s.addTerm k n).recs = s.recs ∧ (s.addTerm
  k n).inCal = s.inCal ∧ (s.addTerm k n).standby = s.standby ∧ (s.addTerm k n).tracks = s.tracks ∧ (s.addTerm k n).failedTb =
  s.failedTb ∧ (s.addTerm k n).staging = s.staging ∧ (s.addTerm k n).txq = s.txq ∧ (s.addTerm k n).seqRx = s.seqRx ∧
  (s.addTerm k n).seqTx = s.seqTx ∧ (s.addTerm k n).ptpSeq = s.ptpSeq ∧ (s.addTerm k n).parent = s.parent ∧ (s.addTerm k
  n).rxHeld = s.rxHeld ∧ (s.addTerm k n).delaySent = s.delaySent ∧ (s.addTerm k n).energy = s.energy ∧ (s.addTerm k n).modeAt
  = s.modeAt ∧ (s.addTerm k n).eccMode = s.eccMode ∧ (s.addTerm k n).owed = s.owed ∧ (s.addTerm k n).scrub = s.scrub ∧
  (s.addTerm k n).cscrub = s.cscrub ∧ (s.addTerm k n).lanes = s.lanes ∧ (s.addTerm k n).sessions = s.sessions ∧ (s.addTerm k
  n).streams = s.streams ∧ (s.addTerm k n).awaits = s.awaits ∧ (s.addTerm k n).answers = s.answers ∧ (s.addTerm k n).atomics =
  s.atomics ∧ (s.addTerm k n).procs = s.procs ∧ (s.addTerm k n).triggers = s.triggers ∧ (s.addTerm k n).domain = s.domain ∧
  (s.addTerm k n).sec = s.sec ∧ (s.addTerm k n).latches = s.latches ∧ (s.addTerm k n).vdmEid = s.vdmEid ∧ (s.addTerm k
  n).healthAt = s.healthAt ∧ (s.addTerm k n).wdog = s.wdog ∧ (s.addTerm k n).hourly = s.hourly ∧ (s.addTerm k n).minutely =
  s.minutely ∧ (s.addTerm k n).logNext = s.logNext ∧ (s.addTerm k n).harvest = s.harvest ∧ (s.addTerm k n).badPhys = s.badPhys
  ∧ (s.addTerm k n).fenced = s.fenced ∧ (s.addTerm k n).ports = s.ports ∧ (s.addTerm k n).host = s.host ∧ (s.addTerm k
  n).power = s.power ∧ (s.addTerm k n).out = s.out ∧ (s.addTerm k n).pending = s.pending ∧ (s.addTerm k n).freeCtr = s.freeCtr :=
  ⟨rfl, rfl, rfl, rfl, rfl, rfl, rfl, rfl, rfl, rfl, rfl, rfl, rfl, rfl, rfl, rfl, rfl, rfl, rfl, rfl, rfl, rfl, rfl, rfl,
  rfl, rfl, rfl, rfl, rfl, rfl, rfl, rfl, rfl, rfl, rfl, rfl, rfl, rfl, rfl, rfl, rfl, rfl, rfl, rfl, rfl, rfl, rfl, rfl, rfl,
  rfl, rfl, rfl, rfl, rfl, rfl, rfl, rfl, rfl, rfl, rfl, rfl, rfl, rfl, rfl, rfl, rfl, rfl, rfl, rfl⟩

@[simp] theorem State.send_frame (s : State) (m : Out) :
  (s.send m).obj = s.obj ∧ (s.send m).mem = s.mem ∧ (s.send m).garbled = s.garbled ∧ (s.send m).ecc = s.ecc ∧ (s.send
  m).floats = s.floats ∧ (s.send m).fAdds = s.fAdds ∧ (s.send m).fSets = s.fSets ∧ (s.send m).cycle = s.cycle ∧ (s.send
  m).clock = s.clock ∧ (s.send m).tb = s.tb ∧ (s.send m).servo = s.servo ∧ (s.send m).tb0Ready = s.tb0Ready ∧ (s.send m).cal =
  s.cal ∧ (s.send m).ctxs = s.ctxs ∧ (s.send m).fns = s.fns ∧ (s.send m).cmds = s.cmds ∧ (s.send m).nextId = s.nextId ∧
  (s.send m).retired = s.retired ∧ (s.send m).engines = s.engines ∧ (s.send m).pieces = s.pieces ∧ (s.send m).reads = s.reads
  ∧ (s.send m).cores = s.cores ∧ (s.send m).chans = s.chans ∧ (s.send m).cellsAt = s.cellsAt ∧ (s.send m).recs = s.recs ∧
  (s.send m).inCal = s.inCal ∧ (s.send m).standby = s.standby ∧ (s.send m).tracks = s.tracks ∧ (s.send m).failedTb =
  s.failedTb ∧ (s.send m).staging = s.staging ∧ (s.send m).txq = s.txq ∧ (s.send m).seqRx = s.seqRx ∧ (s.send m).seqTx =
  s.seqTx ∧ (s.send m).ptpSeq = s.ptpSeq ∧ (s.send m).parent = s.parent ∧ (s.send m).rxHeld = s.rxHeld ∧ (s.send m).delaySent
  = s.delaySent ∧ (s.send m).energy = s.energy ∧ (s.send m).modeAt = s.modeAt ∧ (s.send m).eccMode = s.eccMode ∧ (s.send
  m).owed = s.owed ∧ (s.send m).scrub = s.scrub ∧ (s.send m).cscrub = s.cscrub ∧ (s.send m).lanes = s.lanes ∧ (s.send
  m).sessions = s.sessions ∧ (s.send m).streams = s.streams ∧ (s.send m).awaits = s.awaits ∧ (s.send m).answers = s.answers ∧
  (s.send m).atomics = s.atomics ∧ (s.send m).procs = s.procs ∧ (s.send m).triggers = s.triggers ∧ (s.send m).domain =
  s.domain ∧ (s.send m).sec = s.sec ∧ (s.send m).latches = s.latches ∧ (s.send m).vdmEid = s.vdmEid ∧ (s.send m).healthAt =
  s.healthAt ∧ (s.send m).wdog = s.wdog ∧ (s.send m).hourly = s.hourly ∧ (s.send m).minutely = s.minutely ∧ (s.send m).logNext
  = s.logNext ∧ (s.send m).debits = s.debits ∧ (s.send m).harvest = s.harvest ∧ (s.send m).badPhys = s.badPhys ∧ (s.send
  m).fenced = s.fenced ∧ (s.send m).ports = s.ports ∧ (s.send m).host = s.host ∧ (s.send m).power = s.power ∧ (s.send
  m).pending = s.pending ∧ (s.send m).freeCtr = s.freeCtr :=
  ⟨rfl, rfl, rfl, rfl, rfl, rfl, rfl, rfl, rfl, rfl, rfl, rfl, rfl, rfl, rfl, rfl, rfl, rfl, rfl, rfl, rfl, rfl, rfl, rfl,
  rfl, rfl, rfl, rfl, rfl, rfl, rfl, rfl, rfl, rfl, rfl, rfl, rfl, rfl, rfl, rfl, rfl, rfl, rfl, rfl, rfl, rfl, rfl, rfl, rfl,
  rfl, rfl, rfl, rfl, rfl, rfl, rfl, rfl, rfl, rfl, rfl, rfl, rfl, rfl, rfl, rfl, rfl, rfl, rfl, rfl⟩

@[simp] theorem State.modCmd_frame (s : State) (cid : Nat) (k : Cmd → Cmd) :
  (s.modCmd cid k).obj = s.obj ∧ (s.modCmd cid k).mem = s.mem ∧ (s.modCmd cid k).garbled = s.garbled ∧ (s.modCmd cid k).ecc =
  s.ecc ∧ (s.modCmd cid k).floats = s.floats ∧ (s.modCmd cid k).fAdds = s.fAdds ∧ (s.modCmd cid k).fSets = s.fSets ∧ (s.modCmd
  cid k).cycle = s.cycle ∧ (s.modCmd cid k).clock = s.clock ∧ (s.modCmd cid k).tb = s.tb ∧ (s.modCmd cid k).servo = s.servo ∧
  (s.modCmd cid k).tb0Ready = s.tb0Ready ∧ (s.modCmd cid k).cal = s.cal ∧ (s.modCmd cid k).ctxs = s.ctxs ∧ (s.modCmd cid
  k).fns = s.fns ∧ (s.modCmd cid k).nextId = s.nextId ∧ (s.modCmd cid k).retired = s.retired ∧ (s.modCmd cid k).engines =
  s.engines ∧ (s.modCmd cid k).pieces = s.pieces ∧ (s.modCmd cid k).reads = s.reads ∧ (s.modCmd cid k).cores = s.cores ∧
  (s.modCmd cid k).chans = s.chans ∧ (s.modCmd cid k).cellsAt = s.cellsAt ∧ (s.modCmd cid k).recs = s.recs ∧ (s.modCmd cid
  k).inCal = s.inCal ∧ (s.modCmd cid k).standby = s.standby ∧ (s.modCmd cid k).tracks = s.tracks ∧ (s.modCmd cid k).failedTb =
  s.failedTb ∧ (s.modCmd cid k).staging = s.staging ∧ (s.modCmd cid k).txq = s.txq ∧ (s.modCmd cid k).seqRx = s.seqRx ∧
  (s.modCmd cid k).seqTx = s.seqTx ∧ (s.modCmd cid k).ptpSeq = s.ptpSeq ∧ (s.modCmd cid k).parent = s.parent ∧ (s.modCmd cid
  k).rxHeld = s.rxHeld ∧ (s.modCmd cid k).delaySent = s.delaySent ∧ (s.modCmd cid k).energy = s.energy ∧ (s.modCmd cid
  k).modeAt = s.modeAt ∧ (s.modCmd cid k).eccMode = s.eccMode ∧ (s.modCmd cid k).owed = s.owed ∧ (s.modCmd cid k).scrub =
  s.scrub ∧ (s.modCmd cid k).cscrub = s.cscrub ∧ (s.modCmd cid k).lanes = s.lanes ∧ (s.modCmd cid k).sessions = s.sessions ∧
  (s.modCmd cid k).streams = s.streams ∧ (s.modCmd cid k).awaits = s.awaits ∧ (s.modCmd cid k).answers = s.answers ∧ (s.modCmd
  cid k).atomics = s.atomics ∧ (s.modCmd cid k).procs = s.procs ∧ (s.modCmd cid k).triggers = s.triggers ∧ (s.modCmd cid
  k).domain = s.domain ∧ (s.modCmd cid k).sec = s.sec ∧ (s.modCmd cid k).latches = s.latches ∧ (s.modCmd cid k).vdmEid =
  s.vdmEid ∧ (s.modCmd cid k).healthAt = s.healthAt ∧ (s.modCmd cid k).wdog = s.wdog ∧ (s.modCmd cid k).hourly = s.hourly ∧
  (s.modCmd cid k).minutely = s.minutely ∧ (s.modCmd cid k).logNext = s.logNext ∧ (s.modCmd cid k).debits = s.debits ∧
  (s.modCmd cid k).harvest = s.harvest ∧ (s.modCmd cid k).badPhys = s.badPhys ∧ (s.modCmd cid k).fenced = s.fenced ∧ (s.modCmd
  cid k).ports = s.ports ∧ (s.modCmd cid k).host = s.host ∧ (s.modCmd cid k).power = s.power ∧ (s.modCmd cid k).out = s.out ∧
  (s.modCmd cid k).pending = s.pending ∧ (s.modCmd cid k).freeCtr = s.freeCtr :=
  ⟨rfl, rfl, rfl, rfl, rfl, rfl, rfl, rfl, rfl, rfl, rfl, rfl, rfl, rfl, rfl, rfl, rfl, rfl, rfl, rfl, rfl, rfl, rfl, rfl,
  rfl, rfl, rfl, rfl, rfl, rfl, rfl, rfl, rfl, rfl, rfl, rfl, rfl, rfl, rfl, rfl, rfl, rfl, rfl, rfl, rfl, rfl, rfl, rfl, rfl,
  rfl, rfl, rfl, rfl, rfl, rfl, rfl, rfl, rfl, rfl, rfl, rfl, rfl, rfl, rfl, rfl, rfl, rfl, rfl, rfl⟩

@[simp] theorem State.dropCmd_frame (s : State) (cid : Nat) :
  (s.dropCmd cid).obj = s.obj ∧ (s.dropCmd cid).mem = s.mem ∧ (s.dropCmd cid).garbled = s.garbled ∧ (s.dropCmd cid).ecc =
  s.ecc ∧ (s.dropCmd cid).floats = s.floats ∧ (s.dropCmd cid).fAdds = s.fAdds ∧ (s.dropCmd cid).fSets = s.fSets ∧ (s.dropCmd
  cid).cycle = s.cycle ∧ (s.dropCmd cid).clock = s.clock ∧ (s.dropCmd cid).tb = s.tb ∧ (s.dropCmd cid).servo = s.servo ∧
  (s.dropCmd cid).tb0Ready = s.tb0Ready ∧ (s.dropCmd cid).cal = s.cal ∧ (s.dropCmd cid).ctxs = s.ctxs ∧ (s.dropCmd cid).fns =
  s.fns ∧ (s.dropCmd cid).nextId = s.nextId ∧ (s.dropCmd cid).retired = s.retired ∧ (s.dropCmd cid).engines = s.engines ∧
  (s.dropCmd cid).pieces = s.pieces ∧ (s.dropCmd cid).reads = s.reads ∧ (s.dropCmd cid).cores = s.cores ∧ (s.dropCmd
  cid).chans = s.chans ∧ (s.dropCmd cid).cellsAt = s.cellsAt ∧ (s.dropCmd cid).recs = s.recs ∧ (s.dropCmd cid).inCal = s.inCal
  ∧ (s.dropCmd cid).standby = s.standby ∧ (s.dropCmd cid).tracks = s.tracks ∧ (s.dropCmd cid).failedTb = s.failedTb ∧
  (s.dropCmd cid).staging = s.staging ∧ (s.dropCmd cid).txq = s.txq ∧ (s.dropCmd cid).seqRx = s.seqRx ∧ (s.dropCmd cid).seqTx
  = s.seqTx ∧ (s.dropCmd cid).ptpSeq = s.ptpSeq ∧ (s.dropCmd cid).parent = s.parent ∧ (s.dropCmd cid).rxHeld = s.rxHeld ∧
  (s.dropCmd cid).delaySent = s.delaySent ∧ (s.dropCmd cid).energy = s.energy ∧ (s.dropCmd cid).modeAt = s.modeAt ∧ (s.dropCmd
  cid).eccMode = s.eccMode ∧ (s.dropCmd cid).owed = s.owed ∧ (s.dropCmd cid).scrub = s.scrub ∧ (s.dropCmd cid).cscrub =
  s.cscrub ∧ (s.dropCmd cid).lanes = s.lanes ∧ (s.dropCmd cid).sessions = s.sessions ∧ (s.dropCmd cid).streams = s.streams ∧
  (s.dropCmd cid).awaits = s.awaits ∧ (s.dropCmd cid).answers = s.answers ∧ (s.dropCmd cid).atomics = s.atomics ∧ (s.dropCmd
  cid).procs = s.procs ∧ (s.dropCmd cid).triggers = s.triggers ∧ (s.dropCmd cid).domain = s.domain ∧ (s.dropCmd cid).sec =
  s.sec ∧ (s.dropCmd cid).latches = s.latches ∧ (s.dropCmd cid).vdmEid = s.vdmEid ∧ (s.dropCmd cid).healthAt = s.healthAt ∧
  (s.dropCmd cid).wdog = s.wdog ∧ (s.dropCmd cid).hourly = s.hourly ∧ (s.dropCmd cid).minutely = s.minutely ∧ (s.dropCmd
  cid).logNext = s.logNext ∧ (s.dropCmd cid).debits = s.debits ∧ (s.dropCmd cid).harvest = s.harvest ∧ (s.dropCmd cid).badPhys
  = s.badPhys ∧ (s.dropCmd cid).fenced = s.fenced ∧ (s.dropCmd cid).ports = s.ports ∧ (s.dropCmd cid).host = s.host ∧
  (s.dropCmd cid).power = s.power ∧ (s.dropCmd cid).out = s.out ∧ (s.dropCmd cid).pending = s.pending ∧ (s.dropCmd
  cid).freeCtr = s.freeCtr :=
  ⟨rfl, rfl, rfl, rfl, rfl, rfl, rfl, rfl, rfl, rfl, rfl, rfl, rfl, rfl, rfl, rfl, rfl, rfl, rfl, rfl, rfl, rfl, rfl, rfl,
  rfl, rfl, rfl, rfl, rfl, rfl, rfl, rfl, rfl, rfl, rfl, rfl, rfl, rfl, rfl, rfl, rfl, rfl, rfl, rfl, rfl, rfl, rfl, rfl, rfl,
  rfl, rfl, rfl, rfl, rfl, rfl, rfl, rfl, rfl, rfl, rfl, rfl, rfl, rfl, rfl, rfl, rfl, rfl, rfl, rfl⟩

/-! ### Reading what was written -/


@[simp] theorem State.fn_setFn (s : State) (k : Nat) (x : Fn) : (s.setFn k x).fn k = x := SMap.get_set_same ..
theorem State.fn_setFn_other (s : State) {k j : Nat} (x : Fn) (h : j ≠ k) : (s.setFn k x).fn j = s.fn j := SMap.get_set_other _ _ h
@[simp] theorem State.ctx_setCtx (s : State) (k : Nat) (x : Ctx) : (s.setCtx k x).ctx k = x := SMap.get_set_same ..
theorem State.ctx_setCtx_other (s : State) {k j : Nat} (x : Ctx) (h : j ≠ k) : (s.setCtx k x).ctx j = s.ctx j := SMap.get_set_other _ _ h
@[simp] theorem State.engine_setEngine (s : State) (k : Nat) (x : Engine) : (s.setEngine k x).engine k = x := SMap.get_set_same ..
theorem State.engine_setEngine_other (s : State) {k j : Nat} (x : Engine) (h : j ≠ k) : (s.setEngine k x).engine j = s.engine j := SMap.get_set_other _ _ h
@[simp] theorem State.core_setCore (s : State) (k : Nat) (x : Core) : (s.setCore k x).core k = x := SMap.get_set_same ..
theorem State.core_setCore_other (s : State) {k j : Nat} (x : Core) (h : j ≠ k) : (s.setCore k x).core j = s.core j := SMap.get_set_other _ _ h
@[simp] theorem State.chan_setChan (s : State) (k : Nat) (x : ChanCore) : (s.setChan k x).chan k = x := SMap.get_set_same ..
theorem State.chan_setChan_other (s : State) {k j : Nat} (x : ChanCore) (h : j ≠ k) : (s.setChan k x).chan j = s.chan j := SMap.get_set_other _ _ h
@[simp] theorem State.lane_setLane (s : State) (k : Nat) (x : Lane) : (s.setLane k x).lane k = x := SMap.get_set_same ..
theorem State.lane_setLane_other (s : State) {k j : Nat} (x : Lane) (h : j ≠ k) : (s.setLane k x).lane j = s.lane j := SMap.get_set_other _ _ h
@[simp] theorem State.port_setPort (s : State) (k : Nat) (x : Port) : (s.setPort k x).port k = x := SMap.get_set_same ..
theorem State.port_setPort_other (s : State) {k j : Nat} (x : Port) (h : j ≠ k) : (s.setPort k x).port j = s.port j := SMap.get_set_other _ _ h
@[simp] theorem State.fn_modFn (s : State) (j : Nat) (k : Fn → Fn) : (s.modFn j k).fn j = k (s.fn j) := SMap.get_set_same ..
theorem State.fn_modFn_other (s : State) {i j : Nat} (k : Fn → Fn) (h : i ≠ j) : (s.modFn j k).fn i = s.fn i := SMap.get_set_other _ _ h
@[simp] theorem State.ctx_modCtx (s : State) (j : Nat) (k : Ctx → Ctx) : (s.modCtx j k).ctx j = k (s.ctx j) := SMap.get_set_same ..
theorem State.ctx_modCtx_other (s : State) {i j : Nat} (k : Ctx → Ctx) (h : i ≠ j) : (s.modCtx j k).ctx i = s.ctx i := SMap.get_set_other _ _ h
@[simp] theorem State.engine_modEngine (s : State) (j : Nat) (k : Engine → Engine) : (s.modEngine j k).engine j = k (s.engine j) := SMap.get_set_same ..
theorem State.engine_modEngine_other (s : State) {i j : Nat} (k : Engine → Engine) (h : i ≠ j) : (s.modEngine j k).engine i = s.engine i := SMap.get_set_other _ _ h
@[simp] theorem State.core_modCore (s : State) (j : Nat) (k : Core → Core) : (s.modCore j k).core j = k (s.core j) := SMap.get_set_same ..
theorem State.core_modCore_other (s : State) {i j : Nat} (k : Core → Core) (h : i ≠ j) : (s.modCore j k).core i = s.core i := SMap.get_set_other _ _ h
@[simp] theorem State.rd_wr (s : State) (a : Nat) (b : Byte) : (s.wr a b).rd a = b := SMap.get_set_same ..
theorem State.rd_wr_other (s : State) {a c : Nat} (b : Byte) (h : c ≠ a) : (s.wr a b).rd c = s.rd c := SMap.get_set_other _ _ h
@[simp] theorem State.float_setFloat (s : State) (f : Nat) (v : W64) : (s.setFloat f v).float f = v := SMap.get_set_same ..
theorem State.float_setFloat_other (s : State) {f g : Nat} (v : W64) (h : g ≠ f) : (s.setFloat f v).float g = s.float g :=
  SMap.get_set_other _ _ h

/-- An object reads what was written, modulo its width. -/
@[simp] theorem State.o_setO (s : State) (sel index sub v : Nat) : (s.setO sel index sub v).o sel index sub = v % objMod sel index sub :=
  SMap.get_set_same ..
@[simp] theorem State.g_setG (s : State) (index sub v : Nat) : (s.setG index sub v).g index sub = v % objMod 1023 index sub :=
  SMap.get_set_same ..

/-- Objects of different places have different keys. -/
theorem objKey_inj {a b c d e f : Nat} (hb : b < 2 ^ 16) (hc : c < 2 ^ 8) (he : e < 2 ^ 16) (hf : f < 2 ^ 8)
    (h : objKey a b c = objKey d e f) : a = d ∧ b = e ∧ c = f := by
  unfold objKey at h; omega

/-- A write leaves every object of another key alone. -/
theorem State.o_setO_other (s : State) {sel index sub sel' index' sub' : Nat} (v : Nat)
    (h : objKey sel' index' sub' ≠ objKey sel index sub) : (s.setO sel index sub v).o sel' index' sub' = s.o sel' index' sub' :=
  SMap.get_set_other _ _ h
theorem State.g_setG_other (s : State) {index sub index' sub' : Nat} (v : Nat)
    (h : objKey 1023 index' sub' ≠ objKey 1023 index sub) : (s.setG index sub v).g index' sub' = s.g index' sub' :=
  SMap.get_set_other _ _ h
theorem State.g_addG_other (s : State) {index sub index' sub' : Nat} (n : Nat)
    (h : objKey 1023 index' sub' ≠ objKey 1023 index sub) : (s.addG index sub n).g index' sub' = s.g index' sub' :=
  SMap.get_set_other _ _ h
theorem State.g_setO_other (s : State) {sel index sub index' sub' : Nat} (v : Nat)
    (h : objKey 1023 index' sub' ≠ objKey sel index sub) : (s.setO sel index sub v).g index' sub' = s.g index' sub' :=
  SMap.get_set_other _ _ h

end Sys2Proof.Machine
end

