-- ==== Sys2Proof/Laws/Steps.lean ====
section
/-!
SUPPORT. What the shared operations do, one lemma per operation and outcome: a chain of checks, a dictionary access, the start and
the own effect of a command, a radio-engine job, an instruction of a channel core, a request of the fabric. The statements are proved over these.
-/

namespace Sys2Proof.Machine

/-! ### Checks -/

/-- A chain of checks goes on after one that passed; rewrite with this, one check at a time. -/
@[simp] theorem except_ok {ε α β : Type} (a : α) (f : α → Except ε β) : (Except.ok a >>= f) = f a := rfl
/-- A chain of checks ends at one that failed. -/
@[simp] theorem except_error {ε α β : Type} (e : ε) (f : α → Except ε β) : ((Except.error e : Except ε α) >>= f) = .error e := rfl
@[simp] theorem ensure_true (status detail : Nat) : ensure true status detail = .ok () := rfl
@[simp] theorem ensure_false (status detail : Nat) : ensure false status detail = .error ⟨status, detail⟩ := rfl
@[simp] theorem need_true (status : Nat) : need true status = .ok () := rfl
@[simp] theorem need_false (status : Nat) : need false status = .error status := rfl

theorem State.powered_of_up {s : State} (h : s.up = true) : s.powered = true := by
  simp [State.up, State.powered] at *; simp [h]

/-! ### Dictionary accesses -/

theorem State.access_ok {s t : State} {path : Path} {sel index sub : Nat} {len : Option Nat} {value : Nat} {r : ObjRow}
    {rule : ObjRow → State → Except Refused State} (h : s.LetsWrite path sel index sub len value r) (hr : rule r s = .ok t) :
    s.access path sel index sub len value rule = s.written t r path sel index sub value := by
  unfold State.access State.written
  simp [h.powered, h.gate, h.checks, hr, Except.map]

theorem State.access_refused {s : State} {path : Path} {sel index sub : Nat} {len : Option Nat} {value : Nat} {r : ObjRow} {e : Refused}
    {rule : ObjRow → State → Except Refused State} (h : s.LetsWrite path sel index sub len value r) (hr : rule r s = .error e) :
    s.access path sel index sub len value rule = s.respond path e.status e.detail [] := by
  unfold State.access
  simp [h.powered, h.gate, h.checks, hr, Except.map]

theorem State.access_checked {s : State} {path : Path} {sel index sub : Nat} {len : Option Nat} {value : Nat} {e : Refused}
    {rule : ObjRow → State → Except Refused State} (hp : s.powered = true) (hg : s.gate path = none)
    (hr : s.checkWrite path sel index sub len value = .error e) :
    s.access path sel index sub len value rule = s.respond path e.status e.detail [] := by
  unfold State.access
  simp [hp, hg, hr]

/-! ### Commands -/

theorem State.startFree_ok {s : State} {cid : Nat} {c : Cmd} {kind : Cmd → Bool} {k : Cmd → State → State} (h : s.StartsFree cid c)
    (hk : kind c = true) : s.startFree cid kind k = k c (s.startedFree cid c) := by
  unfold State.startFree
  have h3 := h.energy
  simp only [h.cmd, hk, h.canStart, Bool.not_true, Bool.or_self]
  rw [if_neg (by simp)]
  rw [if_neg (by simp; intro h4; rcases h3 with h3 | h3; exact absurd h4 h3; exact h3)]
  rfl

theorem State.perform_ok {s t : State} {cid : Nat} {c : Cmd} {d : List Nat} {is : Cmd → Bool}
    {k : Cmd → State → Except Refused (State × List Nat)} (h : s.Due cid c) (hi : is c = true) (hk : k c s = .ok (t, d)) :
    s.perform cid is k = t.did cid Status.ok d := by
  simp [State.perform, h.cmd, h.up, h.running, h.fresh, hi, hk]

theorem State.perform_refused {s : State} {cid : Nat} {c : Cmd} {e : Refused} {is : Cmd → Bool}
    {k : Cmd → State → Except Refused (State × List Nat)} (h : s.Due cid c) (hi : is c = true) (hk : k c s = .error e) :
    s.perform cid is k = (s.noteBad c e).did cid e.status (s.failDetail c e) := by
  simp [State.perform, h.cmd, h.up, h.running, h.fresh, hi, hk]

/-- The status of a command that did its effect. -/
theorem State.did_status {s : State} {cid status : Nat} {detail : List Nat} {d : Cmd} (h : (s.did cid status detail).cmd? cid = some d) :
    d.status = status := by
  simp only [State.did, State.modCmd, State.cmd?] at h
  have h3 := List.find?_some h
  have h4 := List.mem_of_find?_eq_some h
  simp only [List.mem_map] at h4
  obtain ⟨e, he, rfl⟩ := h4
  split <;> rename_i h5
  · rfl
  · simp [h5] at h3

theorem State.serve_ok {s t : State} {cid : Nat} {c : Cmd} {d : List Nat} {is : Cmd → Bool}
    {k : Cmd → State → Except Refused (State × List Nat)} (h : s.Due cid c) (hi : is c = true) (hk : k c s = .ok (t, d)) :
    s.serve cid is k = t.did cid Status.ok d := by
  unfold State.serve; rw [State.perform_ok h hi hk]
  simp only [h.cmd]
  split
  · rename_i c' d' h1 h2
    rw [if_neg (by simp [State.did_status h2, Status.ok, Status.eccUncorrectable])]
  · rfl

theorem State.serve_refused {s : State} {cid : Nat} {c : Cmd} {e : Refused} {is : Cmd → Bool}
    {k : Cmd → State → Except Refused (State × List Nat)} (h : s.Due cid c) (hi : is c = true) (hk : k c s = .error e)
    (hs : e.status ≠ Status.eccUncorrectable) :
    s.serve cid is k = s.did cid e.status (s.failDetail c e) := by
  unfold State.serve; rw [State.perform_refused h hi hk]
  simp only [h.cmd, State.noteBad, if_pos hs]
  split
  · rename_i c' d' h1 h2
    rw [if_neg (by simp [State.did_status h2, hs])]
  · rfl

/-! ### Radio-engine jobs -/

/-- The effect of a job whose checks pass; its DETAIL is its TB_ID. -/
theorem State.radioDo_ok {s t : State} {cid : Nat} {c d : Cmd} {l : List Nat} {is : Cmd → Bool}
    {k : Cmd → State → Except Refused (State × List Nat)} (h : s.Due cid c) (h9 : c.cls = 9) (hi : is c = true)
    (hk : k c s = .ok (t, l)) (hd : (t.did cid Status.ok l).cmd? cid = some d) (hdid : d.did = true) :
    s.radioDo cid is k = (t.did cid Status.ok l).modCmd cid (fun (e : Cmd) => { e with detail := [c.tbId, 0, 0] }) := by
  unfold State.radioDo
  rw [State.perform_ok h (by simp [h9, hi]) hk]
  simp only [h.cmd, hd]
  rw [if_pos (by simp [h.fresh, hdid, State.did_status hd, Status.faults, Status.ok, Status.resourceHeld]),
    if_neg (by simp [State.did_status hd, Status.ok, Status.eccUncorrectable])]

/-- A job whose checks pass, or fail on an error in its data alone, asks for its inputs first. -/
theorem State.radioRun_asks {s : State} {cid : Nat} {c : Cmd} {is : Cmd → Bool} {inputs : State → Cmd → List (DevAddr × Nat)}
    {k : Cmd → State → Except Refused (State × List Nat)} (h : s.Due cid c) (h9 : c.cls = 9) (hi : is c = true)
    (ha : c.asked = none) (hl : (inputs s c).filter (fun e => e.2 != 0) ≠ [])
    (hk : ∀ e, k c s = .error e → e.status = Status.eccUncorrectable) :
    s.radioRun cid is inputs k = s.askInputs c ((inputs s c).filter (fun e => e.2 != 0)) := by
  unfold State.radioRun
  simp only [h.cmd, h.up, h.running, h.fresh, h9, hi, ha]
  rw [if_neg (by simp), if_neg]
  simp only [Bool.or_eq_true, not_or, Bool.not_eq_true, List.isEmpty_eq_false_iff]
  refine ⟨?_, hl⟩
  cases hc : k c s with
  | ok r => rfl
  | error e => simp [hk e hc]

/-- A job with no input, or with a check that fails, has its effect at once. -/
theorem State.radioRun_atOnce {s : State} {cid : Nat} {c : Cmd} {is : Cmd → Bool} {inputs : State → Cmd → List (DevAddr × Nat)}
    {k : Cmd → State → Except Refused (State × List Nat)} (h : s.Due cid c) (h9 : c.cls = 9) (hi : is c = true)
    (ha : c.asked = none)
    (hk : (inputs s c).filter (fun e => e.2 != 0) = [] ∨ ∃ e, k c s = .error e ∧ e.status ≠ Status.eccUncorrectable) :
    s.radioRun cid is inputs k = s.radioDo cid is k := by
  unfold State.radioRun
  simp only [h.cmd, h.up, h.running, h.fresh, h9, hi, ha]
  rw [if_neg (by simp), if_pos]
  rcases hk with hk | ⟨e, he, hs⟩
  · simp [hk]
  · simp [he, hs]

/-- A job whose inputs are presented has its effect on memory as its reads brought it; memory itself, its garbling and its
errors stay, and its reads are gone. -/
theorem State.radioRun_seen {s : State} {cid due : Nat} {c : Cmd} {is : Cmd → Bool} {inputs : State → Cmd → List (DevAddr × Nat)}
    {k : Cmd → State → Except Refused (State × List Nat)} (h : s.Due cid c) (h9 : c.cls = 9) (hi : is c = true)
    (ha : c.asked = some due) (hd : due ≤ s.clock) (hr : s.reading cid none = false) :
    s.radioRun cid is inputs k = State.takeReads
      { (s.asSeen cid none).radioDo cid is k with mem := s.mem, garbled := s.garbled, ecc := s.ecc } cid none := by
  unfold State.radioRun
  simp only [h.cmd, h.up, h.running, h.fresh, h9, hi, ha]
  rw [if_neg (by simp), if_neg (by simp [hr, Nat.not_lt.2 hd])]

/-- Before its inputs are presented a job does nothing. -/
theorem State.radioRun_waits {s : State} {cid due : Nat} {c : Cmd} {is : Cmd → Bool} {inputs : State → Cmd → List (DevAddr × Nat)}
    {k : Cmd → State → Except Refused (State × List Nat)} (hc : s.cmd? cid = some c) (ha : c.asked = some due)
    (hd : s.clock < due ∨ s.reading cid none = true) : s.radioRun cid is inputs k = s := by
  unfold State.radioRun
  simp only [hc, ha, if_pos hd, ite_self]

/-- Every row of the vector engine is one operation with its own code. -/
theorem exec_vectorRow {row : Nat × (Nat → Instr)} (hr : row ∈ vectorRows) (cid : Nat) (s : State) :
    exec (row.2 cid) s = .next (vectorRun row.1 cid s) := by
  simp only [vectorRows, List.mem_cons, List.not_mem_nil, or_false] at hr
  rcases hr with rfl|rfl|rfl|rfl|rfl|rfl|rfl|rfl|rfl|rfl|rfl|rfl|rfl|rfl|rfl|rfl|rfl|rfl|rfl|rfl|rfl|rfl|rfl|rfl|rfl|rfl|rfl|rfl|rfl|rfl|rfl|rfl|rfl|rfl <;> rfl

/-! ### Channel cores -/

theorem State.ccRun_ok {cc t : Nat} {x : Thread} {s u : State} {i : CcInstr} {k : Nat → Thread → CcInstr → Option CcOut}
    (h : s.Issues cc t x i) (hk : k t x i = some (.ok u)) : State.ccRun cc s k = .next u := by
  unfold State.ccRun
  rw [if_neg (Nat.not_le.2 h.core)]
  simp [h.up, h.job, h.pick, h.word, h.thread, hk]

theorem State.ccRun_error {cc t : Nat} {x : Thread} {s : State} {i : CcInstr} {status : Nat} {k : Nat → Thread → CcInstr → Option CcOut}
    (h : s.Issues cc t x i) (hk : k t x i = some (.error status)) : State.ccRun cc s k = .next (s.ccEnd cc status) := by
  unfold State.ccRun
  rw [if_neg (Nat.not_le.2 h.core)]
  simp [h.up, h.job, h.pick, h.word, h.thread, hk]

/-! ### Requests of the fabric -/

theorem State.receive_eq {s : State} {p : Packet} (h : s.Receives p) (k : State → Except Nat State) :
    s.receive p k = match k (s.stepped p) with
      | .ok u => u.ackedRequest p
      | .error status => ((s.stepped p).refuse p status).ackedRequest p := by
  have h1 := h.expected
  unfold State.receive
  dsimp only
  rw [if_neg (by simp [h.up]), if_neg (by simp only [h.alive]; simp), if_neg (by simp [h.fn, h.present]),
    if_neg (by have h2 := h.endpoint; cases hh : s.endpointOf p.dstFn p.src p.srcFn <;> simp_all), if_neg (by omega), if_neg (by omega)]
  rw [if_neg (by simp [h.running])]
  rfl

theorem State.receive_ok {s u : State} {p : Packet} {k : State → Except Nat State} (h : s.Receives p) (hk : k (s.stepped p) = .ok u) :
    s.receive p k = u.ackedRequest p := by
  rw [State.receive_eq h, hk]

theorem State.receive_refused {s : State} {p : Packet} {status : Nat} {k : State → Except Nat State} (h : s.Receives p)
    (hk : k (s.stepped p) = .error status) : s.receive p k = ((s.stepped p).refuse p status).ackedRequest p := by
  rw [State.receive_eq h, hk]

theorem State.receiveCounted_ok {s u v : State} {p : Packet} {k : State → Except Nat State} (h : s.Receives p) (h0 : k s = .ok v)
    (hk : k (s.stepped p) = .ok u) : s.receiveCounted p k = u.ackedRequest p := by
  unfold State.receiveCounted; dsimp only; rw [h0]; simp only [ite_self]; exact State.receive_ok h hk

theorem State.receiveCounted_refused {s : State} {p : Packet} {e status : Nat} {k : State → Except Nat State} (h : s.Receives p)
    (h0 : k s = .error e) (he : e ≠ Status.eccUncorrectable) (hk : k (s.stepped p) = .error status) :
    s.receiveCounted p k = ((s.stepped p).refuse p status).ackedRequest p := by
  unfold State.receiveCounted; dsimp only; rw [h0]; simp only [State.countHome, if_neg he, ite_self]; exact State.receive_refused h hk

end Sys2Proof.Machine
end

