-- ==== Sys2Proof/Tests/Slice0.lean ====
section
/-!
SUPPORT. Tests of the model on small states, and for every statement with hypotheses a state and operands that meet them.
-/

namespace Sys2Proof.Tests

open Sys2Proof
open Sys2Proof.Machine

set_option Elab.async false

/-! ### Well-formed commands -/

/-- An ill-formed term for each check, which the check refuses; the same terms in range pass. -/
theorem test_illFormed1 : ([.gutterStart (24 * 1024), .preludeStart (24 * 1024), .radioIntervalEnd (24 * 1024), .engineOffer (24 * 1024),
   .swapArmAtFrame (.vdm 2), .swapArmAtFrame (.window 514 false), .swapArmTakeover (.vdm 2),
   .swapArmTakeover (.window 514 false), .swapDisarm (.vdm 2), .swapDisarm (.window 514 false),
   .cellEntersCalendar 1024, .cellLeavesCalendar 1024, .latenessReport (24 * 1024) 0 [],
   .windowWordWrite 514 0 0 0 0 false, .windowWordWrite 0 1024 0 0 0 false, .windowWordWrite 0 0 16 0 0 false,
   .recordConsume 514, .creditWrite 514 0 0 false, .moderationDelayExpiry 514, .contextOpen (.vdm 2) 0 0,
   .contextOpen (.window 514 false) 0 0, .contextClose (.vdm 2) 0 0, .contextClose (.window 514 false) 0 0,
   .memoryReadArrival 0 [(8, 0)], .memoryReadArrival 0 [(0, 144)], .floatRangeWrite (.vdm 2) 0 0 0,
   .floatRangeWrite (.window 514 false) 0 0 0, .landingZoneSizeWrite (.vdm 2) 0 0,
   .landingZoneSizeWrite (.window 514 false) 0 0, .nop 32, .halt 32, .br 32, .loop 32, .loopx 32, .brk 32, .movi 32,
   .mov 32, .aluAdd 32, .aluSub 32, .aluAnd 32, .aluOr 32, .aluXor 32, .aluShl 32, .aluShrArithmetic 32,
   .aluShrLogical 32, .aluCmp 32, .cadd 32, .csub 32, .conj 32, .swapIq 32, .cneg 32, .ld 32, .st 32, .ldx 32,
   .ldxDataArrival 32 0, .ldxDataArrival 0 4, .stx 32, .ldf 32, .ldfReply 32 0 0 [], .ldfReply 0 4 0 []] : List Instr).all (fun i => !i.wf) = true := by decide +kernel
theorem test_illFormed2 : ([.ldfWaitExpiry 32 0, .ldfWaitExpiry 0 4, .cmac 32, .cmac4 32, .cmac4m 32, .ftap 32, .clra 32, .sta 32, .sta4 32,
   .rda 32, .cellActivate (.vdm 2) 0, .cellActivate (.window 514 false) 0, .cellActivate .i3c 1024,
   .cellDeactivate (.vdm 2) 0, .cellDeactivate (.window 514 false) 0, .cellDeactivate .i3c 1024, .crbWrite (.vdm 2) 0,
   .crbWrite (.window 514 false) 0, .cellRecordUpdate 1024, .standbyCellWrite (.vdm 2) 0 0,
   .standbyCellWrite (.window 514 false) 0 0, .standbyCellWrite .i3c 1024 0, .groupModeWrite (.vdm 2) 0 0,
   .groupModeWrite (.window 514 false) 0 0, .uplaneSectionReceive 16 {}, .cplaneReceive 16,
   .ecpriDelayRequestReceive 16 0 0, .ecpriDelayResponseReceive 16 0 0 0 0 0, .ptpReceive 16 {}, .esmcReceive 16 0,
   .stagingExpiry 16, .frameDepart 16 0, .syncTransmit 16, .phaseMeasurement 4 0, .referenceLossTimeout 4,
   .servoRearm (.vdm 2) 0, .servoRearm (.window 514 false) 0, .servoRearm .i3c 4, .crossSnapshot (.vdm 2),
   .crossSnapshot (.window 514 false), .grantCreate (.vdm 2) 0, .grantCreate (.window 514 false) 0,
   .grantDestroy (.vdm 2) 0, .grantDestroy (.window 514 false) 0, .grantComponentWrite (.vdm 2) 0 0 0,
   .grantComponentWrite (.window 514 false) 0 0 0, .functionResetRequest (.vdm 2) 0,
   .functionResetRequest (.window 514 false) 0, .functionResetEnd 514, .retireAckTimeout 514,
   .radioOwnerWrite (.vdm 2) 0, .radioOwnerWrite (.window 514 false) 0, .coreRelease (.vdm 2) 0 0,
   .coreRelease (.window 514 false) 0 0, .preemptRequest (.vdm 2) 0, .preemptRequest (.window 514 false) 0,
   .claimPreemption 96, .saveStart 96, .saveDone 96, .restoreDone 96] : List Instr).all (fun i => !i.wf) = true := by decide +kernel
theorem test_illFormed3 : ([.powerLimitWrite (.vdm 2) 0, .powerLimitWrite (.window 514 false) 0, .refreshRun 64, .refreshOwedTick 64,
   .gddr7Scrub 64 [] false, .gddr7Scrub 0 [(8, 0)] false, .gddr7Scrub 0 [(0, 144)] false, .fabricLaneDown 64,
   .fabricLaneTrained 64 false, .laneBlockReceive 64 .clean 0 0 [] [], .laneRoleWrite (.vdm 2) 0 0,
   .laneRoleWrite (.window 514 false) 0 0, .sessionKeying 8192 false, .resendTimeout 514 0 0, .resendTimeout 0 8192 0,
   .resendTimeout 0 0 8, .endpointControlWrite (.vdm 2) 0 0, .endpointControlWrite (.window 514 false) 0 0,
   .regionControlWrite (.vdm 2) 0 0, .regionControlWrite (.window 514 false) 0 0, .procedureControlWrite (.vdm 2) 0 0,
   .procedureControlWrite (.window 514 false) 0 0, .missedBeatsDeclare 8192, .beat 8192 0 0 0, .beatAck 8192 0,
   .beatAck 0 (2 ^ 32), .join 8192 0 false, .join 0 8192 false, .view 8192 0 0 [] {} false false,
   .view 0 0 0 [8192] {} false false, .declare 8192 0 0 false, .fenceNotice (2 ^ 32), .timeReq 8192 0 0, .pbeat 5 0,
   .pbeat 0 (2 ^ 64), .pstate 0 0 4097 (List.replicate 4097 0), .pstate 0 0 0 [], .pstate 0 0 (2 ^ 32) [],
   .pstate 0 2 1 [], .relinquish (2 ^ 64), .claim (2 ^ 64), .chunk 0 1025 0 false false, .chunk 1 1 0 false false,
   .bitmap 8192 [], .vote 8192 false, .dictResp 8192 0 [], .handBackWrite (.vdm 2) 0,
   .handBackWrite (.window 514 false) 0, .expel (.vdm 2) 0, .expel (.window 514 false) 0, .readmit (.vdm 2) 0,
   .readmit (.window 514 false) 0, .configuredMasterWrite (.vdm 2) 0, .configuredMasterWrite (.window 514 false) 0,
   .firmwareDistributionStart (.vdm 2) 0 0, .firmwareDistributionStart (.window 514 false) 0 0,
   .dictRead (.vdm 2) 0 0 0 0 0, .dictRead (.window 514 false) 0 0 0 0 0, .dictInfo (.vdm 2) 0 0 0,
   .dictInfo (.window 514 false) 0 0 0] : List Instr).all (fun i => !i.wf) = true := by decide +kernel
theorem test_illFormed4 : ([.objectWrite (.vdm 2) 0 0 0 0 0, .objectWrite (.window 514 false) 0 0 0 0 0, .dictLatchExpiry (.vdm 2),
   .dictLatchExpiry (.window 514 false), .remoteDictSubmit (.vdm 2) 0, .remoteDictSubmit (.window 514 false) 0,
   .mctpControlMessage (.window 512 false) 0 0, .mctpControlMessage .fabric 0 0, .mctpControlMessage (.vdm 2) 0 0,
   .mctpControlMessage .i3c 256 0, .mctpControlMessage .i3c 0 256, .holderClaim (.vdm 2) 0xA001 1 0,
   .holderClaim (.window 514 false) 0xA001 1 0, .holderClaim .i3c 0xA001 9 0, .holderRelease (.vdm 2) 0xA001 1,
   .holderRelease (.window 514 false) 0xA001 1, .holderRelease .i3c 0xA001 9, .holderTakeAway (.vdm 2) 0xA001 1 0,
   .holderTakeAway (.window 514 false) 0xA001 1 0, .holderTakeAway .i3c 0xA001 9 0, .watchdogArm (.vdm 2) 0 0,
   .watchdogArm (.window 514 false) 0 0, .watchdogKick (.vdm 2) 0, .watchdogKick (.window 514 false) 0,
   .watchdogExpiry 4, .gpioControlWrite (.vdm 2) 0 0, .gpioControlWrite (.window 514 false) 0 0,
   .ledgerRead (.vdm 2) 0 0 0, .ledgerRead (.window 514 false) 0 0 0, .unitFence (24 * 1024), .unitFence (20 * 1024),
   .pcieLinkDown 2, .hotReset 2, .perstAssert 2, .vfFlr 512, .pfFlr 2, .d3hotToD0 514, .vfEnableClear 2,
   .msixUnmask 514 0, .msixUnmask 0 (vectorsOf 0), .noticeClear (.vdm 2) 0 0, .noticeClear (.window 514 false) 0 0,
   .correctableLinkError 2, .poisonedWrite 514 0, .poisonedWrite 0 3, .hostReadCompletionError 2 false 0,
   .fatalLinkError 2, .getVersion 5, .getCapabilities 5, .negotiateAlgorithms 5 false, .getDigests 5,
   .getCertificate 5 0 0 0, .challenge 5 0, .getMeasurements 5 0 false, .keyExchange 5, .finish 5 0 false,
   .endSession 5 0, .heartbeat 5 0, .keyUpdate 5 0, .chunkSend 5 false 0] : List Instr).all (fun i => !i.wf) = true := by decide +kernel
theorem test_illFormed5 : ([.chunkGet 5 0, .vendorDefinedRequest 5 0 0 0 0, .lockInterface 0 5 0 0, .svnCommit (.vdm 2),
   .svnCommit (.window 514 false), .unlockNonceRead (.vdm 2), .unlockNonceRead (.window 514 false),
   .unlockTokenWrite (.vdm 2) ⟨0, 0, 0, 0, true, true⟩, .unlockTokenWrite (.window 514 false) ⟨0, 0, 0, 0, true, true⟩,
   .timingModeWrite (.vdm 2) 0, .timingModeWrite (.window 514 false) 0, .resetRequestWarm (.vdm 2),
   .resetRequestWarm (.window 514 false), .resetRequestCold (.vdm 2), .resetRequestCold (.window 514 false),
   .coldPriming { imageCheck := 6 }, .coldPriming { imageSvn := 65 }, .warmPriming { imageCheck := 6 },
   .warmPriming { imageSvn := 65 }, .railUndervoltage 8, .fronthaulLaneDown 16, .fronthaulLaneTrained 16,
   .pcieLinkUp 2 1 1, .pcieLinkUp 0 0 1, .pcieLinkUp 0 6 1, .pcieLinkUp 0 1 0, .pcieLinkUp 0 1 17, .perstDeassert 2,
   .d3hotEntry 514, .numvfsWrite 2 0 false, .numvfsWrite 0 257 false] : List Instr).all (fun i => !i.wf) = true := by decide +kernel
theorem test_wellFormed1 : ([.gutterStart 0, .preludeStart 0, .radioIntervalEnd 0, .engineOffer 0, .swapArmAtFrame .i3c, .swapArmTakeover .i3c,
   .swapDisarm .i3c, .cellEntersCalendar 0, .cellLeavesCalendar 0, .latenessReport 0 0 [],
   .windowWordWrite 0 0 0 0 0 false, .recordConsume 0, .creditWrite 0 0 0 false, .moderationDelayExpiry 0,
   .contextOpen .i3c 0 0, .contextClose .i3c 0 0, .memoryReadArrival 0 [], .floatRangeWrite .i3c 0 0 0,
   .landingZoneSizeWrite .i3c 0 0, .nop 0, .halt 0, .br 0, .loop 0, .loopx 0, .brk 0, .movi 0, .mov 0, .aluAdd 0,
   .aluSub 0, .aluAnd 0, .aluOr 0, .aluXor 0, .aluShl 0, .aluShrArithmetic 0, .aluShrLogical 0, .aluCmp 0, .cadd 0,
   .csub 0, .conj 0, .swapIq 0, .cneg 0, .ld 0, .st 0, .ldx 0, .ldxDataArrival 0 0, .stx 0, .ldf 0, .ldfReply 0 0 0 [],
   .ldfWaitExpiry 0 0, .cmac 0, .cmac4 0, .cmac4m 0, .ftap 0, .clra 0, .sta 0, .sta4 0, .rda 0, .cellActivate .i3c 0,
   .cellDeactivate .i3c 0, .crbWrite .i3c 0] : List Instr).all (fun i => i.wf) = true := by decide +kernel
theorem test_wellFormed2 : ([.cellRecordUpdate 0, .standbyCellWrite .i3c 0 0, .groupModeWrite .i3c 0 0, .uplaneSectionReceive 0 {},
   .cplaneReceive 0, .ecpriDelayRequestReceive 0 0 0, .ecpriDelayResponseReceive 0 0 0 0 0 0, .ptpReceive 0 {},
   .esmcReceive 0 0, .stagingExpiry 0, .frameDepart 0 0, .syncTransmit 0, .phaseMeasurement 0 0,
   .referenceLossTimeout 0, .servoRearm .i3c 0, .crossSnapshot .i3c, .grantCreate .i3c 0, .grantDestroy .i3c 0,
   .grantComponentWrite .i3c 0 0 0, .functionResetRequest .i3c 0, .functionResetEnd 0, .retireAckTimeout 0,
   .radioOwnerWrite .i3c 0, .coreRelease .i3c 0 0, .preemptRequest .i3c 0, .claimPreemption 0, .saveStart 0,
   .saveDone 0, .restoreDone 0, .powerLimitWrite .i3c 0, .refreshRun 0, .refreshOwedTick 0, .gddr7Scrub 0 [] false,
   .fabricLaneDown 0, .fabricLaneTrained 0 false, .laneBlockReceive 0 .clean 0 0 [] [], .laneRoleWrite .i3c 0 0,
   .sessionKeying 0 false, .resendTimeout 0 0 0, .endpointControlWrite .i3c 0 0, .regionControlWrite .i3c 0 0,
   .procedureControlWrite .i3c 0 0, .missedBeatsDeclare 0, .beat 0 0 0 0, .beatAck 0 0, .join 0 0 false,
   .view 0 0 0 [] {} false false, .declare 0 0 0 false, .fenceNotice 0, .timeReq 0 0 0, .pbeat 0 0, .pstate 0 0 1 [],
   .relinquish 0, .claim 0, .chunk 0 1 0 false false, .bitmap 0 [], .vote 0 false, .dictResp 0 0 [],
   .handBackWrite .i3c 0, .expel .i3c 0] : List Instr).all (fun i => i.wf) = true := by decide +kernel
theorem test_wellFormed3 : ([.readmit .i3c 0, .configuredMasterWrite .i3c 0, .firmwareDistributionStart .i3c 0 0, .dictRead .i3c 0 0 0 0 0,
   .dictInfo .i3c 0 0 0, .objectWrite .i3c 0 0 0 0 0, .dictLatchExpiry .i3c, .remoteDictSubmit .i3c 0,
   .mctpControlMessage .i3c 0 0, .holderClaim .i3c 0xA001 1 0, .holderRelease .i3c 0xA001 1,
   .holderTakeAway .i3c 0xA001 1 0, .watchdogArm .i3c 0 0, .watchdogKick .i3c 0, .watchdogExpiry 0,
   .gpioControlWrite .i3c 0 0, .ledgerRead .i3c 0 0 0, .unitFence 0, .pcieLinkDown 0, .hotReset 0, .perstAssert 0,
   .vfFlr 0, .pfFlr 0, .d3hotToD0 0, .vfEnableClear 0, .msixUnmask 0 0, .noticeClear .i3c 0 0, .correctableLinkError 0,
   .poisonedWrite 0 0, .hostReadCompletionError 0 false 0, .fatalLinkError 0, .getVersion 0, .getCapabilities 0,
   .negotiateAlgorithms 0 false, .getDigests 0, .getCertificate 0 0 0 0, .challenge 0 0, .getMeasurements 0 0 false,
   .keyExchange 0, .finish 0 0 false, .endSession 0 0, .heartbeat 0 0, .keyUpdate 0 0, .chunkSend 0 false 0,
   .chunkGet 0 0, .vendorDefinedRequest 0 0 0 0 0, .lockInterface 0 0 0 0, .svnCommit .i3c, .unlockNonceRead .i3c,
   .unlockTokenWrite .i3c ⟨0, 0, 0, 0, true, true⟩, .timingModeWrite .i3c 0, .resetRequestWarm .i3c,
   .resetRequestCold .i3c, .coldPriming {}, .warmPriming {}, .railUndervoltage 0, .fronthaulLaneDown 0,
   .fronthaulLaneTrained 0, .pcieLinkUp 0 1 1, .perstDeassert 0] : List Instr).all (fun i => i.wf) = true := by decide +kernel
theorem test_wellFormed4 : ([.d3hotEntry 0, .numvfsWrite 0 0 false] : List Instr).all (fun i => i.wf) = true := by decide +kernel
/-! ### Small states, and the hypotheses of the statements as tests -/

/-- A device that is up, just primed. -/
def up : State := State.reset.setG 0x7000 1 5
/-- Function 3 is live, with windows open on port 0; it owns core 5 and floats 0 to 63. -/
def dev : State :=
  ((((up.setPort 0 { perst := false, vfEnable := true, numVfs := 256, ptm := true }).setO 3 0x3000 1 1).setG 0x3060 6 3).setO 3 0x3040 2 64).setFn 3
    { granted := List.replicate 11 0 }
/-- A manager's window and a function's. -/
def mgr : Path := .window 512 false
def win : Path := .window 3 false

/-- The outcome of a chain of checks that passed. -/
def okB {ε α : Type} : Except ε α → Bool
  | .ok _ => true
  | .error _ => false
theorem okB_sound {ε α : Type} (e : Except ε α) (h : okB e = true) : ∃ a, e = .ok a := by
  cases e with
  | ok a => exact ⟨a, rfl⟩
  | error _ => simp [okB] at h
theorem okB_unit {ε : Type} (e : Except ε Unit) (h : okB e = true) : e = .ok () := by
  obtain ⟨a, h⟩ := okB_sound e h; exact h
/-- The status of a check that failed, 0 of one that passed. -/
def errS {α : Type} : Except Refused α → Nat
  | .ok _ => 0
  | .error e => e.status
theorem errS_sound {α : Type} (e : Except Refused α) (h : errS e ≠ 0) : ∃ r, e = .error r ∧ r.status = errS e := by
  cases e with
  | ok _ => exact absurd rfl h
  | error r => exact ⟨r, rfl, rfl⟩
/-- The next state of an outcome passes a test. -/
def nextB (o : Host.Outcome State Fault Refusal) (p : State → Bool := fun _ => true) : Bool :=
  match o with
  | .next t => p t
  | _ => false
theorem nextB_sound (o : Host.Outcome State Fault Refusal) (h : nextB o = true) : ∃ t, o = .next t := by
  cases o with
  | next t => exact ⟨t, rfl⟩
  | _ => simp [nextB] at h

/-- The row of a write that is let through. -/
def letsRow (s : State) (path : Path) (sel index sub : Nat) (length : Option Nat) (value : Nat) : Option ObjRow :=
  if s.powered && (s.gate path).isNone then
    match s.checkWrite path sel index sub length value with
    | .ok r => some r
    | .error _ => none
  else none
def lets (s : State) (path : Path) (sel index sub : Nat) (length : Option Nat) (value : Nat) : Bool :=
  (letsRow s path sel index sub length value).isSome
theorem letsRow_sound {s : State} {path : Path} {sel index sub value : Nat} {length : Option Nat} {r : ObjRow}
    (h : letsRow s path sel index sub length value = some r) : s.LetsWrite path sel index sub length value r := by
  unfold letsRow at h
  split at h
  · rename_i hg
    simp only [Bool.and_eq_true, Option.isNone_iff_eq_none] at hg
    split at h
    · rename_i hc; cases h; exact ⟨hg.1, hg.2, hc⟩
    · cases h
  · cases h
theorem lets_sound {s : State} {path : Path} {sel index sub value : Nat} {length : Option Nat}
    (h : lets s path sel index sub length value = true) : ∃ r, s.LetsWrite path sel index sub length value r := by
  obtain ⟨r, hr⟩ := Option.isSome_iff_exists.1 h
  exact ⟨r, letsRow_sound hr⟩

/-- The hypotheses that a command is due, starts free, or issues, as tests; a command under test is the newest. -/
def due (s : State) (c : Cmd) : Bool := decide (s.cmd? c.id = some c) && s.up && decide (c.phase = .running) && !c.did
theorem due_sound {s : State} {c : Cmd} (h : due s c = true) : s.Due c.id c := by
  simp only [due, Bool.and_eq_true, decide_eq_true_eq, Bool.not_eq_true'] at h
  exact ⟨h.1.1.1, h.1.1.2, h.1.2, h.2⟩
def starts (s : State) (c : Cmd) : Bool :=
  decide (s.cmd? c.id = some c) && s.canStart c && (s.modeOf c != 0 || s.energyFits c.fn c.due)
theorem starts_sound {s : State} {c : Cmd} (h : starts s c = true) : s.StartsFree c.id c := by
  simp only [starts, Bool.and_eq_true, decide_eq_true_eq, Bool.or_eq_true, bne_iff_ne] at h
  exact ⟨h.1.1, h.1.2, h.2⟩
def issues (s : State) (cc t : Nat) (i : CcInstr) : Bool :=
  decide (cc < 32) && s.up && (s.ccJob cc).isSome && decide ((s.chan cc).pick = some t) && decide (decodeCc (s.ccWord cc t) = some i)
theorem issues_sound {s : State} {cc t : Nat} {i : CcInstr} (h : issues s cc t i = true) :
    s.Issues cc t ((s.chan cc).thread t) i := by
  simp only [issues, Bool.and_eq_true, decide_eq_true_eq] at h
  exact ⟨h.1.1.1.1, h.1.1.1.2, h.1.1.2, h.1.2, rfl, h.2⟩
def receives (s : State) (p : Packet) : Bool :=
  s.up && !s.domain.declared.contains p.src && isFn p.dstFn && s.present p.dstFn && (s.endpointOf p.dstFn p.src p.srcFn).isSome &&
    decide ((s.stream (packetKey p)).expect = p.seq) && !s.resetting p.dstFn
theorem receives_sound {s : State} {p : Packet} (h : receives s p = true) : s.Receives p := by
  simp only [receives, Bool.and_eq_true, decide_eq_true_eq, Bool.not_eq_true'] at h
  exact ⟨h.1.1.1.1.1.1, h.1.1.1.1.1.2, h.1.1.1.1.2, h.1.1.1.2, h.1.1.2, h.1.2, h.2⟩

/-- A record with some words, as command 7 of context 1 of function 3. -/
def cmd (ws : List (Nat × Nat)) (ph : Phase := .queued) (engines : List Nat := []) : Cmd :=
  { id := 7, fn := 3, ctx := 1, words := (List.range 16).map (fun i => BitVec.ofNat 32 (SMap.get (fun _ => 0) ws i)),
    phase := ph, engines := engines }
/-- Context 1 of function 3 on core 5, with one job. -/
def ctx1 (mode : Nat := 0) (st : CtxState := .idle) : Ctx :=
  { fn := 3, mode := mode, home := 5, st := st, jobs := [{ num := 0 }], nextJob := 1 }
/-- The device with that command. -/
def withCmd (c : Cmd) (x : Ctx := ctx1) (s : State := dev) : State := { s with cmds := [c], ctxs := [(1, x)] }
/-- The vector engine of core 5, whose calendar gives granules 100 to 199 of a page to intervals of a kind. -/
def vec5 : Nat := calId 1 5
def page (kind : Nat) : PageImg :=
  let e (start len kind w1 : Nat) : W32 × W32 := (BitVec.ofNat 32 (start + len * 2 ^ 16 + kind * 2 ^ 28), BitVec.ofNat 32 w1)
  { loaded := true, patterns := 2, entryCnt := 3, map := [(mapPos vec5, 1)], dir := [0, BitVec.ofNat 32 (3 * 2 ^ 16)],
    entries := [e 99 1 3 0, e 100 100 kind (if kind = 1 then 2 ^ 31 else 1), e 200 1 3 0] }
def paged (kind granule extra : Nat) (s : State) : State :=
  { s with cal := { s.cal with active := page kind }, cycle := granule * 450 + extra }
/-- A vector command that adds two immediates, 2 and 3, into byte 64 of core 5's well. -/
def addWords (op : Nat := 1) : List (Nat × Nat) :=
  [(0, 1), (1, vec5), (2, 100), (4, op + 7 * 2 ^ 10 + 7 * 2 ^ 15 + 7 * 2 ^ 20 + 2 ^ 25 + 2 ^ 27), (5, 1), (6, 1), (10, 64), (12, 2), (13, 3)]

/-- Function 3 with eight pages of GDDR7, and bytes at its start. -/
def big (ws : List (Nat × Nat)) : State :=
  let s := dev.modFn 3 (fun x => { x with gpages := List.range 8 })
  s.wrN 0 (wordsToBytes ((List.range 16).map (fun i => BitVec.ofNat 32 (SMap.get (fun _ => 0) ws i))))
/-- Words i and i + 1 that hold an address in those pages. -/
def gd (i off : Nat) : List (Nat × Nat) := [(i, off), (i + 1, 2 ^ 29)]

/-! ### Statements on the machine and the object dictionary -/

/-- Stored contents in canonical form, and a step from there. -/
def some' : State := ((up.wr 100 7).setFloat 9 5).setG 0x2001 5 3
theorem witness_canonical : some'.Canonical ∧ ∃ t, step some' = .next t :=
  ⟨⟨by decide +kernel, by decide +kernel, by decide +kernel⟩, nextB_sound _ (by decide +kernel)⟩
/-- States with an empty queue, up and not up; a waiting queue of well-formed commands. -/
theorem witness_queues :
    (up.up = true) ∧
    (State.reset.up = false) ∧
    (up.pending = []) ∧
    ((up.push (.beat 8191 0 0 0)).queueWf = true) ∧
    ((Instr.beat 8191 0 0 0).wf = true) ∧
    (nextB (exec (.beat 8191 0 0 0) up) = true) := by decide +kernel

/-- Objects of the first and the last index, and of the last subindex of an array. -/
theorem witness_defaults :
    ((Dict.find 1023 0x1000 1).isSome) ∧
    ((Dict.find 1023 0xF000 5).isSome) ∧
    ((Dict.find 511 0x1120 1).isSome) ∧
    ((Dict.find 1023 0xA008 8).isSome) := by decide +kernel

/-- ObjectWritesTakeEffectOrChangeNothing: a write with an effect, a stored one, one that a check turns away. -/
theorem witness_objectWrites :
    (lets dev win 3 0x3010 4 (some 2) 9 ∧ okB (writeRule win 3 0x3010 4 9 ((letsRow dev win 3 0x3010 4 (some 2) 9).getD (countRow 0)) dev)) ∧
    ((letsRow dev mgr 1023 0x4800 4 (some 4) 2000).any (·.stored)) ∧
    (errS (dev.checkWrite win 1023 0x4800 4 (some 4) 2000) = Status.accessDenied ∧ dev.gate win = none ∧ dev.powered = true) := by decide +kernel

/-- MissingObjectIsAddressInvalid: each way in which an object is missing. -/
theorem witness_missingObject :
    (dev.gate mgr = none ∧ dev.up) ∧
    (Dict.maxSub 1023 0xFFFF = 0) ∧
    (Dict.find 1023 0x7000 255 = none) ∧
    (dev.present 4 = false) ∧
    (((Dict.find 3 0x4000 1).any (fun r => decide (r.owner = .radio)))) ∧
    (dev.radioOwner ≠ 3) ∧
    ((Dict.find 1023 0x7000 1).isSome) := by decide +kernel

/-- RolesReachTheirSelectors: a manager at the other port's function and at the other manager, a function's window at its own
selector and at the device's, with a right and without, at another selector, a closed VDM path, and the objects that open it. -/
theorem witness_roles :
    (isMgr 513 = true ∧ mgrOf 3 ≠ 513 ∧ mgrOf 512 ≠ 513) ∧
    (dev.gate (.window 513 false) = none ∧ dev.gate win = none) ∧
    (((dev.reach (.window 513 false) 3 0x2010 1).any (fun r => fld r.acc 2 1 = 1))) ∧
    (((dev.reach (.window 513 false) 512 0x3040 1).any (fun r => fld r.acc 2 1 = 1))) ∧
    (((dev.reach win 3 0x2010 2).any (fun r => fld r.acc 5 1 = 0 && fld r.acc 4 1 = 1))) ∧
    (((dev.reach win 1023 0xA00B 4).any (fun r => fld r.acc 4 1 = 0))) ∧
    (State.reset.powered ∧ State.reset.g 0x1100 3 = 0) ∧
    (lets dev .i3c 1023 0x1100 2 (some 1) 1) ∧
    (lets dev .i3c 1023 0x1100 3 (some 1) 1) := by decide +kernel

/-- StoredWriteCommits: a stored write waits for the flash. -/
theorem witness_storedWriteCommits :
    (dev.powered ∧ (dev.queueStored mgr 1023 0x4800 4 2000).sec.flashQ = [(mgr, objKey 1023 0x4800 4, 2000)]) := by decide +kernel

/-- ReadsAnswer: a read, a read at an offset served from its latch, INFO, and latches of each age. -/
theorem witness_reads :
    (dev.powered ∧ dev.gate win = none ∧ dev.up) ∧
    (okB (dev.checkRead win 1023 0x2400 2)) ∧
    ((({ dev with latches := [(win, objKey 1023 0x2400 2, 0, List.replicate 8 1)] } : State).latches.find?
        (fun l => l.1 == requester win && l.2.1 == objKey 1023 0x2400 2)).isSome) ∧
    ((dev.reach win 1023 0x2400 2).isSome) := by decide +kernel

/-- HoldersChangeHands: a free resource, one held by the writer, one held by another, with and without the right to take it away. -/
theorem witness_holders :
    (holderAt 0xA002 16 ∧ lets dev win 1023 0xA002 16 none 3 ∧ isFn 3 ∧ dev.g 0xA002 16 = none16 ∧ mayClaim win 0xA002 3) ∧
    (lets dev mgr 1023 0xA001 1 none 513 ∧ dev.g 0xA001 1 = none16 ∧ mayClaim mgr 0xA001 513) ∧
    (lets (dev.setG 0xA002 1 3) win 1023 0xA002 1 none none16 ∧ actsFor win 3 ∧ (dev.setG 0xA002 1 3).g 0xA002 1 = 3) ∧
    (lets (dev.setG 0xA002 1 3) mgr 1023 0xA002 1 none 4 ∧ mayTake mgr 0xA002 3 ∧ (dev.setG 0xA002 1 3).takeable 0xA002 3) ∧
    (lets (dev.setG 0xA002 1 3) mgr 1023 0xA002 1 none none16) ∧
    (lets (dev.setG 0xA002 1 4) win 1023 0xA002 1 none 3 ∧ (mayTake win 0xA002 4) = false) ∧
    (lets (dev.setG 0xA002 1 3) win 1023 0xA002 1 none 3) := by decide +kernel

/-- SettingsBelongToTheHolder: each setting by its holder and by another, at the first and the last pin and timer, an action that
only a manager may set, a kick inside its window, and a window that is over. -/
theorem witness_settings :
    (lets (dev.setG 0xA008 8 512) mgr 1023 0xA00C 8 none 3 ∧ pathWriter mgr = some ((dev.setG 0xA008 8 512).g 0xA008 8)) ∧
    (lets dev mgr 1023 0xA00C 1 none 0 ∧ pathWriter mgr ≠ some (dev.g 0xA008 1)) ∧
    (lets (dev.setG 0xA009 4 3) win 1023 0xA00A 4 none 60000 ∧ (dev.setG 0xA009 4 3).g 0xA009 4 = 3 ∧ pathWriter win = some 3) ∧
    (lets (dev.setG 0xA009 1 512) mgr 1023 0xA00A 1 none (2 * 2 ^ 16) ∧ (dev.setG 0xA009 1 512).g 0xA009 1 = 512) ∧
    (lets (dev.setG 0xA009 4 3) win 1023 0xA00A 4 none (2 * 2 ^ 16 + 1) ∧ isMgr 3 = false) ∧
    (lets (dev.setG 0xA009 1 4) win 1023 0xA00A 1 none 5 ∧ lets (dev.setG 0xA009 1 4) win 1023 0xA00B 1 none 1) ∧
    (lets ((dev.setG 0xA009 4 3).setG 0xA00A 4 5) win 1023 0xA00B 4 none 1 ∧
      ((dev.setG 0xA009 4 3).setG 0xA00A 4 5).tb2us < ((dev.setG 0xA009 4 3).setG 0xA00A 4 5).windowEnd 4) ∧
    (let s : State := { dev.setG 0xA00A 4 5 with tb := [0, 0, nanos 5000000, 0] };
      s.up ∧ fld (s.g 0xA00A 4) 0 16 ≠ 0 ∧ s.windowEnd 4 = s.tb2us) ∧
    (let s : State := { (dev.setG 0xA00A 1 (2 * 2 ^ 16 + 5)).setG 0xA009 1 513 with tb := [0, 0, nanos 5000001, 0] };
      s.up ∧ fld (s.g 0xA00A 1) 16 2 = 2 ∧ s.windowEnd 1 ≤ s.tb2us) := by decide +kernel

/-- A master of devices 1 and 2, and a member under master 1. -/
def master : State := { (dev.setG 0x5000 1 1).setG 0x5010 4 4 with domain := { members := [1, 2] } }
def member : State := { ((dev.setG 0x5000 1 2).setG 0x5010 4 2).setG 0x5010 6 1 with domain := { members := [1, 2] } }
/-- RemoteAccessRuns: a submission, a repeat, a time-out at its instant, a request that is new and one that is known, an answer. -/
theorem witness_remote :
    (lets (master.setG 0x1104 1 2) mgr 1023 0x1104 2 none 0x1000) ∧
    ((master.setG 0x1104 1 2).isMaster ∧ master.domain.remote = none ∧ (master.setG 0x1104 1 2).g 0x1104 1 ≠ (master.setG 0x1104 1 2).self ∧ master.inView 2) ∧
    (let s : State := { master with domain := { master.domain with remote := some (2, 7) }, tb := [0, 0, nanos 20000000, 0] };
      s.up ∧ s.domain.remote.isSome ∧ s.domain.remoteTry = false ∧ s.domain.remoteSent + 20000 = s.tb2us) ∧
    (let s : State := { master with domain := { master.domain with remote := some (2, 7) }, tb := [0, 0, nanos 100000000, 0] };
      s.up ∧ s.domain.remoteSent + 100000 = s.tb2us) ∧
    (member.up ∧ member.isMember ∧ member.domain.applying = none ∧ member.domain.kept = none) ∧
    (reqTag (5 * 2 ^ 48) = reqTag (5 * 2 ^ 48 + 1)) := by decide +kernel

/-- HealthAndControlMessages: the score is due at 100 ms of TB2. -/
theorem witness_health :
    (({ dev with tb := [0, 0, nanos 100000000, 0] } : State).healthAt + 100000 = ({ dev with tb := [0, 0, nanos 100000000, 0] } : State).tb2us) ∧
    (State.reset.powered ∧ dev.up) := by decide +kernel

/-! ### Statements on the calendar and the cells -/

/-- A page whose swap is armed for frame f, and one whose frame has come. -/
def armed (f : Nat) : State := (dev.setG 0x2401 3 3).setG 0x2401 1 f
/-- Function 3 owns the radio; cell 1,023 is pending, active, deactivating. -/
def radio (v : Nat) : State := { (dev.setG 0xA005 1 3).setO 3 0x47FF 1 v with cellsAt := [(1023, 0)], tb0Ready := true }
/-- The device at a core cycle, with a millisecond of TB0 that has had no tick; with a seam that waits for a step. -/
def ticked (cycle : Nat) (wait : Bool := false) : State :=
  { dev with tb := [nanos 1000000, 0, 0, 0], cycle := cycle, cal := { dev.cal with stepSeam := wait } }
/-- The same with no tick to come. -/
def tickless (cycle : Nat) (wait : Bool := false) : State := { dev with cycle := cycle, cal := { dev.cal with stepSeam := wait } }
/-- FrameTickStartsAFrame: the first and the last core cycle of a legal seam and the cycles beside them, without and with a step;
before the seam. -/
theorem witness_frameTick :
    ((ticked 0).up ∧ (ticked 0).time 0 / 2 ^ 16 / 1000000 = 1 ∧ (ticked 0).cal.lastTick = 0) ∧
    (nextB (exec (.frameTick 2 225 []) (ticked (1799550 + 225))) (fun t => t.frame == 0) ∧ nextB (exec (.frameTick 1 226 []) (ticked (1799550 + 225))) (fun t => t.frame == 0)) ∧
    (nextB (exec (.frameTick 1 225 []) (ticked (1799550 + 225))) (fun t => t.frame == 1 && t.cycle == 0 && t.g 0x2406 3 == 225)) ∧
    (nextB (exec (.frameTick 1 674 []) (ticked (1799550 + 674))) (fun t => t.frame == 1 && t.g 0x2406 3 == 674)) ∧
    (nextB (exec (.frameTick 1 224 []) (ticked (1799550 + 224))) (fun t => t.frame == 0 && t.cycle == 1799550 + 224)) ∧
    (nextB (exec (.frameTick 1 675 []) (ticked (1799550 + 675))) (fun t => t.frame == 0 && t.cycle == 1799550 + 675)) ∧
    (nextB (exec (.frameTick 1 0 []) (ticked 1799549)) (fun t => t.frame == 0) ∧ nextB (exec (.frameTick 1 0 []) (ticked 1799549 true)) (fun t => t.frame == 0)) ∧
    (nextB (exec (.frameTick 1 0 []) (ticked 1799550 true)) (fun t => t.frame == 1 && t.g 0x2406 3 == 0)) ∧
    (nextB (exec (.frameTick 1 1800449 []) (ticked (1799550 + 1800449) true)) (fun t => t.frame == 1)) ∧
    (nextB (exec (.frameTick 1 1800450 []) (ticked (1799550 + 1800450) true)) (fun t => t.frame == 0)) := by decide +kernel

/-- SwapsAreArmedAndValidated: the seam begins, a swap is armed, refused while one is armed, disarmed and held; a validation that
passes and one that fails; a takeover boundary. -/
theorem witness_swaps :
    ((tickless 0).up ∧ (tickless 0).time 0 / 2 ^ 16 / 1000000 = (tickless 0).cal.lastTick) ∧
    (nextB (exec .seamTimeout (tickless (1799550 + 449))) (fun t => t.frame == 0) ∧ nextB (exec .seamTimeout (tickless 1799549)) (fun t => t.frame == 0)) ∧
    (nextB (exec .seamTimeout (tickless (1799550 + 450))) (fun t => t.frame == 1 && t.cycle == 0 && t.cal.freeRun && t.g 0x2406 1 == 1)) ∧
    (nextB (exec .seamTimeout (tickless (1799550 + 674))) (fun t => t.frame == 0) ∧ nextB (exec .seamTimeout (tickless (1799550 + 675))) (fun t => t.frame == 1)) ∧
    (nextB (exec .seamTimeout (tickless (1799550 + 1800449) true)) (fun t => t.frame == 0)) ∧
    (nextB (exec .seamTimeout (tickless (1799550 + 1800450) true)) (fun t => t.frame == 1)) ∧
    (lets dev mgr 1023 0x2401 2 none 1 ∧ dev.g 0x2401 3 = 0 ∧ lets dev mgr 1023 0x2401 2 none 2) ∧
    (lets (dev.setG 0x2401 3 5) mgr 1023 0x2401 2 none 1 ∧ lets (dev.setG 0x2401 3 5) mgr 1023 0x2401 2 none 2) ∧
    (lets (armed 5) mgr 1023 0x2401 2 none 1 ∧ lets (armed 5) mgr 1023 0x2401 2 none 2 ∧ (armed 5).g 0x2401 3 = 3) ∧
    (lets (armed 5) mgr 1023 0x2401 2 none 0 ∧ (armed 5).swapDue = false ∧ lets (armed 0) mgr 1023 0x2401 2 none 0 ∧ (armed 0).swapDue = true) ∧
    (lets (dev.setG 0x2401 3 4) mgr 1023 0x2401 2 none 0 ∧ dev.cal.takeoverAt = none) ∧
    (({ dev.setG 0x2401 3 4 with cal := { dev.cal with takeoverAt := some 9 } } : State).cal.takeoverAt.isSome) ∧
    (let s : State := { (dev.setG 0x2401 3 2).setG 0x2401 1 2 with cal := { dev.cal with validating := 1 } };
      s.up ∧ s.g 0x2401 3 = 2 ∧ s.validate s.cal.validating = none) ∧
    (let s : State := { (dev.setG 0x2401 3 2).setG 0x2401 1 1 with cal := { dev.cal with validating := 1 } };
      s.up ∧ s.g 0x2401 3 = 2 ∧ (s.validate s.cal.validating).isSome) ∧
    (let s : State := { dev.setG 0x2401 3 4 with cal := { dev.cal with takeoverAt := some 0 } };
      s.cal.takeoverAt = some 0 ∧ s.up ∧ s.cycle = 0 ∧ 0 ≤ s.frame ∧ s.g 0x2401 3 = 4) := by decide +kernel

/-- PageSwapExchangesThePages: the frame named has come. -/
theorem witness_pageSwap :
    ((armed 0).up ∧ (armed 0).g 0x2401 3 = 3 ∧ (armed 0).cycle = 0 ∧ (armed 0).g 0x2401 1 = (armed 0).frame) := by decide +kernel

/-- CellsComeAndGo: the last cell in each state, a standby cell withdrawn, a record base of zero and one in the owner's memory, an
update and a group mode. -/
theorem witness_cells :
    (lets (radio 1) win 3 0x47FF 1 none 0 ∧ (radio 1).cellState 1023 = 1 ∧ (radio 1).radioSel = 3) ∧
    (lets (radio 2) win 3 0x47FF 1 none 0 ∧ (radio 2).cellState 1023 = 2) ∧
    (lets (radio 0) win 3 0x47FF 0x30 none 0) ∧
    ((radio 1).up ∧ (1023, 0) ∈ (radio 1).cellsAt ∧ 0 ≤ (radio 1).frame) ∧
    ((radio 3).up ∧ (radio 3).cellState 1023 = 3) ∧
    (lets (radio 0) win 3 0x4000 1 none 0 ∧ (radio 0).liveCells = []) ∧
    (let s := (radio 0).modFn 3 (fun x => { x with gpages := [4095] });
      lets s win 3 0x4000 1 none (2 ^ 61) ∧ (devAddr (2 ^ 61)).bad = false ∧ (devAddr (2 ^ 61)).isMem ∧ s.addrOk s.radioSel (devAddr (2 ^ 61)) 65536) ∧
    (((radio 0).setO 3 0x4000 1 65536).up ∧ ((radio 0).setO 3 0x4000 1 65536).crb ≠ 0) ∧
    (lets dev mgr 1023 0x4200 4 none 1 ∧ (dev.cellsIn (fun st => st == 1 || st == 2)).any (fun c => dev.cellPort c / 4 == 3) = false) := by decide +kernel

/-- A page in which the first calendar of each class has a radio interval of 200 granules in each radio period. -/
def wide : PageImg :=
  { loaded := true, patterns := 2, entryCnt := 8, map := (List.range 22).map (fun k => (mapPos (calId k 0), 1)),
    dir := [0, BitVec.ofNat 32 (8 * 2 ^ 16)],
    entries := (List.range 8).map (fun k => (BitVec.ofNat 32 (500 * k + 200 + 200 * 2 ^ 16 + 2 ^ 28), 0)) }
def roomy (v : Nat) : State := { ((radio v).setO 3 0x4000 1 65536).setG 0x2000 2 100000 with cal := { active := wide, shadow := wide } }
/-- CellsComeAndGo: a cell that both pages bear and one that they cannot bear; a standby cell on the armed takeover page. -/
theorem witness_cellAdmitted :
    (let s := roomy 0; lets s win s.radioSel 0x47FF 1 none 1 ∧ s.cellState 1023 = 0 ∧ s.tb0Ready ∧ s.crb ≠ 0 ∧ s.costRow 1023 ≠ 0 ∧
      s.pagesSeen.all (fun p => s.budgetHolds p (1023 :: s.liveCells)) ∧ s.g 0x2001 1 + s.eAdm (s.costU 1023) + s.g 0x2001 4 ≤ s.eWinLow) ∧
    (let s : State := { roomy 0 with cal := {} }; lets s win s.radioSel 0x47FF 1 none 1 ∧ s.costRow 1023 ≠ 0 ∧
      s.pagesSeen.all (fun p => s.budgetHolds p (1023 :: s.liveCells)) = false) ∧
    (let s := (roomy 0).setG 0x2401 3 4; lets s win s.radioSel 0x47FF 0x30 none 1 ∧ s.standby.contains 1023 = false ∧ s.cellState 1023 = 0 ∧
      s.costRow 1023 ≠ 0 ∧ s.budgetHolds s.cal.shadow (1023 :: s.standby ++ s.liveCells) ∧
      s.g 0x2001 1 + s.eAdm (s.unitSum (1023 :: s.standby)) + s.g 0x2001 4 ≤ s.eWinLow) := by decide +kernel

/-! ### Statements on engines, windows, contexts, waits and markers -/

/-- Ring of function 3 enabled. -/
def ring : State := dev.setO 3 0x3010 3 1
/-- A slot filled by its sixteen words. -/
def filled : State := ring.setSlot 3 0 { st := .filled, words := (List.range 16).map (fun i => (i, BitVec.ofNat 32 i)) }
/-- CommandsStartOnEngines: a fill command on a free engine in a fill interval; a head that no gap fits, offered by another engine
that is busy; a radio and an exact one in an interval that holds them, one that fails a check, and one whose core another
function holds. -/
theorem witness_starts :
    (let c := cmd addWords; let s := withCmd c; calOk vec5 ∧ s.up ∧ (s.engine vec5).busy = none ∧ s.kindNow vec5 = 0 ∧
      s.headless c = false ∧ s.offersBefore vec5 = [c] ∧ s.isHead c ∧ s.isFenced vec5 = false ∧ s.fillFits c vec5 ∧
      s.firstFit c vec5 ∧ (s.giveCores c.fn (s.coresNeeded c vec5)).any (fun t => okB (t.checkStart c vec5) && t.canThread c) ∧ s.energyFits c.fn c.due) ∧
    (let c := { cmd addWords with words := (cmd addWords).words.set 2 (2 ^ 32 - 1) }; let s := (withCmd c).setEngine (calId 2 5) { busy := some 9 };
      calOk (calId 2 5) ∧ s.up ∧ s.cmds = [c] ∧ s.modeOf c = 0 ∧ s.isHead c ∧ s.resetting c.fn = false ∧ s.candidates c ≠ [] ∧
      (∀ e ∈ s.candidates c, s.gapFor c e < startup (calClass e) + s.fitW c e) ∧
      ((s.refuseStart c c.engine ⟨Status.noGapFits, 0⟩).engine (calId 2 5)).busy ≠ none) ∧
    (let c := cmd addWords; let s := paged 1 100 0 (withCmd c (ctx1 2)); s.cmd? 7 = some c ∧ s.up ∧ s.isHead c ∧ s.resetting 3 = false ∧
      engineClasses c.cls c.form ≠ [] ∧ s.isFenced c.engine = false ∧ s.modeOf c = 2 ∧ okB (s.checkStart c c.engine) ∧ okB ((s.meter c c.engine).checkStart c c.engine) ∧ s.reservedFits c c.engine ∧
      (s.meter c c.engine).canThread c) ∧
    (let c := cmd addWords; let s := paged 2 100 0 (withCmd c (ctx1 1)); s.cmd? 7 = some c ∧ s.isHead c ∧ s.modeOf c = 1 ∧
      s.reservedFits c c.engine ∧ (s.giveCores c.fn (s.coresNeeded c c.engine)).any (fun t => okB (t.checkStart c c.engine) && t.canThread c)) ∧
    (let c := cmd addWords; let s := (paged 2 100 0 (withCmd c (ctx1 1))).setG 0x3060 6 4; s.isHead c ∧ s.modeOf c = 1 ∧
      s.giveCores c.fn (s.coresNeeded c c.engine) = none) ∧
    (let c := cmd (addWords 0); let s := paged 2 100 0 (withCmd c (ctx1 1)); s.isHead c ∧ s.modeOf c = 1 ∧ s.reservedFits c c.engine ∧
      (s.giveCores c.fn (s.coresNeeded c c.engine)).any (fun t => errS (t.checkStart c c.engine) == Status.operationUnsupported)) ∧
    (let c := cmd (addWords 0); (withCmd c (ctx1 1)).isHead c ∧ (withCmd c (ctx1 1)).modeOf c = 1 ∧ (withCmd c (ctx1 2)).modeOf c = 2 ∧
      errS ((withCmd c (ctx1 1)).checkStart c c.engine) = Status.operationUnsupported ∧
      errS ((withCmd c (ctx1 2)).checkStart c c.engine) = Status.operationUnsupported) := by decide +kernel

/-- EnginesAreLeft: a command whose effect is made, a prelude at its first cycle with the engine idle and busy, a gutter with a
fill and with a radio command, an interval that is over, and every cause. -/
theorem witness_engines :
    (let c := { cmd addWords .running [vec5] with did := true }; let s := withCmd c; s.cmd? 7 = some c ∧ s.up ∧ c.phase = .running ∧ c.did ∧ c.engines ≠ [] ∧
      s.moving c = false) ∧
    (let c := cmd addWords; let s := (paged 1 99 322 (withCmd c (ctx1 2))).setEngine vec5 { busy := some 9 }; (s.entryAt vec5 s.granule).any (fun g => g.kind == 3 &&
      decide (g.stop * 450 ≤ s.cycle + 128) && (s.entryFrom vec5 g.stop).any (fun e => e.kind == 1 && decide (s.firstOf vec5 e = some c))) ∧
      (s.engine vec5).busy ≠ none ∧ s.causeHolds vec5 2 ∧ (s.causeHolds vec5 1 = false)) ∧
    (let c := cmd addWords; let s := paged 2 99 322 (withCmd c (ctx1 1)); (s.entryAt vec5 s.granule).any (fun g => g.kind == 3 &&
      decide (g.stop * 450 ≤ s.cycle + 128) && (s.entryFrom vec5 g.stop).any (fun e => decide (s.firstOf vec5 e = some c))) ∧ (s.engine vec5).busy = none) ∧
    (let c := cmd addWords .running [vec5]; let s := (paged 2 200 0 (withCmd c)).setEngine vec5 { busy := some 7 };
      s.up ∧ s.kindNow vec5 = 3 ∧ (s.engine vec5).busy = some 7 ∧ s.cmd? 7 = some c ∧ s.modeOf c ≠ 2) ∧
    (let c := { cmd addWords .running [vec5] with started := 67500 }; let s := (paged 1 200 0 (withCmd c (ctx1 2 .running))).setEngine vec5 { busy := some 7 };
      s.kindNow vec5 = 3 ∧ s.modeOf c = 2 ∧ (s.engine vec5).busy = some 7 ∧ s.cmd? 7 = some c ∧ s.intervalOver c vec5) ∧
    (let c := { cmd addWords .running [vec5] with started := 67500 }; let s := (paged 1 200 0 (withCmd c (ctx1 2 .running))).setEngine vec5 { busy := some 7 };
      s.intervalOver c vec5 ∧ s.causeHolds vec5 1 ∧ ({ s with cycle := 89999 } : State).intervalOver c vec5 = false) ∧
    (({ (radio 2) with cal := { dev.cal with freeRun := true } } : State).causeHolds vec5 3) ∧
    (calOk (calId 0 383) ∧ dev.up ∧ dev.causeHolds (calId 0 383) 4 ∧ (dev.causeHolds (calId 0 383) 6 = false)) ∧
    (let s : State := { paged 1 150 0 dev with fenced := [(vec5, 1)] }; s.isFenced vec5 ∧ s.causeHolds vec5 5) := by decide +kernel

/-- WindowWordsFillSlots: the last slot below the depth, a filled one, one at the depth, a shut window. -/
theorem witness_windowWords :
    (ring.powered ∧ ring.visible 3 ∧ ring.tdiBars 3 false = false ∧ ring.windowShut 3 = false ∧ ring.depth 3 = 64 ∧ (ring.slot 3 63).st = .free) ∧
    ((filled.slot 3 0).st ≠ .free ∧ dev.windowShut 3) := by decide +kernel

/-- RecordsAreConsumedAndCompleted: a filled slot, a credit write, a delay that is over, a command to complete with a completion,
one that is not the oldest that retired, one that closes its job, one without a completion. -/
theorem witness_records :
    (filled.up ∧ filled.resetting 3 = false ∧ (filled.slot 3 ((filled.fn 3).nConsume % max 1 (filled.depth 3))).st = .filled) ∧
    (ring.present 3 ∧ ring.visible 3 ∧ ring.tdiBars 3 false = false) ∧
    (let s : State := { (dev.setO 3 0x3010 5 1000).modFn 3 (fun x => { x with unsig := 1 }) with tb := [0, 0, nanos 1000000, 0] };
      s.up ∧ s.o 3 0x3010 5 ≠ 0 ∧ (s.fn 3).unsig ≠ 0 ∧ (s.fn 3).oldest + s.o 3 0x3010 5 ≤ s.tb2us) ∧
    (let c := { cmd [(0, 2 ^ 22)] .ended with slot := some 0 }; let s := withCmd c; s.cmd? 7 = some c ∧ s.retirable c ∧ c.silent = false ∧ s.endsJob c = false ∧
      s.noteRetired.nextRetired 3 = some 7) ∧
    (let c := { cmd [(0, 2 ^ 22)] .ended with slot := some 0 }; let d := { c with id := 6 };
      let s : State := { withCmd c with cmds := [d, c], retired := [6] };
      s.cmd? 7 = some c ∧ s.retirable c ∧ s.noteRetired.nextRetired 3 = some 6) ∧
    (let c := { cmd [] .ended with slot := some 0, je := true }; let s := withCmd c { ctx1 with jobs := [{ num := 0, closed := true }] };
      s.retirable c ∧ c.silent = false ∧ s.endsJob c ∧ s.lastOfJob c) ∧
    (let c := { cmd [] .ended with slot := some 0 }; (withCmd c).retirable c ∧ c.silent ∧ (cmd [] .ended).slot = none) := by decide +kernel

/-- ContextsOpenAndClose: the last core and no core as home, a close of an open context and of a number that is none, a number
whose traffic is gone. -/
theorem witness_contexts :
    (let s := dev.setO 3 0x3020 8 1; lets s win 3 0x3050 1 none (95 * 4) ∧ s.homeFor 3 0 95 = some 95 ∧ s.o 3 0x3050 5 < s.o 3 0x3020 8 ∧ s.freeCtx = some 0) ∧
    (let s := dev.setO 3 0x3020 8 1; lets s win 3 0x3050 1 none (0x7F * 4) ∧ s.homeFor 3 0 0x7F = some 5) ∧
    (let s := withCmd (cmd []); lets s win 3 0x3050 4 none 1 ∧ (s.ctx 1).fn = 3 ∧ (s.ctx 1).st ≠ .free ∧ (s.ctx 1).closed = false) ∧
    (lets dev win 3 0x3050 4 none 4096 ∧ lets dev win 3 0x3050 4 none 4095 ∧ (dev.ctx 4095).st = .free) ∧
    (let s := dev.setCtx 4095 { ctx1 with closed := true }; s.up ∧ (s.ctx 4095).closed ∧ s.drained 4095 ∧ (s.ctx 4095).mode ≠ 1) := by decide +kernel

/-- WaitsSignalsAndFences: a wait on the function's last float and on none, one that waits and whose time is over, signals of both
forms with and without AFTER, fences of both forms, running and about to start toward all devices. -/
theorem witness_waits :
    (let c := cmd [(0, 3), (4, 63)]; starts (withCmd c) c ∧ c.cls = 3 ∧ ((withCmd c).startedFree 7 c).floatOf 3 63 ≠ none) ∧
    (let c := cmd [(0, 3), (4, 64)]; starts (withCmd c) c ∧ ((withCmd c).startedFree 7 c).floatOf 3 64 = none) ∧
    (let c := cmd [(0, 3), (7, 5)] .running; let s : State := { withCmd c (ctx1 0 .running) with tb := [0, 0, nanos 5000, 0] };
      s.cmd? 7 = some c ∧ c.phase = .running ∧ s.up ∧ s.resetting 3 = false ∧ (s.ctx 1).st = .running ∧ s.waitMet c ∧ c.since + (c.w 7).toNat ≤ s.tb2us) ∧
    (let c := cmd [(0, 4), (4, 63), (5, 9)]; starts (withCmd c) c ∧ c.cls = 4 ∧ (c.w 4).bit 17 = false ∧ ((withCmd c).startedFree 7 c).floatOf 3 63 = some 63) ∧
    (let c := cmd [(0, 4), (4, 3 * 2 ^ 16)]; starts (withCmd c) c ∧ (withCmd c).earlierDone c ∧ (c.w 4).fld 16 1 = 1 ∧ (c.w 4).bit 17) ∧
    (let c := cmd [(0, 5)] .running; let s := withCmd c (ctx1 0 .running); s.cmd? 7 = some c ∧ c.cls = 5 ∧ c.form = 0 ∧ (s.ctx 1).st = .running ∧ s.up) ∧
    (let c := cmd [(0, 5 + 16)] .running; let s := withCmd c (ctx1 0 .running); s.cmd? 7 = some c ∧ c.form = 1) ∧
    (let c := cmd [(0, 5 + 16), (4, 0x2000)]; let s := withCmd c; starts s c ∧ c.cls = 5 ∧ c.form = 1 ∧ s.stepsOut c ∧ c.dest = 0x2000 ∧
      s.domain.declared.contains c.dest = false) := by decide +kernel

/-- CalendarMarkersAct: a WAIT for the last granule, one whose time has come, a STAMP, a RELEASE in a REL radio interval, a LOAD
with no swap armed and with one. -/
theorem witness_markers :
    (let c := cmd [(0, 10), (6, 3999)]; starts (withCmd c) c ∧ c.cls = 10 ∧ c.form = 0 ∧ (c.w 6).fld 0 12 < 4000 ∧ ((withCmd c).startedFree 7 c).waitOver c = false) ∧
    (let c := cmd [(0, 10)]; starts (withCmd c) c ∧ ((withCmd c).startedFree 7 c).waitOver c) ∧
    (let c := cmd [(0, 10)] .running; let s := withCmd c (ctx1 0 .running); s.cmd? 7 = some c ∧ s.up ∧ (s.ctx 1).st = .running ∧ s.waitOver c) ∧
    (let c := cmd [(0, 10 + 16)]; starts (withCmd c) c ∧ c.form = 1) ∧
    (let c := cmd [(0, 10 + 32), (6, 100), (7, vec5)]; let s := paged 1 150 0 (withCmd c (ctx1 2)); starts s c ∧ c.form = 2 ∧ calOk ((c.w 7).fld 0 16) ∧
      (∃ e ∈ (s.startedFree 7 c).liveEntries vec5, e.kind = 1 ∧ e.rel = true ∧ e.start = (c.w 6).fld 0 12 ∧ e.covers (s.startedFree 7 c).granule = true)) ∧
    (let c := cmd [(0, 10 + 48), (10, 4)]; let s := withCmd c; starts s c ∧ c.form = 3 ∧ (c.w 10).toNat = [0, 0, 0, (0 : Byte)].length ∧ (s.startedFree 7 c).g 0x2401 3 < 2) ∧
    (let c := cmd [(0, 10 + 48), (10, 0)]; let s := withCmd c ctx1 (armed 9); starts s c ∧ 2 ≤ (s.startedFree 7 c).g 0x2401 3 ∧ (s.startedFree 7 c).g 0x2401 3 ≤ 4) := by decide +kernel

/-! ### Statements on the compute, pump, serving and radio engines -/

/-- A vector command of every operation: floats where the operation needs them, 32 elements for QUANT. -/
def vecWords (op : Nat) : List (Nat × Nat) :=
  let f := if op = 0x34 ∨ op = 0x11 ∨ (0x18 ≤ op ∧ op ≤ 0x20) then 0 else 7
  [(0, 1), (1, vec5), (4, op + f * 2 ^ 10 + f * 2 ^ 15 + (if op = 0x34 then 9 else f) * 2 ^ 20 + 2 ^ 25 + 2 ^ 27 + 2 ^ 29), (5, 1),
   (6, if op = 0x34 then 32 else 1), (9, if op = 0x31 ∨ op = 0x32 then 1 else 0), (10, 64)]
/-- VectorCommandsComplete: for every row a command that passes its checks, one with its first row written, and one that does not pass. -/
theorem witness_vectorCommands : vectorRows.all (fun row =>
    let c := cmd (vecWords row.1) .running [vec5]
    let d := cmd (vecWords row.1 ++ [(11, 3 * 2 ^ 21)]) .running [vec5]
    due (withCmd c) c && c.cls == 1 && c.vop == row.1 && okB ((withCmd c).checkVector c c.onEngine) && c.part == 0 && c.detail == [] &&
      okB ((withCmd { c with part := 1 }).checkVector { c with part := 1 } c.onEngine) &&
      due (withCmd d) d && d.vop == row.1 && errS ((withCmd d).checkVector d d.onEngine) == Status.shapeInvalid) = true := by decide +kernel
/-- VectorElementsAreComputed: an unmasked and a masked element of every operation named. -/
theorem witness_vectorElements :
    ([0x01, 0x02, 0x03, 0x04, 0x05, 0x06, 0x07, 0x08, 0x09, 0x0A, 0x28, 0x2C, 0x2D, 0x2E].all (fun op => (cmd (vecWords op)).vlen == 1 && (cmd (vecWords op)).vop == op)) ∧
    ((cmd (vecWords 0x11)).vop = 0x11 ∧ (cmd (addWords 0x10)).vop = 0x10 ∧ isInt (cmd [(4, 0x10)]).vfa = false ∧ isInt (cmd [(4, 0x2A)]).vfd = false ∧ isInt (cmd [(4, 0x2B)]).vfd = false) ∧
    (let c := cmd addWords; dev.vlive c (Mem.well 5) 0 0 (dev.vaAt c (Mem.well 5) 0 0).1) ∧
    (let c := cmd (addWords ++ [(11, 2 ^ 21)]); dev.vlive c (Mem.well 5) 0 0 (dev.vaAt c (Mem.well 5) 0 0).1 = false) := by decide +kernel

/-- MatrixPumpAndServingCommandsComplete: a command of every form that passes its checks, and one that fails them. -/
theorem witness_matrixPumpServing :
    (let c := cmd [(0, 0), (4, 2 ^ 12 + 2 ^ 17)] .running [20]; let s := (withCmd c).wr (Mem.well 5 + 8) 1;
      due s c ∧ c.cls = 0 ∧ c.form = 0 ∧ okB (s.checkFolios c c.onEngine)) ∧
    (let c := cmd [(0, 0)] .running [20]; due (withCmd c) c ∧ errS ((withCmd c).checkFolios c c.onEngine) = Status.formatUnsupported) ∧
    (let c := cmd [(0, 16)] .running [20]; let s := withCmd c; due s c ∧ c.form = 1 ∧ s.combineReady c ∧ okB (combineEffect c s)) ∧
    (let c := cmd [(0, 16), (4, 1 * 2 ^ 5)] .running [20]; due (withCmd c) c ∧ (withCmd c).combineReady c ∧ errS (combineEffect c (withCmd c)) = Status.formatUnsupported) ∧
    (let c := cmd ([(0, 2), (4, 64), (5, 5 * 2 ^ 20), (8, 4097)] ++ gd 6 4096) .running [calId 2 5]; let s := withCmd c ctx1 (big []);
      due s c ∧ c.cls = 2 ∧ c.form = 0 ∧ c.isFab = false ∧ okB (s.checkCopy c c.onEngine)) ∧
    (let c := cmd ([(0, 2), (4, 0), (5, 5 * 2 ^ 20), (6, 0), (7, 15 * 2 ^ 28), (8, 64)]) .running [calId 2 5]; let s := withCmd c;
      due s c ∧ okB (s.checkCopy c c.onEngine)) ∧
    (let c := cmd ([(0, 2 + 16), (10, 2 + 3 * 2 ^ 9 + 2 ^ 18), (11, 64), (12, 64)] ++ gd 4 0 ++ gd 6 4096) .running [calId 3 0]; let s := withCmd c ctx1 (big []);
      due s c ∧ c.form = 1 ∧ okB (s.checkTranspose c)) ∧
    (let c := cmd ([(0, 8)] ++ gd 4 0 ++ gd 6 4096) .running [calId 6 0]; let p := 2 ^ 61;
      let s := ((((((withCmd c ctx1 (big [])).setO 3 0x3800 3 256).setO 3 0x3800 4 p).setO 3 0x3800 5 1).setO 3 0x3800 6 1).setO 3 0x3800 7 p).setO 3 0x3800 8 p;
      due s c ∧ c.cls = 8 ∧ c.form = 0 ∧ okB (kvEffect c s)) ∧
    (let c := cmd ([(0, 8)] ++ gd 4 0 ++ gd 6 4096) .running [calId 6 0]; let s := withCmd c ctx1 (big []); due s c ∧ errS (kvEffect c s) = Status.shapeInvalid) ∧
    (let c := cmd ([(0, 8 + 16)] ++ gd 4 0 ++ gd 6 4096) .running [calId 5 0]; let s := withCmd c ctx1 (big []); due s c ∧ c.form = 1 ∧ okB (sampleEffect c s)) ∧
    (let c := cmd ([(0, 8 + 16), (8, 4097)] ++ gd 4 0 ++ gd 6 4096) .running [calId 5 0]; let s := withCmd c ctx1 (big []); due s c ∧ errS (sampleEffect c s) = Status.shapeInvalid) ∧
    (let c := cmd ([(0, 8 + 32), (8, 1)] ++ gd 4 0 ++ gd 6 4096) .running [calId 4 0]; let s := withCmd c ctx1 (big (gd 0 8192 ++ [(2, 1), (3, 8)] ++ gd 4 16384));
      due s c ∧ c.form = 2 ∧ s.gsMode c = 0 ∧ okB (gatherRowsEffect c s) ∧ errS (gatherRowsEffect c (withCmd c ctx1 (big []))) = Status.shapeInvalid) ∧
    (let c := cmd ([(0, 8 + 32), (8, 1)] ++ gd 4 0 ++ gd 6 4096) .running [calId 4 0]; let s := withCmd c ctx1 (big (gd 0 8192 ++ [(2, 1), (3, 1)] ++ gd 4 16384 ++ [(6, 4), (7, 1 + 8)]));
      due s c ∧ s.gsMode c = 1 ∧ okB (gatherRouteEffect c s) ∧ errS (gatherRouteEffect c (withCmd c ctx1 (big [(2, 1), (7, 1)]))) = Status.shapeInvalid) ∧
    (let c := cmd ([(0, 8 + 48), (8, 1)] ++ gd 4 0 ++ gd 6 4096) .running [calId 4 0]; let s (m : Nat) := withCmd c ctx1 (big (gd 0 8192 ++ [(2, 1), (3, 8)] ++ gd 4 16384 ++ [(7, m)]));
      due (s 0) c ∧ c.form = 3 ∧ (s 0).gsMode c = 0 ∧ okB (scatterEffect none c (s 0)) ∧ (s 1).gsMode c = 1 ∧ okB (scatterEffect (some 0) c (s 1)) ∧
      (s 2).gsMode c = 2 ∧ okB (scatterEffect (some 1) c (s 2)) ∧ (s 3).gsMode c = 3 ∧ errS (scatterEffect none c (s 3)) = Status.shapeInvalid) := by decide +kernel

/-- Function 3 owns the radio and cell 0 is active; the parameter block of a job at the start of its GDDR7. -/
def radioJob (k mode : Nat) (ws : List (Nat × Nat)) : State × Cmd :=
  let c := cmd ([(0, 9)] ++ gd 4 4096 ++ gd 6 65536 ++ gd 8 0) .running [calId k 0]
  (withCmd c ctx1 (((((big ([(0, k + mode * 2 ^ 8 + 2 ^ 16)] ++ ws)).setG 0xA005 1 3).setO 3 0x4400 1 2).setO 3 0x4400 0x13 0).setO 3 0x4400 0x17 0), c)
/-- Parameter blocks with the least fields of Table 9.5: class, mode, words. -/
def radioBlocks : List (Nat × Nat × List (Nat × Nat)) :=
  [(7, 0, [(3, 1), (4, 4 + 4 * 2 ^ 10)]), (8, 0, [(4, 4), (5, 8), (7, 1 + 2 ^ 6)]), (8, 1, [(5, 8), (7, 1 + 2 ^ 6)]), (9, 0, [(3, 1), (4, 1 + 2 ^ 16), (5, 5)]),
   (9, 1, [(4, 1 + 2 ^ 16), (5, 5)]), (9, 2, [(4, 1 + 2 ^ 16), (5, 5)]), (10, 0, [(4, 1 + 2 ^ 16), (5, 5)]), (10, 1, [(4, 1 + 2 ^ 16), (5, 5)]),
   (11, 0, [(4, 1 + 3 * 2 ^ 16)]), (11, 1, [(3, 1), (4, 40 + 3 * 2 ^ 16)]), (12, 1, [(4, 12 + 2 ^ 11 + 8 * 2 ^ 18), (5, 2 ^ 16)]),
   (12, 2, [(4, 12 + 2 ^ 11 + 8 * 2 ^ 18), (5, 2 ^ 16)]), (13, 0, [(4, 1), (5, 1 + 2 ^ 20)]), (15, 0, [(4, 2 ^ 10), (5, 1)])]
/-- The same job once it has asked for its inputs and they are all presented. -/
def shown (p : State × Cmd) : State × Cmd := ({ p.1 with cmds := [{ p.2 with asked := some 0 }] }, { p.2 with asked := some 0 })
/-- RadioJobsComplete: for every row but the two with reports of open length a job that passes its checks, as it asks for its
inputs and with them presented, the detection, and the combiner and the pumps. -/
theorem witness_radioJobs :
    (radioBlocks.all (fun e => let s := (radioJob e.1 e.2.1 e.2.2).1; let c := (radioJob e.1 e.2.1 e.2.2).2;
        c.asked == none && ((s.codecInputs c).filter (fun e => e.2 != 0)) != [] && codecRows.any (fun row => row.cls == e.1 && row.modes e.2.1 &&
          okB (codecEffect row.output row.after c s)))) ∧
    (radioBlocks.all (fun e => let s := (shown (radioJob e.1 e.2.1 e.2.2)).1; let c := (shown (radioJob e.1 e.2.1 e.2.2)).2;
        due s c && c.cls == 9 && calClass c.onEngine == e.1 && s.blkMode c == e.2.1 && decide (c.asked = some 0 ∧ 0 ≤ s.clock) && !s.reading 7 none &&
          okB ((s.asSeen 7 none).openBlk c (Blk.fieldsOk e.1)))) ∧
    (radioBlocks.all (fun e => codecRows.any (fun row => let p := shown (radioJob e.1 e.2.1 e.2.2); let s := p.1.asSeen 7 none; let c := p.2;
        row.cls == e.1 && row.modes e.2.1 && okB (s.needInput c (c.addr 4) (row.input (s.blk c))) &&
          okB (s.needOutput c (c.addr 6) (row.output s c (s.blk c) (softInput row.cls (s.readAt c.fn (c.addr 4) (row.input (s.blk c))))).length)))) ∧
    (let p := radioJob 12 0 [(4, 12 + 2 ^ 11 + 8 * 2 ^ 18), (5, 2 ^ 16)]; let t := (shown p).1; let c := (shown p).2; let s := t.asSeen 7 none;
      due p.1 p.2 ∧ ((p.1.codecInputs p.2).filter (fun e => e.2 != 0)) ≠ [] ∧ okB (codecEffect (fun t c b d => (prachReports t c b d).flatten) nothing p.2 p.1) ∧ due t c ∧ s.blkMode c = 0 ∧
      okB (s.openBlk c (Blk.fieldsOk 12)) ∧ okB (s.needInput c (c.addr 4) ((s.blk c).input 12)) ∧
      okB (s.needOutput c (c.addr 6) (prachReports s c (s.blk c) (s.readAt c.fn (c.addr 4) ((s.blk c).input 12))).flatten.length)) ∧
    (let p := radioJob 8 0 [(4, 4), (7, 1 + 2 ^ 6)]; due p.1 p.2 ∧ p.2.asked = none ∧ ((p.1.codecInputs p.2).filter (fun e => e.2 != 0)) = [] ∧
      codecRows.any (fun row => row.cls == 8 && row.modes 0 && okB (codecEffect row.output row.after p.2 p.1))) ∧
    (let p := radioJob 14 0 (gd 4 131072 ++ [(8, 2 ^ 16), (10, 4)]); due p.1 p.2 ∧ ((p.1.codecInputs p.2).filter (fun e => e.2 != 0)) = [] ∧ okB (harqEffect p.2 p.1)) ∧
    (let p := radioJob 7 0 []; due p.1 p.2 ∧ codecRows.any (fun row => row.cls == 7 && row.modes 0 &&
        Status.faults (errS (codecEffect row.output row.after p.2 p.1)) true)) ∧
    (let p := radioJob 14 0 (gd 4 131072 ++ [(7, 1), (8, 2 ^ 16), (9, 4), (10, 4)]); due p.1 p.2 ∧ okB (harqEffect p.2 p.1) ∧
      ((p.1.codecInputs p.2).filter (fun e => e.2 != 0)) ≠ [] ∧ due (shown p).1 (shown p).2 ∧ okB (harqEffect (shown p).2 ((shown p).1.asSeen 7 none))) ∧
    (let s := (radioJob 18 0 []).1; let c := (radioJob 18 0 []).2; due s c ∧ okB (radioPumpEffect 18 c s)) ∧
    (let s := (radioJob 19 0 []).1; let c := cmd ([(0, 9), (7, 15 * 2 ^ 28)] ++ gd 4 4096 ++ gd 8 0) .running [calId 19 0]; due { s with cmds := [c] } c ∧ okB (radioPumpEffect 19 c { s with cmds := [c] })) := by decide +kernel

/-- A job of the two rows whose reports have open length: its checks pass, and any length that a report may have fits its OUT. -/
def openJob (mode : Nat) : State × Cmd := radioJob 12 mode [(4, 12 + 2 ^ 11 + 8 * 2 ^ 18), (5, 2 ^ 16)]
theorem openJob_output (mode n : Nat) (h : n ≤ 65536) : (openJob mode).1.needOutput (openJob mode).2 ((openJob mode).2.addr 6) n = .ok () := by
  have ha : (openJob mode).2.addr 6 = ⟨2, 0, 65536, false⟩ := by
    show devAddr (wd64 (radioJob 12 0 []).2.words 6) = _
    decide +kernel
  have hf : (openJob mode).2.fn = 3 := rfl
  have hp : ((openJob mode).1.fn 3).gpages.length = 8 := rfl
  have hr : ((openJob mode).1.fn 3).regions = [] := rfl
  have hn : 65536 + n ≤ 8 * Mem.page := by unfold Mem.page; omega
  unfold State.needOutput State.needServed
  rw [ha, hf]
  unfold State.addrOk State.ownedElsewhere
  rw [hr]
  dsimp only
  rw [hp]
  simp [DevAddr.isMem, ensure, hn, bind, Except.bind]
theorem witness_openReports :
    (∀ mode ∈ [3, 4], due (openJob mode).1 (openJob mode).2 = true ∧ (openJob mode).1.blkMode (openJob mode).2 = mode ∧
      okB ((openJob mode).1.openBlk (openJob mode).2 (Blk.fieldsOk 12)) = true ∧
      okB ((openJob mode).1.needInput (openJob mode).2 ((openJob mode).2.addr 4) (((openJob mode).1.blk (openJob mode).2).input 12)) = true) ∧
    (∀ (mode : Nat) (b : Blk) (data : List Byte), (openJob mode).1.needOutput (openJob mode).2 ((openJob mode).2.addr 6)
      (openOut mode (openJob mode).1 (openJob mode).2 b data).length = .ok ()) := by
  refine ⟨by decide +kernel, fun mode b data => openJob_output mode _ ?_⟩
  simp only [openOut, takeBytes, List.length_map, List.length_range]
  omega

/-! ### Statements on memory, transfers and channel cores -/

/-- A piece of four bytes for float 9, and a state with one piece and context 1. -/
def piece4 : Piece := { id := 1, cid := 7, fn := 3, ctx := 1, dst := 1000, data := [1, 2, 3, 4], float := some 9 }
def withPiece (p : Piece) : State := { withCmd (cmd []) with pieces := [p] }
/-- A bucket read for that piece, on the device at core cycle 1,000. -/
def withRead (r : ReadReq) : State := { withCmd (cmd []) with reads := [r], cycle := 1000, clock := 1000 }
def read4 (mode : Nat) : ReadReq := { id := 1, cid := 7, fn := 3, chan := 63, issue := 800, lmax := 240, bucket := true, mode := mode }
/-- The bits of block 0 that turn the codeword 0 into n symbols of the one whose data is 1 in byte 63. -/
def toward (n : Nat) : List (Nat × Nat) :=
  (Rs.encode (List.replicate 63 0 ++ [1])).zipIdx.flatMap (fun e => if 63 ≤ e.2 ∧ e.2 < 63 + n then
    ((List.range 8).filter (fun k => e.1.testBit k)).map (fun k => if e.2 = 63 then (7, 63 - k) else (e.2 - 64, 135 - k)) else [])
/-- The worked example of R394: pin 5 disturbed for 16 UI, then also in burst 8. -/
def burst : List (Nat × Nat) := (span 13 16).map (fun u => (5, u))
def burst8 : List (Nat × Nat) := burst ++ (span 130 6).map (fun u => (5, u))
/-- R394's worked example: symbols 41 to 43 of block 0, then also 69; three symbols are corrected in mode 1, four in mode 0 and
reported in mode 1; block 1 is untouched. -/
theorem test_burstOnOnePin :
    (((Rs.errorOf 0 burst).zipIdx.filter (fun e => e.1 != 0)).map (·.2) = [41, 42, 43] ∧ ((Rs.errorOf 0 burst8).zipIdx.filter (fun e => e.1 != 0)).map (·.2) = [41, 42, 43, 69]) ∧
    (Rs.decode 1 (Rs.errorOf 0 burst) = .corrected ∧ Rs.decode 2 (Rs.errorOf 0 burst) = .uncorrectable) ∧
    (Rs.decode 0 (Rs.errorOf 0 burst8) = .corrected ∧ Rs.decode 1 (Rs.errorOf 0 burst8) = .uncorrectable ∧ Rs.decode 0 (Rs.errorOf 1 burst8) = .clean) ∧
    (Rs.syndromes (Rs.encode ((List.range 64).map (· + 3))) = List.replicate 8 0) := by decide +kernel

/-- PiecesLandWithTheirFloat: a piece that may land, one that goes to the sump, one of an old epoch, a store of a channel core, a
piece before its time. -/
theorem witness_pieces :
    ((withPiece piece4).pieces.find? (fun q => q.id == 1) = some piece4 ∧ (withPiece piece4).mayLand piece4 ∧ ((withPiece piece4).ctx 1).epoch = piece4.epoch ∧
      piece4.sump = false ∧ piece4.bad = none ∧ (withPiece piece4).partialBad piece4.dst piece4.data.length = false) ∧
    ((withPiece { piece4 with sump := true }).mayLand { piece4 with sump := true } ∧ ((withPiece piece4).ctx 1).epoch ≠ 5 ∧ (withPiece { piece4 with epoch := 5 }).mayLand { piece4 with epoch := 5 }) ∧
    ((withPiece { piece4 with stx := true }).up ∧ (withPiece { piece4 with stx := true }).lineBusy 1000 4 = false ∧ ({ piece4 with stx := true }).due ≤ dev.clock) ∧
    (dev.clock < ({ piece4 with due := 1 }).due ∧ (withPiece { piece4 with due := 1 }).pieces ≠ []) := by decide +kernel

/-- ReadsArriveAndRangesAreSet: a read that comes in time and one at the first cycle too late; codewords good, corrected,
uncorrectable and miscorrected; a bucket at its instant with its data and without, and before it; ranges of an absent and of a
managing function and one that another holds, a zone. -/
theorem witness_arrivals :
    ((withRead (read4 0)).reads.find? (fun r => r.id == 1) = some (read4 0) ∧ (withRead (read4 0)).up ∧ (read4 0).arrived = false ∧ (read4 0).bad = false ∧
      (read4 0).issue ≤ (withRead (read4 0)).clock ∧ (withRead (read4 0)).clock ≤ (read4 0).issue + (read4 0).lmax) ∧
    ((read4 0).bucket ∧ ({ read4 0 with issue := 759 }).issue + (read4 0).lmax < (withRead (read4 0)).clock ∧ 1000 ≤ 760 + (read4 0).lmax) ∧
    ((withRead (read4 0)).ecc = [] ∧ (withRead (read4 0)).blockOutcome 0 0 [] = .clean ∧ (withRead (read4 0)).blockOutcome 0 0 burst8 = .corrected ∧
      (withRead (read4 1)).blockOutcome 1 0 burst8 = .uncorrectable ∧ (withRead (read4 1)).blockOutcome 1 64 burst8 = .clean) ∧
    ((withRead (read4 0)).blockOutcome 0 0 (toward 4) = .corrected ∧ (withRead (read4 0)).blockOutcome 0 0 (toward 5) = .miscorrected true ∧
      (withRead (read4 0)).blockOutcome 0 0 (toward 9) = .miscorrected false) ∧
    (({ read4 0 with bad := true }).bad ∧ (read4 0).bucket ∧ (read4 0).shown = false ∧ 760 + (read4 0).lmax ≤ (withRead (read4 0)).clock) ∧
    ((withRead { read4 0 with issue := 761 }).clock < 761 + 240) ∧
    (({ dev with ecc := [(2 ^ 40, 1), (2 ^ 40 + 8, 2)] } : State).up) ∧
    (lets dev mgr 4 0x3040 1 none 64 ∧ 64 + dev.o 4 0x3040 2 ≤ 65536 ∧ dev.floatClash 4 64 (dev.o 4 0x3040 2) = none ∧ isMgr 4 = false ∧ dev.present 4 = false) ∧
    (lets (dev.setO 4 0x3040 1 65535) mgr 4 0x3040 2 none 1 ∧ (dev.setO 4 0x3040 1 65535).floatClash 4 65535 1 = none) ∧
    (lets (dev.setO 4 0x3040 1 63) mgr 4 0x3040 2 none 1 ∧ (dev.setO 4 0x3040 1 63).floatClash 4 63 1 = some 3) ∧
    (let s := (dev.setO 512 0x3040 1 100).setG 0x3001 8 60000; lets s mgr 512 0x3040 2 none 60000 ∧ s.floatClash 512 100 60000 = none ∧ s.o 512 0x3050 5 = 0 ∧
      60000 ≤ s.g 0x3001 8 + s.o 512 0x3040 2) ∧
    (lets dev mgr 1023 0x6101 1 none 0 ∧ lets dev mgr 1023 0x6101 96 none 8) := by decide +kernel

/-- The words of Tables 10.3 and 10.4, each written out bit by bit, decode to their instructions and are what these encode to. -/
theorem test_ccWords : ([
    (0b00000000000000000000000000000000, .nop),
    (0b00000100000000000000000000000000, .halt),
    (0b00010100000000000000000000000000, .brk),
    (0b00001001000000001111111111111110, .br 4 0xFFFE),
    (0b00001100000000010100000000001001, .loop 5 9),
    (0b00010000000000010100110000000000, .loopx 5 3),
    (0b00100000001001001010101111001101, .movi 2 1 0xABCD),
    (0b00100100000111101100000000000000, .mov 1 0x3B),
    (0b01000000110101011000100000000000, .alu 8 3 5 6),
    (0b01000100110101011000001000000000, .calu 2 3 5 6),
    (0b01100011000111001101011111111111, .ld 12 7 1 2 2 0x7FF),
    (0b01100100101111111010000000000001, .st 2 15 7 1 0 1),
    (0b01101010001100101110000000000000, .ldx 8 3 2 1 3),
    (0b01101100010010010000000000000000, .stx 1 0 9 0 0),
    (0b01110001001001101010000000000000, .ldf 4 2 6 1),
    (0b10000011111111110111110101000000, .cmac 7 15 14 7 6 1 0 1 0),
    (0b10000110000111110000000000100000, .cmac4 4 3 14 0 0 0 0 0 1),
    (0b10001010010010010001010010000000, .cmac4m 4 9 2 1 2 0 1 0 0),
    (0b10001100011111111111111111100000, .ftap 0 15 15 7 7 1 1 1 1),
    (0b10010010000001000000000000000000, .clra 0x81),
    (0b10100011111110111110011110100000, .sta 7 15 3 1 1 39 2 1),
    (0b10100110000010000000111101000000, .sta4 4 1 0 0 0 15 1 0),
    (0b10101001001010111001010000100000, .rda 2 5 3 1 20 0 1)] : List (W32 × CcInstr)).all
    (fun e => decide (decodeCc e.1 = some e.2) && e.2.wf && decide (encodeCc e.2 = e.1)) = true := by decide +kernel
/-- Undefined opcodes, reserved bits, fields out of range, misaligned registers and quad forms that do not start at 0 or 4. -/
theorem test_ccWordsRefused : ([
    0b00011000000000000000000000000000, 0b00000000000000000000000000000001, 0b00001001010000000000000000000000,
    0b00001000000000010000000000000000, 0b00001100000000000000000000000001, 0b00100000001011000000000000000000,
    0b00100011101000000000000000000000, 0b01000000000000000000100100000000, 0b01000100000000000000010100000000,
    0b01000000000000000000000000000001, 0b01100000000000000001100000000000, 0b01100011010000000001000000000000,
    0b01101000100000000100000000000000, 0b01110000010000000010000000000000, 0b01110000000000000000000000000000,
    0b10000100100000000000000000000000, 0b10100101000000000000000000000000, 0b10100000000000000010100000000000,
    0b10100000000000000000000011000000, 0b10101000000000000100000000000000, 0b11111100000000000000000000000000] : List W32).all
    (fun w => (decodeCc w).isNone) = true := by decide +kernel

/-- Channel core 31 with a job of function 3, whose thread 0 holds registers x and finds instruction i at its PC. -/
def cc31 (i : CcInstr) (x : Thread := { st := .ready }) : State :=
  let c := cmd [(0, 9)] .running [calId 17 31]
  ((withCmd c ctx1 (big [])).setChan 31 { cid := some 7, threads := [x, {}, {}, {}], ext := [2 ^ 61, 2 ^ 61, 0, 0] }).wrN
    (Mem.chan 31 + x.pc.toNat) (wordsToBytes [encodeCc i])
/-- A thread with X1 at the width and one with it above; a thread inside four repeats. -/
def shifts (n : Nat) : Thread := { st := .ready, x := 0 :: BitVec.ofNat 32 n :: List.replicate 14 0 }
def nested : Thread := { st := .ready, loops := List.replicate 4 ⟨0, 2 ^ 17, 5⟩ }
/-- ThreadsRunTheirProgram: every instruction of control and registers issues; a repeat that may open and one that may not; a
shift by 31 and by 32. -/
theorem witness_threads :
    ([CcInstr.nop, .halt, .brk, .br 4 0x8000, .movi 0x39 2 65535, .mov 0x39 0x3B, .alu 8 15 15 15].all (fun i => issues (cc31 i) 31 0 i)) ∧
    (issues (cc31 (.loop 4095 16383)) 31 0 (.loop 4095 16383) ∧ (((cc31 (.loop 4095 16383)).chan 31).thread 0).openLoop 4095 16383 ≠ none) ∧
    (issues (cc31 (.loopx 1 0)) 31 0 (.loopx 1 0) ∧ (((cc31 (.loopx 1 0)).chan 31).thread 0).openLoop 1 0 ≠ none) ∧
    (issues (cc31 (.loop 1 1) nested) 31 0 (.loop 1 1) ∧ nested.openLoop 1 1 = none) ∧
    (let x := { nested with x := 1 :: List.replicate 15 0 }; issues (cc31 (.loopx 1 0) x) 31 0 (.loopx 1 0) ∧ x.openLoop 1 ((x.xr 0).fld 0 16) = none) ∧
    (aluRows.all (fun row => issues (cc31 (.alu row.1 0 0 1) (shifts 31)) 31 0 (.alu row.1 0 0 1)) ∧ ((shifts 31).xr 1).toNat < 32) ∧
    (aluRows.all (fun row => issues (cc31 (.alu row.1 0 0 1) (shifts 32)) 31 0 (.alu row.1 0 0 1)) ∧ 32 ≤ ((shifts 32).xr 1).toNat) ∧
    (caluRows.all (fun row => issues (cc31 (.calu row.1 15 0 1)) 31 0 (.calu row.1 15 0 1))) := by decide +kernel

/-- LocalLoadsAndStores: each size, with the last register that it allows. -/
theorem witness_localAccesses :
    ((List.range 3).all (fun z => issues (cc31 (.ld (16 - 2 ^ z) 15 7 2 z 0x400)) 31 0 (.ld (16 - 2 ^ z) 15 7 2 z 0x400) &&
        issues (cc31 (.st (16 - 2 ^ z) 0 0 1 z 0x3FF)) 31 0 (.st (16 - 2 ^ z) 0 0 1 z 0x3FF))) := by decide +kernel

/-- ChannelCoresLoadAccumulateAndEnd: an external access inside the grant and one outside, an arrival, a remote load that may go
and one that is forbidden, its reply, every multiplier instruction, and the three kinds of job. -/
theorem witness_channelCores :
    (let s := cc31 (.ldx 8 0 0 1 3); issues s 31 0 (.ldx 8 0 0 1 3) ∧ (s.ccJob 31).any (fun c => ((s.chan 31).extAddr {} 0 0).isMem && s.addrOk c.fn ((s.chan 31).extAddr {} 0 0) 32)) ∧
    (let s := cc31 (.ldx 0 2 0 0 0); issues s 31 0 (.ldx 0 2 0 0 0) ∧ ((s.chan 31).extAddr {} 2 0).isMem = false) ∧
    (let x : Thread := { st := .waiting, addr := 2 ^ 61, size := 32 }; let s := cc31 .nop x; s.up ∧ (s.ccJob 31).isSome ∧ ((s.chan 31).thread 0).st = .waiting ∧ ((s.chan 31).thread 0).far = false ∧
      ((s.chan 31).thread 0).due ≤ s.clock ∧ s.reading 7 (some (31, 0)) = false ∧ (s.asSeen 7 (some (31, 0))).readBad 3 (devAddr x.addr) x.size = none) ∧
    (let s := cc31 (.stx 15 0 0 0 0); issues s 31 0 (.stx 15 0 0 0 0) ∧ (s.ccJob 31).isSome ∧
      ((s.chan 31).extAddr {} 0 0).isMem ∧ s.addrOk 3 ((s.chan 31).extAddr {} 0 0) 4 ∧ s.ownedElsewhere 3 ((s.chan 31).extAddr {} 0 0) 4 = false) ∧
    (let i := CcInstr.ldf 14 3 0 1; let s := cc31 i; issues s 31 0 i ∧ (s.ccJob 31).any (fun c => !okB (s.ccLoad 31 0 c 0))) ∧
    (let i := CcInstr.ldf 0 0 0 0; let s : State := { ((cc31 i).modChan 31 (fun c => { c with fwait := 1 })).setG 0x5000 1 5 with domain := { declared := [0] } };
      issues s 31 0 i ∧ (s.ccJob 31).any (fun c => okB ((s.ccOut 31 0 { (((s.chan 31).thread 0).pinc 0 0 8).advance with st := .waiting, xd := 0, size := 8, far := true }).ccLoad 31 0 c
        (((s.chan 31).thread 0).domainAt 0)))) ∧
    (let s : State := { cc31 .nop { st := .waiting, far := true } with awaits := [{ id := 4, cid := 7, fn := 3, dev := 1, kind := 0x12, back := some (31, 0) }] };
      s.up ∧ (s.ccJob 31).isSome ∧ (s.ccAwait 31 0).isSome ∧ ((s.chan 31).thread 0).st = .waiting ∧ ((s.chan 31).thread 0).far ∧
      ((s.chan 31).thread 0).due = s.clock) ∧
    (let s := cc31 .nop { st := .waiting, far := true, due := 1 }; s.clock < ((s.chan 31).thread 0).due ∧ ((s.chan 31).thread 0).far) ∧
    ([CcInstr.cmac 7 15 15 7 7 1 1 1 1, .cmac4 4 3 15 0 0 0 0 1 1, .cmac4m 4 15 15 7 7 1 1 1 1, .ftap 0 15 14 7 7 1 1 1 1, .clra 255, .sta 7 15 7 1 1 39 2 1,
        .sta4 4 15 7 1 1 39 2 1, .rda 7 15 7 1 39 2 1].all (fun i => issues (cc31 i) 31 0 i)) ∧
    (let p := radioJob 17 0 (gd 9 0 ++ gd 11 0); due p.1 p.2 ∧ p.2.cls = 9 ∧ calClass p.2.onEngine = 17 ∧ okB (p.1.openChan p.2) ∧ p.1.blkMode p.2 = 0 ∧
      (p.1.chan (calInst p.2.onEngine)).cid ≠ some 7) ∧
    (let p := radioJob 17 1 [(2, 16), (4, 262128)]; due p.1 p.2 ∧ okB (p.1.openChan p.2) ∧ p.1.blkMode p.2 = 1 ∧ p.2.asked = none) ∧
    (let p := radioJob 17 2 [(2, 16), (4, 262128)]; due p.1 p.2 ∧ okB (p.1.openChan p.2) ∧ p.1.blkMode p.2 = 2 ∧ p.2.asked = none) := by decide +kernel

/-! ### Statements on fronthaul and time -/

/-- Lane group 3 as one port of four lanes, which is up; function 3 owns it. -/
def fh (s : State := dev) : State := ((s.setG 0x4200 4 1).setG 0x4202 13 2).setG 0xA002 13 3
/-- A job of engine 15 of class 16 for cell 0, which names port 12. -/
def fhJob (mode : Nat) (ws : List (Nat × Nat)) : State × Cmd :=
  let c := cmd ([(0, 9)] ++ gd 4 4096 ++ gd 6 65536 ++ gd 8 0) .running [calId 16 15]
  ((fh { (radioJob 16 mode ws).1 with cmds := [c] }).setO 3 0x4400 0x20 (12 * 2 ^ 48), c)
/-- A frame in the queue of port 12. -/
def withFrame (w : Option (Nat × Nat)) : State := fh { dev with txq := [(12, [{ cid := 7, cell := 0, insert := 0, window := w, bytes := [] }])] }
/-- FramesAreReceivedAndCounted: the last lane of an up port, a frame of no cell, one for an engine out of service, a Request that
was sent, lane events. -/
theorem witness_frames :
    (fh.portOfLane 15 = some 12 ∧ fh.portUp 12 ∧ fh.up) ∧
    (({} : UFrame).wellFormed ∧ ({} : UFrame).ebit ∧ ({} : UFrame).subseq = 0 ∧ fh.cellOfFrame 12 {} = none ∧ fh.engineFor 12 0 = 12 ∧
      fh.isFenced (calId 16 12) = false) ∧
    (let s : State := { fh with fenced := [(calId 16 12, 1)] }; s.isFenced (calId 16 (s.engineFor 12 0)) ∧ s.up) ∧
    (({ fh with delaySent := [(12 * 256 + 5, 99)] } : State).delaySent.find? (fun e => e.1 == 12 * 256 + 5 % 256) = some (12 * 256 + 5, 99)) ∧
    (fh.groupMode 14 ≠ 0 ∧ fh.g 0x4202 15 ≠ 2) := by decide +kernel

/-- A frame of cell 0: its eAxC ID has the band sector and the carrier of the cell (log entry 8: no object gives them). -/
theorem witness_frameOfCell : (fhJob 0 []).1.portOfLane 15 = some 12 ∧ (fhJob 0 []).1.portUp 12 = true ∧
    (fhJob 0 []).1.cellOfFrame 12 { dmac := (fhJob 0 []).1.g 0x4201 13, eaxc := 16 * (Config.eaxcCell 0 % 256) } = some 0 ∧
    (fhJob 0 []).1.fenced = [] := by
  have hl : (fhJob 0 []).1.liveCells = [0] := by decide +kernel
  have hr : ((fhJob 0 []).1.cellRuns 0 && (fhJob 0 []).1.cellPort 0 == 12 &&
    fld ((fhJob 0 []).1.cellO 0 0x21) 0 12 == 0) = true := by decide +kernel
  have hw : fld ((fhJob 0 []).1.cellO 0 0x22) 0 4 = 4 ∧ fld ((fhJob 0 []).1.cellO 0 0x22) 4 4 = 4 ∧
    fld ((fhJob 0 []).1.cellO 0 0x22) 8 4 = 4 := by decide +kernel
  have he : fld (16 * (Config.eaxcCell 0 % 256)) 4 8 = Config.eaxcCell 0 % 256 := by
    show 16 * (Config.eaxcCell 0 % 256) / 2 ^ 4 % 2 ^ 8 = _
    omega
  refine ⟨by decide +kernel, by decide +kernel, ?_, by decide +kernel⟩
  unfold State.cellOfFrame
  rw [hl, List.find?_cons_of_pos]
  unfold State.eaxcBelongs
  dsimp only
  rw [hw.1, hw.2.1, hw.2.2, show (4 + 4 : Nat) = 8 from rfl, he]
  simp only [Bool.and_eq_true, beq_iff_eq] at hr ⊢
  refine ⟨⟨⟨⟨hr.1.1, hr.1.2⟩, ?_⟩, hr.2⟩, ?_⟩ <;> trivial
/-- FronthaulJobsAndFrames: a job of every kind that passes its checks, as it asks for its inputs, before they are due and with
them presented; a frame inside its window, without one, and at its window's end. -/
theorem witness_fronthaulJobs :
    ([(fhJob 0 [(2, 13168)], 0), (fhJob 1 [(2, 16)], 1), (fhJob 2 [(2, 12)], 2), (fhJob 3 [(2, 68)], 3)].all (fun e => due e.1.1 e.1.2 && e.1.2.cls == 9 &&
        calClass e.1.2.onEngine == 16 && e.1.1.blkMode e.1.2 == e.2 && e.1.2.asked == none && ((e.1.1.fhInputs e.1.2).filter (fun x => x.2 != 0)) != [])) ∧
    (let p := fhJob 0 [(0, 16 + 2 ^ 16), (2, 13168)]; okB (deliverEffect p.2 p.1) ∧ ((p.1.fhInputs p.2).filter (fun x => x.2 != 0)) ≠ [] ∧
      due (shown p).1 (shown p).2 ∧ (shown p).1.reading 7 none = false ∧ okB (deliverEffect (shown p).2 ((shown p).1.asSeen 7 none))) ∧
    (let p := fhJob 1 [(2, 16)]; let p := (p.1.wr 4111 0x20, p.2); okB (uplaneEffect p.2 p.1) ∧ due (shown p).1 (shown p).2 ∧
      okB (uplaneEffect (shown p).2 ((shown p).1.asSeen 7 none))) ∧
    (let p := fhJob 2 [(2, 12)]; let p := ((p.1.wr 4096 8).wr 4105 1, p.2); okB (cplaneEffect p.2 p.1) ∧ due (shown p).1 (shown p).2 ∧ okB (cplaneEffect (shown p).2 ((shown p).1.asSeen 7 none))) ∧
    (let p := fhJob 3 [(2, 68)]; let p := (p.1.wr 4096 60, p.2); okB (rawEffect p.2 p.1) ∧ due (shown p).1 (shown p).2 ∧
      okB (rawEffect (shown p).2 ((shown p).1.asSeen 7 none))) ∧
    (let c := { (fhJob 0 []).2 with asked := some 9 }; let s : State := { (fhJob 0 []).1 with cmds := [c] }; due s c ∧ s.clock < 9) ∧
    (let s (t : Nat) : State := { withFrame (some (5, 9)) with tb := [t, 0, 0, 0] }; (s 5).portOfLane 15 = some 12 ∧ (s 5).portUp 12 ∧ (s 5).up ∧
      [5, 8, 9].all (fun t => (((s t).txOf 12).find? (fun f => f.window.all (fun w => decide (w.1 ≤ (s t).time 0)))).any
        (fun (f : TxFrame) => decide (f.window = some (5, 9) ∧ (s t).time 0 = t)))) ∧
    (((withFrame none).txOf 12).find? (fun f => f.window.all (fun w => decide (w.1 ≤ (withFrame none).time 0))) =
        some { cid := 7, cell := 0, insert := 0, window := none, bytes := [] }) := by decide +kernel

/-- TB0 follows a Sync-fed slave port, port 12, whose parent is known. -/
def slave : State := { ((fh.setG 0x4805 1 12).setG 0x4800 3 1) with parent := some [4] }
/-- A 1PPS input that the TB0 owner, the manager of port A, holds. -/
def pps (use : Nat) : State := ((dev.setG 0xA004 1 512).setG 0xA001 1 512).setG 0xA001 2 use
/-- TimeBasesFollowTheirReferences: bases with a reference, bases that lock and are lost, a re-arm by each owner, a snapshot, the
PPS mode, PTM, an Announce, a Delay_Req, Sync and ESMC. -/
theorem witness_time :
    (slave.hasReference 0 ∧ ((pps 1).setG 0x4800 3 3).hasReference 0 ∧ (dev.setG 0x4800 3 1).hasReference 0 = false ∧ member.hasReference 1 ∧ ((dev.setG 0x4803 3 1).setG 0x1130 1 5).hasReference 3 ∧ dev.up) ∧
    ((dev.setG 0x4800 2 2).servoState 0 = 2 ∧ (dev.setG 0x4800 2 2).referenceLost 0 ∧
      ((dev.setG 0x4801 2 2).setG 0x5010 4 3).servoState 1 = 2 ∧ ((dev.setG 0x4801 2 2).setG 0x5010 4 3).referenceLost 1 ∧ dev.isMaster = false) ∧
    (let s (t : Nat) : State := { slave with tb := [0, 0, nanos t, 0] }; (s 187499999).referenceLost 0 = false ∧ (s 187500000).referenceLost 0) ∧
    (let s (t : Nat) : State := { (dev.setG 0x4803 2 2) with tb := [0, 0, nanos t, 0] }; (s 0).servoState 3 = 2 ∧ (s 99999999).referenceLost 3 = false ∧ (s 100000000).referenceLost 3) ∧
    (dev.referenceLost 1 = false ∧ ({ dev with servo := [{}, { missed := 4 }, {}, {}] } : State).referenceLost 1) ∧
    (lets dev mgr 1023 0x4800 5 none 1 ∧ pathWriter mgr = some (dev.g 0xA004 1) ∧ dev.servoState 0 ≠ 2) ∧
    (lets dev mgr 1023 0x4803 5 none 1 ∧ pathWriter mgr = some 512 ∧ dev.servoState 3 ≠ 2) ∧
    (lets dev mgr 1023 0x4804 1 none 1) ∧
    ((pps 2).g 0xA001 2 = 2 ∧ (pps 2).up) ∧
    (((dev.setG 0x4803 3 1).setG 0x1130 1 5).ptmOn) ∧
    (let s := slave.setG 0x4805 2 0; s.portOfLane 15 = some 12 ∧ s.portUp 12 ∧ s.up ∧ s.isFenced (calId 16 12) = false ∧
      ({ kind := 1 } : PtpMsg).domain = s.g 0x4805 2 ∧ 12 = s.g 0x4805 1 ∧ s.g 0x4800 3 ≤ 2 ∧ ({ kind := 1, dataset := [4] } : PtpMsg).dataset = [4]) ∧
    (let s := (fh.setG 0xA004 1 512).setG 0xA002 13 512; s.masterPort 12 ∧ (s.setG 0x4800 2 2).servoState 0 = 2 ∧ (s.setG 0x4800 2 2).masterPort 12 ∧ (s.setG 0x4800 2 3).servoState 0 = 3) := by decide +kernel

/-! ### Statements on the fabric -/

/-- Device 1 with plane lane 63 up, a session with device 2, and function 3 with an endpoint at function 4 of device 2 and region 7. -/
def fab (r : Region := { number := 7, base := 2 ^ 61, flags := 7, dev := 2, owner := 4 }) : State :=
  let s := ((((big []).setG 0x5000 1 1).setG 0x5001 64 1).setG 0x5002 64 3).setLane 63 { held := [256, 256, 256, 256] }
  (s.setSession 2 {}).modFn 3 (fun x => { x with gpages := List.range 32, endpoints := [(0, { dev := 2, fn := 4 })], regions := [r] })
/-- Words 4 and 5 that address region 9 of device 2, and a fabric record of a form. -/
def rem (off : Nat) : List (Nat × Nat) := [(4, 9 * 2 ^ 21 + off), (5, 2 * 2 ^ 4 + 3 * 2 ^ 28)]
def fabCmd (form len w9 : Nat) (off : Nat := 0) : Cmd :=
  cmd ([(0, 6 + 16 * form), (8, len), (9, w9)] ++ rem off ++ gd 6 4096) .running [calId 19 0]
/-- The state in which a step of that record is next. -/
def fabStep (c : Cmd) (st : FabStep) : State × Cmd :=
  let d := { c with did := true, steps := [st] }
  ({ fab with cmds := [d], ctxs := [(1, ctx1)] }, d)
/-- A packet from function 4 of device 2 to region 7 of function 3. -/
def pk (off : Nat := 0) (data : List Byte := [1, 2, 3, 4, 5, 6, 7, 8]) : Packet :=
  { src := 2, srcFn := 4, dstFn := 3, seq := 1, len := 8, addr := domAddr 1 7 off, data := data }
def home (dev owner flags : Nat) : State := fab { number := 7, base := 2 ^ 61, flags := flags, dev := dev, owner := owner }
/-- Procedure 65535 of function 3 in context 1, and a trigger of it. -/
def withProc (q : List TrigReq) : State :=
  { fab with ctxs := [(1, { ctx1 with jobs := [] })], procs := [(65535, { fn := 3, ctx := 1, list := 2 ^ 61, count := 1, arg := 2 ^ 61 + 4096, depth := 2, queue := q })] }
def trig : TrigReq := { dev := 2, fn := 4, sub := 0, seq := 1, req := 5, args := List.replicate 32 1 }
/-- A request whose answer is awaited. -/
def awaiting (kind : Nat) : State := { fab with awaits := [{ id := 5, cid := 7, fn := 3, dev := 2, kind := kind, loc := 2 ^ 61 + 64 }] }
/-- FabricRecordsIssueTheirSteps: a record of every form that passes its checks, at the ends of the lengths that it may have, one
of every form that does not, a step of a held record and of one whose pump is free, and a reply on the first pump whose turn
it is. -/
theorem witness_fabricRecords :
    ([(0, 8, 0), (0, 256, 0), (1, 8, 0), (1, 256, 0), (3, 1, 0), (4, 1, 0), (5, 0, 0), (2, 8, 0), (2, 8, 1), (2, 8, 2), (2, 8, 3), (2, 8, 4)].all (fun e =>
        let c := fabCmd e.1 e.2.1 (e.2.2 * 2 ^ 17)
        let s := withCmd c ctx1 fab
        due s c && c.cls == 6 && c.form == e.1 && (e.1 != 2 || (c.w 9).fld 17 3 == e.2.2) && okB (fabricEffect c s))) ∧
    ([(0, 0, 0), (0, 264, 0), (1, 0, 0), (1, 264, 0), (3, 2097153, 0), (4, 2097153, 0), (5, 1, 0), (6, 1, 0), (2, 0, 0), (2, 0, 1), (2, 0, 2), (2, 0, 3),
        (2, 8, 5), (2, 8, 7)].all (fun e =>
        let c := fabCmd e.1 e.2.1 (e.2.2 * 2 ^ 17)
        let s := withCmd c ctx1 fab
        due s c && c.cls == 6 && c.form == e.1 && errS (fabricEffect c s) != 0)) ∧
    (let c := fabCmd 6 0 0; let s := withCmd c ctx1 ((fab.setO 3 0x5040 1 (domAddr 2 9 0)).setO 3 0x5040 2 1); due s c ∧ c.form = 6 ∧ okB (fabricEffect c s)) ∧
    (let c := cmd [(0, 7), (4, 2 + 5 * 2 ^ 16)] .running [calId 19 0]; due (withCmd c ctx1 fab) c ∧ c.cls = 7 ∧ okB (fabricEffect c (withCmd c ctx1 fab)) ∧
      due (withCmd c ctx1 (big [])) c ∧ errS (fabricEffect c (withCmd c ctx1 (big []))) = Status.accessDenied) ∧
    (let st : FabStep := { type := 3, kind := 3, sub := 1, addr := domAddr 2 9 0, len := 8 }; let p := fabStep (fabCmd 1 8 0) st; let s := p.1; let c := p.2;
      s.answers.find? (fun h => h.id == 7) = none ∧ s.cmd? 7 = some c ∧ (fabOpOf c).any (fun o => o.dev == 2 && s.canSend 63 (creditClass 3 false) (packetSlots 3 (s.stepPacket c o st 4)) o.dev &&
        s.fitsNow c c.onEngine (s.stepLength c o st)) ∧ s.endpointDev 3 2 = some { dev := 2, fn := 4 } ∧ s.up ∧ c.status = 0 ∧ c.engines ≠ [] ∧
      s.laneFor 2 4 1 = some 63 ∧ (s.stream (streamKey 3 2 4 1)).unacked.length < 256) ∧
    (let st : FabStep := { type := 1, kind := 1, sub := 1, addr := domAddr 2 9 0, len := 8 }; let p := fabStep { fabCmd 0 8 0 with engines := [] } st; let s := p.1; let c := p.2;
      c.engines = [] ∧ (s.engine c.onEngine).busy = none ∧ (s.engine c.onEngine).hold = none) ∧
    (let h : HomeStep := { id := 9, fn := 3, dev := 2, type := 2, len := 17, packet := { pk with srcFn := 3, dstFn := 4, reply := true } };
      let s : State := ({ fab with answers := [h] } : State).setEngine (calId 19 0) { busy := some 7 };
      s.answers.find? (fun x => x.id == 9) = some h ∧ s.up ∧ s.answerTurn h (calId 19 1) ∧ s.answerTurn h (calId 19 0) = false) := by decide +kernel

theorem witness_requests :
    (fab.Receives (pk (2 ^ 21 - 8)) ∧ fab.Receives { pk with len := 0, marks := [(4095, 1)] }) ∧
      (home 2 4 1).Receives pk ∧ (home 1 3 3).Receives pk ∧ (home 1 3 1).Receives pk ∧ (withProc []).Receives pk :=
  ⟨⟨receives_sound (by decide +kernel), receives_sound (by decide +kernel)⟩, receives_sound (by decide +kernel),
    receives_sound (by decide +kernel), receives_sound (by decide +kernel), receives_sound (by decide +kernel)⟩
/-- RequestsAreAppliedOnce, with witness_requests: reads by an owner, by sharing and by neither, at the last bytes of a region;
stores by the owner and by another; atomics of each outcome; blocks; hand-offs back home, away and by another; a notice;
triggers of an open procedure and of none; a duplicate. -/
theorem witness_requestsApplied :
    (let s := fab; let p := pk (2 ^ 21 - 8); s.homeBusy p p.len = false ∧ s.inboundWaits p p.data.length = false ∧ okB (s.homeRegion p p.len) ∧
      (s.homeRegion p p.len).toOption.any (fun r => r.ownedBy p && okB (s.homeRead p r p.len) && okB ((s.stepped p).homeLand p (s.homeFlat p r) p.data))) ∧
    (((home 1 3 3).homeRegion pk 8).toOption.any (fun r => !r.ownedBy pk && r.shared && okB ((home 1 3 3).homeRead pk r 8))) ∧
    ((home 1 3 3).homeBusy pk 8 = false ∧ ((home 1 3 1).homeRegion pk 8).toOption.any (fun r => !r.ownedBy pk && !r.shared && !r.atomic)) ∧
    (({ pk with reply := false } : Packet) = pk ∧ pk.data.length = 8) ∧
    ((fab.homeRegion pk 8).toOption.any (fun r => r.atomic && !fab.atomicFull (fab.homeFlat pk r / 64) && okB (fab.homeRead pk r 8))) ∧
    (let p : Packet := { pk with exact := true, aop := 4 }; p.exact && (p.aop == 3 || p.aop == 4) && (fab.homeRegion p 8).toOption.any (·.atomic)) ∧
    (fab.inboundWaits { pk with len := 0, marks := [(4095, 1)] } 4096 = false ∧ (fab.homeRegion pk 4096).toOption.any (fun r => r.ownedBy pk &&
        okB ((fab.stepped pk).writeMarks pk (fab.homeFlat pk r) [(4095, 1)]))) ∧
    (okB (fab.homeRegion pk 0) ∧ ({ pk with newOwner := 1 } : Packet).newOwner = fab.self ∧ (2 : Nat) ≠ fab.self ∧ (fab.endpointDev 3 2).isSome) ∧
    (fab.endpointOf 3 2 4 = some { dev := 2, fn := 4 }) ∧
    (let p : Packet := { pk with addr := 65535 }; ((withProc [trig]).procOpen p).any (fun q => decide (q.queue.length < q.depth)) ∧ fab.procOpen p = none) ∧
    (let s := fab.setStream (packetKey pk) { expect := 2 }; s.up ∧ s.domain.declared.contains 2 = false ∧ isFn 3 ∧ s.present 3 ∧ (s.endpointOf 3 2 4).isSome ∧
      pk.seq < (s.stream (packetKey pk)).expect ∧ (s.stream (packetKey pk)).cut ≤ pk.seq ∧ s.homeBusy pk 8 = false ∧ s.inboundWaits pk 8 = false ∧ s.inboundWaits pk 4096 = false ∧ s.procOpen pk = none ∧
      (s.homeRegion pk 8).toOption.any (fun r => !s.atomicFull (s.homeFlat pk r / 64))) := by decide +kernel

/-- AnswersReachTheirSenders: an answer of each kind that is awaited and one that is not, a trigger's end, a failed device, a line
of the atomic unit, a triggered job, and the last function, device and sub-stream. -/
theorem witness_answers :
    ([1, 4, 6, 0x11].all (fun k => ((awaiting k).await? { pk with req := 5, reply := true }).any (fun a => a.kind == k)) ∧ fab.up ∧ fab.domain.declared.contains 2 = false) ∧
    (fab.await? pk = none ∧ pk.req ≠ 1 ∧ pk.req ≠ 2) ∧
    (({ fab with triggers := [(5, 3, 9, 2)] } : State).triggers.find? (fun e => e.1 == 5) = some (5, 3, 9, 2)) ∧
    (({ fab with domain := { fab.domain with declared := [2] } } : State).domain.declared.contains 2) ∧
    (({ fab with atomics := [(4096, pk)] } : State).atomics.filter (fun e => e.1 / 64 == 64) ≠ []) ∧
    ((withProc [trig]).proc 65535 = some { fn := 3, ctx := 1, list := 2 ^ 61, count := 1, arg := 2 ^ 61 + 4096, depth := 2, queue := [trig] } ∧ (withProc [trig]).resetting 3 = false ∧
      ((withProc [trig]).ctx 1).fn = 3 ∧ ((withProc [trig]).ctx 1).st = .idle ∧ ((withProc [trig]).ctx 1).closed = false ∧ ((withProc [trig]).ctx 1).openJob = none) ∧
    (513 < 514 ∧ 8191 < 8192 ∧ 7 < 8) := by decide +kernel

/-- LanesSessionsAndControls: the last lane up and down, a lane at its seventh replay, a block in sequence and one not, a peer
without a session, roles, and the controls with what they commit and clear. -/
theorem witness_lanes :
    (63 < 64 ∧ fab.up ∧ fab.g 0x5002 64 = 3 ∧ (fab.setG 0x5002 64 0).g 0x5001 64 ≠ 0 ∧ (fab.setG 0x5002 64 0).g 0x5002 64 ≠ 3) ∧
    ((fab.lane 63).expect = 0 ∧ ((fab.setLane 63 { fab.lane 63 with replays := 7 }).lane 63).replays + 1 = 8) ∧
    (8191 < 8192 ∧ fab.hasSession 8191 = false ∧ fab.sec.delta = false ∧ fab.sec.entropyOk) ∧
    (lets fab mgr 1023 0x5001 64 none 2 ∧ lets fab mgr 1023 0x5001 1 none 0 ∧ fab.g 0xA007 1 ≠ 1023) ∧
    (let s := (((fab.setO 3 0x3020 7 1).setO 3 0x5020 1 0).setO 3 0x5020 2 (2 + 4 * 2 ^ 16)); [0, 1].all (fun v =>
        match letsRow s win 3 0x5020 5 none v with | some r => okB (endpointRule 3 v r s) | none => false)) ∧
    (let s := ((home 1 3 1).setO 3 0x5030 3 (2 ^ 61)).setO 3 0x5030 4 7; [0, 1].all (fun v =>
        match letsRow s win 3 0x5030 6 none v with | some r => okB (regionRule 3 v r s) | none => false)) ∧
    (let s := ((((withProc []).setO 3 0x5050 1 9).setO 3 0x5050 2 1).setO 3 0x5050 3 (2 ^ 61)).setO 3 0x5050 5 (2 ^ 61); [0, 1].all (fun v =>
        match letsRow s win 3 0x5050 7 none v with | some r => okB (procedureRule 3 v r s) | none => false)) := by decide +kernel

/-! ### Statements on the domain -/

/-- A state ten seconds after its start. -/
def later (s : State) : State := { s with tb := [0, 0, nanos 10000000000, 0] }
/-- Device 4097 under protection, with partner 1 on partner lane 0, cell 0 of function 3 active. -/
def paired (st : Nat := 0) : State :=
  (((((((dev.setG 0x5000 1 4097).setG 0x5012 1 1).setG 0x5012 2 st).setG 0x5001 1 2).setG 0x5002 1 3).setG 0x5012 7 9).setG 0xA005 1 3).setO 3 0x4400 1 2
/-- A standby cell beside an armed takeover page. -/
def armedTakeover : State := { paired.setG 0x2401 3 4 with standby := [0] }
/-- A member that receives an image of version 6. -/
def receiving (st : Nat) : State := (member.setG 0x5018 1 st).setG 0x5018 2 6
/-- A master that distributes one. -/
def sending (x : Domain) : State := { master with domain := { x with members := [1, 2], fwCount := 3, fwVersion := 6 } }
/-- MembersBeatJoinAndFence: a member and its silence, a master and its members, the last device number, a device that asks for a
number in each state. -/
theorem witness_membership :
    (member.up ∧ member.isMember ∧ member.dMaster < 8192 ∧ 2 ^ 32 - 1 < 2 ^ 32 ∧ member.g 0x5010 4 ≠ 0) ∧
    ((later member).domain.stopAt = none ∧ (later member).elapsed clockAck ((later member).g 0x5011 3) ∧ (later member).elapsed clockPartner ((later member).g 0x5011 3)) ∧
    (master.up ∧ master.isMaster ∧ master.inView 2 ∧ master.inView 8191 = false ∧ master.domain.expelled.contains 8191 = false) ∧
    (({ master with domain := { master.domain with expelled := [8191] } } : State).domain.expelled.contains 8191) ∧
    (let s := up.setG 0x5010 3 7; s.wanted ≠ none16 ∧ (s.setG 0x5010 4 1).g 0x5010 4 = 1 ∧ (s.setG 0x5010 4 3).g 0x5010 4 = 3 ∧ s.g 0x5010 4 = 0) := by decide +kernel

/-- ViewsDecideTheDomain: views heard by a device that asks, by a member that they list and by one that they omit, declarations of
a peer and of the partner, a view due again, a member that missed its beats, a standby and a configured master that heard
nothing, and the master's writes. -/
theorem witness_views :
    (let s := up.setG 0x5010 3 7; s.up ∧ s.isMember = false ∧ s.isMaster = false ∧ [1, 7].contains s.wanted ∧ [1, 7].all (fun d => decide (d < 8192))) ∧
    ((member.setG 0x5010 2 2).self = (member.setG 0x5010 2 2).g 0x5010 2 ∧ member.self < 8192 ∧ member.isMember ∧ laterMod 32 1 member.dEpoch ∧ laterMod 32 (2 ^ 31 - 1) member.dEpoch ∧ [1, 2].contains member.self ∧ 1 ≠ member.self ∧ [1, 3].contains member.self = false) ∧
    (8191 ≠ member.self ∧ 8191 ≠ member.partner ∧ 4098 ≠ member.self ∧ 4098 = member.partner ∧ member.self ≠ none16) ∧
    ((later master).isMaster ∧ (later master).elapsed clockView 100000 ∧ (later master).inView 2 ∧ 2 ≠ (later master).self ∧
      (later master).elapsed (clockBeat 2) ((later master).g 0x5011 1 * (later master).g 0x5011 2)) ∧
    (let s := later (member.setG 0x5010 2 2); s.isMember ∧ s.self = s.g 0x5010 2 ∧ s.elapsed clockAck (s.g 0x5011 4)) ∧
    (let s := later ((up.setG 0x5010 3 7).setG 0x5010 1 7); s.wanted ≠ none16 ∧ s.g 0x5010 1 = s.wanted ∧ s.g 0x5010 4 ≤ 1 ∧ s.dMaster = none16 ∧ s.elapsed clockListen (s.g 0x5011 4)) ∧
    (lets master mgr 1023 0x5013 4 none 2 ∧ master.isMaster ∧ master.inView 2 ∧ 2 ≠ master.self ∧ lets member mgr 1023 0x5013 4 none 2 ∧ member.isMaster = false) ∧
    (let s : State := { master with domain := { master.domain with expelled := [8191] } }; lets s mgr 1023 0x5013 5 none 8191 ∧ s.domain.expelled.contains 8191) ∧
    ((letsRow master mgr 1023 0x5010 1 none 8191).any (·.stored)) := by decide +kernel

/-- PartnersShipAndTakeOver: beats and their loss at 300 us, a shipment from its first granule and a piece of one, a takeover with
and without an armed page, a boundary that has come, also for an unlock, a hand-back whose frame has come, and its write at
the earliest frame and before it. -/
theorem witness_partners :
    (paired.up ∧ paired.protection ∧ paired.g 0x5012 2 = 0 ∧ (paired 2).protection ∧ (paired 2).g 0x5012 2 = 2) ∧
    (let s : State := { paired 1 with tb := [0, 0, nanos 300000, 0] }; s.protection ∧ s.g 0x5012 2 = 1 ∧ s.clockOf clockPartner + 300 = s.tb2us) ∧
    (let s : State := { paired with cycle := 3200 * 450 }; s.upPartners ≠ [] ∧ s.shipCells ≠ [] ∧ s.granule = 3200 ∧ s.g 0x5012 7 ≠ s.frame) ∧
    (paired.cycle < seamStart ∧ paired.domain.rxFrame = paired.frame) ∧
    (armedTakeover.self ≠ none16 ∧ armedTakeover.cal.takeoverAt = none ∧ armedTakeover.g 0x2401 3 = 4 ∧ armedTakeover.standby ≠ [] ∧ paired.cal.takeoverAt = none ∧ paired.g 0x2401 3 ≠ 4) ∧
    (let s : State := { paired with domain := { stopAt := some 0 } }; s.domain.stopAt = some 0 ∧ 0 ≤ s.frame ∧ s.sec.unlocking = false) ∧
    (let s : State := { paired with sec := { paired.sec with unlocking := true } }; s.sec.unlocking) ∧
    (let s : State := { paired 4 with domain := { handBack := some 0 } }; paired.domain.handBack = none ∧ s.domain.handBack = some 0 ∧ s.domain.stopAt = none ∧ 0 ≤ s.frame) ∧
    (let s := (paired 4).setG 0x2400 2 100; lets s mgr 1023 0x5012 0x0A none 103 ∧ s.g 0x5012 2 = 4 ∧ s.frame + 3 = 103 ∧ lets s mgr 1023 0x5012 0x0A none 102 ∧ 102 < s.frame + 3) := by decide +kernel

/-- FirmwareIsDistributed: a distribution, chunks of a new image and of the one under way, votes of a member that holds it and of
one that does not, bitmaps in each round, commits, aborts and the instant of the time-out. -/
theorem witness_firmware :
    (lets master mgr 1023 0x5018 7 none 131073 ∧ master.isMaster) ∧
    ((receiving 1).up ∧ (receiving 1).isMember ∧ 1022 + 1 < 1024 ∧ (receiving 1).g 0x5018 1 = 1 ∧ (receiving 1).g 0x5018 2 = 6 ∧ (receiving 1).domain.fwHeld.contains 1022 = false ∧
      (receiving 1).domain.fwHeld.length + 1 < 1024 ∧ member.g 0x5018 1 = 0) ∧
    ((receiving 2).g 0x5018 1 = 2 ∧ (receiving 3).g 0x5018 1 = 3 ∧ (receiving 3).g 0x5018 2 = 6 ∧ member.g 0x5018 1 ≠ 2 ∧ member.g 0x5018 1 ≠ 3) ∧
    (let s := sending {}; s.isMaster ∧ s.inView 2 ∧ s.domain.fwDone.contains 2 = false ∧ s.domain.fwCount ≠ 0 ∧
      (List.range s.domain.fwCount).filter (fun i => !([0, 1, 2].contains i)) = [] ∧ (List.range s.domain.fwCount).filter (fun i => !([0, 2].contains i)) ≠ []) ∧
    (SMap.get (fun _ => 0) (sending { fwRounds := [(2, 2)] }).domain.fwRounds 2 < 3 ∧ 3 ≤ SMap.get (fun _ => 0) (sending { fwRounds := [(2, 3)] }).domain.fwRounds 2) ∧
    ((sending { fwPrepared := true }).domain.fwPrepared ∧ ((sending { fwPrepared := true }).setG (0x5120 + 2 % 4096 / 128) (2 % 128 + 1) 2).g (0x5120 + 2 % 4096 / 128) (2 % 128 + 1) = 2) ∧
    (let s : State := { receiving 3 with tb := [0, 0, nanos 10000000000, 0] }; s.up ∧ s.g 0x5018 1 = 3 ∧ s.clockOf clockPrepare + 10000000 = s.tb2us) := by decide +kernel

/-! ### Statements on tenancy -/

/-- A core with saved state of function 3, and the device with it as core 5. -/
def savedCore : Core := { saved := [{ fn := 3, z := 0, well := [(0, 9)], threads := [some 1, none, none, none], acc := [], flags := [] }] }
def withCore (x : Core) (s : State := withCmd (cmd [(1, vec5)])) : State := { s with cores := [(5, x)] }
/-- Core 5 unheld, and function 3 with a core slot. -/
def unheld : State := ((withCmd (cmd [(1, vec5)])).setG 0x3060 6 none16).setO 3 0x3020 0x0B 1
/-- Function 4 is live with a core slot and claims core 5 for a context of its own. -/
def claimed : State :=
  let s := (dev.setO 4 0x3000 1 1).setO 4 0x3020 0x0B 1
  { s with energy := { s.energy with began := some 0 }, tb := [0, 0, nanos (100000 * s.g 0x3002 1), 0], ctxs := [(2, { ctx1 with fn := 4 })], cmds := [{ cmd [(1, vec5), (0, 2 * 2 ^ 8)] with fn := 4, ctx := 2 }] }
/-- Function 3 in a reset whose stops are over. -/
def resetDone : State := (dev.setO 3 0x3000 1 2).modFn 3 (fun x => { x with resetStop := true })
/-- GrantsAndFunctionResets: a create for the last function that holds, one beyond a pool, one whose floats another has, one of a
live function, destroys and resets, and a destroy in the radio owner's own reset. -/
theorem witness_grants :
    (lets dev (.window 513 false) 511 0x3000 1 none 1 ∧ 511 < 512 ∧ dev.fnState 511 = 0 ∧ dev.sec.entropyOk ∧ dev.poolsHold 511 ∧ dev.floatClash 511 (dev.o 511 0x3040 1) (dev.o 511 0x3040 2) = none) ∧
    (let s := dev.setO 4 0x3020 1 (2 ^ 20); lets s mgr 4 0x3000 1 none 1 ∧ s.fnState 4 = 0 ∧ s.poolsHold 4 = false) ∧
    (let s := (dev.setO 4 0x3040 1 63).setO 4 0x3040 2 1; lets s mgr 4 0x3000 1 none 1 ∧ s.poolsHold 4 ∧ s.floatClash 4 (s.o 4 0x3040 1) (s.o 4 0x3040 2) = some 3) ∧
    (lets dev mgr 3 0x3000 1 none 1 ∧ dev.fnState 3 ≠ 0 ∧ lets dev mgr 3 0x3000 1 none 0 ∧ dev.present 3 ∧ 3 ≠ dev.radioOwner) ∧
    (let s := (radioJob 7 0 []).1; lets s mgr 3 0x3000 1 none 0 ∧ s.resetting 3 = false ∧ 3 = s.radioOwner ∧ s.liveCells ≠ [] ∧
      lets (s.setO 3 0x3000 1 2) mgr 3 0x3000 1 none 0 ∧ (s.setO 3 0x3000 1 2).resetting 3 ∧ (s.setO 3 0x3000 1 2).present 3) ∧
    (lets dev mgr 3 0x3000 2 none 1 ∧ dev.present 3) := by decide +kernel

/-- GrantsAndFunctionResets: every kind of component at its limits, resets that wait and end, designations, one made again, one
given up and one while a cell lives. -/
theorem witness_components :
    (lets dev mgr 4 0x3020 1 none 9 ∧ lets dev mgr 4 0x3020 11 none 9 ∧ dev.present 4 = false ∧ lets dev mgr 3 0x3020 3 none 1 ∧ lets dev mgr 3 0x3020 4 none 1 ∧ dev.present 3) ∧
    (lets dev mgr 3 0x3020 1 none 1 ∧ lets dev mgr 3 0x3020 2 none 1 ∧ lets dev mgr 3 0x3020 6 none 1 ∧ lets dev mgr 3 0x3020 11 none 1) ∧
    (let s := dev.setG 0x3001 9 7; lets s mgr 3 0x3020 5 none 7 ∧ 7 ≤ s.g 0x3001 9 + s.comp 3 5 ∧ lets s mgr 3 0x3020 5 none 8 ∧ s.g 0x3001 9 + s.comp 3 5 < 8) ∧
    (isFn 3 ∧ resetDone.up ∧ resetDone.resetting 3 ∧ (resetDone.fn 3).resetStop ∧ (resetDone.fn 3).acksLeft = [] ∧ resetDone.cmds = []) ∧
    (lets dev mgr 1023 0xA005 1 none 3 ∧ dev.radioOwner = none16 ∧ 3 < 512 ∧ dev.fnState 3 = 1 ∧ pathWriter mgr = some (mgrOf 3) ∧ dev.liveCells = [] ∧ dev.ctxs = []) ∧
    (let s := dev.setG 0xA005 1 3; lets s mgr 1023 0xA005 1 none 3 ∧ s.radioOwner = 3 ∧ s.fnState 3 = 1 ∧ s.liveCells = [] ∧ lets s mgr 1023 0xA005 1 none none16) ∧
    (let s := (radioJob 7 0 []).1; lets s mgr 1023 0xA005 1 none none16 ∧ s.liveCells ≠ []) ∧
    (let s := (dev.setO 4 0x3000 1 1).setG 0xA005 1 4; lets s mgr 1023 0xA005 1 none 3 ∧ 3 ≠ none16 ∧ 3 ≠ s.radioOwner ∧ s.radioOwner ≠ none16) := by decide +kernel

/-- CoresPassBetweenFunctions: a core that a command waits for, with saved state and without; an idle, a busy and another's core,
the last core; a claim at the end of the lease and one before it; a save, one of a command that runs and one that waits for a
piece; a restore. -/
theorem witness_cores :
    (let s := unheld; let c := cmd [(1, vec5)]; s.cmd? 7 = some c ∧ s.up ∧ s.resetting 3 = false ∧ (s.waitsFor c).find? (fun k => s.mayGive 3 k) = some 5 ∧ s.savedOn 3 5 = false) ∧
    (let s := withCore savedCore unheld; let c := cmd [(1, vec5)]; (s.waitsFor c).find? (fun k => s.mayGive 3 k) = some 5 ∧ s.savedOn 3 5) ∧
    (lets dev win 3 0x3000 5 none 5 ∧ dev.coreHolder 5 = 3 ∧ dev.coreBusy 3 5 = false ∧ lets dev win 3 0x3000 5 none 95 ∧ 95 ≤ 95 ∧ dev.coreHolder 95 ≠ 3) ∧
    (let s := withCore { threads := [some 1, none, none, none] }; lets s win 3 0x3000 5 none 5 ∧ s.coreBusy 3 5) ∧
    (lets dev mgr 3 0x3000 3 none 1) ∧
    (let s := claimed; 5 < 96 ∧ s.up ∧ s.coreHolder 5 ≠ none16 ∧ s.coreQuiet 5 ∧ s.pinned 5 = none ∧ s.exactThread 5 = false ∧
      s.energy.began = some s.clock ∧ (s.core 5).since + nanos (100000 * s.g 0x3002 1) = s.time 2 ∧ s.bestClaim (s.claimants 5) = some 4) ∧
    (let s := withCore { preempt := some (3, none16) }; (s.core 5).preempt = some (3, none16) ∧ (s.core 5).saving = false ∧ (s.core 5).restore = none ∧
      s.onCore 3 5 = [] ∧ s.kvOn 3 5 = false ∧ (s.requeue []).wellPieces 3 5 = false) ∧
    (let c := cmd ([(0, 2), (4, 64), (5, 5 * 2 ^ 20), (8, 4097)] ++ gd 6 4096) .running [calId 2 5]; let s := withCore { preempt := some (3, none16) } (withCmd c);
      s.onCore 3 5 = [c] ∧ s.atBoundary c ∧
      (s.requeue [c]).wellPieces 3 5 = false) ∧
    (let c := { cmd (vecWords 1) .running [vec5] with did := true }; let s := withCore { preempt := some (3, none16) } (withCmd c); s.onCore 3 5 = [c] ∧ s.atBoundary c = false) ∧
    (let s := withCore { preempt := some (3, 4), saving := true }; (s.core 5).preempt = some (3, 4) ∧ (s.core 5).saving) ∧
    (let s := withCore { savedCore with restore := some 3 }; (s.core 5).restore = some 3 ∧ ((s.core 5).saved.find? (fun e => e.fn == 3)).isSome) := by decide +kernel

/-! ### Statements on energy, refresh, ports, security, power and reset -/

/-- Energy machinery with some fields. -/
def withEnergy (e : Energy) : State := { dev with energy := e }
/-- An SPDM connection on a transport. -/
def withSpdm (t : Nat) (x : Spdm) : State := { dev with sec := { dev.sec with spdm := [(t, x)] } }
/-- A state in priming. -/
def priming (warm : Bool) : State := { State.reset with power := { warm := warm } }
/-- EnergyWindowsAreDivided: a new window, a report at its budget and one token above, sixteen over-spends, 1,024 calm windows, a
limit at what is admitted and one token below. -/
theorem witness_energy :
    (let s : State := { dev with tb := [0, 0, nanos 200000, 0] }; s.up ∧ s.windowIndex ≠ s.g 0x2000 3) ∧
    (let s := withEnergy { budgets := [(5, 100)] }; s.energy.budgets.find? (fun b => b.1 == 5) = some (5, 100) ∧ s.up ∧ 5 ≠ s.g 0x2000 3 ∧ 100 ≤ 100 ∧ 100 < 101) ∧
    (16 ≤ (withEnergy { overs := List.replicate 16 1 }).energy.overs.length ∧ 1024 ≤ (withEnergy { calm := 1024 }).energy.calm) ∧
    (let s := dev.setG 0x2001 1 60100; s.g 0x2001 1 + s.eAdm + s.g 0x2001 4 = 100 * 601 ∧ (letsRow s mgr 1023 0x2000 1 none 601).any (·.stored) ∧
      (letsRow s mgr 1023 0x2000 1 none 600).any (·.stored) ∧ 100 * 600 < s.g 0x2001 1 + s.eAdm + s.g 0x2001 4) := by decide +kernel

/-- RefreshScrubAndFencing: the last channel at its run in each mode, an extended seam, blocks of each outcome in two modes, the
last entries of the fence list. -/
theorem witness_refresh :
    (let s : State := { dev with cycle := 116 * 450 }; 63 < 64 ∧ s.up ∧ s.granule % 125 = 116 ∧ s.inCompatible = false) ∧
    (let s : State := { dev.setG 0x7800 2 1 with cycle := 116 * 450, owed := [(63, 8)] }; s.granule % 125 = 116 ∧ s.inCompatible ∧ 8 ≤ SMap.get (fun _ => 0) s.owed 63 ∧
      SMap.get (fun _ => 0) s.owed 0 = 0 ∧ s.runHolds 0 s.granule = false) ∧
    (({ dev with cycle := seamStart + 675 } : State).longSeam ∧ ({ dev with cycle := seamStart + 674 } : State).longSeam = false) ∧
    (let a := pairAddr 63 (SMap.get (fun _ => (0, 0)) dev.scrub 63).1;
      let o (m b : Nat) (bits : List (Nat × Nat)) : Rs.Outcome := a.elim (Rs.decode m (Rs.errorOf b bits)) (fun x => dev.blockOutcome m (x + 64 * b) bits);
      dev.kindNow (calId 21 63) = 0 ∧ a.isSome ∧ dev.ecc = [] ∧ o 0 0 burst8 = .corrected ∧ o 0 1 burst8 = .clean ∧ o 1 0 burst8 = .uncorrectable ∧
      o 0 1 (burst.map (fun x => (x.1, x.2 + 64))) = .corrected ∧ o 2 1 (burst.map (fun x => (x.1, x.2 + 64))) = .uncorrectable ∧ o 2 0 (burst.map (fun x => (x.1, x.2 + 64))) = .clean) ∧
    (let s : State := { dev with fenced := (List.range 253).map (fun i => (calId 19 i, 1)) }; calOk (calId 2 5) ∧ calClass (calId 2 5) < 20 ∧ s.up ∧ s.isFenced (calId 2 5) = false ∧ s.fenced.length < 254) := by decide +kernel

/-- HostPortsActAndReport: port 1 with its link, priming and up, the last function, each vector, masked and pending, and a marker
in host memory. -/
theorem witness_ports :
    (let s := (dev.setG 0x1130 2 5).setPort 1 { perst := false }; 1 < 2 ∧ s.powered ∧ s.linkUp 1 ∧ s.up ∧ (s.port 1).perst = false ∧ (dev.port 0).vfEnable ∧ 256 ≤ 256 ∧ 5 ≤ 5 ∧ 16 ≤ 16) ∧
    (let c := cmd [(0, 10 + 3 * 16)]; let s := withCmd c; starts ((s.addG 0x1132 1 1).send (.aer 0 512 1)) c ∧ isMarker 3 c) ∧
    (isFn 255 ∧ dev.visible 255 ∧ isFn 513 ∧ dev.visible 513 ∧ ((dev.modFn 3 (fun x => { x with d3hot := true })).fn 3).d3hot) ∧
    (3 < vectorsOf 513 ∧ 1 < vectorsOf 255 ∧ ((dev.modFn 3 (fun x => { x with msixPend := [1] })).fn 3).msixPend.contains 1 ∧ (dev.fn 3).msixPend.contains 1 = false) ∧
    (lets dev win 3 0x1120 1 none 1) := by decide +kernel

/-- SecurityCommandsAnswer, the SPDM responder: each stage of a connection on the last transport, sessions at their limit,
finished and not, a lock. -/
theorem witness_spdm :
    (4 < 5 ∧ dev.up ∧ ((withSpdm 4 { version := true }).spdm 4).version ∧ ((withSpdm 4 { caps := true }).spdm 4).caps ∧ ((withSpdm 4 { negotiated := true }).spdm 4).negotiated ∧ (dev.spdm 4).negotiated = false) ∧
    (let s := withSpdm 1 { negotiated := true, sessions := [(1, true), (2, false), (3, true)] }; (s.spdm 1).sessions.length < 4 ∧ s.sec.entropyOk ∧
      (s.spdm 1).sessions.contains (2, false) ∧ (s.spdm 1).sessions.contains (3, true) ∧ portOf 511 = 1 ∧ (s.setO 511 0x3000 1 1).fnState 511 = 1 ∧ s.o 511 0x9011 1 = 0) ∧
    (4 ≤ ((withSpdm 4 { negotiated := true, sessions := [(1, true), (2, true), (3, true), (4, true)] }).spdm 4).sessions.length) ∧
    (({ withSpdm 4 { negotiated := true } with sec := { (withSpdm 4 { negotiated := true }).sec with entropyOk := false } } : State).sec.entropyOk = false) := by decide +kernel

/-- SecurityCommandsAnswer, the unlock: a nonce that may be read, and a token that does not verify. -/
theorem witness_unlock :
    (dev.powered ∧ dev.gate mgr = none ∧ dev.up ∧ (dev.reach mgr 1023 0xF000 2).any (fun r => dev.hasRight mgr r 0)) ∧
    (let k : UnlockToken := { format := 1, scope := 7, serial := 0, nonce := 9, zero := true, sigOk := false }; lets dev mgr 1023 0xF000 3 none 0 ∧ tokenShaped k) ∧
    (let s : State := { dev.setG 0xF000 2 9 with sec := { dev.sec with nonceLive := true } }; lets s mgr 1023 0xF000 3 none 0 ∧ s.liveCells = [] ∧ s.g 0xF000 2 = 9) := by decide +kernel

/-- A token that verifies, and one with a bad signature. -/
theorem witness_token : ({ dev.setG 0xF000 2 9 with sec := { dev.sec with nonceLive := true } } : State).tokenOk
      { format := 1, scope := 7, serial := Config.serial, nonce := 9, zero := true, sigOk := true } = true ∧
    dev.tokenOk { format := 1, scope := 7, serial := 0, nonce := 9, zero := true, sigOk := false } = false := by
  have h : ({ dev.setG 0xF000 2 9 with sec := { dev.sec with nonceLive := true } } : State).g 0xF000 2 = 9 ∧
    dev.sec.unlocking = false ∧ dev.sec.nonceLive = false := by decide +kernel
  unfold State.tokenOk
  rw [h.1]
  simp [h.2.1]
/-- The chain has bytes (log entry 10). -/
theorem witness_chain : 0 < dev.chain.length := by
  simp [State.chain, cryptoBytes, Config.chainLength] <;> omega
/-- An image of SVN 6 runs on a device whose fuses hold a number. -/
def running6 (fused : Nat) : State := { dev with obj := SMap.put (objKey 1023 0x9001 1) fused dev.obj, sec := { dev.sec with imageSvn := 6 } }
/-- SecurityCommandsAnswer, the SVN: an image above the fused one, on a device that is no master and on a master with nothing
prepared, and one that is not. -/
theorem witness_svn :
    ((running6 5).g 0x9001 1 < (running6 5).imageSvn ∧ lets (running6 5) mgr 1023 0x9001 3 none 1 ∧ (running6 5).g 0xF000 1 = 0 ∧ (running6 5).g 0x5018 1 ≠ 3 ∧
      ((running6 5).isMaster && (running6 5).domain.fwPrepared) = false) ∧
    (((running6 5).setG 0x5010 4 4).isMaster ∧ ((running6 5).setG 0x5010 4 4).domain.fwPrepared = false) ∧
    ((running6 6).imageSvn ≤ (running6 6).g 0x9001 1 ∧ lets (running6 6) mgr 1023 0x9001 3 none 1) := by decide +kernel

/-- PowerResetAndPriming: modes with and without exact contexts, a change that is due, supplies and resets in each state, requests
at their boundary, and primings. -/
theorem witness_power :
    ((letsRow dev mgr 1023 0x7800 1 none 1).any (·.stored) ∧ dev.exactOpen = false ∧ (letsRow (dev.setG 0x2001 4 1) mgr 1023 0x7800 1 none 1).any (·.stored) ∧
      (dev.setG 0x2001 4 1).exactOpen ∧ (letsRow (dev.setG 0x2001 4 1) mgr 1023 0x7800 1 none 0).any (·.stored)) ∧
    (let s : State := { (dev.setG 0x7800 1 1).setG 0x2400 2 3 with modeAt := some 3 }; s.up ∧ s.modeAt = some 3 ∧ 3 ≤ s.frame ∧ s.g 0x7800 1 ≠ s.g 0x7800 2) ∧
    (let s : State := { dev with modeAt := some 0 }; 0 ≤ s.frame ∧ s.g 0x7800 1 = s.g 0x7800 2) ∧
    (dev.power.good ∧ dev.power.stopped = false ∧ 7 < 8 ∧ dev.power.aon ∧ ({ dev with power := { sysrst := true } } : State).power.sysrst) ∧
    (let s : State := { dev with power := { good := false, sysrst := true } }; s.power.good = false ∧ s.power.aon ∧ s.power.io18 ∧ s.power.sysrst) ∧
    (lets dev mgr 1023 0x7000 2 none 1 ∧ lets dev mgr 1023 0x7000 2 none 2 ∧ lets (priming false) .i3c 1023 0x7000 2 none 2 ∧ (priming false).up = false) ∧
    ((priming false).powered ∧ (priming false).up = false ∧ (priming false).gate .i3c = none ∧ ((priming false).setG 0x1130 2 5).linkUp 1) ∧
    (let s : State := { dev with power := { request := some (1, 4, 0) } }; s.up ∧ 0 ≤ s.frame ∧ 4 ≤ 4 ∧ s.power.request = some (1, 4, 0)) ∧
    (let s : State := { dev with power := { request := some (2, 4, 0) } }; s.up ∧ s.power.request = some (2, 4, 0)) ∧
    ((priming false).priming ∧ (priming false).power.warm = false ∧ (priming true).priming ∧ (priming true).power.warm ∧ 5 ≤ 5 ∧
      (priming false).unusableCause { imageCheck := 1 } = 1) ∧
    (let s : State := { priming true with obj := SMap.put (objKey 1023 0x9001 1) 6 (priming true).obj }; s.priming ∧ s.power.warm ∧
      s.unusableCause { imageSvn := 6, spineFail := true } = 5 ∧ s.unusableCause { imageSvn := 64 } = 0 ∧ s.unusableCause { imageSvn := 5 } = 1 ∧ s.imageCode { imageSvn := 5 } = 4) := by decide +kernel


end Sys2Proof.Tests
end

section
/-!
PROOFS. When a command answers a next state, and why a queue of commands in range runs without a stop (O3, O5).
-/

namespace Sys2Proof.Machine

/-! ### Outcomes -/

/-- An outcome is a next state or, for operands out of range alone, the stop of a unit that does not exist. -/
inductive AnswersIf (ok : Bool) : Host.Outcome State Fault Refusal → Prop
  | next (t : State) : AnswersIf ok (.next t)
  | missing (h : ok = false) : AnswersIf ok (.fault .noSuchUnit)

theorem AnswersIf.guard {ok : Bool} {c : Prop} [Decidable c] {o : Host.Outcome State Fault Refusal}
    (h : ok = true → ¬ c) (ho : AnswersIf ok o) : AnswersIf ok (if c then .fault .noSuchUnit else o) := by
  split
  case isTrue hc => exact .missing (Bool.eq_false_iff.2 fun hok => h hok hc)
  case isFalse => exact ho

theorem AnswersIf.ite {ok : Bool} {c : Prop} [Decidable c] {o o' : Host.Outcome State Fault Refusal}
    (ho : AnswersIf ok o) (ho' : AnswersIf ok o') : AnswersIf ok (if c then o else o') := by
  split
  · exact ho
  · exact ho'

theorem AnswersIf.iff {ok : Bool} {o : Host.Outcome State Fault Refusal} :
    AnswersIf ok o ↔ (ok = true → ∃ t, o = .next t) ∧ ((∃ t, o = .next t) ∨ o = .fault .noSuchUnit) := by
  constructor
  · rintro (t | h)
    · exact ⟨fun _ => ⟨t, rfl⟩, .inl ⟨t, rfl⟩⟩
    · exact ⟨fun hok => absurd (h.symm.trans hok) Bool.false_ne_true, .inr rfl⟩
  · rintro ⟨hn, ⟨t, rfl⟩ | rfl⟩
    · exact .next t
    · exact .missing (Bool.eq_false_iff.2 fun hok => by simpa using hn hok)

/-! ### The shared meanings -/

theorem State.ccRun_answersIf (cc : Nat) (s : State) (k : Nat → Thread → CcInstr → Option CcOut) :
    AnswersIf (decide (cc < 32)) (s.ccRun cc k) := by
  refine .guard (by simp) ?_
  (repeat' split) <;> exact .next _

theorem State.ccAluRow_answersIf (s : State) (cc fn : Nat) : AnswersIf (decide (cc < 32)) (s.ccAluRow cc fn) :=
  s.ccRun_answersIf cc _

theorem State.ccCaluRow_answersIf (s : State) (cc fn : Nat) : AnswersIf (decide (cc < 32)) (s.ccCaluRow cc fn) :=
  s.ccRun_answersIf cc _

theorem State.takeFrame_answersIf (s : State) (lane : Nat) (eaxc : Option Nat) (k : Nat → State → State) :
    AnswersIf (decide (lane < 16)) (s.takeFrame lane eaxc k) := by
  refine .guard (by simp) ?_
  (repeat' split) <;> exact .next _

theorem State.onSpdm_answersIf (s : State) (t : Nat) (ready : Spdm → Bool) (k : Spdm → State) :
    AnswersIf (decide (t < 5)) (s.onSpdm t ready k) :=
  .guard (by simp) (.ite (.next _) (.ite (.next _) (.next _)))

theorem State.inSession_answersIf (s : State) (t session : Nat) (k : Spdm → State) :
    AnswersIf (decide (t < 5)) (s.inSession t session k) :=
  s.onSpdm_answersIf t _ _

theorem execMctpControlMessage_answersIf (path : Path) (command value : Nat) (s : State) :
    AnswersIf (path.mctp && decide (command < 256) && decide (value < 256)) (execMctpControlMessage path command value s) := by
  refine .guard (by grind) ?_
  cases path with
  | i3c => exact .ite (.next _) (.next _)
  | vdm p => exact .guard (by grind [Path.mctp]) (.ite (.next _) (.next _))
  | window | fabric => exact .missing rfl

/-! ### Every command -/

/-- Every command answers under its range condition: a meaning stops in its check of the operands and nowhere else. -/
theorem exec_answersIf (i : Instr) (s : State) : AnswersIf i.wf (exec i s) := by
  cases i <;> dsimp only [exec, Instr.wf]
  case nop | halt | br | loop | loopx | brk | movi | mov | ld | st | ldx | stx | ldf | cmac | cmac4 | cmac4m | ftap | clra |
      sta | sta4 | rda =>
    exact s.ccRun_answersIf _ _
  case aluAdd | aluSub | aluAnd | aluOr | aluXor | aluShl | aluShrArithmetic | aluShrLogical | aluCmp =>
    exact s.ccAluRow_answersIf _ _
  case cadd | csub | conj | swapIq | cneg =>
    exact s.ccCaluRow_answersIf _ _
  case uplaneSectionReceive | cplaneReceive | ecpriDelayRequestReceive | ecpriDelayResponseReceive | ptpReceive | esmcReceive =>
    exact s.takeFrame_answersIf _ _ _
  case getVersion | getCapabilities | negotiateAlgorithms | getDigests | getCertificate | challenge | getMeasurements |
      keyExchange | finish | chunkSend | chunkGet =>
    exact s.onSpdm_answersIf _ _ _
  case endSession | heartbeat | keyUpdate | vendorDefinedRequest | lockInterface =>
    exact s.inSession_answersIf _ _ _
  case mctpControlMessage path command value => exact execMctpControlMessage_answersIf path command value s
  -- Rows that look a unit up before they branch: their lookups stand in the goal.
  case' radioCommandStart | exactCommandStart | commandEnd | takeoverBoundary | calendarWaitRelease | completionWrite |
      floatWaitMet | floatWaitTimeout | fenceLocal | fenceFabric | fabricStepIssue | channelCoreRun | pieceLand |
      memoryReadArrival | bucketPresent | ldxDataArrival | stxLanding | coreAcquire | energyReport | triggeredJobStart |
      storedWriteCommit | remoteDictTimeout | resetStart =>
    dsimp only [execRadioCommandStart, execExactCommandStart, execCommandEnd, execTakeoverBoundary, execCalendarWaitRelease,
      execCompletionWrite, execFloatWaitMet, execFloatWaitTimeout, execFenceLocal, execFenceFabric, execFabricStepIssue,
      execChannelCoreRun, execPieceLand, execMemoryReadArrival, execBucketPresent, execLdxDataArrival, execStxLanding,
      execCoreAcquire, execEnergyReport, execTriggeredJobStart, execStoredWriteCommit, execRemoteDictTimeout, execResetStart]
  -- Rows that check their operands first: operands in range pass.
  case' gutterStart | preludeStart | radioIntervalEnd | engineOffer | cellEntersCalendar | cellLeavesCalendar |
      latenessReport | windowWordWrite | recordConsume | creditWrite | moderationDelayExpiry | ldxDataArrival | ldfReply |
      ldfWaitExpiry | cellActivate | cellDeactivate | cellRecordUpdate | standbyCellWrite | stagingExpiry | frameDepart |
      syncTransmit | phaseMeasurement | referenceLossTimeout | servoRearm | functionResetEnd | retireAckTimeout |
      claimPreemption | saveStart | saveDone | restoreDone | refreshRun | refreshOwedTick | gddr7Scrub | fabricLaneDown |
      fabricLaneTrained | laneBlockReceive | sessionKeying | resendTimeout | missedBeatsDeclare | beat | beatAck | join |
      view | declare | fenceNotice | timeReq | pbeat | pstate | relinquish | claim | chunk | bitmap | vote | dictResp |
      holderClaim | holderRelease | holderTakeAway | watchdogExpiry | unitFence | pcieLinkDown | hotReset | perstAssert |
      vfFlr | pfFlr | d3hotToD0 | vfEnableClear | msixUnmask | correctableLinkError | poisonedWrite |
      hostReadCompletionError | fatalLinkError | coldPriming | warmPriming | railUndervoltage | fronthaulLaneDown |
      fronthaulLaneTrained | pcieLinkUp | perstDeassert | d3hotEntry | numvfsWrite =>
    refine .guard (by grind) ?_
  -- What is left branches on the state alone, and every branch ends in a next state.
  all_goals repeat' first | exact .next _ | apply AnswersIf.ite | split

/-- No command touches the queue or takes a store out of its canonical form: the arms of `exec`, each by its own law. -/
theorem exec_kept {s0 s : State} (hs : Kept s0 s) (i : Instr) : KeptO s0 (exec i s) :=
  match i with
  | .frameTick _ _ _ => execFrameTick_kept _ _ _ hs
  | .seamTimeout => execSeamTimeout_kept hs
  | .gutterStart _ => execGutterStart_kept _ hs
  | .preludeStart _ => execPreludeStart_kept _ hs
  | .radioIntervalEnd _ => execRadioIntervalEnd_kept _ hs
  | .engineOffer _ => execEngineOffer_kept _ hs
  | .radioCommandStart _ => execRadioCommandStart_kept _ hs
  | .exactCommandStart _ => execExactCommandStart_kept _ hs
  | .commandEnd _ => execCommandEnd_kept _ hs
  | .swapArmAtFrame _ => execSwapArmAtFrame_kept _ hs
  | .swapArmTakeover _ => execSwapArmTakeover_kept _ hs
  | .swapDisarm _ => execSwapDisarm_kept _ hs
  | .validationEnd => execValidationEnd_kept hs
  | .pageSwap => execPageSwap_kept hs
  | .takeoverBoundary => execTakeoverBoundary_kept hs
  | .cellEntersCalendar _ => execCellEntersCalendar_kept _ hs
  | .cellLeavesCalendar _ => execCellLeavesCalendar_kept _ hs
  | .latenessReport _ _ _ => execLatenessReport_kept _ _ _ hs
  | .calendarWaitRelease _ => execCalendarWaitRelease_kept _ hs
  | .windowWordWrite _ _ _ _ _ _ => execWindowWordWrite_kept _ _ _ _ _ _ hs
  | .recordConsume _ => execRecordConsume_kept _ hs
  | .creditWrite _ _ _ _ => execCreditWrite_kept _ _ _ _ hs
  | .completionWrite _ => execCompletionWrite_kept _ hs
  | .moderationDelayExpiry _ => execModerationDelayExpiry_kept _ hs
  | .contextOpen _ _ _ => execContextOpen_kept _ _ _ hs
  | .contextClose _ _ _ => execContextClose_kept _ _ _ hs
  | .contextNumberFreed _ => execContextNumberFreed_kept _ hs
  | .folios _ => execFolios_kept _ hs
  | .combine _ => execCombine_kept _ hs
  | .vectorAdd _ => execVectorAdd_kept _ hs
  | .vectorSub _ => execVectorSub_kept _ hs
  | .vectorMul _ => execVectorMul_kept _ hs
  | .vectorFma _ => execVectorFma_kept _ hs
  | .vectorMax _ => execVectorMax_kept _ hs
  | .vectorMin _ => execVectorMin_kept _ hs
  | .vectorAbs _ => execVectorAbs_kept _ hs
  | .vectorNeg _ => execVectorNeg_kept _ hs
  | .vectorCvt _ => execVectorCvt_kept _ hs
  | .vectorCmp _ => execVectorCmp_kept _ hs
  | .vectorSel _ => execVectorSel_kept _ hs
  | .vectorLogic _ => execVectorLogic_kept _ hs
  | .vectorDiv _ => execVectorDiv_kept _ hs
  | .vectorSqrt _ => execVectorSqrt_kept _ hs
  | .vectorRecip _ => execVectorRecip_kept _ hs
  | .vectorRsqrt _ => execVectorRsqrt_kept _ hs
  | .vectorExp _ => execVectorExp_kept _ hs
  | .vectorLog _ => execVectorLog_kept _ hs
  | .vectorSigmoid _ => execVectorSigmoid_kept _ hs
  | .vectorTanh _ => execVectorTanh_kept _ hs
  | .vectorSilu _ => execVectorSilu_kept _ hs
  | .vectorGelu _ => execVectorGelu_kept _ hs
  | .vectorSubexp _ => execVectorSubexp_kept _ hs
  | .vectorRsum _ => execVectorRsum_kept _ hs
  | .vectorRprod _ => execVectorRprod_kept _ hs
  | .vectorRmax _ => execVectorRmax_kept _ hs
  | .vectorRmin _ => execVectorRmin_kept _ hs
  | .vectorArgmax _ => execVectorArgmax_kept _ hs
  | .vectorArgmin _ => execVectorArgmin_kept _ hs
  | .vectorCount _ => execVectorCount_kept _ hs
  | .vectorPerm _ => execVectorPerm_kept _ hs
  | .vectorGather _ => execVectorGather_kept _ hs
  | .vectorScatter _ => execVectorScatter_kept _ hs
  | .quant _ => execQuant_kept _ hs
  | .pumpCopy _ => execPumpCopy_kept _ hs
  | .pumpTranspose _ => execPumpTranspose_kept _ hs
  | .floatWait _ => execFloatWait_kept _ hs
  | .floatWaitMet _ => execFloatWaitMet_kept _ hs
  | .floatWaitTimeout _ => execFloatWaitTimeout_kept _ hs
  | .floatSignalAdd _ => execFloatSignalAdd_kept _ hs
  | .floatSignalSet _ => execFloatSignalSet_kept _ hs
  | .fenceLocal _ => execFenceLocal_kept _ hs
  | .fenceFabric _ => execFenceFabric_kept _ hs
  | .fabricLoad _ => execFabricLoad_kept _ hs
  | .fabricStore _ => execFabricStore_kept _ hs
  | .atomicAdd _ => execAtomicAdd_kept _ hs
  | .atomicMin _ => execAtomicMin_kept _ hs
  | .atomicMax _ => execAtomicMax_kept _ hs
  | .atomicSwap _ => execAtomicSwap_kept _ hs
  | .atomicCompareSwap _ => execAtomicCompareSwap_kept _ hs
  | .copyIn _ => execCopyIn_kept _ hs
  | .copyOut _ => execCopyOut_kept _ hs
  | .fabricHandoff _ => execFabricHandoff_kept _ hs
  | .fabricRelease _ => execFabricRelease_kept _ hs
  | .remoteProcedureTrigger _ => execRemoteProcedureTrigger_kept _ hs
  | .fabricStepIssue _ => execFabricStepIssue_kept _ hs
  | .kvStep _ => execKvStep_kept _ hs
  | .sample _ => execSample_kept _ hs
  | .gatherRows _ => execGatherRows_kept _ hs
  | .gatherRoute _ => execGatherRoute_kept _ hs
  | .scatterOverwrite _ => execScatterOverwrite_kept _ hs
  | .scatterAddFp32 _ => execScatterAddFp32_kept _ hs
  | .scatterAddBf16 _ => execScatterAddBf16_kept _ hs
  | .ldpcDecode _ => execLdpcDecode_kept _ hs
  | .ldpcEncode _ => execLdpcEncode_kept _ hs
  | .turboEncode _ => execTurboEncode_kept _ hs
  | .polarDecode _ => execPolarDecode_kept _ hs
  | .reedMullerDecode _ => execReedMullerDecode_kept _ hs
  | .repetitionSimplexDecode _ => execRepetitionSimplexDecode_kept _ hs
  | .polarEncode _ => execPolarEncode_kept _ hs
  | .tbccEncode _ => execTbccEncode_kept _ hs
  | .viterbiDecode _ => execViterbiDecode_kept _ hs
  | .turboDecode _ => execTurboDecode_kept _ hs
  | .prachDetect _ => execPrachDetect_kept _ hs
  | .pucchFormat0Detect _ => execPucchFormat0Detect_kept _ hs
  | .pucchFormat1Detect _ => execPucchFormat1Detect_kept _ hs
  | .srsMeasure _ => execSrsMeasure_kept _ hs
  | .despread _ => execDespread_kept _ hs
  | .demap _ => execDemap_kept _ hs
  | .harqCombine _ => execHarqCombine_kept _ hs
  | .pilotTrack _ => execPilotTrack_kept _ hs
  | .radioSpinePumpJob _ => execRadioSpinePumpJob_kept _ hs
  | .radioFabricPumpJob _ => execRadioFabricPumpJob_kept _ hs
  | .deliver _ => execDeliver_kept _ hs
  | .uplaneTx _ => execUplaneTx_kept _ hs
  | .cplaneTx _ => execCplaneTx_kept _ hs
  | .rawTx _ => execRawTx_kept _ hs
  | .channelCoreRun _ => execChannelCoreRun_kept _ hs
  | .channelCoreFill _ => execChannelCoreFill_kept _ hs
  | .channelCoreDrain _ => execChannelCoreDrain_kept _ hs
  | .calendarWait _ => execCalendarWait_kept _ hs
  | .stamp _ => execStamp_kept _ hs
  | .calendarRelease _ => execCalendarRelease_kept _ hs
  | .calendarLoad _ _ => execCalendarLoad_kept _ _ hs
  | .pieceLand _ => execPieceLand_kept _ hs
  | .memoryReadArrival _ _ => execMemoryReadArrival_kept _ _ hs
  | .bucketPresent _ => execBucketPresent_kept _ hs
  | .cisternScrub => execCisternScrub_kept hs
  | .floatRangeWrite _ _ _ _ => execFloatRangeWrite_kept _ _ _ _ hs
  | .landingZoneSizeWrite _ _ _ => execLandingZoneSizeWrite_kept _ _ _ hs
  | .nop _ => execNop_kept _ hs
  | .halt _ => execHalt_kept _ hs
  | .br _ => execBr_kept _ hs
  | .loop _ => execLoop_kept _ hs
  | .loopx _ => execLoopx_kept _ hs
  | .brk _ => execBrk_kept _ hs
  | .movi _ => execMovi_kept _ hs
  | .mov _ => execMov_kept _ hs
  | .aluAdd _ => execAluAdd_kept _ hs
  | .aluSub _ => execAluSub_kept _ hs
  | .aluAnd _ => execAluAnd_kept _ hs
  | .aluOr _ => execAluOr_kept _ hs
  | .aluXor _ => execAluXor_kept _ hs
  | .aluShl _ => execAluShl_kept _ hs
  | .aluShrArithmetic _ => execAluShrArithmetic_kept _ hs
  | .aluShrLogical _ => execAluShrLogical_kept _ hs
  | .aluCmp _ => execAluCmp_kept _ hs
  | .cadd _ => execCadd_kept _ hs
  | .csub _ => execCsub_kept _ hs
  | .conj _ => execConj_kept _ hs
  | .swapIq _ => execSwapIq_kept _ hs
  | .cneg _ => execCneg_kept _ hs
  | .ld _ => execLd_kept _ hs
  | .st _ => execSt_kept _ hs
  | .ldx _ => execLdx_kept _ hs
  | .ldxDataArrival _ _ => execLdxDataArrival_kept _ _ hs
  | .stx _ => execStx_kept _ hs
  | .stxLanding _ => execStxLanding_kept _ hs
  | .ldf _ => execLdf_kept _ hs
  | .ldfReply _ _ _ _ => execLdfReply_kept _ _ _ _ hs
  | .ldfWaitExpiry _ _ => execLdfWaitExpiry_kept _ _ hs
  | .cmac _ => execCmac_kept _ hs
  | .cmac4 _ => execCmac4_kept _ hs
  | .cmac4m _ => execCmac4m_kept _ hs
  | .ftap _ => execFtap_kept _ hs
  | .clra _ => execClra_kept _ hs
  | .sta _ => execSta_kept _ hs
  | .sta4 _ => execSta4_kept _ hs
  | .rda _ => execRda_kept _ hs
  | .cellActivate _ _ => execCellActivate_kept _ _ hs
  | .cellDeactivate _ _ => execCellDeactivate_kept _ _ hs
  | .crbWrite _ _ => execCrbWrite_kept _ _ hs
  | .cellRecordUpdate _ => execCellRecordUpdate_kept _ hs
  | .standbyCellWrite _ _ _ => execStandbyCellWrite_kept _ _ _ hs
  | .groupModeWrite _ _ _ => execGroupModeWrite_kept _ _ _ hs
  | .uplaneSectionReceive _ _ => execUplaneSectionReceive_kept _ _ hs
  | .cplaneReceive _ => execCplaneReceive_kept _ hs
  | .ecpriDelayRequestReceive _ _ _ => execEcpriDelayRequestReceive_kept _ _ _ hs
  | .ecpriDelayResponseReceive _ _ _ _ _ _ => execEcpriDelayResponseReceive_kept _ _ _ _ _ _ hs
  | .ptpReceive _ _ => execPtpReceive_kept _ _ hs
  | .esmcReceive _ _ => execEsmcReceive_kept _ _ hs
  | .stagingExpiry _ => execStagingExpiry_kept _ hs
  | .frameDepart _ _ => execFrameDepart_kept _ _ hs
  | .ppsEdge _ _ => execPpsEdge_kept _ _ hs
  | .syncTransmit _ => execSyncTransmit_kept _ hs
  | .ptmExchange _ _ => execPtmExchange_kept _ _ hs
  | .phaseMeasurement _ _ => execPhaseMeasurement_kept _ _ hs
  | .referenceLossTimeout _ => execReferenceLossTimeout_kept _ hs
  | .servoRearm _ _ => execServoRearm_kept _ _ hs
  | .crossSnapshot _ => execCrossSnapshot_kept _ hs
  | .grantCreate _ _ => execGrantCreate_kept _ _ hs
  | .grantDestroy _ _ => execGrantDestroy_kept _ _ hs
  | .grantComponentWrite _ _ _ _ => execGrantComponentWrite_kept _ _ _ _ hs
  | .functionResetRequest _ _ => execFunctionResetRequest_kept _ _ hs
  | .functionResetEnd _ => execFunctionResetEnd_kept _ hs
  | .retireAckTimeout _ => execRetireAckTimeout_kept _ hs
  | .radioOwnerWrite _ _ => execRadioOwnerWrite_kept _ _ hs
  | .coreAcquire _ => execCoreAcquire_kept _ hs
  | .coreRelease _ _ _ => execCoreRelease_kept _ _ _ hs
  | .preemptRequest _ _ => execPreemptRequest_kept _ _ hs
  | .claimPreemption _ => execClaimPreemption_kept _ hs
  | .saveStart _ => execSaveStart_kept _ hs
  | .saveDone _ => execSaveDone_kept _ hs
  | .restoreDone _ => execRestoreDone_kept _ hs
  | .energyWindowStart _ => execEnergyWindowStart_kept _ hs
  | .energyReport _ _ => execEnergyReport_kept _ _ hs
  | .standingReserveRaise => execStandingReserveRaise_kept hs
  | .standingReserveLower => execStandingReserveLower_kept hs
  | .powerLimitWrite _ _ => execPowerLimitWrite_kept _ _ hs
  | .refreshRun _ => execRefreshRun_kept _ hs
  | .refreshOwedTick _ => execRefreshOwedTick_kept _ hs
  | .gddr7Scrub _ _ _ => execGddr7Scrub_kept _ _ _ hs
  | .fabricLaneDown _ => execFabricLaneDown_kept _ hs
  | .fabricLaneTrained _ _ => execFabricLaneTrained_kept _ _ hs
  | .laneBlockReceive _ _ _ _ _ _ => execLaneBlockReceive_kept _ _ _ _ _ _ hs
  | .laneRoleWrite _ _ _ => execLaneRoleWrite_kept _ _ _ hs
  | .sessionKeying _ _ => execSessionKeying_kept _ _ hs
  | .loadReq _ => execLoadReq_kept _ hs
  | .loadData _ => execLoadData_kept _ hs
  | .store _ => execStore_kept _ hs
  | .atomic _ => execAtomic_kept _ hs
  | .atomicResult _ => execAtomicResult_kept _ hs
  | .atomicLineWriteBack _ => execAtomicLineWriteBack_kept _ hs
  | .copyReq _ => execCopyReq_kept _ hs
  | .copyData _ => execCopyData_kept _ hs
  | .handoff _ => execHandoff_kept _ hs
  | .ownerNotice _ => execOwnerNotice_kept _ hs
  | .trigger _ => execTrigger_kept _ hs
  | .triggeredJobStart _ => execTriggeredJobStart_kept _ hs
  | .triggerDone _ => execTriggerDone_kept _ hs
  | .ack _ => execAck_kept _ hs
  | .refuse _ => execRefuse_kept _ hs
  | .retire _ => execRetire_kept _ hs
  | .block _ => execBlock_kept _ hs
  | .resendTimeout _ _ _ => execResendTimeout_kept _ _ _ hs
  | .endpointControlWrite _ _ _ => execEndpointControlWrite_kept _ _ _ hs
  | .regionControlWrite _ _ _ => execRegionControlWrite_kept _ _ _ hs
  | .procedureControlWrite _ _ _ => execProcedureControlWrite_kept _ _ _ hs
  | .beatSend => execBeatSend_kept hs
  | .joinResend => execJoinResend_kept hs
  | .pbeatSend => execPbeatSend_kept hs
  | .timeReqSend => execTimeReqSend_kept hs
  | .missedBeatsDeclare _ => execMissedBeatsDeclare_kept _ hs
  | .selfFence => execSelfFence_kept hs
  | .standbyPromotion => execStandbyPromotion_kept hs
  | .masterListenExpiry => execMasterListenExpiry_kept hs
  | .viewRepeat => execViewRepeat_kept hs
  | .partnerUnprotectedTimeout => execPartnerUnprotectedTimeout_kept hs
  | .shipmentStart => execShipmentStart_kept hs
  | .cellsStop => execCellsStop_kept hs
  | .beat _ _ _ _ => execBeat_kept _ _ _ _ hs
  | .beatAck _ _ => execBeatAck_kept _ _ hs
  | .join _ _ _ => execJoin_kept _ _ _ hs
  | .view _ _ _ _ _ _ _ => execView_kept _ _ _ _ _ _ _ hs
  | .declare _ _ _ _ => execDeclare_kept _ _ _ _ hs
  | .fenceNotice _ => execFenceNotice_kept _ hs
  | .timeReq _ _ _ => execTimeReq_kept _ _ _ hs
  | .timeResp _ _ _ _ => execTimeResp_kept _ _ _ _ hs
  | .pbeat _ _ => execPbeat_kept _ _ hs
  | .pstate _ _ _ _ => execPstate_kept _ _ _ _ hs
  | .relinquish _ => execRelinquish_kept _ hs
  | .claim _ => execClaim_kept _ hs
  | .chunk _ _ _ _ _ => execChunk_kept _ _ _ _ _ hs
  | .bitmap _ _ => execBitmap_kept _ _ hs
  | .prepare _ _ => execPrepare_kept _ _ hs
  | .vote _ _ => execVote_kept _ _ hs
  | .commit _ => execCommit_kept _ hs
  | .abort _ => execAbort_kept _ hs
  | .commitTimeout => execCommitTimeout_kept hs
  | .dictReq _ _ _ => execDictReq_kept _ _ _ hs
  | .dictResp _ _ _ => execDictResp_kept _ _ _ hs
  | .handBackWrite _ _ => execHandBackWrite_kept _ _ hs
  | .expel _ _ => execExpel_kept _ _ hs
  | .readmit _ _ => execReadmit_kept _ _ hs
  | .configuredMasterWrite _ _ => execConfiguredMasterWrite_kept _ _ hs
  | .firmwareDistributionStart _ _ _ => execFirmwareDistributionStart_kept _ _ _ hs
  | .dictRead _ _ _ _ _ _ => execDictRead_kept _ _ _ _ _ _ hs
  | .dictInfo _ _ _ _ => execDictInfo_kept _ _ _ _ hs
  | .objectWrite _ _ _ _ _ _ => execObjectWrite_kept _ _ _ _ _ _ hs
  | .dictLatchExpiry _ => execDictLatchExpiry_kept _ hs
  | .storedWriteCommit _ => execStoredWriteCommit_kept _ hs
  | .remoteDictSubmit _ _ => execRemoteDictSubmit_kept _ _ hs
  | .remoteDictRetry => execRemoteDictRetry_kept hs
  | .remoteDictTimeout => execRemoteDictTimeout_kept hs
  | .mctpControlMessage _ _ _ => execMctpControlMessage_kept _ _ _ hs
  | .holderClaim _ _ _ _ => execHolderClaim_kept _ _ _ _ hs
  | .holderRelease _ _ _ => execHolderRelease_kept _ _ _ hs
  | .holderTakeAway _ _ _ _ => execHolderTakeAway_kept _ _ _ _ hs
  | .watchdogArm _ _ _ => execWatchdogArm_kept _ _ _ hs
  | .watchdogKick _ _ => execWatchdogKick_kept _ _ hs
  | .watchdogExpiry _ => execWatchdogExpiry_kept _ hs
  | .gpioControlWrite _ _ _ => execGpioControlWrite_kept _ _ _ hs
  | .ledgerRead _ _ _ _ => execLedgerRead_kept _ _ _ _ hs
  | .healthScoreUpdate => execHealthScoreUpdate_kept hs
  | .unitFence _ => execUnitFence_kept _ hs
  | .pcieLinkDown _ => execPcieLinkDown_kept _ hs
  | .hotReset _ => execHotReset_kept _ hs
  | .perstAssert _ => execPerstAssert_kept _ hs
  | .vfFlr _ => execVfFlr_kept _ hs
  | .pfFlr _ => execPfFlr_kept _ hs
  | .d3hotToD0 _ => execD3hotToD0_kept _ hs
  | .vfEnableClear _ => execVfEnableClear_kept _ hs
  | .ptmEnableClear => execPtmEnableClear_kept hs
  | .msixUnmask _ _ => execMsixUnmask_kept _ _ hs
  | .noticeClear _ _ _ => execNoticeClear_kept _ _ _ hs
  | .correctableLinkError _ => execCorrectableLinkError_kept _ hs
  | .poisonedWrite _ _ => execPoisonedWrite_kept _ _ hs
  | .hostReadCompletionError _ _ _ => execHostReadCompletionError_kept _ _ _ hs
  | .fatalLinkError _ => execFatalLinkError_kept _ hs
  | .getVersion _ => execGetVersion_kept _ hs
  | .getCapabilities _ => execGetCapabilities_kept _ hs
  | .negotiateAlgorithms _ _ => execNegotiateAlgorithms_kept _ _ hs
  | .getDigests _ => execGetDigests_kept _ hs
  | .getCertificate _ _ _ _ => execGetCertificate_kept _ _ _ _ hs
  | .challenge _ _ => execChallenge_kept _ _ hs
  | .getMeasurements _ _ _ => execGetMeasurements_kept _ _ _ hs
  | .keyExchange _ => execKeyExchange_kept _ hs
  | .finish _ _ _ => execFinish_kept _ _ _ hs
  | .endSession _ _ => execEndSession_kept _ _ hs
  | .heartbeat _ _ => execHeartbeat_kept _ _ hs
  | .keyUpdate _ _ => execKeyUpdate_kept _ _ hs
  | .chunkSend _ _ _ => execChunkSend_kept _ _ _ hs
  | .chunkGet _ _ => execChunkGet_kept _ _ hs
  | .vendorDefinedRequest _ _ _ _ _ => execVendorDefinedRequest_kept _ _ _ _ _ hs
  | .lockInterface _ _ _ _ => execLockInterface_kept _ _ _ _ hs
  | .svnCommit _ => execSvnCommit_kept _ hs
  | .unlockNonceRead _ => execUnlockNonceRead_kept _ hs
  | .unlockTokenWrite _ _ => execUnlockTokenWrite_kept _ _ hs
  | .entropyFailure => execEntropyFailure_kept hs
  | .timingModeWrite _ _ => execTimingModeWrite_kept _ _ hs
  | .timingModeChange => execTimingModeChange_kept hs
  | .pwrGoodRise => execPwrGoodRise_kept hs
  | .pwrGoodFall => execPwrGoodFall_kept hs
  | .sysResetNDeassert => execSysResetNDeassert_kept hs
  | .resetRequestWarm _ => execResetRequestWarm_kept _ hs
  | .resetRequestCold _ => execResetRequestCold_kept _ hs
  | .resetStart => execResetStart_kept hs
  | .coldPriming _ => execColdPriming_kept _ hs
  | .warmPriming _ => execWarmPriming_kept _ hs
  | .railUndervoltage _ => execRailUndervoltage_kept _ hs
  | .serRefclkLoss => execSerRefclkLoss_kept hs
  | .thermalTrip => execThermalTrip_kept hs
  | .fronthaulLaneDown _ => execFronthaulLaneDown_kept _ hs
  | .fronthaulLaneTrained _ => execFronthaulLaneTrained_kept _ hs
  | .pcieLinkUp _ _ _ => execPcieLinkUp_kept _ _ _ hs
  | .perstDeassert _ => execPerstDeassert_kept _ hs
  | .sysResetNAssert => execSysResetNAssert_kept hs
  | .d3hotEntry _ => execD3hotEntry_kept _ hs
  | .numvfsWrite _ _ _ => execNumvfsWrite_kept _ _ _ hs
  | .entropyTestPass => execEntropyTestPass_kept hs
  | .vddIo18InTolerance => execVddIo18InTolerance_kept hs
  | .vddAonLoss => execVddAonLoss_kept hs

/-! ### Steps -/

/-- The invariant: the command at the front answers, and no command puts another into the queue. -/
theorem step_keeps_queueWf {s : State} (h : s.queueWf = true) : ∃ t, step s = .next t ∧ t.queueWf = true := by
  unfold State.queueWf step at *
  cases hp : s.pending with
  | nil => exact ⟨s.tick, rfl, by simp [(State.tick_kept .rfl).pending, hp]⟩
  | cons i rest =>
    rw [hp, List.all_cons, Bool.and_eq_true] at h
    obtain ⟨hi, hrest⟩ := h
    obtain ⟨t, ht⟩ := (AnswersIf.iff.1 (exec_answersIf i { s with pending := rest })).1 hi
    have hq : t.pending = rest := (exec_kept .rfl i t ht).pending
    exact ⟨t, ht, by rw [hq, hrest]⟩

/-- Settles O3: every command answers under its range condition (`exec_answersIf`). -/
theorem onlyMissingUnitsStop : Obligations.OnlyMissingUnitsStop := by
  intro i s
  exact AnswersIf.iff.1 (exec_answersIf i s)

/-- Settles O5, by induction on the number of steps with the invariant of `step_keeps_queueWf`. -/
theorem wellFormedQueueRunsSafely : Obligations.WellFormedQueueRunsSafely := by
  intro n
  induction n with
  | zero => exact fun s _ => trivial
  | succ n ih =>
    intro s h
    obtain ⟨t, ht, hq⟩ := step_keeps_queueWf h
    exact ⟨t, ht, ih t hq⟩

end Sys2Proof.Machine
end

section
/-!
PROOFS. The tick that starts a frame (O20).
-/

namespace Sys2Proof.Machine

/-! ### What an error and the temperatures leave alone -/

/-- t has the work and the frame of s: memory, floats, commands, engines, contexts, the core cycle, the correction mode in force,
the calendar, and the global objects from 0x2400 up to a place, counted as `index * 256 + sub`. -/
structure KeepsFrame (place : Nat) (s t : State) : Prop where
  mem     : t.mem = s.mem
  floats  : t.floats = s.floats
  cmds    : t.cmds = s.cmds
  engines : t.engines = s.engines
  ctxs    : t.ctxs = s.ctxs
  cycle   : t.cycle = s.cycle
  eccMode : t.eccMode = s.eccMode
  cal     : t.cal = s.cal
  obj     : ∀ index sub, 0x2400 ≤ index → index * 256 + sub < place → t.g index sub = s.g index sub

/-- The place of G:0x8000: what an error writes lies there and beyond, or in G:0x1133. -/
def logPlace : Nat := 0x8000 * 256

namespace KeepsFrame

variable {place : Nat} {s t u : State}

theorem refl : KeepsFrame place s s :=
  ⟨rfl, rfl, rfl, rfl, rfl, rfl, rfl, rfl, fun _ _ _ _ => rfl⟩

theorem trans (h : KeepsFrame place s t) (k : KeepsFrame place t u) : KeepsFrame place s u :=
  ⟨k.mem.trans h.mem, k.floats.trans h.floats, k.cmds.trans h.cmds, k.engines.trans h.engines, k.ctxs.trans h.ctxs,
    k.cycle.trans h.cycle, k.eccMode.trans h.eccMode, k.cal.trans h.cal,
    fun i j hi hj => (k.obj i j hi hj).trans (h.obj i j hi hj)⟩

theorem mono {place' : Nat} (hle : place' ≤ place) (h : KeepsFrame place s t) : KeepsFrame place' s t :=
  { h with obj := fun i j hi hj => h.obj i j hi (Nat.lt_of_lt_of_le hj hle) }

/-- A write of a global object outside of the range. -/
theorem setG {index sub : Nat} (v : Nat) (hout : place ≤ index * 256 + sub ∨ index * 256 + sub < 0x2400 * 256)
    (h : KeepsFrame place s t) : KeepsFrame place s (t.setG index sub v) :=
  { h with obj := fun i j hi hj => (State.g_setG_other t v (by unfold objKey; omega)).trans (h.obj i j hi hj) }

theorem addG {index sub : Nat} (n : Nat) (hout : place ≤ index * 256 + sub ∨ index * 256 + sub < 0x2400 * 256)
    (h : KeepsFrame place s t) : KeepsFrame place s (t.addG index sub n) :=
  h.setG _ hout

/-- A change of none of the fields that are kept. -/
theorem upd (h : KeepsFrame place s t) (hobj : u.obj = t.obj) (hmem : u.mem = t.mem) (hfloats : u.floats = t.floats)
    (hcmds : u.cmds = t.cmds) (hengines : u.engines = t.engines) (hctxs : u.ctxs = t.ctxs) (hcycle : u.cycle = t.cycle)
    (hecc : u.eccMode = t.eccMode) (hcal : u.cal = t.cal) : KeepsFrame place s u :=
  h.trans ⟨hmem, hfloats, hcmds, hengines, hctxs, hcycle, hecc, hcal, fun i j _ _ => by simp only [State.g, State.o, hobj]⟩

theorem msix (f v : Nat) (h : KeepsFrame place s t) : KeepsFrame place s (t.msix f v) := by
  unfold State.msix
  split
  · split
    · exact h
    · exact h.upd rfl rfl rfl rfl rfl rfl rfl rfl rfl
  · split
    · exact h.upd rfl rfl rfl rfl rfl rfl rfl rfl rfl
    · exact h.addG 1 (.inr (by unfold portOf; split <;> omega))

theorem countError (code : Nat) (h : KeepsFrame logPlace s t) : KeepsFrame logPlace s (t.countError code) := by
  unfold State.countError
  split
  · exact addG 1 (.inl (by decide)) (h.upd rfl rfl rfl rfl rfl rfl rfl rfl rfl)
  · exact addG 1 (.inl (by decide)) (h.upd rfl rfl rfl rfl rfl rfl rfl rfl rfl)

/-- An error is counted, logged and signalled (R542, R543). -/
theorem raise (code source func detail : Nat) (h : KeepsFrame logPlace s t) :
    KeepsFrame logPlace s (t.raise code source func detail) := by
  have hcount := h.countError code
  unfold State.raise
  generalize t.countError code = u at hcount
  dsimp only
  split
  · exact hcount.setG _ (.inl (by unfold logPlace; omega))
  · have hfull : KeepsFrame logPlace s (if 64 ≤ u.logNext then u.addG 0x8000 5 1 else u) := by
      split
      · exact hcount.addG 1 (.inl (by decide))
      · exact hcount
    generalize (if 64 ≤ u.logNext then u.addG 0x8000 5 1 else u) = w at hfull
    have hentry := hfull.setG (logEntry w code source func detail) (index := 0x8011) (sub := u.logNext % 64 + 1)
      (.inl (by unfold logPlace; omega))
    have hlast := hentry.setG (u.logNext % 64) (index := 0x8000) (sub := 7) (.inl (by decide))
    exact msix _ _ (msix _ _ (hlast.upd rfl rfl rfl rfl rfl rfl rfl rfl rfl))

/-- A temperature that is too high is raised. -/
theorem raiseTemp (v : Int) (k : Nat) (h : KeepsFrame logPlace s t) :
    KeepsFrame logPlace s (if 24320 < v then t.raise ErrCode.gddr7Hot none16 none16 k
      else if 21760 < v then t.raise ErrCode.gddr7Warm none16 none16 k else t) := by
  split
  · exact h.raise ..
  · split
    · exact h.raise ..
    · exact h

end KeepsFrame

/-! ### The temperatures of a frame -/

theorem objMod_temperature : ∀ k < 16, objMod 1023 0x6005 (k + 1) = 2 ^ 16 := by decide +kernel

theorem unsgn_lt (n : Nat) (x : Int) : unsgn n x < 2 ^ n := by
  have := Int.emod_lt_of_pos x (b := (2 ^ n : Nat)) (Int.natCast_pos.2 (Nat.two_pow_pos n))
  unfold unsgn; omega

/-- Reading temperatures from the k-th on writes G:0x6005 from there on and the error log (R404). -/
theorem State.readTemps_keeps (temps : List Int) (k : Nat) (s : State) (hk : k + temps.length ≤ 16) :
    KeepsFrame (0x6005 * 256 + k + 1) s (s.readTemps (temps.zipIdx k)) := by
  induction temps generalizing k s with
  | nil => exact .refl
  | cons v temps ih =>
    rw [List.length_cons] at hk
    have hset : KeepsFrame (0x6005 * 256 + k + 1) s (s.setG 0x6005 (k + 1) (unsgn 16 v)) := .setG _ (.inl (by omega)) .refl
    have hraise := KeepsFrame.raiseTemp (t := s.setG 0x6005 (k + 1) (unsgn 16 v)) v k .refl
    exact (hset.trans (hraise.mono (by unfold logPlace; omega))).trans ((ih (k + 1) _ (by omega)).mono (by omega))

/-- Every temperature read is in its object. -/
theorem State.g_readTemps (temps : List Int) (k i : Nat) (s : State) (hk : k + temps.length ≤ 16) (hi : i < temps.length) :
    (s.readTemps (temps.zipIdx k)).g 0x6005 (k + i + 1) = unsgn 16 (temps.getD i 0) := by
  induction temps generalizing k i s with
  | nil => exact absurd hi (Nat.not_lt_zero i)
  | cons v temps ih =>
    rw [List.length_cons] at hk hi
    cases i with
    | zero =>
      have hraise := KeepsFrame.raiseTemp (t := s.setG 0x6005 (k + 1) (unsgn 16 v)) v k .refl
      refine ((State.readTemps_keeps temps (k + 1) _ (by omega)).obj _ _ (by omega) (by omega)).trans
        ((hraise.obj _ _ (by omega) (by unfold logPlace; omega)).trans ?_)
      rw [State.g_setG, objMod_temperature k (by omega), Nat.mod_eq_of_lt (unsgn_lt 16 v), List.getD_cons_zero]
    | succ i =>
      rw [show k + (i + 1) + 1 = k + 1 + i + 1 by omega, List.getD_cons_succ]
      exact ih (k + 1) i _ (by omega) (by omega)

/-! ### The start of a frame -/

theorem objMod_frame : objMod 1023 0x2400 2 = 2 ^ 64 := by decide +kernel
theorem objMod_seam : objMod 1023 0x2406 3 = 65536 := by decide +kernel

theorem State.frame_beginFrame (s : State) {f : Nat} (seam : Nat) (hf : f < 2 ^ 64) : (s.beginFrame f seam).frame = f := by
  have hget : (s.beginFrame f seam).frame = ((s.setG 0x2400 2 f).setG 0x2406 3 seam).g 0x2400 2 := rfl
  rw [hget, State.g_setG_other _ _ (by decide), State.g_setG, objMod_frame, Nat.mod_eq_of_lt hf]

theorem State.seam_beginFrame (s : State) (f seam : Nat) : (s.beginFrame f seam).g 0x2406 3 = seam % 65536 := by
  have hget : (s.beginFrame f seam).g 0x2406 3 = ((s.setG 0x2400 2 f).setG 0x2406 3 seam).g 0x2406 3 := rfl
  rw [hget, State.g_setG, objMod_seam]

/-- The correction mode written since comes into force (R395). -/
theorem State.eccMode_beginFrame (s : State) (f seam : Nat) : (s.beginFrame f seam).eccMode = s.g 0x6003 3 := by
  have hget : (s.beginFrame f seam).eccMode = ((s.setG 0x2400 2 f).setG 0x2406 3 seam).g 0x6003 3 := rfl
  rw [hget, State.g_setG_other _ _ (by decide), State.g_setG_other _ _ (by decide)]

/-- A shipment that the frame's end cuts off is dropped and counted (R453). -/
theorem State.closeShipment_eq (s : State) : ∃ d o, s.closeShipment = { s with domain := d, obj := o } := by
  unfold State.closeShipment
  split <;> exact ⟨_, _, rfl⟩

theorem State.g_closeShipment (s : State) : s.closeShipment.g 0x6003 3 = s.g 0x6003 3 := by
  unfold State.closeShipment
  split
  · rfl
  · exact State.g_addG_other _ 1 (by decide)

/-- The state in which a tick has begun the frame f, before it reads the temperatures. -/
def State.tickBegins (s : State) (f seam : Nat) : State :=
  let t := ({ s with cal := { s.cal with lastTick := f } } : State).closeShipment.beginFrame f seam
  { t with cal := { t.cal with freeRun := false } }

theorem State.frame_tickBegins (s : State) {f : Nat} (seam : Nat) (hf : f < 2 ^ 64) : (s.tickBegins f seam).frame = f :=
  State.frame_beginFrame (State.closeShipment { s with cal := { s.cal with lastTick := f } }) seam hf

theorem State.seam_tickBegins (s : State) (f seam : Nat) : (s.tickBegins f seam).g 0x2406 3 = seam % 65536 :=
  State.seam_beginFrame (State.closeShipment { s with cal := { s.cal with lastTick := f } }) f seam

theorem State.eccMode_tickBegins (s : State) (f seam : Nat) : (s.tickBegins f seam).eccMode = s.g 0x6003 3 :=
  let u : State := { s with cal := { s.cal with lastTick := f } }
  (u.closeShipment.eccMode_beginFrame f seam).trans u.g_closeShipment

/-- The calendar keeps its pages; what was of the old frame is gone (R33, R61). -/
theorem State.tickBegins_eq (s : State) (f seam : Nat) : ∃ d o m, s.tickBegins f seam =
    { s with domain := d, obj := o, eccMode := m, cycle := 0,
             cal := { s.cal with released := [], charged := [], stepSeam := s.cal.stepNext, stepNext := false
                                 freeRun := false, lastTick := f } } := by
  obtain ⟨d, o, hship⟩ := State.closeShipment_eq { s with cal := { s.cal with lastTick := f } }
  unfold State.tickBegins
  rw [hship]
  exact ⟨d, _, _, rfl⟩

/-! ### Which ticks act -/

/-- A seam is open to a tick by its age (R25, R28). -/
theorem State.seamOpen_iff (s : State) : s.seamOpen = true ↔ 1799550 ≤ s.cycle ∧
    (if s.cal.stepSeam then s.seamAge < 1800450 else 225 ≤ s.seamAge ∧ s.seamAge < 675) := by
  unfold State.seamOpen seamStart
  cases s.cal.stepSeam <;> simp

/-- Outside of the seam a tick is too early or too late (R25, R27). -/
theorem State.seamOpen_eq_false {s : State} (h : s.cycle < 1799550 ∨
    (if s.cal.stepSeam then 1800450 ≤ s.seamAge else s.seamAge < 225 ∨ 675 ≤ s.seamAge)) : s.seamOpen = false := by
  rw [← Bool.not_eq_true, State.seamOpen_iff]
  rintro ⟨hc, hage⟩
  cases hwait : s.cal.stepSeam
  all_goals
    simp only [hwait, Bool.false_eq_true, if_true, if_false] at h hage
    omega

/-- A tick of the frame that TB0 is in, at the age that its seam has, begins the frame or is discarded (R19, R23, R25). -/
theorem execFrameTick_now {s : State} (temps : List Int) (hu : s.up = true) (hd : s.tickFrame ≠ s.cal.lastTick) :
    execFrameTick s.tickFrame s.seamAge temps s = .next
      (if s.seamOpen then (s.tickBegins s.tickFrame s.seamAge).readTemps (temps.take 16).zipIdx
      else { s with cal := { s.cal with lastTick := s.tickFrame } }) := by
  have hnow : (s.up && s.tickDue && s.tickFrame == s.tickFrame && s.seamAge == s.seamAge) = true := by
    simp [hu, State.tickDue, hd]
  unfold execFrameTick
  rw [if_pos hnow]
  split <;> rfl

/-- Settles O20: in an open seam the frame begins (`State.tickBegins_eq`), and the temperatures read then keep it. -/
theorem frameTickStartsAFrame : Obligations.FrameTickStartsAFrame := by
  intro temps s hu hd f seam
  have htick : exec (.frameTick f seam temps) s = _ := execFrameTick_now temps hu hd
  refine ⟨fun hf hc hseam => ?_, fun hout => ?_⟩
  · rw [if_pos (s.seamOpen_iff.2 ⟨hc, hseam⟩)] at htick
    have hlen : 0 + (temps.take 16).length ≤ 16 := by rw [List.length_take]; omega
    obtain ⟨d, o, m, hbegins⟩ := s.tickBegins_eq f seam
    obtain ⟨hmem, hfloats, hcmds, hengines, hctxs, hcycle, hecc, hcal, hobj⟩ :=
      (s.tickBegins f seam).readTemps_keeps (temps.take 16) 0 hlen
    refine ⟨_, htick, ?frame, ?cycle, ?seam, ?ecc, ?cal, fun k hk => ?temps, ?mem, ?floats, ?cmds, ?engines, ?ctxs⟩
    case frame => exact (hobj 0x2400 2 (by omega) (by omega)).trans (s.frame_tickBegins seam hf)
    case seam => exact (hobj 0x2406 3 (by omega) (by omega)).trans (s.seam_tickBegins f seam)
    case ecc => exact hecc.trans (s.eccMode_tickBegins f seam)
    case temps =>
      have hread := (s.tickBegins f seam).g_readTemps (temps.take 16) 0 k hlen (by rw [List.length_take]; exact hk)
      rw [Nat.zero_add, List.getD_eq_getElem?_getD, List.getElem?_take_of_lt (by omega), ← List.getD_eq_getElem?_getD] at hread
      exact hread
    case cycle => exact hcycle.trans (by rw [hbegins])
    case cal => exact hcal.trans (by rw [hbegins])
    case mem => exact hmem.trans (by rw [hbegins])
    case floats => exact hfloats.trans (by rw [hbegins])
    case cmds => exact hcmds.trans (by rw [hbegins])
    case engines => exact hengines.trans (by rw [hbegins])
    case ctxs => exact hctxs.trans (by rw [hbegins])
  · rw [State.seamOpen_eq_false hout] at htick
    exact htick

end Sys2Proof.Machine
end

section
/-!
PROOFS. One core cycle (O2): how far the time bases go, and that ending heads that no gap fits leaves the clocks alone.
-/

namespace Sys2Proof.Machine

/-! ### The time bases (R314, R316, R319) -/

theorem spread_bounds (n v : Nat) : -(n : Int) ≤ spread n v ∧ spread n v ≤ n := by
  have := Nat.mod_lt v (show 0 < 2 * n + 1 by omega)
  unfold spread; omega

theorem State.rate_bounds (s : State) (n : Nat) : -100000000 ≤ s.rate n ∧ s.rate n ≤ 100000000 := by
  unfold State.rate; omega

/-- In one core cycle a time base goes 36,404 to 36,414 units of 2^-16 ns, whatever part of a unit it had. -/
theorem State.goes_bounds (s : State) (n part : Nat) :
    36404 ≤ (part % 9000000000000 + s.goes n) / 9000000000000 ∧
      (part % 9000000000000 + s.goes n) / 9000000000000 ≤ 36414 := by
  have hrate := s.rate_bounds n
  have hcore := spread_bounds 20000000 (Config.oscillator 4 (s.tb2us / 1000000))
  unfold State.goes State.coreRate
  omega

theorem State.time_tickBases {s : State} {n : Nat} (hn : n < s.tb.length) (h4 : n < 4) :
    s.tickBases.time n = s.time n + ((s.servo.getD n {}).frac % 9000000000000 + s.goes n) / 9000000000000 := by
  simp only [State.time, State.tickBases, List.getD_eq_getElem?_getD, List.getElem?_map, List.getElem?_zipIdx,
    List.getElem?_eq_getElem hn, List.getElem?_range h4, Option.map_some, Option.getD_some, Nat.zero_add]

/-! ### What passes in the cycle before its heads are checked -/

theorem State.tickDemand_eq (s : State) (l : List Cmd) : ∃ e, s.tickDemand l = { s with energy := e } := by
  induction l generalizing s with
  | nil => exact ⟨_, rfl⟩
  | cons c l ih =>
    have hnote : ∃ e, (s.demandOf c).elim s (fun id => s.noteDemand c.fn id) = { s with energy := e } := by
      cases s.demandOf c with
      | none => exact ⟨_, rfl⟩
      | some id =>
        dsimp only [Option.elim, State.noteDemand]
        split
        · split <;> exact ⟨_, rfl⟩
        · exact ⟨_, rfl⟩
    obtain ⟨d, hd⟩ := hnote
    obtain ⟨e, he⟩ := ih { s with energy := d }
    exact ⟨e, by rw [State.tickDemand, hd, he]⟩

theorem State.tickChans_eq (s : State) (l : List (Nat × ChanCore)) : ∃ o, s.tickChans l = { s with obj := o } := by
  induction l generalizing s with
  | nil => exact ⟨_, rfl⟩
  | cons e l ih =>
    have hcount : ∃ o, (if e.2.idle then s.addG 0x4102 (e.1 + 1) 1 else s) = { s with obj := o } := by
      split <;> exact ⟨_, rfl⟩
    obtain ⟨o, ho⟩ := hcount
    obtain ⟨o', ho'⟩ := ih { s with obj := o }
    exact ⟨o', by rw [State.tickChans, ho, ho']⟩

/-- The state in which a core cycle has passed, before the heads that no gap fits end. -/
def State.passCycle (s : State) : State :=
  let t := ((s.tickFill.tickDemand s.cmds).tickChans s.chans).tickBases
  { t with cycle := t.cycle + 1, clock := t.clock + 1, fAdds := [], fSets := [] }

theorem State.tick_of_up {s : State} (hu : s.up = true) :
    s.tick = (s.passCycle.checkHeads s.passCycle.cmds).noteRetired := by
  rw [State.tick, if_pos hu]; rfl

/-- The counts, the clocks and the time bases go on; nothing else changes. -/
theorem State.passCycle_eq (s : State) : ∃ o e, s.passCycle =
    { ({ s with obj := o, energy := e } : State).tickBases with
      cycle := s.cycle + 1, clock := s.clock + 1, fAdds := [], fSets := [] } := by
  obtain ⟨e, he⟩ := s.tickFill.tickDemand_eq s.cmds
  obtain ⟨o, ho⟩ := (s.tickFill.tickDemand s.cmds).tickChans_eq s.chans
  refine ⟨o, e, ?_⟩
  rw [State.passCycle, ho, he]
  rfl

theorem State.cmds_passCycle (s : State) : s.passCycle.cmds = s.cmds := by
  obtain ⟨o, e, hpass⟩ := s.passCycle_eq
  rw [hpass]; rfl

/-- The heads of jobs stay the same, and so do the modes of their contexts. -/
theorem State.head_passCycle (s : State) (c : Cmd) :
    s.passCycle.isHead c = s.isHead c ∧ s.passCycle.modeOf c = s.modeOf c := by
  obtain ⟨o, e, hpass⟩ := s.passCycle_eq
  rw [hpass]; exact ⟨rfl, rfl⟩

theorem State.time_passCycle {s : State} {n : Nat} (hn : n < s.tb.length) (h4 : n < 4) :
    s.time n + 36404 ≤ s.passCycle.time n ∧ s.passCycle.time n ≤ s.time n + 36414 := by
  obtain ⟨o, e, hpass⟩ := s.passCycle_eq
  have hgo := State.time_tickBases (s := { s with obj := o, energy := e }) hn h4
  have hbound := State.goes_bounds { s with obj := o, energy := e } n (s.servo.getD n {}).frac
  have htime : s.passCycle.time n = ({ s with obj := o, energy := e } : State).tickBases.time n := by rw [hpass]; rfl
  rw [htime, hgo]
  exact ⟨Nat.add_le_add_left hbound.1 _, Nat.add_le_add_left hbound.2 _⟩

/-! ### The clocks when a head ends -/

/-- The core cycle, the core clock and the time bases. -/
def State.clocks (s : State) : Nat × Nat × List Nat := (s.cycle, s.clock, s.tb)

@[simp] theorem State.clocks_setO (s : State) (sel index sub v : Nat) : (s.setO sel index sub v).clocks = s.clocks := rfl
@[simp] theorem State.clocks_addO (s : State) (sel index sub n : Nat) : (s.addO sel index sub n).clocks = s.clocks := rfl
@[simp] theorem State.clocks_countJob (s : State) (f sub n : Nat) : (s.countJob f sub n).clocks = s.clocks := rfl
@[simp] theorem State.clocks_modCtx (s : State) (c : Nat) (k : Ctx → Ctx) : (s.modCtx c k).clocks = s.clocks := rfl
@[simp] theorem State.clocks_setEngine (s : State) (e : Nat) (x : Engine) : (s.setEngine e x).clocks = s.clocks := rfl
@[simp] theorem State.clocks_freeSlot (s : State) (f k : Nat) : (s.freeSlot f k).clocks = s.clocks := rfl
@[simp] theorem State.clocks_freeThreads (s : State) (c : Nat) : (s.freeThreads c).clocks = s.clocks := rfl
@[simp] theorem State.clocks_dropCmd (s : State) (cid : Nat) : (s.dropCmd cid).clocks = s.clocks := rfl
@[simp] theorem State.clocks_finish (s : State) (cid status : Nat) (detail : List Nat) :
    (s.finish cid status detail).clocks = s.clocks := rfl

theorem State.clocks_withCmds (s : State) (l : List Cmd) : ({ s with cmds := l } : State).clocks = s.clocks := rfl

@[simp] theorem State.clocks_debit (s : State) (f k n : Nat) : (s.debit f k n).clocks = s.clocks := by
  unfold State.debit; split <;> rfl

@[simp] theorem State.clocks_endHold (s : State) (e : Nat) : (s.endHold e).clocks = s.clocks := by
  unfold State.endHold
  dsimp only
  split
  · split <;> simp
  · rfl

@[simp] theorem State.clocks_endHoldList (s : State) (l : List Nat) : (s.endHoldList l).clocks = s.clocks := by
  induction l generalizing s with
  | nil => rfl
  | cons e l ih => rw [State.endHoldList, ih, State.clocks_endHold]

@[simp] theorem State.clocks_endHolds (s : State) (c : Nat) (job : Nat → Bool) : (s.endHolds c job).clocks = s.clocks :=
  s.clocks_endHoldList _

@[simp] theorem State.clocks_endJob (s : State) (c job : Nat) : (s.endJob c job).clocks = s.clocks := by
  unfold State.endJob
  dsimp only
  split <;> simp

@[simp] theorem State.clocks_setProc (s : State) (n : Nat) (p : Proc) : (s.setProc n p).clocks = s.clocks := by
  unfold State.setProc; split <;> rfl

@[simp] theorem State.clocks_reply (s : State) (f dev type seq : Nat) (p : Packet) (lmax : Nat) :
    (s.reply f dev type seq p lmax).clocks = s.clocks := rfl

@[simp] theorem State.clocks_endTrigger (s : State) (n status : Nat) : (s.endTrigger n status).clocks = s.clocks := by
  unfold State.endTrigger
  dsimp only
  repeat' split
  all_goals simp

@[simp] theorem State.clocks_closeJob (s : State) (c : Cmd) : (s.closeJob c).clocks = s.clocks := by
  unfold State.closeJob
  dsimp only
  repeat' split
  all_goals simp

@[simp] theorem State.clocks_retireSilently (s : State) (c : Cmd) : (s.retireSilently c).clocks = s.clocks := by
  unfold State.retireSilently
  dsimp only
  split <;> simp

@[simp] theorem State.clocks_faultContext (s : State) (c : Cmd) : (s.faultContext c).clocks = s.clocks := by
  unfold State.faultContext
  dsimp only
  split
  · rfl
  · split
    · refine (State.clocks_endTrigger ..).trans ((State.clocks_withCmds ..).trans ?_)
      simp [apply_ite State.clocks]
    · refine (State.clocks_withCmds ..).trans ?_
      simp [apply_ite State.clocks]

@[simp] theorem State.clocks_settle (s : State) (cid : Nat) : (s.settle cid).clocks = s.clocks := by
  unfold State.settle State.retireTriggered
  repeat' split
  all_goals simp

/-- Heads that no gap fits end with a status and touch no clock (R50). -/
theorem State.clocks_checkHeads (s : State) (l : List Cmd) : (s.checkHeads l).clocks = s.clocks := by
  induction l generalizing s with
  | nil => rfl
  | cons c l ih =>
    have hend : (s.refuseStart c c.engine ⟨Status.noGapFits, 0⟩).clocks = s.clocks := by
      simp [State.refuseStart, State.noteBad, State.conclude, Status.noGapFits, Status.eccUncorrectable]
    rw [State.checkHeads, ih]
    split
    · exact hend
    · rfl

/-- Where no command is headless, none ends. -/
theorem State.checkHeads_of_none {s : State} {l : List Cmd} (h : ∀ c ∈ l, s.headless c = false) : s.checkHeads l = s := by
  induction l with
  | nil => rfl
  | cons c l ih =>
    rw [State.checkHeads, h c List.mem_cons_self, if_neg Bool.false_ne_true]
    exact ih fun d hd => h d (List.mem_cons_of_mem c hd)

/-! ### The cycle -/

theorem State.headless_eq_false {s : State} {c : Cmd} (h : s.isHead c = true → s.modeOf c ≠ 0) : s.headless c = false := by
  unfold State.headless
  cases hhead : s.isHead c
  · simp
  · simp [h hhead]

/-- Where no fill command is at the head of its job, nothing ends in the cycle. -/
theorem State.tick_of_quiet {s : State} (hu : s.up = true) (hquiet : ∀ c ∈ s.cmds, s.isHead c = true → s.modeOf c ≠ 0) :
    s.tick = s.passCycle.noteRetired := by
  have hnone : ∀ c ∈ s.passCycle.cmds, s.passCycle.headless c = false := by
    rw [s.cmds_passCycle]
    intro c hc
    obtain ⟨hhead, hmode⟩ := s.head_passCycle c
    exact State.headless_eq_false (by rw [hhead, hmode]; exact hquiet c hc)
  rw [State.tick_of_up hu, State.checkHeads_of_none hnone]

/-- The clocks are those of the cycle, whatever ends in it. -/
theorem State.clocks_tick {s : State} (hu : s.up = true) : s.tick.clocks = s.passCycle.clocks := by
  rw [State.tick_of_up hu]
  exact s.passCycle.clocks_checkHeads s.passCycle.cmds

/-- Settles O2: the cycle passes (`State.passCycle_eq`), and only heads of fill jobs can end in it. -/
theorem emptyQueueIsOneCoreCycle : Obligations.EmptyQueueIsOneCoreCycle := by
  intro s hp
  have hstep : step s = .next s.tick := by unfold step; rw [hp]
  refine ⟨fun hu => by simp [hstep, State.tick, hu], fun hu => ?_⟩
  obtain ⟨hcycle, hclock, htb⟩ : s.tick.cycle = s.passCycle.cycle ∧ s.tick.clock = s.passCycle.clock ∧
      s.tick.tb = s.passCycle.tb := by simpa [State.clocks] using State.clocks_tick hu
  obtain ⟨o, e, hpass⟩ := s.passCycle_eq
  refine ⟨s.tick, hstep, ?cycle, ?clock, ?bases, fun n hn h4 => ?time, fun hquiet => ?frame⟩
  case cycle => rw [hcycle, hpass]
  case clock => rw [hclock, hpass]
  case bases => simp [htb, hpass, State.tickBases]
  case time =>
    have htime : s.tick.time n = s.passCycle.time n := congrArg (·.getD n 0) htb
    rw [htime]
    exact State.time_passCycle hn h4
  case frame =>
    rw [State.tick_of_quiet hu hquiet, hpass]
    exact ⟨rfl, rfl, rfl, rfl, rfl, rfl, rfl, rfl, rfl, rfl, rfl, rfl, rfl, rfl, rfl, rfl⟩

end Sys2Proof.Machine
end

section
/-!
PROOFS. Frames of the fronthaul (O43).
-/

namespace Sys2Proof.Machine

/-- A frame at an up port is counted there; the engine that its eAxC ID chooses takes it, or its queue does where the engine is
out of service (R16, R17, R301). -/
theorem State.takeFrame_up {lane p : Nat} {s : State} (eaxc : Option Nat) (k : Nat → State → State) (hl : lane < 16)
    (hu : s.up = true) (hp : s.portOfLane lane = some p) (hup : s.portUp p = true) :
    s.takeFrame lane eaxc k = .next
      (if s.isFenced (calId 16 (eaxc.elim p (s.engineFor p))) then
        (s.addG 0x4210 (p + 1) 1).overflow (eaxc.elim p (s.engineFor p))
      else k p (s.addG 0x4210 (p + 1) 1)) := by
  unfold State.takeFrame
  simp only [if_neg (Nat.not_le.2 hl), hp, hu, hup, Bool.and_self, if_true]

/-- The Request that a Response belongs to gives its time. -/
theorem State.requestTime_of_sent {s : State} {p m : Nat} {e : Nat × Int} (t1 : Nat) (tcv1 : Int)
    (h : s.delaySent.find? (fun e => e.1 == p * 256 + m % 256) = some e) : s.requestTime p m t1 tcv1 = e.2 := by
  simp [State.requestTime, h]

/-- Settles O43: an up port takes its frames (`State.takeFrame_up`), and the lane events act on the lane's objects alone. -/
theorem framesAreReceivedAndCounted : Obligations.FramesAreReceivedAndCounted := by
  intro lane p s hl hu
  have hlane : ¬ 16 ≤ lane := Nat.not_le.2 hl
  refine ⟨fun hp hup => ?_, ?_, ?_, fun hmode hdown => ?_⟩
  · have take := fun eaxc k => State.takeFrame_up (s := s) eaxc k hl hu hp hup
    refine ⟨fun f c hf hw he hs hc => ?_, fun f hf hw he hs hc => ?_, fun f hf => ?_, fun hf => ⟨?_, fun m skew => ?_, ?_⟩⟩
    · simp [exec, execUplaneSectionReceive, take, hf, hw, he, hs, hc]
    · simp [exec, execUplaneSectionReceive, take, hf, hw, he, hs, hc]
    · simp [exec, execUplaneSectionReceive, take, hf]
    · simp [exec, execCplaneReceive, take, hf]
    · simp [exec, execEcpriDelayRequestReceive, take, hf]
    · intro m t1 t2 tcv1 tcv2 e he
      have hsent := State.requestTime_of_sent (s := s.addG 0x4210 (p + 1) 1) t1 tcv1 (by simpa using he)
      simp [exec, execEcpriDelayResponseReceive, take, hf, hsent]
  · simp [exec, execStagingExpiry, hlane, hu]
  · simp [exec, execFronthaulLaneDown, hlane, hu]
  · simp [exec, execFronthaulLaneTrained, hlane, hu, hmode, hdown]

end Sys2Proof.Machine
end

section
/-!
PROOFS. The swap of the calendar's pages (O22).
-/

namespace Sys2Proof.Machine

/-! ### What a notice leaves alone -/

namespace KeepsFrame

variable {place : Nat} {s t : State}

/-- A write of a function's notice object, which lies below every object of the calendar. -/
theorem setNoticeObject {f : Nat} (v : Nat) (hf : f < 1024) (h : KeepsFrame place s t) :
    KeepsFrame place s (t.setO f 0x1120 1 v) :=
  { h with obj := fun i j hi hj => (State.g_setO_other t v (by unfold objKey; omega)).trans (h.obj i j hi hj) }

theorem notice {f : Nat} (bit : Nat) (hf : f < 1024) (h : KeepsFrame place s t) : KeepsFrame place s (t.notice f bit) := by
  unfold State.notice
  split
  · exact h
  · exact (h.setNoticeObject _ hf).msix _ _

theorem noticeMgrs (bit : Nat) (h : KeepsFrame place s t) : KeepsFrame place s (t.noticeMgrs bit) :=
  (h.notice bit (by decide)).notice bit (by decide)

end KeepsFrame

/-! ### The landing zones (R153) -/

/-- A zone comes into force: beside it only memory changes. -/
theorem State.swapZone_eq (s : State) (c : Nat) : ∃ m, s.swapZone c =
    { s with mem := m
             cal := { s.cal with zones := SMap.set (fun _ => (0, none16)) s.cal.zones c (s.newZone c) } } := by
  unfold State.swapZone
  dsimp only
  split <;> exact ⟨_, rfl⟩

/-- The listed zones come into force as their objects say; the others stay. -/
theorem State.swapZones_eq (s : State) (l : List Nat) : ∃ m z,
    s.swapZones l = { s with mem := m, cal := { s.cal with zones := z } } ∧
      ∀ c, SMap.get (fun _ => (0, none16)) z c =
        if c ∈ l then s.newZone c else SMap.get (fun _ => (0, none16)) s.cal.zones c := by
  induction l generalizing s with
  | nil => exact ⟨_, _, rfl, fun c => (if_neg List.not_mem_nil).symm⟩
  | cons b l ih =>
    obtain ⟨m, hm⟩ := s.swapZone_eq b
    obtain ⟨m', z, hz, hget⟩ := ih (s.swapZone b)
    rw [hm] at hz hget
    refine ⟨m', z, by rw [State.swapZones, hm, hz], fun c => (hget c).trans ?_⟩
    by_cases hc : c ∈ l
    · rw [if_pos hc, if_pos (List.mem_cons_of_mem b hc)]; rfl
    · rw [if_neg hc]
      by_cases hcb : c = b
      · subst hcb
        rw [if_pos List.mem_cons_self]; exact SMap.get_set_same ..
      · rw [if_neg (by simp [hc, hcb])]; exact SMap.get_set_other _ _ hcb

theorem State.zone_swapZones (s : State) {l : List Nat} {c : Nat} (hc : c ∈ l) :
    (s.swapZones l).zone c = (s.g 0x6101 (c + 1) * 65536, s.g 0xA010 (c + 1)) := by
  obtain ⟨m, z, hz, hget⟩ := s.swapZones_eq l
  have hzone := hget c
  rw [if_pos hc] at hzone
  rw [hz]
  simp only [State.zone, hzone, State.newZone]

/-! ### The exchange -/

theorem objMod_activePage : objMod 1023 0x2400 1 = 256 := by decide +kernel
theorem objMod_swapCount : objMod 1023 0x2401 4 = 2 ^ 32 := by decide +kernel

/-- The pages have exchanged their roles and nothing is armed; the notice and the zones are still to come. -/
def State.exchangePages (s : State) : State :=
  let t : State := { s with cal := { s.cal with active := s.cal.shadow, shadow := s.cal.active } }
  (((t.setG 0x2400 1 (1 - t.g 0x2400 1)).addG 0x2401 4 1).setG 0x2401 2 0).setG 0x2401 3 0

/-- The exchange of an armed swap gives notice, and the zones come into force (R42, R153). -/
theorem State.swapPages_of_armed {s : State} (h : s.g 0x2401 3 ≠ 0) :
    s.swapPages = (s.exchangePages.noticeMgrs 4).swapZones (List.range 96) := by
  unfold State.swapPages State.swapState
  dsimp only
  rw [if_neg]
  · rfl
  · rwa [State.g_setG_other _ _ (by decide), State.g_addG_other _ _ (by decide), State.g_setG_other _ _ (by decide)]

/-- An object that the exchange does not write. -/
theorem State.g_exchangePages_other (s : State) {index sub : Nat} (hsub : sub < 256) (h : 0x2401 < index) :
    s.exchangePages.g index sub = s.g index sub := by
  unfold State.exchangePages
  dsimp only
  rw [State.g_setG_other _ _ (by unfold objKey; omega), State.g_setG_other _ _ (by unfold objKey; omega),
    State.g_addG_other _ _ (by unfold objKey; omega), State.g_setG_other _ _ (by unfold objKey; omega)]
  rfl

theorem State.swapState_exchangePages (s : State) : s.exchangePages.g 0x2401 3 = 0 :=
  (State.g_setG ..).trans (Nat.zero_mod _)

theorem State.armed_exchangePages (s : State) : s.exchangePages.g 0x2401 2 = 0 :=
  (State.g_setG_other _ _ (by decide)).trans ((State.g_setG ..).trans (Nat.zero_mod _))

theorem State.swapCount_exchangePages (s : State) : s.exchangePages.g 0x2401 4 = (s.g 0x2401 4 + 1) % 2 ^ 32 := by
  unfold State.exchangePages
  dsimp only
  rw [State.g_setG_other _ _ (by decide), State.g_setG_other _ _ (by decide), State.addG, State.addO, ← State.g, ← State.setG,
    State.g_setG, objMod_swapCount, State.g_setG_other _ _ (by decide)]
  rfl

theorem State.activePage_exchangePages (s : State) : s.exchangePages.g 0x2400 1 = 1 - s.g 0x2400 1 := by
  unfold State.exchangePages
  dsimp only
  rw [State.g_setG_other _ _ (by decide), State.g_setG_other _ _ (by decide), State.g_addG_other _ _ (by decide),
    State.g_setG, objMod_activePage]
  exact Nat.mod_eq_of_lt (Nat.lt_of_le_of_lt (Nat.sub_le ..) (by decide))

/-- Settles O22: the exchange writes the objects, the notice after it leaves them (`KeepsFrame.noticeMgrs`), and the zones come
into force as their objects say (`State.zone_swapZones`). -/
theorem pageSwapExchangesThePages : Obligations.PageSwapExchangesThePages := by
  intro s hu harmed hcycle hframe
  have hexec : exec .pageSwap s = .next s.swapPages := if_pos (by simp [hu, harmed, hcycle, hframe])
  have hswap := s.swapPages_of_armed (by omega)
  obtain ⟨-, hfloats, hcmds, hengines, hctxs, hcyc, -, hcal, hobj⟩ :=
    (KeepsFrame.refl (place := 2 ^ 24) (s := s.exchangePages)).noticeMgrs 4
  have hzone := fun c (hc : c < 96) => (s.exchangePages.noticeMgrs 4).zone_swapZones (List.mem_range.2 hc)
  obtain ⟨m, z, hz, -⟩ := (s.exchangePages.noticeMgrs 4).swapZones_eq (List.range 96)
  refine ⟨_, hexec, ?active, ?shadow, ?state, ?armed, ?page, ?count, fun c hc => ?zone, ?floats, ?cmds, ?engines, ?ctxs, ?cycle⟩
  case zone =>
    rw [hswap, hzone c hc, hobj _ _ (by omega) (by omega), hobj _ _ (by omega) (by omega),
      s.g_exchangePages_other (by omega) (by omega), s.g_exchangePages_other (by omega) (by omega)]
  all_goals rw [hswap, hz]
  case active => exact congrArg Cal.active hcal
  case shadow => exact congrArg Cal.shadow hcal
  case state => exact (hobj 0x2401 3 (by omega) (by omega)).trans s.swapState_exchangePages
  case armed => exact (hobj 0x2401 2 (by omega) (by omega)).trans s.armed_exchangePages
  case page => exact (hobj 0x2400 1 (by omega) (by omega)).trans s.activePage_exchangePages
  case count => exact (hobj 0x2401 4 (by omega) (by omega)).trans s.swapCount_exchangePages
  case floats => exact hfloats
  case cmds => exact hcmds
  case engines => exact hengines
  case ctxs => exact hctxs
  case cycle => exact hcyc

end Sys2Proof.Machine
end

section
/-!
PROOFS. Seams without a tick, and the arming, validation and takeover of swaps (O21).
-/

namespace Sys2Proof.Machine

/-! ### The end of a seam without a tick (R27, R28) -/

/-- Where TB0 has started no frame, a seam is over by its age alone. -/
theorem State.seamOver_iff {s : State} (htick : s.tickFrame = s.cal.lastTick) : s.seamOver = true ↔ 1799550 ≤ s.cycle ∧
    (if s.cal.stepSeam then 1800450 ≤ s.seamAge else s.seamAge = 450 ∨ 675 ≤ s.seamAge) := by
  have hdue : s.tickDue = false := by simp [State.tickDue, htick]
  unfold State.seamOver seamStart
  cases s.cal.stepSeam <;> simp [hdue]

/-- Before the seam's end, or between the two ends that a seam without a step can have, it is not over. -/
theorem State.seamOver_eq_false {s : State} (htick : s.tickFrame = s.cal.lastTick) (h : s.cycle < 1799550 ∨
    (if s.cal.stepSeam then s.seamAge < 1800450 else s.seamAge < 450 ∨ (450 < s.seamAge ∧ s.seamAge < 675))) :
    s.seamOver = false := by
  rw [← Bool.not_eq_true, State.seamOver_iff htick]
  rintro ⟨hc, hage⟩
  cases hwait : s.cal.stepSeam
  all_goals
    simp only [hwait, Bool.false_eq_true, if_true, if_false] at h hage
    omega

/-! ### The rules of the arming object (R42-R44) -/

/-- An armed page whose swap is still to come may be disarmed. -/
def State.mayDisarm (s : State) : Prop :=
  s.g 0x2401 3 = 3 ∧ s.swapDue = false ∨ s.g 0x2401 3 = 4 ∧ s.cal.takeoverAt = none

/-- An armed page whose swap is due may not be disarmed. -/
def State.mustSwap (s : State) : Prop :=
  s.g 0x2401 3 = 3 ∧ s.swapDue = true ∨ s.g 0x2401 3 = 4 ∧ s.cal.takeoverAt.isSome = true

section

variable {s : State} (r : ObjRow)

theorem armRule_ok (mode : Nat) (h : s.g 0x2401 3 = 0 ∨ s.g 0x2401 3 = 5) : armRule mode r s =
    .ok { (s.setG 0x2401 2 mode).swapState 2 with
      cal := { ((s.setG 0x2401 2 mode).swapState 2).cal with validating := mode } } := by
  have hfree : (s.g 0x2401 3 == 0 || s.g 0x2401 3 == 5) = true := by simpa using h
  unfold armRule
  dsimp only
  rw [hfree]
  rfl

theorem armRule_refused (mode : Nat) (h0 : s.g 0x2401 3 ≠ 0) (h5 : s.g 0x2401 3 ≠ 5) :
    armRule mode r s = .error ⟨Status.accessDenied, 0⟩ := by
  have htaken : (s.g 0x2401 3 == 0 || s.g 0x2401 3 == 5) = false := by simp [h0, h5]
  unfold armRule
  dsimp only
  rw [htaken]
  rfl

theorem disarmRule_ok (h : s.mayDisarm) : disarmRule r s = .ok ((s.setG 0x2401 2 0).swapState 0) := by
  unfold disarmRule
  rcases h with ⟨hst, hdue⟩ | ⟨hst, hat⟩
  · simp [hst, hdue]
  · simp [hst, hat]

theorem disarmRule_refused (h : s.mustSwap) : disarmRule r s = .error ⟨Status.accessDenied, 0⟩ := by
  unfold disarmRule
  rcases h with ⟨hst, hdue⟩ | ⟨hst, hat⟩
  · simp [hst, hdue]
  · simp [hst, hat]

/-! ### Validation and takeover -/

/-- A page that fails a check leaves the first failing one, and the swap is refused (R41). -/
theorem execValidationEnd_fails {e : Failure} (hu : s.up = true) (hst : s.g 0x2401 3 = 2)
    (he : s.validate s.cal.validating = some e) :
    let t : State := { s with cal := { s.cal with validating := 0 } }
    execValidationEnd s = .next (((t.setResult e).setG 0x2401 2 0).swapState 5) := by
  unfold execValidationEnd
  dsimp only
  rw [if_neg (by simp [hu, hst]), he]

/-- A page that passes is armed as it was asked for, and its pinned cores go to their functions (R42, R345). -/
theorem execValidationEnd_passes (hu : s.up = true) (hst : s.g 0x2401 3 = 2) (hnone : s.validate s.cal.validating = none) :
    let t : State := { s with cal := { s.cal with validating := 0 } }
    execValidationEnd s =
      .next (((t.setResult (0, 0, 0, 0)).swapState (2 + s.cal.validating)).pinCores (List.range 96)) := by
  unfold execValidationEnd
  dsimp only
  rw [if_neg (by simp [hu, hst]), hnone]

/-- The boundary of an accepted takeover comes at the first core cycle of its frame (R44, R456). -/
theorem execTakeoverBoundary_of_due {b : Nat} (hat : s.cal.takeoverAt = some b)
    (hdue : (s.up && s.cycle == 0 && decide (b ≤ s.frame) && s.g 0x2401 3 == 4) = true) :
    let t := (s.swapPages.activateCells s.takenCells).loadTracks s.domain.lastTracks
    let u : State := { t with cal := { t.cal with takeoverAt := none }
                              domain := { t.domain with holding := t.domain.holding ++ s.takenCells } }
    execTakeoverBoundary s = .next ((((u.setG 0x5012 0x0D b).addG 0x5012 0x0B 1).setPartner 4).noticeAll 0) := by
  unfold execTakeoverBoundary
  simp only [hat]
  exact if_pos hdue

end

/-- Settles O21: the seam's end by its age (`State.seamOver_iff`), the writes of G:0x2401.02 by their rules, the end of a
validation by its first failing check, and the boundary of a takeover. -/
theorem swapsAreArmedAndValidated : Obligations.SwapsAreArmedAndValidated := by
  refine ⟨fun s hu htick => ⟨fun hc hage => ?_, fun hage => ?_⟩, fun path s r => ⟨fun hw => ⟨fun h => ?_, fun h0 h5 => ?_⟩,
    fun hw => ⟨fun h => ?_, fun h0 h5 => ?_⟩, fun hw => ⟨fun h hdue => ?_, fun h hat => ?_, fun h hdue => ?_, fun h hat => ?_⟩⟩,
    fun s hu hst => ⟨fun e he => ?_, fun hnone => ?_⟩, fun b s hat hu hc hb hst => ?_⟩
  · exact if_pos (by rw [hu, (State.seamOver_iff htick).2 ⟨hc, hage⟩]; rfl)
  · exact if_neg (by simp [State.seamOver_eq_false htick hage])
  · exact congrArg _ (State.access_ok hw (armRule_ok r 1 h))
  · exact congrArg _ (State.access_refused hw (armRule_refused r 1 h0 h5))
  · exact congrArg _ (State.access_ok hw (armRule_ok r 2 h))
  · exact congrArg _ (State.access_refused hw (armRule_refused r 2 h0 h5))
  · exact congrArg _ (State.access_ok hw (disarmRule_ok r (.inl ⟨h, hdue⟩)))
  · exact congrArg _ (State.access_ok hw (disarmRule_ok r (.inr ⟨h, hat⟩)))
  · exact congrArg _ (State.access_refused hw (disarmRule_refused r (.inl ⟨h, hdue⟩)))
  · exact congrArg _ (State.access_refused hw (disarmRule_refused r (.inr ⟨h, hat⟩)))
  · exact execValidationEnd_fails hu hst he
  · exact execValidationEnd_passes hu hst hnone
  · exact execTakeoverBoundary_of_due hat (by simp [hu, hc, hb, hst])

end Sys2Proof.Machine
end

section
/-!
PROOFS. Cells, their records and the modes of lane groups (O23).
-/

namespace Sys2Proof.Machine

/-! ### The rules of the cell objects (R57-R59, R263, R374, R454) -/

theorem ensure_of_ne {x : Nat} (status detail : Nat) (h : x ≠ 0) : ensure (x != 0) status detail = .ok () := by
  rw [bne_iff_ne.2 h]; rfl

section

variable {s : State} {cell : Nat} (r : ObjRow)

/-- A cell that both pages and the energy reserve can bear is admitted for the second frame after this one. -/
theorem activateRule_admits (hst : s.cellState cell = 0) (htb : s.tb0Ready = true) (hcrb : s.crb ≠ 0) (hcost : s.costRow cell ≠ 0)
    (hpages : s.pagesSeen.all (fun p => s.budgetHolds p (cell :: s.liveCells)) = true)
    (henergy : s.g 0x2001 1 + s.eAdm (s.costU cell) + s.g 0x2001 4 ≤ s.eWinLow) :
    activateRule cell r s =
      .ok { s.setCellO cell 1 1 with cellsAt := SMap.put cell (s.frame + 2) (s.setCellO cell 1 1).cellsAt } := by
  unfold activateRule
  dsimp only
  rw [if_neg (by omega)]
  simp [hst, htb, ensure_of_ne _ _ hcrb, ensure_of_ne _ _ hcost, hpages, henergy]

/-- A cell that a page cannot bear is refused. -/
theorem activateRule_overBudget (hst : s.cellState cell = 0) (htb : s.tb0Ready = true) (hcrb : s.crb ≠ 0)
    (hcost : s.costRow cell ≠ 0) (hpages : s.pagesSeen.all (fun p => s.budgetHolds p (cell :: s.liveCells)) = false) :
    activateRule cell r s = .error ⟨Status.radioBudgetExceeded, 0⟩ := by
  unfold activateRule
  dsimp only
  rw [if_neg (by omega), hpages]
  simp [hst, htb, ensure_of_ne _ _ hcrb, ensure_of_ne _ _ hcost]

/-- A standby cell is weighed against the armed takeover page alone, with every standby cell counted. -/
theorem standbyRule_admits (hnew : s.standby.contains cell = false) (hst : s.cellState cell = 0) (hcost : s.costRow cell ≠ 0)
    (harmed : s.g 0x2401 3 = 4) (hpage : s.budgetHolds s.cal.shadow (cell :: s.standby ++ s.liveCells) = true)
    (henergy : s.g 0x2001 1 + s.eAdm (s.unitSum (cell :: s.standby)) + s.g 0x2001 4 ≤ s.eWinLow) :
    standbyRule cell 1 r s = .ok { s.setCellO cell 0x30 1 with standby := s.standby ++ [cell] } := by
  unfold standbyRule
  dsimp only
  rw [if_neg Nat.one_ne_zero, hnew, hpage]
  simp [hst, ensure_of_ne _ _ hcost, harmed, henergy]

/-- While no cell is live the record base goes to memory of the radio owner, or to none (R257). -/
theorem crbRule_sets {value : Nat} (haddr : value = 0 ∨ ((devAddr value).bad = false ∧ (devAddr value).isMem = true ∧
    s.addrOk s.radioSel (devAddr value) 65536 = true)) (hlive : s.liveCells = []) :
    crbRule value r s = .ok { s.setO s.radioSel 0x4000 1 value with
      recs := if value = 0 then [] else (List.range 1024).map (fun c => (c, 16, s.frame + 2, 0)) } := by
  have hok : (value == 0 || (!(devAddr value).bad && (devAddr value).isMem && s.addrOk s.radioSel (devAddr value) 65536)) = true := by
    rcases haddr with h0 | ⟨hbad, hmem, hrange⟩
    · simp [h0]
    · simp [hbad, hmem, hrange]
  unfold crbRule
  dsimp only
  rw [hok, hlive]
  rfl

/-- A lane group's mode is free while no active or pending cell names a port of the group. -/
theorem groupRule_free {k : Nat} (hfree : (s.cellsIn (fun st => st == 1 || st == 2)).any (fun c => s.cellPort c / 4 == k) = false) :
    groupRule k r s = .ok s := by
  unfold groupRule
  rw [hfree]
  rfl

end

/-- The frame of a cell's change has come where a change of it is listed for this frame or an earlier one. -/
theorem State.cellDue_of_listed {s : State} {cell st : Nat} (hu : s.up = true) (hst : s.cellState cell = st)
    (hlisted : ∃ e ∈ s.cellsAt, e.1 = cell ∧ e.2 ≤ s.frame) : s.cellDue cell st = true := by
  simpa [State.cellDue, hu, hst] using hlisted

/-- A command of a cell that exists acts. -/
theorem next_of_existing_cell {cell : Nat} (hcell : cell < 1024) (t : State) :
    (if 1024 ≤ cell then .fault .noSuchUnit else .next t : Host.Outcome State Fault Refusal) = .next t :=
  if_neg (Nat.not_le.2 hcell)

/-- Settles O23: the writes go through the rules of their objects, and a cell's change is made once its frame has come. -/
theorem cellsComeAndGo : Obligations.CellsComeAndGo := by
  refine ⟨fun path cell s r hcell => ⟨fun hw hst htb hcrb hcost => ⟨fun hpages henergy => ?_, fun hpages => ?_⟩, fun hw hst => ?_,
    fun hw hnew hst hcost harmed hpage henergy => ?_, fun hw => ?_, fun hu hst hlisted => ?_, fun hu hst hlisted => ?_⟩,
    fun path value s r hw haddr hlive => ?_, fun cell s hcell hu hcrb => ?_, fun path k mode s r hw hfree => ?_⟩
  · exact (next_of_existing_cell hcell _).trans (congrArg _ (State.access_ok hw (activateRule_admits r hst htb hcrb hcost hpages henergy)))
  · exact (next_of_existing_cell hcell _).trans (congrArg _ (State.access_refused hw (activateRule_overBudget r hst htb hcrb hcost hpages)))
  · exact (next_of_existing_cell hcell _).trans (congrArg _ (State.access_ok hw (congrArg Except.ok (if_pos hst))))
  · exact (next_of_existing_cell hcell _).trans
      (congrArg _ (State.access_ok hw (standbyRule_admits r hnew hst hcost harmed hpage henergy)))
  · exact (next_of_existing_cell hcell _).trans (congrArg _ (State.access_ok hw (if_pos rfl)))
  · exact (next_of_existing_cell hcell _).trans (congrArg _ (if_pos (State.cellDue_of_listed hu hst hlisted)))
  · exact (next_of_existing_cell hcell _).trans (congrArg _ (if_pos (State.cellDue_of_listed hu hst hlisted)))
  · exact congrArg _ (State.access_ok hw (crbRule_sets r haddr hlive))
  · exact (if_neg (Nat.not_le.2 hcell)).trans (if_pos (by simp [hu, hcrb]))
  · exact congrArg _ (State.access_ok hw (groupRule_free r hfree))

end Sys2Proof.Machine
end

section
/-!
PROOFS. How commands start on engines and leave them (O24, O25).
-/

namespace Sys2Proof.Machine

/-! ### Fill commands that an engine is offered (R46-R50, R351, R377) -/

/-- A running device first ends the heads that no gap fits; then the engine is offered its commands, if it is free and in a fill
interval. -/
theorem execEngineOffer_eq {id : Nat} {s t : State} (hid : calOk id = true) (hu : s.up = true) (ht : s.checkHeads s.cmds = t) :
    execEngineOffer id s =
      .next (if (t.engine id).busy.isNone && t.kindNow id == 0 then t.offerAll id (t.offersBefore id) else t) := by
  subst ht
  unfold execEngineOffer
  rw [hid, hu]
  rfl

/-- No later command is offered once one has started. -/
theorem State.offerAll_of_started {s t : State} {id : Nat} {c : Cmd} (cs : List Cmd) (h : s.offerOne id c = (t, true)) :
    s.offerAll id (c :: cs) = t := by
  rw [State.offerAll, h]; rfl

/-- A head that fits, whose cores are given, whose payload passes its checks, whose thread is free and whose energy is at hand
starts. -/
theorem State.offerOne_starts {s t : State} {id : Nat} {c : Cmd} (hhead : s.isHead c = true) (hfence : s.isFenced id = false)
    (hfits : s.fillFits c id = true) (hfirst : s.firstFit c id = true) (hcores : s.giveCores c.fn (s.coresNeeded c id) = some t)
    (hcheck : t.checkStart c id = .ok ()) (hthread : t.canThread c = true) (henergy : s.energyFits c.fn c.due = true) :
    s.offerOne id c =
      (((((t.payFill c.fn c.due).debitIdle c.fn (membersOf c id)).startOn c id).served id c.fn).noteDemand c.fn id, true) := by
  simp [State.offerOne, hhead, hfence, hfits, hfirst, hcores, hcheck, hthread, henergy]

/-- The head of a fill job is headless where each of its engines has gaps that are all too short (R50). -/
theorem State.headless_of_shortGaps {s : State} {c : Cmd} (hmode : s.modeOf c = 0) (hhead : s.isHead c = true)
    (hreset : s.resetting c.fn = false) (hsome : s.candidates c ≠ [])
    (hshort : ∀ e ∈ s.candidates c, s.gapFor c e < startup (calClass e) + s.fitW c e) : s.headless c = true := by
  have hgap : s.noGap c = true := List.all_eq_true.2 fun e he => decide_eq_true (hshort e he)
  simp [State.headless, hmode, hhead, hreset, hsome, hgap]

/-! ### Radio and exact commands (R32, R53, R348) -/

section

variable {s : State} {c : Cmd} {begin' : State → Option State}

theorem State.startReserved_starts {t : State} (hfence : s.isFenced c.engine = false) (hbegin : begin' s = some t)
    (hcheck : t.checkStart c c.engine = .ok ()) (hthread : t.canThread c = true) :
    s.startReserved c true begin' = (t.payStart c).startOn c c.engine := by
  simp [State.startReserved, hfence, hbegin, hcheck, hthread]

theorem State.startReserved_refused {t : State} {e : Refused} (hfence : s.isFenced c.engine = false) (hbegin : begin' s = some t)
    (hcheck : t.checkStart c c.engine = .error e) : s.startReserved c true begin' = s.refuseStart c c.engine e := by
  simp [State.startReserved, hfence, hbegin, hcheck]

/-- A command whose cores cannot be given waits, whether it fits or not. -/
theorem State.startReserved_waits (fits : Bool) (hfence : s.isFenced c.engine = false) (hbegin : begin' s = none) :
    s.startReserved c fits begin' = s := by
  cases fits <;> simp [State.startReserved, hfence, hbegin]

end

/-- Command c, numbered cid, is next in a job of a mode, and may run on engines. -/
structure State.NextReserved (s : State) (cid : Nat) (c : Cmd) : Prop where
  cmd     : s.cmd? cid = some c
  up      : s.up = true
  head    : s.isHead c = true
  engines : engineClasses c.cls c.form ≠ []
  alive   : s.resetting c.fn = false

namespace State.NextReserved

variable {s : State} {cid : Nat} {c : Cmd}

theorem meets (h : s.NextReserved cid c) {mode : Nat} (hmode : s.modeOf c = mode) :
    (s.up && s.isHead c && s.modeOf c == mode && !(engineClasses c.cls c.form).isEmpty && !s.resetting c.fn) = true := by
  simp [h.up, h.head, hmode, h.engines, h.alive]

/-- The payload of a radio command is checked first. -/
theorem radio_checked (h : s.NextReserved cid c) (hmode : s.modeOf c = 2) (hcheck : s.checkStart c c.engine = .ok ()) :
    execRadioCommandStart cid s =
      .next (s.startReserved c (s.reservedFits c c.engine) (fun t => some (t.meter c c.engine))) := by
  simp only [execRadioCommandStart, h.cmd, h.meets hmode, if_true, hcheck]

theorem radio_refused (h : s.NextReserved cid c) {e : Refused} (hmode : s.modeOf c = 2) (hfence : s.isFenced c.engine = false)
    (hcheck : s.checkStart c c.engine = .error e) :
    execRadioCommandStart cid s = .next (s.refuseStart c c.engine e) := by
  simp only [execRadioCommandStart, h.cmd, h.meets hmode, if_true, hcheck, hfence, Bool.false_eq_true, if_false]

theorem exact_next (h : s.NextReserved cid c) (hmode : s.modeOf c = 1) :
    execExactCommandStart cid s = .next (s.startReserved c (s.reservedFits c c.engine)
      (fun t => t.giveCores c.fn (t.coresNeeded c c.engine))) := by
  simp only [execExactCommandStart, h.cmd, h.meets hmode, if_true]

end State.NextReserved

/-- Settles O24: the offer's first command that fits starts (`State.offerOne_starts`), a head that no gap fits has ended before the
offer, and radio and exact commands start by `State.startReserved`. -/
theorem commandsStartOnEngines : Obligations.CommandsStartOnEngines := by
  refine ⟨fun id c rest s t hid hu hfree hkind hheads hoffers hhead hfence hfits hfirst hcores hcheck hthread henergy => ?_,
    fun id c s hid hu hcmds hmode hhead hreset hsome hshort hbusy => ?_,
    fun cid c s hcmd hu hhead hreset hengines hfence =>
      have hnext : s.NextReserved cid c := ⟨hcmd, hu, hhead, hengines, hreset⟩
      ⟨fun hmode hcheck hmetered hfits hthread => ?_,
        fun hmode hfits t hcores => ⟨fun hcheck hthread => ?_, fun e hcheck => ?_⟩, fun hmode hcores => ?_,
        fun e hcheck hmode => ?_⟩⟩
  · refine (execEngineOffer_eq hid hu (State.checkHeads_of_none hheads)).trans (congrArg _ ?_)
    rw [if_pos (by simp [hfree, hkind]), hoffers]
    exact State.offerAll_of_started rest
      (State.offerOne_starts hhead hfence hfits hfirst hcores hcheck hthread henergy)
  · have hends : s.checkHeads s.cmds = s.refuseStart c c.engine ⟨Status.noGapFits, 0⟩ := by
      rw [hcmds, State.checkHeads, if_pos (State.headless_of_shortGaps hmode hhead hreset hsome hshort), State.checkHeads]
    refine (execEngineOffer_eq hid hu hends).trans (congrArg _ (if_neg ?_))
    simp [hbusy]
  · refine (hnext.radio_checked hmode hcheck).trans (congrArg _ ?_)
    rw [hfits]
    exact State.startReserved_starts hfence rfl hmetered hthread
  · refine (hnext.exact_next hmode).trans (congrArg _ ?_)
    rw [hfits]
    exact State.startReserved_starts hfence hcores hcheck hthread
  · refine (hnext.exact_next hmode).trans (congrArg _ ?_)
    rw [hfits]
    exact State.startReserved_refused hfence hcores hcheck
  · exact (hnext.exact_next hmode).trans (congrArg _ (State.startReserved_waits _ hfence hcores))
  · exact hnext.radio_refused hmode hfence hcheck

/-! ### The prelude of what follows a gutter (R31, R62) -/

section

variable {s : State} {id : Nat}

/-- In the last 128 core cycles of a gutter the prelude is that of the interval at its end. -/
theorem State.preludeOf_of_gutter {g : CalEntry} (hentry : s.entryAt id s.granule = some g) (hkind : g.kind = 3)
    (hlast : g.stop * 450 ≤ s.cycle + 128) : s.preludeOf id = s.entryFrom id g.stop := by
  simp only [State.preludeOf, hentry]
  exact if_pos ⟨hkind, hlast⟩

/-- An idle engine loads the first command. -/
theorem execPreludeStart_idle {e : CalEntry} {c : Cmd} (hid : calOk id = true) (hu : s.up = true) (hprelude : s.preludeOf id = some e)
    (hfirst : s.firstOf id e = some c) (hidle : (s.engine id).busy = none) :
    execPreludeStart id s = .next (s.modEngine id (fun (x : Engine) => { x with ready := some c.id })) := by
  simp [execPreludeStart, hid, hu, hprelude, hfirst, State.stopOverrun, hidle]

/-- A busy engine makes the radio interval late. -/
theorem execPreludeStart_late {e : CalEntry} {c : Cmd} (hid : calOk id = true) (hu : s.up = true) (hprelude : s.preludeOf id = some e)
    (hfirst : s.firstOf id e = some c) (hbusy : (s.engine id).busy ≠ none) (hradio : e.kind = 1) :
    execPreludeStart id s = .next ((s.lateness id 2 [c.id]).endLate [c.id]) := by
  have hover : s.stopOverrun id = true := by
    simp [State.stopOverrun, hprelude, hradio, Option.isSome_iff_ne_none, hbusy]
  simp [execPreludeStart, hid, hu, hprelude, hfirst, hover]

/-! ### Gutters and the ends of radio intervals (R52, R53) -/

/-- At a gutter the command on the engine is stopped, but for a radio one, and a hold ends. -/
theorem execGutterStart_busy {cid : Nat} {c : Cmd} (hid : calOk id = true) (hu : s.up = true) (hgutter : s.kindNow id = 3)
    (hbusy : (s.engine id).busy = some cid) (hcmd : s.cmd? cid = some c) :
    execGutterStart id s = .next ((if s.modeOf c = 2 then s else s.overrun c).endHold id) := by
  simp [execGutterStart, hid, hu, hgutter, hbusy, hcmd]

theorem execRadioIntervalEnd_late {cid : Nat} {c : Cmd} (hid : calOk id = true) (hu : s.up = true)
    (hbusy : (s.engine id).busy = some cid) (hcmd : s.cmd? cid = some c) (hmode : s.modeOf c = 2)
    (hover : s.intervalOver c id = true) :
    execRadioIntervalEnd id s = .next ((s.lateness id 1 [c.id]).endLate [c.id]) := by
  simp [execRadioIntervalEnd, hid, hu, hbusy, hcmd, hmode, hover]

end

/-- A command whose effect is made, and whose pieces have landed, leaves its engines. -/
theorem execCommandEnd_done {s : State} {cid : Nat} {c : Cmd} (hcmd : s.cmd? cid = some c) (hu : s.up = true)
    (hphase : c.phase = .running) (hdid : c.did = true) (hengines : c.engines ≠ []) (hmoving : s.moving c = false) :
    execCommandEnd cid s = .next ((s.endCommand c).releaseEarly c) := by
  simp [execCommandEnd, hcmd, hu, hphase, hdid, hengines, hmoving]

/-- A cause of Table 2.6 that holds is reported. -/
theorem execLatenessReport_holds {s : State} {id cause : Nat} (cids : List Nat) (hid : calOk id = true) (hu : s.up = true)
    (hcause : s.causeHolds id cause = true) :
    execLatenessReport id cause cids s = .next ((s.lateness id cause cids).endLate ((s.radioCmds cids).map Cmd.id)) := by
  simp [execLatenessReport, hid, hu, hcause]

/-- Settles O25: one lemma for each event at which an engine is left. -/
theorem enginesAreLeft : Obligations.EnginesAreLeft := by
  refine ⟨fun cid c s hcmd hu hphase hdid hengines hmoving => ?_,
    fun id g e c s hid hu hentry hkind hlast hfollows hfirst =>
      have hprelude := (State.preludeOf_of_gutter hentry hkind hlast).trans hfollows
      ⟨fun hidle => ?_, fun hbusy hradio => ?_⟩,
    fun id cid c s hid hu hgutter hbusy hcmd => ⟨fun hmode => ?_, fun hmode => ?_⟩,
    fun id cid c s hid hu hbusy hcmd hmode hover => ?_, fun id cause cids s hid hu hcause => ?_⟩
  · exact execCommandEnd_done hcmd hu hphase hdid hengines hmoving
  · exact execPreludeStart_idle hid hu hprelude hfirst hidle
  · exact execPreludeStart_late hid hu hprelude hfirst hbusy hradio
  · exact (execGutterStart_busy hid hu hgutter hbusy hcmd).trans (by rw [if_neg hmode])
  · exact (execGutterStart_busy hid hu hgutter hbusy hcmd).trans (by rw [if_pos hmode])
  · exact execRadioIntervalEnd_late hid hu hbusy hcmd hmode hover
  · exact execLatenessReport_holds cids hid hu hcause

end Sys2Proof.Machine
end

section
/-!
PROOFS. Calendar markers (O31).
-/

namespace Sys2Proof.Machine

theorem isMarker_of_form {c : Cmd} {form : Nat} (hcls : c.cls = 10) (hform : c.form = form) : isMarker form c = true := by
  simp [isMarker, hcls, hform]

/-- A running command of a kind holds its thread while its context runs and its function lives. -/
theorem State.held?_eq {s : State} {cid : Nat} {c : Cmd} {kind : Cmd → Bool} (hcmd : s.cmd? cid = some c) (hkind : kind c = true)
    (hphase : c.phase = .running) (hu : s.up = true) (halive : s.resetting c.fn = false) (hctx : (s.ctx c.ctx).st = .running) :
    s.held? cid kind = some c := by
  simp [State.held?, hcmd, hkind, hphase, hu, halive, hctx]

section

variable {s : State} {cid : Nat} {c : Cmd} (hcls : c.cls = 10)
include hcls

/-- A WAIT completes where its granule has come, and else holds its thread (R203). -/
theorem execCalendarWait_starts (h : s.StartsFree cid c) (hform : c.form = 0) (hgranule : (c.w 6).fld 0 12 < 4000) :
    let t := s.startedFree cid c
    execCalendarWait cid s = .next (if t.waitOver c then t.conclude cid Status.ok t.stampWords else t) := by
  unfold execCalendarWait
  rw [State.startFree_ok h (isMarker_of_form hcls hform), if_neg (Nat.not_le.2 hgranule)]

/-- A WAIT that holds its thread completes once its granule has come. -/
theorem execCalendarWaitRelease_over (hcmd : s.cmd? cid = some c) (hform : c.form = 0) (hphase : c.phase = .running) (hu : s.up = true)
    (halive : s.resetting c.fn = false) (hctx : (s.ctx c.ctx).st = .running) (hover : s.waitOver c = true) :
    execCalendarWaitRelease cid s = .next (s.conclude cid Status.ok s.stampWords) := by
  unfold execCalendarWaitRelease
  rw [State.held?_eq hcmd (isMarker_of_form hcls hform) hphase hu halive hctx]
  exact congrArg _ (if_pos hover)

/-- A RELEASE that names the REL radio interval in progress releases it (R33). -/
theorem execCalendarRelease_hits (h : s.StartsFree cid c) (hform : c.form = 2) (hid : calOk ((c.w 7).fld 0 16) = true) :
    let t := s.startedFree cid c
    (∃ e ∈ t.liveEntries ((c.w 7).fld 0 16), e.kind = 1 ∧ e.rel = true ∧ e.start = (c.w 6).fld 0 12 ∧ e.covers t.granule = true) →
    execCalendarRelease cid s = .next (({ t with cal := { t.cal with
      released := t.cal.released ++ [((c.w 7).fld 0 16, t.granule)] } } : State).conclude cid Status.ok) := by
  rintro t ⟨e, he, hkind, hrel, hstart, hcovers⟩
  have hhit : (calOk ((c.w 7).fld 0 16) && (t.liveEntries ((c.w 7).fld 0 16)).any (fun e =>
      e.kind == 1 && e.rel && e.start == (c.w 6).fld 0 12 && e.covers t.granule)) = true := by
    rw [hid, Bool.true_and, List.any_eq_true]
    exact ⟨e, he, by simp [hkind, hrel, hstart, hcovers]⟩
  unfold execCalendarRelease
  rw [State.startFree_ok h (isMarker_of_form hcls hform)]
  exact congrArg _ (if_pos hhit)

/-- A LOAD of its image's length replaces the shadow page, but while a swap is armed or validated (R38, R43). -/
theorem execCalendarLoad_starts {image : List Byte} (h : s.StartsFree cid c) (hform : c.form = 3)
    (hlength : (c.w 10).toNat = image.length) :
    let t := s.startedFree cid c
    let u : State := { t with cal := { t.cal with shadow := parseImage image.length image } }
    execCalendarLoad cid image s = .next (if 2 ≤ t.g 0x2401 3 ∧ t.g 0x2401 3 ≤ 4 then t.conclude cid Status.accessDenied
      else ((u.swapState 1).swapState 0).conclude cid Status.ok) := by
  unfold execCalendarLoad
  rw [if_neg (by simp [h.cmd, hlength]), State.startFree_ok h (isMarker_of_form hcls hform)]

end

/-- Settles O31: each marker starts free (`State.startFree_ok`), and its own act follows. -/
theorem calendarMarkersAct : Obligations.CalendarMarkersAct := by
  refine fun cid c s hcls => ⟨fun h hform hgranule hover => ?_, fun h hform hgranule hover => ?_,
    fun hcmd hform hphase hu halive hctx hover => ?_, fun h hform => ?_, fun h hform hid hhit => ?_,
    fun image h hform hlength => ⟨fun hst => ?_, fun hlo hhi => ?_⟩⟩
  · exact (execCalendarWait_starts hcls h hform hgranule).trans (by rw [if_pos hover])
  · exact (execCalendarWait_starts hcls h hform hgranule).trans (by rw [hover]; rfl)
  · exact execCalendarWaitRelease_over hcls hcmd hform hphase hu halive hctx hover
  · exact congrArg _ (State.startFree_ok h (isMarker_of_form hcls hform))
  · exact execCalendarRelease_hits hcls h hform hid hhit
  · exact (execCalendarLoad_starts hcls h hform hlength).trans (congrArg _ (if_neg (by omega)))
  · exact (execCalendarLoad_starts hcls h hform hlength).trans (congrArg _ (if_pos ⟨hlo, hhi⟩))

end Sys2Proof.Machine
end

section
/-!
PROOFS. The own effects of matrix, pump and serving commands (O35).
-/

namespace Sys2Proof.Machine

/-! ### The own effect of a command (R191) -/

/-- DETAIL of a command of any class but the radio engines' is the failing device address. -/
theorem State.failDetail_of_cls {s : State} {c : Cmd} (e : Refused) (hcls : c.cls ≠ 9) :
    s.failDetail c e = [e.detail % 2 ^ 32, e.detail / 2 ^ 32 % 2 ^ 32, 0] := if_neg hcls

section

variable {s : State} {cid : Nat} {c : Cmd} {i : Instr} {is : Cmd → Bool} {k : Cmd → State → Except Refused (State × List Nat)}

/-- An instruction that performs a command's effect completes with OK and what the effect answers, or with the status of the check
that failed, the failing address and what an uncorrectable word counts. -/
theorem exec_performs (h : s.Due cid c) (hcls : c.cls ≠ 9) (his : is c = true) (hi : exec i s = .next (s.perform cid is k)) :
    (∀ t d, k c s = .ok (t, d) → exec i s = .next (t.did cid Status.ok d)) ∧
    (∀ e, k c s = .error e →
      exec i s = .next ((s.noteBad c e).did cid e.status [e.detail % 2 ^ 32, e.detail / 2 ^ 32 % 2 ^ 32, 0])) := by
  refine ⟨fun t d hk => ?_, fun e hk => ?_⟩
  · rw [hi, State.perform_ok h his hk]
  · rw [hi, State.perform_refused h his hk, State.failDetail_of_cls e hcls]

/-- The same of a serving command, whose failed check changes nothing else where it met no uncorrectable word. -/
theorem exec_serves (h : s.Due cid c) (hcls : c.cls ≠ 9) (his : is c = true) (hi : exec i s = .next (s.serve cid is k)) :
    (∀ t d, k c s = .ok (t, d) → exec i s = .next (t.did cid Status.ok d)) ∧
    (∀ e, k c s = .error e → e.status ≠ Status.eccUncorrectable →
      exec i s = .next (s.did cid e.status [e.detail % 2 ^ 32, e.detail / 2 ^ 32 % 2 ^ 32, 0])) := by
  refine ⟨fun t d hk => ?_, fun e hk hstatus => ?_⟩
  · rw [hi, State.serve_ok h his hk]
  · rw [hi, State.serve_refused h his hk hstatus, State.failDetail_of_cls e hcls]

end

/-! ### What issuing a transfer leaves alone (R161) -/

/-- Reads of blocks leave what memory reads from. -/
theorem State.askBlocks_memory (s : State) (q : ReadReq) (rate : Nat) (slots : SMap Nat) (last : Nat) (l : List Block) :
    (s.askBlocks q rate slots last l).1.mem = s.mem ∧ (s.askBlocks q rate slots last l).1.garbled = s.garbled := by
  induction l generalizing s slots last with
  | nil => exact ⟨rfl, rfl⟩
  | cons b l ih => exact ih ..

/-- Pieces that are issued have not landed: every byte reads as before. -/
@[simp] theorem State.rd_issueFrom (s : State) (c : Cmd) (pace : Pace) (float : Option Nat) (slots : SMap Nat) (off idx : Nat)
    (l : List Part) (a : Nat) : (s.issueFrom c pace float slots off idx l).rd a = s.rd a := by
  induction l generalizing s slots off idx with
  | nil => rfl
  | cons p l ih =>
    rw [State.issueFrom, ih]
    simp [State.rd, State.askBlocks_memory]

@[simp] theorem State.rd_moveParts (s : State) (c : Cmd) (pace : Pace) (float : Option Nat) (l : List Part) (a : Nat) :
    (s.moveParts c pace float l).rd a = s.rd a := s.rd_issueFrom ..

@[simp] theorem State.rd_moveBytes (s : State) (c : Cmd) (n : Nat) (float : Option Nat) (a : Nat) :
    (s.moveBytes c n float).rd a = s.rd a := s.rd_moveParts ..

/-- The status of a command is no byte of memory. -/
@[simp] theorem State.rd_did (s : State) (cid status : Nat) (detail : List Nat) (a : Nat) :
    (s.did cid status detail).rd a = s.rd a := rfl

/-! ### The effects of FOLIOS and of the pump commands (R122, R161, R163, R165, R195) -/

section

variable {s : State} {c : Cmd}

/-- FOLIOS runs what a preemption left of its folios. -/
theorem foliosEffect_ok {fs : List Folio} (h : s.checkFolios c c.onEngine = .ok fs) :
    foliosEffect c s = .ok (s.foliosPart c c.part (fs.drop c.part), []) := by
  rw [foliosEffect, h]; rfl

theorem foliosEffect_error {e : Refused} (h : s.checkFolios c c.onEngine = .error e) : foliosEffect c s = .error e := by
  rw [foliosEffect, h]; rfl

/-- A copy that does not touch the fabric moves its bytes. -/
theorem copyEffect_ok {float : Option Nat} (hfab : c.isFab = false) (h : s.checkCopy c c.onEngine = .ok float) :
    copyEffect c s = .ok (s.moveBytes c (c.w 8).toNat float, []) := by
  rw [copyEffect, hfab, h]; rfl

theorem transposeEffect_ok {float : Option Nat} (h : s.checkTranspose c = .ok float) :
    transposeEffect c s = .ok (s.moveParts c (paceOf c.onEngine (c.addr 4) (c.addr 6)) float
      (s.transParts c.fn (c.addr 4) (c.addr 6) (transOf c)), []) := by
  rw [transposeEffect, h]; rfl

end

/-! ### Matrix, pump and serving commands -/

section

variable {s : State} {cid : Nat} {c : Cmd} (h : s.Due cid c)
include h

/-- FOLIOS runs its folios, or gives the status of the check that fails (R195). -/
theorem exec_folios_completes (hcls : c.cls = 0) (hform : c.form = 0) :
    (∀ fs, s.checkFolios c c.onEngine = .ok fs →
      exec (.folios cid) s = .next ((s.foliosPart c c.part (fs.drop c.part)).did cid Status.ok [])) ∧
    (∀ e, s.checkFolios c c.onEngine = .error e → exec (.folios cid) s =
      .next ((s.noteBad c e).did cid e.status [e.detail % 2 ^ 32, e.detail / 2 ^ 32 % 2 ^ 32, 0])) := by
  obtain ⟨hok, hrefused⟩ := exec_performs (i := .folios cid) h (by omega) (by simp [hcls, hform]) rfl
  exact ⟨fun fs hcheck => hok _ _ (foliosEffect_ok hcheck), fun e hcheck => hrefused e (foliosEffect_error hcheck)⟩

/-- A copy issues its pieces, and changes no byte before one of them lands (R161, R199). -/
theorem exec_pumpCopy_issues {float : Option Nat} (hcls : c.cls = 2) (hform : c.form = 0) (hfab : c.isFab = false)
    (hcheck : s.checkCopy c c.onEngine = .ok float) :
    let t := (s.moveBytes c (c.w 8).toNat float).did cid Status.ok []
    exec (.pumpCopy cid) s = .next t ∧ ∀ a, t.rd a = s.rd a := by
  obtain ⟨hok, -⟩ := exec_performs (i := .pumpCopy cid) h (by omega) (by simp [hcls, hform]) rfl
  exact ⟨hok _ _ (copyEffect_ok hfab hcheck), fun a => by rw [State.rd_did, State.rd_moveBytes]⟩

/-- A transpose issues its pieces, and changes no byte before one of them lands (R161, R165). -/
theorem exec_pumpTranspose_issues {float : Option Nat} (hcls : c.cls = 2) (hform : c.form = 1)
    (hcheck : s.checkTranspose c = .ok float) :
    let t := (s.moveParts c (paceOf c.onEngine (c.addr 4) (c.addr 6)) float
      (s.transParts c.fn (c.addr 4) (c.addr 6) (transOf c))).did cid Status.ok []
    exec (.pumpTranspose cid) s = .next t ∧ ∀ a, t.rd a = s.rd a := by
  obtain ⟨hok, -⟩ := exec_performs (i := .pumpTranspose cid) h (by omega) (by simp [hcls, hform]) rfl
  exact ⟨hok _ _ (transposeEffect_ok hcheck), fun a => by rw [State.rd_did, State.rd_moveParts]⟩

end

/-- Settles O35: a matrix or pump command performs its effect (`exec_performs`), a serving command serves its own (`exec_serves`),
and what a pump command issues leaves every byte as it was (`State.rd_issueFrom`). -/
theorem matrixPumpAndServingCommandsComplete : Obligations.MatrixPumpAndServingCommandsComplete := by
  refine ⟨fun cid c s h hcls => ⟨fun hform => ?folios, fun hform hready => ?combine⟩,
    fun cid c s h hcls => ⟨fun hform hfab float hcheck => ?copy, fun hform float hcheck => ?transpose⟩,
    fun cid c s h hcls =>
      have hradio : c.cls ≠ 9 := by omega
      ⟨fun hform => ?kvStep, fun hform => ?sample, fun hform hmode => ?gatherRows, fun hform hmode => ?gatherRoute,
        fun hform hmode => ?overwrite, fun hform hmode => ?addFp32, fun hform hmode => ?addBf16⟩⟩
  case folios => exact exec_folios_completes h hcls hform
  case combine =>
    obtain ⟨hok, hrefused⟩ := exec_performs (i := .combine cid) h (by omega) (by simp [hcls, hform, hready]) rfl
    exact ⟨fun t hk => hok t [] hk, hrefused⟩
  case copy => exact exec_pumpCopy_issues h hcls hform hfab hcheck
  case transpose => exact exec_pumpTranspose_issues h hcls hform hcheck
  case kvStep => exact exec_serves h hradio (by simp [hcls, hform]) rfl
  case sample => exact exec_serves h hradio (by simp [hcls, hform]) rfl
  case gatherRows => exact exec_serves h hradio (by simp [hcls, hform, hmode]) rfl
  case gatherRoute => exact exec_serves h hradio (by simp [hcls, hform, hmode]) rfl
  case overwrite => exact exec_serves h hradio (by simp [hcls, hform, hmode]) rfl
  case addFp32 => exact exec_serves h hradio (by simp [hcls, hform, hmode]) rfl
  case addBf16 => exact exec_serves h hradio (by simp [hcls, hform, hmode]) rfl

end Sys2Proof.Machine
end

section
/-!
PROOFS. Where vector commands store (O33).
-/

namespace Sys2Proof.Machine

/-! ### What a store changes -/

/-- t is s with other bytes at addresses of P alone. -/
structure StoresIn (P : Nat → Prop) (s t : State) : Prop where
  rd      : ∀ a, ¬ P a → t.rd a = s.rd a
  memOnly : ∃ m, t = { s with mem := m }

namespace StoresIn

variable {P : Nat → Prop} {s t u : State}

theorem refl : StoresIn P s s := ⟨fun _ _ => rfl, s.mem, rfl⟩

theorem trans (h : StoresIn P s t) (k : StoresIn P t u) : StoresIn P s u := by
  obtain ⟨m, rfl⟩ := h.memOnly
  obtain ⟨m', rfl⟩ := k.memOnly
  exact ⟨fun a ha => (k.rd a ha).trans (h.rd a ha), m', rfl⟩

theorem mono {Q : Nat → Prop} (h : StoresIn P s t) (hle : ∀ a, P a → Q a) : StoresIn Q s t :=
  ⟨fun a ha => h.rd a (mt (hle a) ha), h.memOnly⟩

end StoresIn

theorem length_leBytes (n x : Nat) : (leBytes n x).length = n := by
  induction n generalizing x with
  | zero => rfl
  | succ n ih => rw [leBytes, List.length_cons, ih]

/-- Bytes are written from their address on. -/
theorem State.wrN_storesIn (s : State) (a : Nat) (bs : List Byte) :
    StoresIn (fun x => a ≤ x ∧ x < a + bs.length) s (s.wrN a bs) := by
  induction bs generalizing s a with
  | nil => exact .refl
  | cons b bs ih =>
    have hfirst : StoresIn (· = a) s (s.wr a b) := ⟨fun x hx => s.rd_wr_other b hx, _, rfl⟩
    refine (hfirst.mono fun x hx => ?_).trans ((ih (s.wr a b) (a + 1)).mono fun x hx => ?_) <;>
      rw [List.length_cons] <;> omega

/-! ### Elements of a stream (R125) -/

/-- The row and index of an element, which an engine writes with its value, lie in a stream. -/
def VStream.Has (v : VStream) (e : Nat × Nat × Nat) : Prop := e.1 < v.rows ∧ e.2.1 < v.len

/-- An element starts at or after its stream and ends no later than the last row does. -/
theorem VStream.bitAt_bounds {v : VStream} {r i : Nat} (hr : r < v.rows) (hi : i < v.len) :
    8 * v.addr ≤ v.bitAt r i ∧ v.bitAt r i + v.bits ≤ v.bitAt (v.rows - 1) v.len := by
  have hrow : r ≤ v.rows - 1 := by omega
  unfold VStream.bitAt
  split
  · have hlast : (r * v.len + i + 1) * v.bits ≤ ((v.rows - 1) * v.len + v.len) * v.bits :=
      Nat.mul_le_mul_right _ (by have := Nat.mul_le_mul_right v.len hrow; omega)
    rw [Nat.succ_mul] at hlast
    omega
  · have hpitch := Nat.mul_le_mul_right v.pitch hrow
    have hlast : (i + 1) * v.bits ≤ v.len * v.bits := Nat.mul_le_mul_right _ hi
    rw [Nat.succ_mul] at hlast
    omega

/-- The bytes of an element lie in the region of its stream. -/
theorem VStream.holdsAddr_of_element {v : VStream} {k r i a : Nat} (hr : r < v.rows) (hi : i < v.len)
    (hlo : Mem.well k + v.bitAt r i / 8 ≤ a) (hhi : a < Mem.well k + v.bitAt r i / 8 + cdiv (v.bitAt r i % 8 + v.bits) 8) :
    v.holdsAddr k a := by
  obtain ⟨hstart, hend⟩ := VStream.bitAt_bounds hr hi
  have hregion : v.region = (v.addr, cdiv (v.bitAt (v.rows - 1) v.len) 8 - v.addr) := if_neg (by omega)
  rw [VStream.holdsAddr, hregion]
  unfold cdiv at *
  omega

/-- An element of a core's stream is stored in the stream. -/
theorem State.vput_storesIn (s : State) {v : VStream} {k r i : Nat} (x : Nat) (hr : r < v.rows) (hi : i < v.len) :
    StoresIn (v.holdsAddr k) s (s.vput (Mem.well k) v r i x) := by
  refine (s.wrN_storesIn _ _).mono fun a ⟨hlo, hhi⟩ => ?_
  rw [length_leBytes] at hhi
  exact VStream.holdsAddr_of_element hr hi hlo hhi

theorem State.vputs_storesIn (s : State) {v : VStream} {k : Nat} {l : List (Nat × Nat × Nat)} (h : ∀ e ∈ l, v.Has e) :
    StoresIn (v.holdsAddr k) s (s.vputs (Mem.well k) v l) := by
  induction l generalizing s with
  | nil => exact .refl
  | cons e l ih =>
    obtain ⟨⟨hr, hi⟩, hl⟩ := List.forall_mem_cons.1 h
    exact (s.vput_storesIn e.2.2 hr hi).trans (ih _ hl)

/-! ### Rows and groups of a command (R145, R146) -/

/-- What a row of an operation that is no reduction, SCATTER or QUANT writes. -/
def State.vrow (s : State) (c : Cmd) (well r : Nat) : List (Nat × Nat × Nat) :=
  if c.vop = 0x0A then s.vrowCmp c well r
  else if c.vop = 0x0B then s.vrowSel c well r
  else if c.vop = 0x30 then s.vrowPerm c well r
  else if c.vop = 0x31 then s.vrowGather c well r
  else s.vrowElem c well r

/-- What QUANT writes of blocks (row, block, scale byte, elements): the elements, then the scales (R143). -/
def State.vquantStore (s : State) (c : Cmd) (well : Nat) (blocks : List (Nat × Nat × Nat × List Nat)) : State :=
  (s.vputs well c.vD (blocks.flatMap fun x => x.2.2.2.zipIdx.map fun e => (x.1, 32 * x.2.1 + e.2, e.1))).vputs well c.vScale
    (blocks.map fun x => (x.1, x.2.1, x.2.2.1))

/-- A command's bound bytes, where it has them, for rows that it has written. -/
def State.withBounds (t : State) (c : Cmd) (rows : List Nat) : State :=
  if c.vbounds then t.vwriteBounds c (Mem.well c.onCore) rows else t

/-- What a vector command writes of some rows, of whose elements it takes some, and of the rows that end there; and the elements that
a SCATTER left out. -/
def State.vectorOver (s : State) (c : Cmd) (rows ended : List Nat) (taken : Nat → Nat → Bool) : State × Nat :=
  let well := Mem.well c.onCore
  if vopReduce c.vop then
    ((s.vputs well c.vD (ended.map fun r => (r, 0, s.vreduce c r (s.vrowLive c well r)))).withBounds c ended, 0)
  else if c.vop = 0x32 then
    let parts := rows.map fun r => s.vrowScatter c well r (taken r)
    ((s.vputs well c.vD (parts.flatMap (·.1))).withBounds c ended, (parts.map (·.2)).sum)
  else if c.vop = 0x34 then
    (s.vquantStore c well (rows.flatMap fun r =>
      ((List.range (c.vlen / 32)).filter fun b => taken r (32 * b)).map fun b => (r, b, s.vquantBlock c well r b)), 0)
  else ((s.vputs well c.vD (rows.flatMap fun r => (s.vrow c well r).filter fun e => taken r e.2.1)).withBounds c ended, 0)

/-- The rows that have groups from lo on up to hi. -/
def Cmd.rowsIn (c : Cmd) (lo hi : Nat) : List Nat :=
  (List.range c.vrows).filter fun r => decide (lo < (r + 1) * c.vgroups) && decide (r * c.vgroups < hi)

/-- Those of them whose last group comes before hi. -/
def Cmd.rowsEnded (c : Cmd) (lo hi : Nat) : List Nat := (c.rowsIn lo hi).filter fun r => decide ((r + 1) * c.vgroups ≤ hi)

/-- Element i of row r lies in the groups from lo on up to hi. -/
def Cmd.inGroups (c : Cmd) (lo hi r i : Nat) : Bool :=
  decide (lo ≤ r * c.vgroups + i / c.vrho) && decide (r * c.vgroups + i / c.vrho < hi)

/-- Groups of a command are its rows and elements that lie in them. -/
theorem State.vectorPart_eq (s : State) (c : Cmd) (lo hi : Nat) :
    s.vectorPart c (Mem.well c.onCore) lo hi = s.vectorOver c (c.rowsIn lo hi) (c.rowsEnded lo hi) (c.inGroups lo hi) := rfl

theorem Cmd.lt_of_mem_rowsIn {c : Cmd} {lo hi r : Nat} (hr : r ∈ c.rowsIn lo hi) : r < c.vrows :=
  List.mem_range.1 (List.mem_filter.1 hr).1

theorem Cmd.lt_of_mem_rowsEnded {c : Cmd} {lo hi r : Nat} (hr : r ∈ c.rowsEnded lo hi) : r < c.vrows :=
  Cmd.lt_of_mem_rowsIn (List.mem_filter.1 hr).1

/-! ### The elements of a row -/

section

variable {s : State} {c : Cmd} {well r n : Nat} {p : Nat → Bool} {x : Nat → Nat} {e : Nat × Nat × Nat}

theorem mem_row_of_map (he : e ∈ (List.range n).map fun i => (r, i, x i)) : e.1 = r ∧ e.2.1 < n := by
  obtain ⟨i, hi, rfl⟩ := List.mem_map.1 he
  exact ⟨rfl, List.mem_range.1 hi⟩

theorem mem_row_of_filterMap (he : e ∈ (List.range n).filterMap fun i => if p i then some (r, i, x i) else none) :
    e.1 = r ∧ e.2.1 < n := by
  obtain ⟨i, hi, hsome⟩ := List.mem_filterMap.1 he
  obtain ⟨-, heq⟩ := Option.ite_none_right_eq_some.1 hsome
  obtain rfl := Option.some.inj heq
  exact ⟨rfl, List.mem_range.1 hi⟩

/-- A row writes elements of its own. -/
theorem State.mem_vrow (he : e ∈ s.vrow c well r) : e.1 = r ∧ e.2.1 < c.vlen := by
  unfold State.vrow at he
  split at he
  case isTrue => exact mem_row_of_map he
  case isFalse =>
    split at he
    case isTrue => exact mem_row_of_map he
    case isFalse =>
      split at he
      case isTrue => exact mem_row_of_filterMap he
      case isFalse => split at he <;> exact mem_row_of_filterMap he

/-- A SCATTER writes elements of its destination vector (R142). -/
theorem State.mem_vrowScatter (he : e ∈ (s.vrowScatter c well r p).1) : e.1 = 0 ∧ e.2.1 < c.vlx := by
  obtain ⟨d, hd, rfl⟩ := List.mem_map.1 he
  exact ⟨rfl, of_decide_eq_true (List.mem_filter.1 hd).2⟩

/-- QUANT of a block gives 32 elements (R143). -/
theorem State.length_vquantBlock (blk : Nat) : (s.vquantBlock c well r blk).2.length = 32 := by
  unfold State.vquantBlock
  dsimp only
  split
  · rfl
  · split
    · rfl
    · simp [span]

end

/-! ### The streams that a command writes -/

section

variable {c : Cmd} {r i x : Nat}

/-- A reduction has one element in each row of its destination. -/
theorem Cmd.vD_has_result (hreduce : vopReduce c.vop = true) (hr : r < c.vrows) : c.vD.Has (r, 0, x) := by
  have hcmp : c.vop ≠ 0x0A := fun h => by simp [h, vopReduce] at hreduce
  rw [Cmd.vD, if_neg hcmp, if_pos hreduce]
  exact ⟨hr, Nat.one_pos⟩

theorem Cmd.vD_has_scattered (hop : c.vop = 0x32) (hi : i < c.vlx) : c.vD.Has (0, i, x) := by
  have hreduce : ¬ vopReduce c.vop = true := by simp [hop, vopReduce]
  rw [Cmd.vD, if_neg (by omega), if_neg hreduce, if_pos hop]
  exact ⟨Nat.one_pos, hi⟩

/-- Of any other operation the destination has the shape of the command. -/
theorem Cmd.vD_has (hreduce : ¬ vopReduce c.vop = true) (hscatter : c.vop ≠ 0x32) (hr : r < c.vrows) (hi : i < c.vlen) :
    c.vD.Has (r, i, x) := by
  rw [Cmd.vD, if_neg hreduce, if_neg hscatter]
  split <;> exact ⟨hr, hi⟩

end

/-- Address a lies in the destination of a command, its scales or its bound bytes. -/
def Cmd.stores (c : Cmd) (a : Nat) : Prop := ∃ v ∈ c.vD :: c.vextra, v.holdsAddr c.onCore a

section

variable {s t : State} {c : Cmd}

/-- Elements of a stream that a command writes are stored where the command stores. -/
theorem State.vputs_stores {v : VStream} (hv : v ∈ c.vD :: c.vextra) {l : List (Nat × Nat × Nat)} (h : ∀ e ∈ l, v.Has e) :
    StoresIn c.stores s (s.vputs (Mem.well c.onCore) v l) :=
  (s.vputs_storesIn h).mono fun _ ha => ⟨v, hv, ha⟩

/-- Bound bytes of rows of the command lie in their stream (R144). -/
theorem State.vwriteBounds_stores (hb : c.vbounds = true) {l : List Nat} (h : ∀ r ∈ l, r < c.vrows) :
    StoresIn c.stores s (s.vwriteBounds c (Mem.well c.onCore) l) := by
  have hmem : c.vBound ∈ c.vD :: c.vextra := by simp [Cmd.vextra, hb]
  induction l generalizing s with
  | nil => exact .refl
  | cons r l ih =>
    obtain ⟨hr, hl⟩ := List.forall_mem_cons.1 h
    refine (State.vputs_stores hmem fun e he => ?_).trans (ih hl)
    obtain ⟨hrow, hblk⟩ := mem_row_of_map he
    exact ⟨hrow ▸ hr, hblk⟩

theorem State.withBounds_stores (h : StoresIn c.stores s t) {l : List Nat} (hl : ∀ r ∈ l, r < c.vrows) :
    StoresIn c.stores s (t.withBounds c l) := by
  unfold State.withBounds
  split
  case isTrue hb => exact h.trans (State.vwriteBounds_stores hb hl)
  case isFalse => exact h

/-- Blocks of 32 elements within the shape of a QUANT, and their scales, are stored where it stores. -/
theorem State.vquantStore_stores (hop : c.vop = 0x34) {blocks : List (Nat × Nat × Nat × List Nat)}
    (h : ∀ x ∈ blocks, x.1 < c.vrows ∧ x.2.1 < c.vlen / 32 ∧ x.2.2.2.length = 32) :
    StoresIn c.stores s (s.vquantStore c (Mem.well c.onCore) blocks) := by
  refine (State.vputs_stores List.mem_cons_self fun e he => ?elements).trans
    (State.vputs_stores (by simp [Cmd.vextra, hop]) fun e he => ?scales)
  case elements =>
    obtain ⟨x, hx, he⟩ := List.mem_flatMap.1 he
    obtain ⟨y, hy, rfl⟩ := List.mem_map.1 he
    obtain ⟨hr, hblk, hlen⟩ := h x hx
    have hy := List.snd_lt_of_mem_zipIdx hy
    exact Cmd.vD_has (by simp [hop, vopReduce]) (by omega) hr (by omega)
  case scales =>
    obtain ⟨x, hx, rfl⟩ := List.mem_map.1 he
    obtain ⟨hr, hblk, -⟩ := h x hx
    exact ⟨hr, hblk⟩

/-- Whatever of its rows a command writes, it stores in its destination, its scales and its bound bytes (R125, R144). -/
theorem State.vectorOver_stores {rows ended : List Nat} {taken : Nat → Nat → Bool} (hrows : ∀ r ∈ rows, r < c.vrows)
    (hended : ∀ r ∈ ended, r < c.vrows) : StoresIn c.stores s (s.vectorOver c rows ended taken).1 := by
  have hD : c.vD ∈ c.vD :: c.vextra := List.mem_cons_self
  unfold State.vectorOver
  dsimp only
  split
  case isTrue hreduce =>
    refine State.withBounds_stores (State.vputs_stores hD fun e he => ?_) hended
    obtain ⟨r, hr, rfl⟩ := List.mem_map.1 he
    exact Cmd.vD_has_result hreduce (hended r hr)
  case isFalse hreduce =>
    split
    case isTrue hscatter =>
      refine State.withBounds_stores (State.vputs_stores hD fun e he => ?_) hended
      obtain ⟨part, hpart, he⟩ := List.mem_flatMap.1 he
      obtain ⟨r, -, rfl⟩ := List.mem_map.1 hpart
      obtain ⟨hrow, hi⟩ := State.mem_vrowScatter he
      have hhas := Cmd.vD_has_scattered (x := e.2.2) hscatter hi
      rwa [← hrow] at hhas
    case isFalse hscatter =>
      split
      case isTrue hquant =>
        refine State.vquantStore_stores hquant fun x hx => ?_
        obtain ⟨r, hr, hx⟩ := List.mem_flatMap.1 hx
        obtain ⟨blk, hblk, rfl⟩ := List.mem_map.1 hx
        exact ⟨hrows r hr, List.mem_range.1 (List.mem_filter.1 hblk).1, State.length_vquantBlock blk⟩
      case isFalse =>
        refine State.withBounds_stores (State.vputs_stores hD fun e he => ?_) hended
        obtain ⟨r, hr, he⟩ := List.mem_flatMap.1 he
        obtain ⟨hrow, hi⟩ := State.mem_vrow (List.mem_filter.1 he).1
        exact Cmd.vD_has hreduce hscatter (hrow ▸ hrows r hr) hi

end

/-! ### The checks of a vector command -/

/-- If it fails, then not on an uncorrectable word. -/
def NeverUncorrectable {α : Type} (x : Except Refused α) : Prop := ∀ e, x = .error e → e.status ≠ Status.eccUncorrectable

namespace NeverUncorrectable

theorem ensure {cond : Bool} {status detail : Nat} (h : status ≠ Status.eccUncorrectable) :
    NeverUncorrectable (ensure cond status detail) := by
  rintro e he
  cases cond
  · cases he; exact h
  · cases he

theorem bind {α β : Type} {x : Except Refused α} {k : α → Except Refused β} (hx : NeverUncorrectable x)
    (hk : ∀ a, NeverUncorrectable (k a)) : NeverUncorrectable (x >>= k) := by
  cases x with
  | error e => exact fun d hd => hx d (by cases hd; rfl)
  | ok a => exact hk a

theorem forM {α : Type} {l : List α} {k : α → Except Refused Unit} (hk : ∀ a, NeverUncorrectable (k a)) :
    NeverUncorrectable (l.forM k) := by
  induction l with
  | nil => exact fun _ h => nomatch h
  | cons a l ih => exact bind (hk a) fun _ => ih

end NeverUncorrectable

/-- The checks of a vector command read no byte of memory (R124-R144). -/
theorem State.checkVector_neverUncorrectable (s : State) (c : Cmd) (id : Nat) : NeverUncorrectable (s.checkVector c id) := by
  unfold State.checkVector
  refine .bind (.ensure (by decide)) fun _ => .bind (.ensure (by decide)) fun _ => .bind (.ensure (by decide)) fun _ =>
    .bind (.ensure (by decide)) fun _ => .bind (.forM fun _ => .ensure (by decide)) fun _ =>
    .bind (.ensure (by decide)) fun _ => .ensure (by decide)

theorem vectorEffect_ok {s : State} {c : Cmd} (h : s.checkVector c c.onEngine = .ok ()) :
    vectorEffect c s = .ok ((s.vectorPart c (Mem.well c.onCore) c.part c.vtotal).1,
      if c.vop = 0x32 then [c.detail.headD 0 + (s.vectorPart c (Mem.well c.onCore) c.part c.vtotal).2, 0, 0] else []) := by
  rw [vectorEffect, h]; rfl

theorem vectorEffect_error {s : State} {c : Cmd} {e : Refused} (h : s.checkVector c c.onEngine = .error e) :
    vectorEffect c s = .error e := by
  rw [vectorEffect, h]; rfl

theorem vectorEffect_stores {s t : State} {c : Cmd} {d : List Nat} (h : vectorEffect c s = .ok (t, d)) : StoresIn c.stores s t := by
  cases hcheck : s.checkVector c c.onEngine with
  | error e => rw [vectorEffect_error hcheck] at h; cases h
  | ok =>
    rw [vectorEffect_ok hcheck] at h
    cases h
    exact State.vectorOver_stores (fun _ => Cmd.lt_of_mem_rowsIn) fun _ => Cmd.lt_of_mem_rowsEnded

theorem vectorEffect_neverUncorrectable {s : State} {c : Cmd} : NeverUncorrectable (vectorEffect c s) :=
  .bind (s.checkVector_neverUncorrectable c _) fun _ _ h => nomatch h

/-! ### The own effect of a command -/

/-- A command's effect is not due, or it is performed, or it fails a check. -/
theorem State.perform_cases (s : State) (cid : Nat) (is : Cmd → Bool) (k : Cmd → State → Except Refused (State × List Nat)) :
    s.perform cid is k = s ∨ ∃ c, s.cmd? cid = some c ∧
      ((∃ t d, k c s = .ok (t, d) ∧ s.perform cid is k = t.did cid Status.ok d) ∨
        ∃ e, k c s = .error e ∧ s.perform cid is k = (s.noteBad c e).did cid e.status (s.failDetail c e)) := by
  unfold State.perform
  cases s.cmd? cid with
  | none => exact .inl rfl
  | some c =>
    dsimp only
    split
    · cases hk : k c s with
      | ok r => exact .inr ⟨c, rfl, .inl ⟨r.1, r.2, hk, rfl⟩⟩
      | error e => exact .inr ⟨c, rfl, .inr ⟨e, hk, rfl⟩⟩
    · exact .inl rfl

/-- A vector row changes nothing, or it gives a command its status and stores where that command stores. -/
theorem vectorRun_stores (op cid : Nat) (s : State) :
    vectorRun op cid s = s ∨ ∃ c t status detail, s.cmd? cid = some c ∧ StoresIn c.stores s t ∧
      vectorRun op cid s = t.did cid status detail := by
  obtain hidle | ⟨c, hc, ⟨t, d, hk, hrun⟩ | ⟨e, hk, hrun⟩⟩ :=
    s.perform_cases cid (fun c => c.cls == 1 && c.vop == op) vectorEffect
  · exact .inl hidle
  · exact .inr ⟨c, t, _, _, hc, vectorEffect_stores hk, hrun⟩
  · have hnote : s.noteBad c e = s := if_pos (vectorEffect_neverUncorrectable e hk)
    exact .inr ⟨c, s, _, _, hc, .refl, hnote ▸ hrun⟩

/-- Settles O33: a vector row stores where its command does (`vectorRun_stores`), and gives it a status. -/
theorem vectorCommandsStoreInTheirDestination : Obligations.VectorCommandsStoreInTheirDestination := by
  intro row hrow cid s t ht
  rw [exec_vectorRow hrow] at ht
  obtain rfl := Host.Outcome.next.inj ht
  obtain hidle | ⟨c, u, status, detail, hc, hstores, hrun⟩ := vectorRun_stores row.1 cid s
  · rw [hidle]
    exact ⟨fun _ _ => rfl, rfl, rfl, rfl, rfl, rfl, rfl⟩
  · rw [hrun]
    refine ⟨fun a ha => ?_, ?_⟩
    · exact hstores.rd a fun ⟨v, hv, hold⟩ => ha c hc v hv hold
    · obtain ⟨m, rfl⟩ := hstores.memOnly
      exact ⟨rfl, rfl, rfl, rfl, rfl, rfl⟩

end Sys2Proof.Machine
end

section
/-!
PROOFS. Vector commands complete (O32).
-/

namespace Sys2Proof.Machine

/-! ### A command that no preemption divided (R145, R146) -/

section

variable {c : Cmd} {r i : Nat}

theorem Cmd.vgroups_pos (c : Cmd) : 0 < c.vgroups := Nat.lt_of_lt_of_le Nat.one_pos (Nat.le_max_left ..)

theorem Cmd.vrho_pos (c : Cmd) : 0 < c.vrho := by
  unfold Cmd.vrho
  dsimp only
  generalize List.contains _ 32 = wide
  cases wide <;> decide

/-- Every element of a row lies in one of its groups. -/
theorem Cmd.group_lt (hi : i < c.vlen) : i / c.vrho < c.vgroups := by
  have hlast : i / c.vrho < cdiv c.vlen c.vrho := by
    have hrho := c.vrho_pos
    rw [cdiv, Nat.div_lt_iff_lt_mul hrho]
    have := Nat.lt_div_mul_add hrho (a := c.vlen + c.vrho - 1)
    omega
  exact Nat.lt_of_lt_of_le hlast (Nat.le_max_right ..)

theorem Cmd.row_end_le (hr : r < c.vrows) : (r + 1) * c.vgroups ≤ c.vtotal := Nat.mul_le_mul_right _ hr

/-- Each element lies in one of the command's groups. -/
theorem Cmd.inGroups_all (hr : r < c.vrows) (hi : i < c.vlen) : c.inGroups 0 c.vtotal r i = true := by
  have hend := Cmd.row_end_le hr
  have hgroup := Cmd.group_lt hi
  rw [Nat.succ_mul] at hend
  rw [Cmd.inGroups, Bool.and_eq_true, decide_eq_true_eq, decide_eq_true_eq]
  exact ⟨Nat.zero_le _, by omega⟩

theorem Cmd.rowsIn_all (c : Cmd) : c.rowsIn 0 c.vtotal = List.range c.vrows := List.filter_eq_self.2 fun r hr => by
  have hend := Cmd.row_end_le (List.mem_range.1 hr)
  have hpos := c.vgroups_pos
  rw [Nat.succ_mul] at *
  rw [Bool.and_eq_true, decide_eq_true_eq, decide_eq_true_eq]
  omega

theorem Cmd.rowsEnded_all (c : Cmd) : c.rowsEnded 0 c.vtotal = List.range c.vrows := by
  rw [Cmd.rowsEnded, c.rowsIn_all]
  exact List.filter_eq_self.2 fun r hr => decide_eq_true (Cmd.row_end_le (List.mem_range.1 hr))

/-- What a SCATTER writes of a row depends on which of the row's elements it takes. -/
theorem State.vrowScatter_congr {s : State} {well : Nat} {p q : Nat → Bool} (h : ∀ i < c.vlen, p i = q i) :
    s.vrowScatter c well r p = s.vrowScatter c well r q := by
  unfold State.vrowScatter
  rw [List.filter_congr fun i hi => h i (List.mem_range.1 hi)]

theorem flatMap_congr_left {α β : Type} {l : List α} {f g : α → List β} (h : ∀ a ∈ l, f a = g a) : l.flatMap f = l.flatMap g :=
  congrArg List.flatten (List.map_congr_left h)

/-- A command that writes all its rows and takes all their elements is done. -/
theorem State.vectorDone_eq_vectorOver (s : State) {taken : Nat → Nat → Bool}
    (htaken : ∀ r < c.vrows, ∀ i < c.vlen, taken r i = true) :
    let t := s.vectorOver c (List.range c.vrows) (List.range c.vrows) taken
    s.vectorDone c = (t.1, if c.vop = 0x32 then [t.2, 0, 0] else []) := by
  unfold State.vectorDone State.vectorOver
  dsimp only
  split
  case isTrue hreduce =>
    have hop : c.vop ≠ 0x32 := fun h => by simp [h, vopReduce] at hreduce
    rw [if_neg hop]; rfl
  case isFalse =>
    split
    case isTrue =>
      have hscatter : ∀ r ∈ List.range c.vrows, s.vrowScatter c (Mem.well c.onCore) r (taken r) =
          s.vrowScatter c (Mem.well c.onCore) r fun _ => true := fun r hr =>
        State.vrowScatter_congr (htaken r (List.mem_range.1 hr))
      rw [List.map_congr_left hscatter]; rfl
    case isFalse =>
      split
      case isTrue =>
        have hblocks : ∀ r ∈ List.range c.vrows, ((List.range (c.vlen / 32)).filter fun b => taken r (32 * b)) =
            List.range (c.vlen / 32) := fun r hr => List.filter_eq_self.2 fun b hb =>
          htaken r (List.mem_range.1 hr) _ (by have := List.mem_range.1 hb; omega)
        rw [flatMap_congr_left fun r hr => congrArg (List.map _) (hblocks r hr)]; rfl
      case isFalse =>
        have hrow : ∀ r ∈ List.range c.vrows, ((s.vrow c (Mem.well c.onCore) r).filter fun e => taken r e.2.1) =
            s.vrow c (Mem.well c.onCore) r := fun r hr => List.filter_eq_self.2 fun e he =>
          htaken r (List.mem_range.1 hr) _ (State.mem_vrow he).2
        rw [flatMap_congr_left hrow]; rfl

/-- All groups of a command are all of its rows. -/
theorem State.vectorDone_eq_vectorPart (s : State) (c : Cmd) :
    let t := s.vectorPart c (Mem.well c.onCore) 0 c.vtotal
    s.vectorDone c = (t.1, if c.vop = 0x32 then [t.2, 0, 0] else []) := by
  rw [s.vectorPart_eq c 0 c.vtotal, c.rowsIn_all, c.rowsEnded_all]
  exact s.vectorDone_eq_vectorOver fun _ hr _ hi => Cmd.inGroups_all hr hi

end

/-- Settles O32: a vector row performs its command's effect (`exec_performs`, `vectorEffect_ok`), and all groups of a command are all
of its rows (`State.vectorDone_eq_vectorPart`). -/
theorem vectorCommandsComplete : Obligations.VectorCommandsComplete := by
  intro row hrow cid c s h hcls hop
  obtain ⟨hok, hrefused⟩ := exec_performs (i := row.2 cid) h (by omega) (by simp [hcls, hop]) (exec_vectorRow hrow cid s)
  refine ⟨fun hcheck => ?_, fun e hcheck => hrefused e (vectorEffect_error hcheck)⟩
  have hpart := hok _ _ (vectorEffect_ok hcheck)
  refine ⟨fun hfirst hdetail => ?_, hpart⟩
  rw [hpart, s.vectorDone_eq_vectorPart c, hfirst, hdetail]
  simp

end Sys2Proof.Machine
end

section
/-!
PROOFS. The elements that vector rows write (O34).
-/

namespace Sys2Proof.Machine

/-- The identity of RMAX, in a destination of floats, is minus infinity, whatever the kind of the source (R138, Table 5.4). -/
theorem State.vreduce_rmax_nil {s : State} {c : Cmd} (r : Nat) (hop : c.vop = 0x2A) (hfd : isInt c.vfd = false) :
    s.vreduce c r [] = vconvert c false (s.vdraw c r 0) (.inf true) := by
  simp [State.vreduce, hop, hfd]

/-- As the result of an integer operation, an infinity counts as the integer 0. -/
theorem vconvert_exact_inf (c : Cmd) (draw : Option Nat) (neg : Bool) :
    vconvert c true draw (.inf neg) = vconvert c true draw Num.zero := rfl

/-- RMAX of one row of one INT32 immediate into FP32. -/
def rmaxToFloat : Cmd :=
  { id := 0, fn := 0, words := (List.range 16).map fun i =>
      if i = 4 then BitVec.ofNat 32 (0x2A + 7 * 2 ^ 10 + 2 ^ 25) else if i = 5 ∨ i = 6 then 1 else 0 }

/-- The engine takes that command: only its context and its addresses are left to check (R129, R134). -/
theorem rmaxToFloat_accepted :
    vopListed rmaxToFloat.vop = true ∧ rmaxToFloat.vformatsOk = true ∧ rmaxToFloat.vshapeOk = true := by decide

/-- Refutes O34: of an integer source and a float destination, RMAX of no element is minus infinity (`State.vreduce_rmax_nil`),
where the statement converts infinity as an integer result, which is +0 (`vconvert_exact_inf`). -/
theorem not_vectorElementsAreComputed : ¬ Obligations.VectorElementsAreComputed := by
  intro h
  obtain ⟨-, -, -, -, -, -, -, -, -, -, -, -, -, -, -, -, hmax, -⟩ := h rmaxToFloat 0 0 0 {} (by decide)
  have hstated := hmax (by decide) (by decide)
  rw [State.vreduce_rmax_nil 0 (by decide) (by decide)] at hstated
  have hint : isInt rmaxToFloat.vfa = true := by decide
  rw [hint, vconvert_exact_inf] at hstated
  exact absurd hstated (by decide)

end Sys2Proof.Machine
end

section
/-!
PROOFS. The canonical form of the stores along a step (O6).
-/

namespace Sys2Proof.Machine

/-- The invariant: neither a command nor a core cycle takes a store out of its canonical form. -/
theorem step_keeps_canonical {s t : State} (h : s.Canonical) (ht : step s = .next t) : t.Canonical := by
  unfold step at ht
  cases hp : s.pending with
  | nil =>
    rw [hp] at ht
    cases ht
    exact (State.tick_kept .rfl).canon h
  | cons i rest =>
    rw [hp] at ht
    have hrest : ({ s with pending := rest } : State).Canonical := ⟨h.mem, h.obj, h.floats⟩
    exact (exec_kept .rfl i t ht).canon hrest

/-- Settles O6: the invariant of `step_keeps_canonical`, from the laws of the commands (`exec_kept`) and of the core cycle
(`State.tick_kept`). -/
theorem stepKeepsCanonicalForm : Obligations.StepKeepsCanonicalForm := by
  intro s t h ht
  exact step_keeps_canonical h ht

end Sys2Proof.Machine
end

section
/-!
PROOFS. Floats and memory (O30, O37).
-/

namespace Sys2Proof

section

variable {α : Type} {d d' : Nat → α} {m : SMap α} {k : Nat}

/-- A filter that passes every entry of a key leaves the key alone. -/
theorem SMap.get_filter_of_pass {p : Nat × α → Bool} (h : ∀ v, p (k, v) = true) : SMap.get d (m.filter p) k = SMap.get d m k := by
  induction m with
  | nil => rfl
  | cons e m ih =>
    obtain ⟨j, v⟩ := e
    by_cases hj : j = k
    · subst hj
      simp [SMap.get, h v]
    · cases hp : p (j, v) <;> simp [SMap.get, hp, hj, ih]

/-- A filter that stops every entry of a key leaves its default. -/
theorem SMap.get_filter_of_stop {p : Nat × α → Bool} (h : ∀ v, p (k, v) = false) : SMap.get d (m.filter p) k = d k := by
  induction m with
  | nil => rfl
  | cons e m ih =>
    obtain ⟨j, v⟩ := e
    by_cases hj : j = k
    · subst hj
      simp [h v, ih]
    · cases hp : p (j, v) <;> simp [SMap.get, hp, hj, ih]

/-- A read depends on the default of its own key alone. -/
theorem SMap.get_congr (h : d' k = d k) : SMap.get d' m k = SMap.get d m k := by
  induction m with
  | nil => exact h
  | cons e m ih => simp only [SMap.get, ih]

/-- A key that no entry has reads as its default. -/
theorem SMap.get_of_unlisted (h : ∀ e ∈ m, e.1 ≠ k) : SMap.get d m k = d k := by
  induction m with
  | nil => rfl
  | cons e m ih =>
    rw [SMap.get, if_neg (h e List.mem_cons_self)]
    exact ih fun x hx => h x (List.mem_cons_of_mem e hx)

/-- One value written to a list of keys. -/
theorem SMap.get_foldl_set [DecidableEq α] (l : List Nat) (v : α) (m : SMap α) (k : Nat) :
    SMap.get d (l.foldl (fun m j => SMap.set d m j v) m) k = if k ∈ l then v else SMap.get d m k := by
  induction l generalizing m with
  | nil => rfl
  | cons j l ih =>
    rw [List.foldl_cons, ih]
    by_cases hl : k ∈ l
    · simp [hl]
    · by_cases hj : k = j
      · simp [hj]
      · simp [hl, hj, SMap.get_set_other m v hj]

end

end Sys2Proof

namespace Sys2Proof.Machine

/-! ### Floats (R166, R168) -/

section

variable (s : State) (f : Nat)

/-- An addition wraps modulo 2^64. -/
@[simp] theorem State.float_addFloat (n : Nat) : (s.addFloat f n).float f = s.float f + BitVec.ofNat 64 n := s.float_setFloat f _

theorem State.float_addFloat_other {g : Nat} (n : Nat) (h : g ≠ f) : (s.addFloat f n).float g = s.float g :=
  s.float_setFloat_other _ h

/-- What was added to a float in this core cycle. -/
def State.addedTo (f : Nat) : Nat := SMap.get (fun _ => 0) s.fAdds f
/-- One plus the highest requester that set a float in this core cycle, 0 where none did. -/
def State.setBy (f : Nat) : Nat := SMap.get (fun _ => 0) s.fSets f

@[simp] theorem State.addedTo_addFloat (n : Nat) : (s.addFloat f n).addedTo f = s.addedTo f + n := SMap.get_set_same ..
@[simp] theorem State.setBy_addFloat (n : Nat) : (s.addFloat f n).setBy f = s.setBy f := rfl

variable {s f} {r : Nat}

/-- A SET of a requester that no higher one preceded takes its value, below the ADDs of the cycle. -/
theorem State.putFloat_of_le (w : Nat) (h : s.setBy f ≤ r + 1) :
    s.putFloat r f w = { s.setFloat f (BitVec.ofNat 64 (w + s.addedTo f)) with fSets := SMap.set (fun _ => 0) s.fSets f (r + 1) } :=
  if_neg (Nat.not_lt.2 h)

/-- A SET after that of a higher requester has no effect. -/
theorem State.putFloat_of_lt (w : Nat) (h : r + 1 < s.setBy f) : s.putFloat r f w = s := if_pos h

theorem State.float_putFloat (w : Nat) (h : s.setBy f ≤ r + 1) :
    (s.putFloat r f w).float f = BitVec.ofNat 64 (w + s.addedTo f) := by
  rw [State.putFloat_of_le w h]; exact s.float_setFloat f _

theorem State.setBy_putFloat (w : Nat) (h : s.setBy f ≤ r + 1) : (s.putFloat r f w).setBy f = r + 1 := by
  simp [State.putFloat_of_le w h, State.setBy]

variable (s f)

@[simp] theorem State.addedTo_putFloat (r w g : Nat) : (s.putFloat r f w).addedTo g = s.addedTo g := by
  unfold State.putFloat; split <;> rfl

theorem State.float_putFloat_other {g : Nat} (r w : Nat) (h : g ≠ f) : (s.putFloat r f w).float g = s.float g := by
  unfold State.putFloat
  split
  · rfl
  · exact s.float_setFloat_other _ h

/-- Floats in a range that is zeroed read as 0. -/
theorem State.float_zeroFloats {lo n g : Nat} (hlo : lo ≤ g) (hhi : g < lo + n) : (s.zeroFloats lo n).float g = 0 :=
  SMap.get_filter_of_stop fun _ => by simp [hlo, hhi]

theorem State.float_zeroFloats_other {lo n g : Nat} (h : g < lo ∨ lo + n ≤ g) : (s.zeroFloats lo n).float g = s.float g :=
  SMap.get_filter_of_pass fun _ => by simp; omega

end

/-- Settles O30: SETs of one core cycle by requester (`State.putFloat_of_le`, `State.putFloat_of_lt`), each below the ADDs. -/
theorem floatsHoldWhatIsWritten : Obligations.FloatsHoldWhatIsWritten := by
  intro f n v s
  refine ⟨?add, s.float_setFloat f v, fun g hg => ⟨s.float_addFloat_other f n hg, s.float_setFloat_other v hg⟩,
    fun r w hunset => ?put, fun lo len => ⟨fun g => s.float_zeroFloats, fun g => s.float_zeroFloats_other⟩⟩
  case add => rw [s.float_addFloat, BitVec.ofNat_add, BitVec.ofNat_toNat, BitVec.setWidth_eq]
  case put =>
    have hfirst : s.setBy f ≤ r + 1 := by
      rw [State.setBy, SMap.get_of_unlisted hunset]; exact Nat.zero_le _
    have hput := State.float_putFloat w hfirst
    have hby := State.setBy_putFloat w hfirst
    refine ⟨hput, ?swap, fun g => s.float_putFloat_other f r w, fun q x hq => ?lower, fun q x hq => ?higher⟩
    case swap =>
      rw [State.float_putFloat w (by rwa [s.setBy_addFloat]), s.addedTo_addFloat, State.float_addFloat, hput,
        ← BitVec.ofNat_add, Nat.add_assoc]
    case lower => rw [State.putFloat_of_lt x (by omega)]
    case higher => exact (State.float_putFloat x (by omega)).trans (by rw [s.addedTo_putFloat]; rfl)

/-! ### Memory (R154, R364, R393) -/

section

variable (s : State)

theorem State.rd_wrN_other {a c : Nat} (bs : List Byte) (h : c < a ∨ a + bs.length ≤ c) : (s.wrN a bs).rd c = s.rd c :=
  (s.wrN_storesIn a bs).rd c (by omega)

/-- Bytes written at an address read back. -/
theorem State.rd_wrN (a : Nat) (bs : List Byte) {i : Nat} (hi : i < bs.length) : (s.wrN a bs).rd (a + i) = bs.getD i 0 := by
  induction bs generalizing s a i with
  | nil => exact absurd hi (Nat.not_lt_zero i)
  | cons b bs ih =>
    cases i with
    | zero => exact (State.rd_wrN_other _ bs (.inl (by omega))).trans (s.rd_wr a b)
    | succ i => rw [State.wrN, Nat.add_comm i 1, ← Nat.add_assoc, ih _ _ (by simpa using hi)]; simp [Nat.add_comm 1 i]

/-- A zeroed range lists nothing: it reads as 0 but under a rotated key. -/
theorem State.rd_zeroMem {a n c : Nat} (hlo : a ≤ c) (hhi : c < a + n) : (s.zeroMem a n).rd c = memDflt s.garbled c :=
  SMap.get_filter_of_stop fun _ => by simp [hlo, hhi]

theorem State.rd_zeroMem_other {a n c : Nat} (h : c < a ∨ a + n ≤ c) : (s.zeroMem a n).rd c = s.rd c :=
  SMap.get_filter_of_pass fun _ => by simp; omega

/-- The key generation of a page after a rotation. -/
theorem State.generation_rotatePages (pages : List Nat) (page : Nat) :
    SMap.get (fun _ => 0) (s.rotatePages pages).garbled page =
      if page ∈ pages then s.sec.keyCount + 1 else SMap.get (fun _ => 0) s.garbled page := SMap.get_foldl_set ..

/-- A rotated page reads as its old ciphertext under the key just drawn. -/
theorem State.rd_rotatePages {pages : List Nat} {a : Nat} (h : a / Mem.page ∈ pages) :
    (s.rotatePages pages).rd a = Config.garble (a / Mem.page) s.sec.keyCount (a % Mem.page) := by
  have hgone : (s.rotatePages pages).rd a = memDflt (s.rotatePages pages).garbled a := SMap.get_filter_of_stop fun _ => by simpa using h
  rw [hgone, memDflt, s.generation_rotatePages, if_pos h]
  rfl

theorem State.rd_rotatePages_other {pages : List Nat} {a : Nat} (h : a / Mem.page ∉ pages) : (s.rotatePages pages).rd a = s.rd a := by
  have hdflt : memDflt (s.rotatePages pages).garbled a = memDflt s.garbled a := by
    unfold memDflt; rw [s.generation_rotatePages, if_neg h]
  exact (SMap.get_filter_of_pass fun _ => by simpa using h).trans (SMap.get_congr hdflt)

end

/-- Settles O37: the reads of a byte after each operation on memory. -/
theorem memoryHoldsWhatIsWritten : Obligations.MemoryHoldsWhatIsWritten := fun s a =>
  ⟨s.rd_wr a, fun b _ => s.rd_wr_other b, fun bs _ => s.rd_wrN a bs, fun bs _ => s.rd_wrN_other bs,
    fun _ _ => s.rd_zeroMem, fun _ _ => s.rd_zeroMem_other, fun _ => s.rd_rotatePages, fun _ => s.rd_rotatePages_other⟩

end Sys2Proof.Machine
end

section
/-!
PROOFS. Pieces that land (O38).
-/

namespace Sys2Proof.Machine

/-! ### What the end of commands and jobs leaves alone (R182, R188, R433) -/

/-- A state without what the end of a command or job writes: objects, contexts and functions, commands, what they held, and what
they answer. -/
def State.besideJobs (s : State) : State :=
  { s with obj := [], ctxs := [], fns := [], cmds := [], nextId := 0, engines := [], cores := [], streams := [], answers := []
           procs := [] }

section

variable (s : State)

@[simp] theorem State.besideJobs_setO (sel index sub v : Nat) : (s.setO sel index sub v).besideJobs = s.besideJobs := rfl
@[simp] theorem State.besideJobs_addO (sel index sub n : Nat) : (s.addO sel index sub n).besideJobs = s.besideJobs := rfl
@[simp] theorem State.besideJobs_countJob (f sub n : Nat) : (s.countJob f sub n).besideJobs = s.besideJobs := rfl
@[simp] theorem State.besideJobs_modCtx (c : Nat) (k : Ctx → Ctx) : (s.modCtx c k).besideJobs = s.besideJobs := rfl
@[simp] theorem State.besideJobs_setEngine (e : Nat) (x : Engine) : (s.setEngine e x).besideJobs = s.besideJobs := rfl
@[simp] theorem State.besideJobs_freeSlot (f k : Nat) : (s.freeSlot f k).besideJobs = s.besideJobs := rfl
@[simp] theorem State.besideJobs_freeThreads (c : Nat) : (s.freeThreads c).besideJobs = s.besideJobs := rfl
@[simp] theorem State.besideJobs_dropCmd (cid : Nat) : (s.dropCmd cid).besideJobs = s.besideJobs := rfl
@[simp] theorem State.besideJobs_reply (f dev type seq : Nat) (p : Packet) (lmax : Nat) :
    (s.reply f dev type seq p lmax).besideJobs = s.besideJobs := rfl
theorem State.besideJobs_withCmds (l : List Cmd) : ({ s with cmds := l } : State).besideJobs = s.besideJobs := rfl

@[simp] theorem State.besideJobs_debit (f k n : Nat) : (s.debit f k n).besideJobs = s.besideJobs := by
  unfold State.debit; split <;> rfl

@[simp] theorem State.besideJobs_setProc (n : Nat) (p : Proc) : (s.setProc n p).besideJobs = s.besideJobs := by
  unfold State.setProc; split <;> rfl

@[simp] theorem State.besideJobs_endHold (e : Nat) : (s.endHold e).besideJobs = s.besideJobs := by
  unfold State.endHold
  dsimp only
  split
  · split <;> simp
  · rfl

@[simp] theorem State.besideJobs_endHoldList (l : List Nat) : (s.endHoldList l).besideJobs = s.besideJobs := by
  induction l generalizing s with
  | nil => rfl
  | cons e l ih => rw [State.endHoldList, ih, State.besideJobs_endHold]

@[simp] theorem State.besideJobs_endHolds (c : Nat) (job : Nat → Bool) : (s.endHolds c job).besideJobs = s.besideJobs :=
  s.besideJobs_endHoldList _

@[simp] theorem State.besideJobs_endJob (c job : Nat) : (s.endJob c job).besideJobs = s.besideJobs := by
  unfold State.endJob
  dsimp only
  split <;> simp

@[simp] theorem State.besideJobs_endTrigger (n status : Nat) : (s.endTrigger n status).besideJobs = s.besideJobs := by
  unfold State.endTrigger
  dsimp only
  repeat' split
  all_goals simp

@[simp] theorem State.besideJobs_closeJob (c : Cmd) : (s.closeJob c).besideJobs = s.besideJobs := by
  unfold State.closeJob
  dsimp only
  repeat' split
  all_goals simp

@[simp] theorem State.besideJobs_retireSilently (c : Cmd) : (s.retireSilently c).besideJobs = s.besideJobs := by
  unfold State.retireSilently
  dsimp only
  split <;> simp

@[simp] theorem State.besideJobs_faultContext (c : Cmd) : (s.faultContext c).besideJobs = s.besideJobs := by
  unfold State.faultContext
  dsimp only
  split
  · rfl
  · split
    · refine (State.besideJobs_endTrigger ..).trans ((State.besideJobs_withCmds ..).trans ?_)
      simp [apply_ite State.besideJobs]
    · refine (State.besideJobs_withCmds ..).trans ?_
      simp [apply_ite State.besideJobs]

/-- A command that settles retires, with its job, its trigger and its slot; whatever else there is stays. -/
@[simp] theorem State.besideJobs_settle (cid : Nat) : (s.settle cid).besideJobs = s.besideJobs := by
  unfold State.settle State.retireTriggered
  repeat' split
  all_goals simp

@[simp] theorem State.pieces_settle (cid : Nat) : (s.settle cid).pieces = s.pieces :=
  (congrArg State.pieces (s.besideJobs_settle cid) :)

end

/-! ### Landings (R161, R162, R171) -/

section

variable {s : State} {p q : Piece} {pid : Nat}

/-- A piece that leaves the state is in flight no more. -/
theorem State.id_ne_of_mem_dropPiece (h : q ∈ (s.dropPiece p).pieces) : q.id ≠ p.id := by
  rw [State.dropPiece, State.pieces_settle] at h
  simpa using (List.mem_filter.1 h).2

/-- However a piece lands, it leaves the state. -/
theorem State.landPiece_drops (s : State) (p : Piece) : ∃ t : State, s.landPiece p = t.dropPiece p := by
  unfold State.landPiece
  dsimp only
  repeat' split
  all_goals exact ⟨_, rfl⟩

theorem State.id_ne_of_mem_landPiece (h : q ∈ (s.landPiece p).pieces) : q.id ≠ p.id := by
  obtain ⟨t, ht⟩ := s.landPiece_drops p
  rw [ht] at h
  exact State.id_ne_of_mem_dropPiece h

/-- A piece for the sump, of an old epoch, or for where no memory lies, is counted as sumped. -/
theorem State.landPiece_of_sumped (h : p.sump = true ∨ (s.ctx p.ctx).epoch ≠ p.epoch ∨ (p.bad = none ∧ Mem.sump ≤ p.dst)) :
    s.landPiece p = (s.sumpBytes p.data.length).dropPiece p := by
  unfold State.landPiece
  dsimp only
  split
  case isTrue => rfl
  case isFalse hlive =>
    obtain ⟨hsump, hepoch⟩ : p.sump = false ∧ (s.ctx p.ctx).epoch = p.epoch := by simpa using hlive
    obtain ⟨hbad, hdst⟩ : p.bad = none ∧ Mem.sump ≤ p.dst := by simpa [hsump, hepoch] using h
    simp [hbad, hdst]

/-- A good piece of a live command writes its bytes and counts into its float. -/
theorem State.landPiece_of_live (hsump : p.sump = false) (hepoch : (s.ctx p.ctx).epoch = p.epoch) (hbad : p.bad = none)
    (hdst : p.dst < Mem.sump) (hwhole : s.partialBad p.dst p.data.length = false) :
    s.landPiece p = ((s.store p.dst p.data).countLanding p.float p.data.length).dropPiece p := by
  simp [State.landPiece, hsump, hepoch, hbad, Nat.not_le.2 hdst, hwhole]

/-- The float of a piece counts the bytes that landed, and no other float does (R168). -/
theorem State.float_countLanding (s : State) (float : Option Nat) (n f : Nat) :
    (s.countLanding float n).float f = if float = some f then s.float f + BitVec.ofNat 64 n else s.float f := by
  cases float with
  | none => rfl
  | some g =>
    have hcount : (s.countLanding (some g) n).float f = (s.addFloat g n).float f := rfl
    rw [hcount]
    by_cases hg : g = f
    · subst hg; simp
    · simp [hg, s.float_addFloat_other g n (Ne.symm hg)]

theorem execPieceLand_eq (hp : s.pieces.find? (fun q => q.id == pid) = some p) :
    execPieceLand pid s = .next (if s.mayLand p then s.landPiece p else s) := by
  rw [execPieceLand, hp]

theorem execStxLanding_eq (hp : s.pieces.find? (fun q => q.id == pid) = some p) :
    execStxLanding pid s =
      .next (if s.up && p.stx && decide (p.due ≤ s.clock) && !s.lineBusy p.dst p.data.length then s.landPiece p else s) := by
  rw [execStxLanding, hp]

end

/-- Settles O38: both commands land the piece (`State.landPiece`) once its time has come, and a landing stores its bytes or sumps them. -/
theorem piecesLandWithTheirFloat : Obligations.PiecesLandWithTheirFloat := by
  intro pid p s hp lands
  have hland : ∀ i, exec i s = .next (s.landPiece p) → lands i := fun i hi =>
    ⟨_, hi, fun q => State.id_ne_of_mem_landPiece, State.landPiece_of_sumped, State.landPiece_of_live⟩
  refine ⟨fun hmay => hland _ ?piece, fun hu hstx hdue hfree => hland _ ?stx, fun hearly => ⟨?pieceEarly, ?stxEarly⟩,
    fun a => s.rd_wrN_other p.data, fun i => s.rd_wrN p.dst p.data, s.float_countLanding p.float p.data.length⟩
  case piece => exact (execPieceLand_eq hp).trans (by rw [if_pos hmay])
  case stx => exact (execStxLanding_eq hp).trans (by simp [hu, hstx, hdue, hfree])
  case pieceEarly => exact (execPieceLand_eq hp).trans (by simp [State.mayLand, Nat.not_le.2 hearly])
  case stxEarly => exact (execStxLanding_eq hp).trans (by simp [Nat.not_le.2 hearly])

end Sys2Proof.Machine
end

section
/-!
PROOFS. Waits, signals and fences (O29).
-/

namespace Sys2Proof.Machine

/-! ### Starts of commands without an engine (R179) -/

/-- A command of another kind, or one that may not start, does nothing. -/
theorem State.startFree_of_not_startable {s : State} {cid : Nat} {c : Cmd} {kind : Cmd → Bool} (k : Cmd → State → State)
    (hcmd : s.cmd? cid = some c) (h : s.canStart c = false) : s.startFree cid kind k = s := by
  simp [State.startFree, hcmd, h]

/-- A running command does not start again. -/
theorem State.canStart_of_running {s : State} {c : Cmd} (h : c.phase = .running) : s.canStart c = false := by
  simp [State.canStart, State.isHead, h]

theorem State.domain_payStart (s : State) (c : Cmd) : (s.payStart c).domain = s.domain := by
  unfold State.payStart State.payFill
  dsimp only
  repeat' split
  all_goals rfl

theorem State.domain_takeThread (s : State) (ctx : Nat) : (s.takeThread ctx).domain = s.domain := by
  unfold State.takeThread
  dsimp only
  repeat' split
  all_goals rfl

/-- A start is no business of the domain. -/
theorem State.domain_startedFree (s : State) (cid : Nat) (c : Cmd) : (s.startedFree cid c).domain = s.domain :=
  (State.domain_takeThread ..).trans (s.domain_payStart c)

/-! ### Waits (R169) -/

section

variable {s : State} {cid : Nat} {c : Cmd}

theorem isWait_of_cls (hcls : c.cls = 3) : isWait c = true := by simp [isWait, hcls]

/-- A wait that starts passes where its threshold is met, and else holds its thread; one on no float ends (R167, R169). -/
theorem execFloatWait_starts (hcls : c.cls = 3) (h : s.StartsFree cid c) :
    let t := s.startedFree cid c
    execFloatWait cid s = .next (if (t.floatOf c.fn ((c.w 4).fld 0 16)).isNone then t.conclude cid Status.floatInvalid
      else if t.waitMet c then t.conclude cid Status.ok else t) := by
  unfold execFloatWait
  rw [State.startFree_ok h (isWait_of_cls hcls)]

theorem execFloatWaitMet_met (hcls : c.cls = 3) (hcmd : s.cmd? cid = some c) (hphase : c.phase = .running) (hu : s.up = true)
    (halive : s.resetting c.fn = false) (hctx : (s.ctx c.ctx).st = .running) (hmet : s.waitMet c = true) :
    execFloatWaitMet cid s = .next (s.conclude cid Status.ok) := by
  unfold execFloatWaitMet
  rw [State.held?_eq hcmd (isWait_of_cls hcls) hphase hu halive hctx]
  exact congrArg _ (if_pos hmet)

theorem execFloatWaitTimeout_over (hcls : c.cls = 3) (hcmd : s.cmd? cid = some c) (hphase : c.phase = .running) (hu : s.up = true)
    (halive : s.resetting c.fn = false) (htimed : (c.w 7).toNat ≠ 0) (hover : c.since + (c.w 7).toNat ≤ s.tb2us) :
    execFloatWaitTimeout cid s = .next (s.conclude cid Status.waitTimeout) := by
  unfold execFloatWaitTimeout
  rw [hcmd]
  exact if_pos (by simp [isWait_of_cls hcls, hphase, hu, halive, htimed, hover])

/-! ### Signals (R168, R170) -/

/-- A signal of its form that starts, with AFTER once the earlier commands are done, acts on its float and completes. -/
theorem State.signalFloat_acts {set f : Nat} {k : Cmd → State → Nat → Nat → State} (hcls : c.cls = 4)
    (hform : (c.w 4).fld 16 1 = set) (h : s.StartsFree cid c) (hafter : (c.w 4).bit 17 = false ∨ s.earlierDone c = true)
    (hfloat : (s.startedFree cid c).floatOf c.fn ((c.w 4).fld 0 16) = some f) :
    s.signalFloat cid set k = (k c (s.startedFree cid c) f (wd64 c.words 5)).conclude cid Status.ok := by
  have hready : (s.cmd? cid).all (fun c => !(c.w 4).bit 17 || s.earlierDone c) = true := by simpa [h.cmd] using hafter
  unfold State.signalFloat
  dsimp only
  rw [hready, Bool.not_true, if_neg Bool.false_ne_true, State.startFree_ok h (by simp [hcls, hform]), hfloat]

/-! ### Fences (R200, R434, R435) -/

theorem isLocalFence_of_form (hcls : c.cls = 5) (hform : c.form = 0) : isLocalFence c = true := by simp [isLocalFence, hcls, hform]
theorem isFabricFence_of_form (hcls : c.cls = 5) (hform : c.form = 1) : isFabricFence c = true := by simp [isFabricFence, hcls, hform]

section

variable (hcls : c.cls = 5) (hcmd : s.cmd? cid = some c) (hphase : c.phase = .running) (hu : s.up = true)
  (halive : s.resetting c.fn = false) (hctx : (s.ctx c.ctx).st = .running)
include hcls hcmd hphase hu halive hctx

/-- A LOCAL fence that holds its thread completes once the earlier commands of its job are done. -/
theorem execFenceLocal_running (hform : c.form = 0) :
    execFenceLocal cid s = .next (if s.earlierDone c then s.conclude cid Status.ok else s) := by
  unfold execFenceLocal
  rw [State.startFree_of_not_startable _ hcmd (State.canStart_of_running hphase)]
  dsimp only
  rw [State.held?_eq hcmd (isLocalFence_of_form hcls hform) hphase hu halive hctx]

/-- A FABRIC fence that holds its thread completes once all that it recorded is acknowledged. -/
theorem execFenceFabric_running (hform : c.form = 1) :
    execFenceFabric cid s = .next (if s.fenceMet c then s.conclude cid Status.ok else s) := by
  unfold execFenceFabric
  rw [State.startFree_of_not_startable _ hcmd (State.canStart_of_running hphase)]
  dsimp only
  rw [ite_self, State.held?_eq hcmd (isFabricFence_of_form hcls hform) hphase hu halive hctx]

end

/-- A FABRIC fence that has started: it has recorded what it waits for, and ships the marked landing pages. -/
def State.fenceStarted (s : State) (cid : Nat) (c : Cmd) : State :=
  let t := s.startedFree cid c
  (t.modCmd cid (fun (d : Cmd) => { d with cuts := t.fenceCuts c })).shipPages c (t.dirtyPages c)

/-- A FABRIC fence starts once earlier records have issued their steps, and completes at once where it waits for nothing. -/
theorem execFenceFabric_starts (hcls : c.cls = 5) (hform : c.form = 1) (h : s.StartsFree cid c) (hout : s.stepsOut c = true)
    (hdest : c.dest ≤ 0x2000) (halive : s.domain.declared.contains c.dest = false) :
    let u := s.fenceStarted cid c
    execFenceFabric cid s = .next (match u.held? cid isFabricFence with
      | some d => if u.fenceMet d then u.conclude cid Status.ok else u
      | none => u) := by
  have hready : (s.cmd? cid).all s.stepsOut = true := by simpa [h.cmd] using hout
  have hdomain : (s.startedFree cid c).domain.declared.contains c.dest = false := by rwa [State.domain_startedFree]
  unfold execFenceFabric State.fenceStarted
  dsimp only
  rw [hready, if_pos rfl, State.startFree_ok h (isFabricFence_of_form hcls hform), if_neg (Nat.not_lt.2 hdest), hdomain,
    if_neg Bool.false_ne_true]
  generalize State.shipPages _ _ _ = u
  cases u.held? cid isFabricFence <;> rfl

end

/-- Settles O29: starts are those of `State.startFree_ok`, and a command that holds its thread ends as its event comes. -/
theorem waitsSignalsAndFences : Obligations.WaitsSignalsAndFences := by
  refine ⟨fun cid c s hcls => ⟨fun h hfloat => ?wait, fun h hfloat => ?waitOnNone, fun hcmd hphase hu halive =>
      ⟨execFloatWaitMet_met hcls hcmd hphase hu halive, execFloatWaitTimeout_over hcls hcmd hphase hu halive⟩⟩,
    fun cid f c s h hcls hafter hfloat => ⟨fun hform => ?add, fun hform => ?set⟩,
    fun cid c s hcmd hcls hphase hu halive hctx => ⟨execFenceLocal_running hcls hcmd hphase hu halive hctx,
      execFenceFabric_running hcls hcmd hphase hu halive hctx⟩,
    fun cid c s h hcls hform hout hdest halive => ?fence⟩
  case wait =>
    exact (execFloatWait_starts hcls h).trans (congrArg _ (if_neg (by simpa using hfloat)))
  case waitOnNone => exact (execFloatWait_starts hcls h).trans (congrArg _ (if_pos (by simpa using hfloat)))
  case add => exact congrArg _ (State.signalFloat_acts hcls hform h hafter hfloat)
  case set => exact congrArg _ (State.signalFloat_acts hcls hform h hafter hfloat)
  case fence => exact execFenceFabric_starts hcls hform h hout hdest halive

end Sys2Proof.Machine
end

section
/-!
PROOFS. Reads that arrive, the cistern's scrub, and ranges of floats and landing zones (O39).
-/

namespace Sys2Proof.Machine

/-! ### Codewords (R394, R395) -/

/-- Undisturbed bits make no symbol err. -/
theorem Rs.decode_undisturbed (m b : Nat) : Rs.decode m (Rs.errorOf b []) = .clean := if_pos (by simp [Rs.errorOf])

/-- A block whose bits came undisturbed and that holds no error is clean. -/
theorem State.blockOutcome_undisturbed {s : State} {flat : Nat} (m : Nat) (h : ∀ e ∈ s.ecc, e.1 ≠ flat / 64) :
    s.blockOutcome m flat [] = .clean := by
  have hgood : s.blockBad flat = false := by simpa [State.blockBad] using fun a b hab _ => h (a, b) hab
  have hnone : s.ecc.any (fun e => e.1 == flat / 64) = false := by simpa using fun a b hab => h (a, b) hab
  simp [State.blockOutcome, hgood, Rs.decode_undisturbed, hnone]

section

variable {s : State} {r : ReadReq} {bits : List (Nat × Nat)}

/-- What a read delivers and counts by what its block decodes to (R394-R396, R398). -/
def State.deliverBlock (s : State) (r : ReadReq) : Rs.Outcome → State
  | .clean => s.arrive r false none
  | .corrected => (s.addG 0x6000 (r.chan + 1) 1).arrive r false none
  | .uncorrectable => (s.countUncorrectable r.src 0).arrive r true none
  | .miscorrected moved =>
    (s.fresh.2.addG 0x6000 (r.chan + 1) moved.toNat).arrive r false (some (freeBytes s.fresh.1 64))

theorem State.decode_of_good (hgood : r.bad = false) :
    s.decode r bits = s.deliverBlock r (s.blockOutcome r.mode r.src bits) := by
  unfold State.decode
  rw [hgood, if_neg Bool.false_ne_true]
  cases s.blockOutcome r.mode r.src bits <;> rfl

/-- A block that was uncorrectable when it was read, or that decodes so, is counted and delivers nothing. -/
theorem State.decode_of_bad (h : r.bad = true ∨ s.blockOutcome r.mode r.src bits = .uncorrectable) :
    s.decode r bits = (s.countUncorrectable r.src 0).arrive r true none := by
  cases hbad : r.bad
  case true => exact if_pos hbad
  case false =>
    have ho : s.blockOutcome r.mode r.src bits = .uncorrectable := by simpa [hbad] using h
    rw [State.decode_of_good hbad, ho]; rfl

/-! ### Arrival and presentation (R172, R173, R174) -/

variable {rid : Nat} (hr : s.reads.find? (fun r => r.id == rid) = some r)
include hr

/-- Before issue + L_max nothing is presented. -/
theorem execBucketPresent_early (hearly : s.clock < r.issue + r.lmax) : execBucketPresent rid s = .next s := by
  unfold execBucketPresent
  rw [hr]
  exact if_neg (by simp [hearly])

variable (hu : s.up = true)
include hu

/-- Data that comes to its bucket after issue + L_max is a path fault; any other is decoded. -/
theorem execMemoryReadArrival_issued (hnew : r.arrived = false) (hissue : r.issue ≤ s.clock) :
    execMemoryReadArrival rid bits s =
      .next (if r.bucket && decide (r.issue + r.lmax < s.clock) then s.pathFault r else s.decode r bits) := by
  have hawaited : (!s.up || r.arrived || decide (s.clock < r.issue)) = false := by simp [hu, hnew, hissue]
  unfold execMemoryReadArrival
  rw [hr]
  dsimp only
  rw [hawaited, if_neg Bool.false_ne_true]
  exact (apply_ite ..).symm

/-- Data that no bucket waits for, or that comes by its time, is decoded. -/
theorem execMemoryReadArrival_inTime (hnew : r.arrived = false) (hissue : r.issue ≤ s.clock)
    (htime : r.bucket = false ∨ s.clock ≤ r.issue + r.lmax) :
    execMemoryReadArrival rid bits s = .next (s.decode r bits) := by
  rw [execMemoryReadArrival_issued hr hu hnew hissue, if_neg]
  rcases htime with hfill | hcame
  · simp [hfill]
  · simp [hcame]

/-- At issue + L_max a bucket read is presented, or ends as its data has not come or holds an error. -/
theorem execBucketPresent_due (hbucket : r.bucket = true) (hshown : r.shown = false) (hdue : r.issue + r.lmax ≤ s.clock) :
    execBucketPresent rid s = .next (if r.arrived = false then s.pathFault r
      else if r.bad then s.failRead r Status.eccUncorrectable else s.presentRead r) := by
  unfold execBucketPresent
  rw [hr]
  dsimp only
  rw [if_pos (by simp [hu, hbucket, hshown, hdue])]
  cases r.arrived <;> rfl

end

/-- A scrub of the cistern moves on and corrects single-bit errors alone (R157). -/
theorem execCisternScrub_corrects {s : State} (hu : s.up = true) : ∃ t, execCisternScrub s = .next t ∧ t.cscrub = s.cscrub + 1 ∧
    t.mem = s.mem ∧ t.obj = s.obj ∧ (∀ e ∈ t.ecc, e ∈ s.ecc) ∧ (∀ e ∈ s.ecc, e.2 ≠ 1 → e ∈ t.ecc) := by
  refine ⟨_, if_pos hu, rfl, rfl, rfl, fun e he => (List.mem_filter.1 he).1, fun e he hmany => List.mem_filter.2 ⟨he, ?_⟩⟩
  simp [hmany]

/-! ### Float ranges (R167) -/

section

variable {s : State} {f sub value : Nat} {r : ObjRow}

/-- The base and the count of a function's range once one of them is written. -/
def State.newBase (s : State) (f sub value : Nat) : Nat := if sub = 1 then value else s.o f 0x3040 1
def State.newCount (s : State) (f sub value : Nat) : Nat := if sub = 1 then s.o f 0x3040 2 else value

variable (hfits : s.newBase f sub value + s.newCount f sub value ≤ 65536)
include hfits

/-- A range that another function holds is refused with its selector. -/
theorem floatRangeRule_held {g : Nat} (hclash : s.floatClash f (s.newBase f sub value) (s.newCount f sub value) = some g) :
    floatRangeRule f sub value r s = .error ⟨Status.resourceHeld, g⟩ := by
  unfold State.newBase State.newCount at *
  simp [floatRangeRule, hfits, hclash]

variable (hfree : s.floatClash f (s.newBase f sub value) (s.newCount f sub value) = none)
include hfree

/-- The range of an absent virtual function is stored. -/
theorem floatRangeRule_absent (hvirtual : isMgr f = false) (habsent : s.present f = false) :
    floatRangeRule f sub value r s = .ok (s.setO f 0x3040 sub value) := by
  unfold State.newBase State.newCount at *
  simp [floatRangeRule, hfits, hfree, hvirtual, habsent]

/-- A manager that has no context open exchanges its floats with the pool, and its new range is zeroed. -/
theorem floatRangeRule_manager (hmgr : isMgr f = true) (hclosed : s.o f 0x3050 5 = 0)
    (hpool : s.newCount f sub value ≤ s.g 0x3001 8 + s.o f 0x3040 2) :
    floatRangeRule f sub value r s = .ok (((s.setG 0x3001 8 (s.g 0x3001 8 + s.o f 0x3040 2 - s.newCount f sub value)).setO
      f 0x3040 sub value).zeroFloats (s.newBase f sub value) (s.newCount f sub value)) := by
  unfold State.newBase State.newCount at *
  simp [floatRangeRule, hfits, hfree, hmgr, hclosed, hpool]

end

/-- Settles O39: a read by what its block decodes to (`State.deliverBlock`), and each range by the outcome of its rule. -/
theorem readsArriveAndRangesAreSet : Obligations.ReadsArriveAndRangesAreSet := by
  refine ⟨⟨fun rid bits r s hr hu hnew hissue => ⟨fun hbucket hlate => ?late, fun htime => ?inTime⟩,
    fun rid r s hr hu hbucket hshown => ⟨execBucketPresent_due hr hu hbucket hshown, execBucketPresent_early hr⟩,
    fun s hu => execCisternScrub_corrects hu⟩,
    fun path f sub value s r => ⟨fun h hfits => ⟨fun g hclash => ?held, fun hfree hvirtual habsent => ?absent,
      fun hfree hmgr hclosed hpool => ?manager⟩, fun k h => ?zone⟩⟩
  case late => exact (execMemoryReadArrival_issued hr hu hnew hissue).trans (by simp [hbucket, hlate])
  case inTime =>
    have hdecoded := fun bits => execMemoryReadArrival_inTime (bits := bits) hr hu hnew hissue htime
    have hgood : ∀ bits o, r.bad = false → s.blockOutcome r.mode r.src bits = o →
        exec (.memoryReadArrival rid bits) s = .next (s.deliverBlock r o) := fun bits o hgood ho =>
      (hdecoded bits).trans (by rw [State.decode_of_good hgood, ho])
    exact ⟨fun hg hnone => hgood [] _ hg (State.blockOutcome_undisturbed r.mode hnone), hgood bits _, hgood bits _,
      fun hbad => (hdecoded bits).trans (by rw [State.decode_of_bad hbad]), fun moved => hgood bits _⟩
  case held => exact congrArg _ (State.access_refused h (floatRangeRule_held hfits hclash))
  case absent => exact congrArg _ (State.access_ok h (floatRangeRule_absent hfits hfree hvirtual habsent))
  case manager => exact congrArg _ (State.access_ok h (floatRangeRule_manager hfits hfree hmgr hclosed hpool))
  case zone => exact congrArg _ (State.access_ok h rfl)

end Sys2Proof.Machine
end

section
/-!
PROOFS. The queue (O1, O4), window words (O26), records and completions (O27), and contexts (O28).
-/

namespace Sys2Proof.Machine

/-! ### The queue -/

/-- Settles O1: a step takes the front command off the queue and performs it. -/
theorem stepTakesFrontCommand : Obligations.StepTakesFrontCommand := by
  intro i s
  rfl

/-- Settles O4: every command keeps the queue (`exec_kept`). -/
theorem commandsLeaveTheQueue : Obligations.CommandsLeaveTheQueue := by
  intro i s t h
  exact (exec_kept .rfl i t h).pending

/-- The 514 functions have windows and rings (R335). -/
theorem isFn_of_lt {f : Nat} (hf : f < 514) : isFn f = true := decide_eq_true hf

/-! ### Window words (R185, R187) -/

section

variable {f k i : Nat} {v : W32} {s : State}

@[simp] theorem State.slot_setSlot (s : State) (f k : Nat) (x : Slot) : (s.setSlot f k x).slot f k = x := by
  simp [State.slot, State.setSlot]

theorem State.slot_setSlot_other {k' : Nat} (x : Slot) (hk : k' ≠ k) : (s.setSlot f k x).slot f k' = s.slot f k' := by
  simp [State.slot, State.setSlot, SMap.get_set_other _ _ hk]

/-- A slot with one more word; it is filled once all sixteen are there (R185). -/
def Slot.putWord (x : Slot) (i : Nat) (v : W32) : Slot :=
  { st := if (SMap.put i v x.words).length = 16 then .filled else x.st, words := SMap.put i v x.words }

theorem Slot.filled_putWord {x : Slot} (hfree : x.st = .free) :
    (x.putWord i v).st = .filled ↔ (SMap.put i v x.words).length = 16 := by
  simp [Slot.putWord, hfree]

/-- A word goes into its slot, and one that fills it counts. -/
theorem State.fillWord_eq (s : State) (f k i : Nat) (v : W32) : s.fillWord f k i v =
    if (SMap.put i v (s.slot f k).words).length = 16 then
      (s.setSlot f k ((s.slot f k).putWord i v)).modFn f (fun (y : Fn) => { y with nWrite := y.nWrite + 1 })
    else s.setSlot f k ((s.slot f k).putWord i v) := by
  by_cases hfull : (SMap.put i v (s.slot f k).words).length = 16 <;> simp [State.fillWord, Slot.putWord, hfull]

/-- An update of a function that keeps its slots. -/
theorem State.slot_modFn (s : State) (f k : Nat) {g : Fn → Fn} (hslots : (g (s.fn f)).slots = (s.fn f).slots) :
    (s.modFn f g).slot f k = s.slot f k := by
  simp [State.slot, hslots]

@[simp] theorem State.slot_fillWord (s : State) (f k i : Nat) (v : W32) :
    (s.fillWord f k i v).slot f k = (s.slot f k).putWord i v := by
  rw [State.fillWord_eq]
  split
  · rw [State.slot_modFn _ _ _ rfl, State.slot_setSlot]
  · exact State.slot_setSlot ..

theorem State.slot_fillWord_other {k' : Nat} (hk : k' ≠ k) : (s.fillWord f k i v).slot f k' = s.slot f k' := by
  rw [State.fillWord_eq]
  split
  · rw [State.slot_modFn _ _ _ rfl, State.slot_setSlot_other _ hk]
  · exact State.slot_setSlot_other _ hk

theorem State.nWrite_fillWord (s : State) (f k i : Nat) (v : W32) : ((s.fillWord f k i v).fn f).nWrite =
    (s.fn f).nWrite + (if (SMap.put i v (s.slot f k).words).length = 16 then 1 else 0) := by
  rw [State.fillWord_eq]
  split <;> simp [State.setSlot]

theorem State.fn_fillWord_other {f' : Nat} (hf : f' ≠ f) : (s.fillWord f k i v).fn f' = s.fn f' := by
  rw [State.fillWord_eq]
  split <;> simp [State.setSlot, State.fn_modFn_other _ _ hf]

/-- Only functions change. -/
theorem State.fillWord_fns (s : State) (f k i : Nat) (v : W32) : ∃ fns, s.fillWord f k i v = { s with fns := fns } := by
  rw [State.fillWord_eq]
  split <;> exact ⟨_, rfl⟩

/-- The window of a visible function, not barred to the writer, keeps the word or counts it as dropped (R187). -/
theorem execWindowWordWrite_open {enables : Nat} {tbit : Bool} (hf : f < 514) (hk : k < 1024) (hi : i < 16)
    (hp : s.powered = true) (hvis : s.visible f = true) (hbar : s.tdiBars f tbit = false) :
    execWindowWordWrite f k i v enables tbit s =
      if s.windowShut f = true ∨ enables ≠ 15 ∨ s.depth f ≤ k ∨ (s.slot f k).st ≠ .free then .next (s.addO f 0x3010 0x0A 1)
      else .next (s.fillWord f k i v) := by
  simp [execWindowWordWrite, isFn_of_lt hf, Nat.not_le.2 hk, Nat.not_le.2 hi, hp, hvis, hbar, or_assoc]

end

/-- Settles O26: an open window keeps a word in a free slot below its depth (`State.fillWord`) and drops any other. -/
theorem windowWordsFillSlots : Obligations.WindowWordsFillSlots := by
  intro f k i enables v tbit s hf hk hi hp hvis hbar
  have hexec : exec (.windowWordWrite f k i v enables tbit) s = _ := execWindowWordWrite_open hf hk hi hp hvis hbar
  rw [hexec]
  refine ⟨fun hshut hen hdepth hfree => ?kept, fun hdrop => if_pos hdrop⟩
  obtain ⟨fns, hframe⟩ := s.fillWord_fns f k i v
  refine ⟨s.fillWord f k i v, if_neg (by simp [hshut, hen, hdepth, hfree]), ?word, fun j hj => ?words, ?full, s.nWrite_fillWord f k i v,
    fun k' => State.slot_fillWord_other, fun f' => State.fn_fillWord_other, ?frame⟩
  case word => rw [State.slot_fillWord]; exact SMap.get_put_same ..
  case words => rw [State.slot_fillWord]; exact SMap.get_put_other _ _ hj
  case full => rw [State.slot_fillWord]; exact Slot.filled_putWord hfree
  case frame => rw [hframe]; exact ⟨rfl, rfl, rfl, rfl, rfl⟩

/-! ### Records (R186, R189, R207) -/

/-- The next slot in slot order, once filled, is held and its record submitted (R186). -/
theorem execRecordConsume_filled {f : Nat} {s : State} (hf : f < 514) (hu : s.up = true) (hrun : s.resetting f = false)
    (hfilled : (s.slot f ((s.fn f).nConsume % max 1 (s.depth f))).st = .filled) :
    let k := (s.fn f).nConsume % max 1 (s.depth f)
    execRecordConsume f s = .next
      ((((s.setSlot f k { st := .held }).modFn f (fun (y : Fn) => { y with nConsume := y.nConsume + 1 })).addO f 0x3010 6 1).submit
        f (some k) none (s.slot f k).record) := by
  simp [execRecordConsume, isFn_of_lt hf, hu, hrun, hfilled]

/-- A whole credit write frees the slots of the oldest unreturned completions (R189). -/
theorem execCreditWrite_open {f n : Nat} {tbit : Bool} {s : State} (hf : f < 514) (hu : s.up = true) (hpres : s.present f = true)
    (hvis : s.visible f = true) (hbar : s.tdiBars f tbit = false) :
    let back := (s.fn f).unret.take (n % 2048)
    execCreditWrite f n 15 tbit s = .next
      ((((s.freeSlots f back).modFn f (fun (y : Fn) => { y with unret := y.unret.drop back.length })).addO f 0x3010 9 back.length).addO
        f 0x3010 0x0B (n % 2048 - back.length)) := by
  simp [execCreditWrite, isFn_of_lt hf, hu, hpres, hvis, hbar]

/-- The moderation delay of an unsignalled completion is over (R207). -/
theorem execModerationDelayExpiry_over {f : Nat} {s : State} (hf : f < 514) (hu : s.up = true) (hdelay : s.o f 0x3010 5 ≠ 0)
    (hunsig : (s.fn f).unsig ≠ 0) (hover : (s.fn f).oldest + s.o f 0x3010 5 ≤ s.tb2us) :
    execModerationDelayExpiry f s = .next (s.signal f) := by
  simp [execModerationDelayExpiry, isFn_of_lt hf, hu, hdelay, hunsig, hover]

/-! ### Completions (R204, R206) -/

/-- A command's completion is written: its context faults or its job closes, and it is gone from the commands and from those
that wait for their completion (R182, R183). -/
def State.complete (s u : State) (cid : Nat) (c : Cmd) (k : Nat) : State :=
  let t := (if Status.faults c.status (s.modeOf c == 2) then (u.putCompletion c k).faultContext c
    else (u.putCompletion c k).closeJob c).dropCmd cid
  { t with retired := t.retired.filter (· != cid) }

section

variable {cid k : Nat} {c : Cmd} {s : State} (hcmd : s.cmd? cid = some c) (hret : s.retirable c = true)
include hcmd hret

/-- The completion of a command is written in its turn among those that retired. -/
theorem execCompletionWrite_slot (hslot : c.slot = some k) (hloud : c.silent = false) :
    execCompletionWrite cid s = if s.noteRetired.nextRetired c.fn = some cid then .next (s.complete s.noteRetired cid c k)
      else .next s.noteRetired := by
  simp only [execCompletionWrite, hcmd, hret, hslot, hloud, State.complete, Bool.not_true, Bool.false_eq_true, if_false, ne_eq, ite_not]

/-- A triggered record, or one that asks for no completion, retires without one. -/
theorem execCompletionWrite_silent (h : c.slot = none ∨ c.silent = true) : execCompletionWrite cid s = .next (s.settle cid) := by
  cases hslot : c.slot with
  | none => simp [execCompletionWrite, hcmd, hret, hslot]
  | some k => simp [execCompletionWrite, hcmd, hret, hslot, h.resolve_left (by simp [hslot])]

end

/-- Settles O27: one lemma for each event of a record, and a completion in its turn or none (`execCompletionWrite_slot`). -/
theorem recordsAreConsumedAndCompleted : Obligations.RecordsAreConsumedAndCompleted := by
  refine ⟨⟨fun f s hf hu hrun hfilled => execRecordConsume_filled hf hu hrun hfilled,
    fun f n tbit s hf hu hpres hvis hbar => execCreditWrite_open hf hu hpres hvis hbar,
    fun f s hf hu hdelay hunsig hover => execModerationDelayExpiry_over hf hu hdelay hunsig hover⟩,
    fun cid c s hcmd hret => ⟨fun k hslot hloud _ => ⟨fun hnext => ?turn, fun hlater => ?later⟩,
      fun h => execCompletionWrite_silent hcmd hret h⟩⟩
  case turn => exact (execCompletionWrite_slot hcmd hret hslot hloud).trans (if_pos hnext)
  case later => exact (execCompletionWrite_slot hcmd hret hslot hloud).trans (if_neg hlater)

/-! ### Contexts (R176-R178) -/

section

variable {f home n core : Nat} {s : State} {r : ObjRow}

/-- A fill context opened with a number and a home core: the next epoch, the seed, and the three objects of the answer (R177). -/
def State.openFill (s : State) (f n core : Nat) : State :=
  let epoch := ((s.ctx n).epoch + 1) % 2 ^ 16
  (((s.setCtx n { fn := f, mode := 0, seed := s.o f 0x3050 6, epoch := epoch, home := core, st := .idle, rate := 0 }).setO
    f 0x3050 2 n).setO f 0x3050 3 epoch).addO f 0x3050 5 1

/-- The fields of a request for a fill context: its mode, its home core, and the rest 0. -/
theorem fld_openFill (hhome : home < 128) : fld (home * 4) 0 2 = 0 ∧ fld (home * 4) 2 7 = home ∧ fld (home * 4) 9 23 = 0 := by
  unfold fld; omega

/-- An open request for a fill context passes every check. -/
theorem State.openRule_fill (hhome : home ≤ 95 ∨ home = 0x7F) (hcore : s.homeFor f 0 home = some core)
    (hquota : s.o f 0x3050 5 < s.o f 0x3020 8) (hfree : s.freeCtx = some n) :
    State.openRule f (home * 4) r s = .ok (s.openFill f n core) := by
  obtain ⟨hmode, hh, hrest⟩ := fld_openFill (home := home) (by omega)
  have hplace : (decide (home ≤ 95) || home == 127) = true := by simpa using hhome
  simp [State.openRule, hmode, hh, hrest, hplace, hcore, hquota, hfree, State.openFill]

/-- A close of a context of the function that is open passes. -/
theorem State.closeRule_open (hn : n < 4096) (hown : (s.ctx n).fn = f) (hused : (s.ctx n).st ≠ .free) (hopen : (s.ctx n).closed = false) :
    State.closeRule f n r s = .ok (s.closeCtx f n) := by
  simp [State.closeRule, hn, hown, hused, hopen]

/-- A close of any other context is refused. -/
theorem State.closeRule_other (h : 4096 ≤ n ∨ (s.ctx n).fn ≠ f ∨ (s.ctx n).st = .free ∨ (s.ctx n).closed = true) :
    State.closeRule f n r s = .error ⟨Status.contextInvalid, 0⟩ := by
  have hcheck : (decide (n < 4096) && (s.ctx n).fn == f && decide ((s.ctx n).st ≠ .free) && !(s.ctx n).closed) = false := by
    rcases h with hbig | hother | hfree | hclosed
    · rw [decide_eq_false (Nat.not_lt.2 hbig), Bool.false_and, Bool.false_and, Bool.false_and]
    · rw [beq_eq_false_iff_ne.2 hother, Bool.and_false, Bool.false_and, Bool.false_and]
    · rw [decide_eq_false (not_not_intro hfree), Bool.and_false, Bool.false_and]
    · rw [hclosed, Bool.not_true, Bool.and_false]
  unfold State.closeRule
  dsimp only
  rw [hcheck, ensure_false, except_error]

/-- The number of a context that is not exact returns with its epoch alone. -/
theorem execContextNumberFreed_drained (hu : s.up = true) (hclosed : (s.ctx n).closed = true) (hdrained : s.drained n = true)
    (hmode : (s.ctx n).mode ≠ 1) : execContextNumberFreed n s = .next (s.setCtx n { epoch := (s.ctx n).epoch }) := by
  simp [execContextNumberFreed, hu, hclosed, hdrained, hmode]

end

/-- Settles O28: opens and closes by the outcome of their rules, and the number's return. -/
theorem contextsOpenAndClose : Obligations.ContextsOpenAndClose := by
  refine ⟨fun path f home n core s r h hhome hcore hquota hfree => ?opened,
    fun path f n s r h => ⟨fun hn hown hused hopen => ?closed, fun hother => ?refused⟩,
    fun n s => execContextNumberFreed_drained⟩
  case opened => exact congrArg _ (State.access_ok h (State.openRule_fill hhome hcore hquota hfree))
  case closed => exact congrArg _ (State.access_ok h (State.closeRule_open hn hown hused hopen))
  case refused => exact congrArg _ (State.access_refused h (State.closeRule_other hother))

end Sys2Proof.Machine
end

section
/-!
PROOFS. Jobs of the radio engines (O36).
-/

namespace Sys2Proof.Machine

/-! ### Memory as a job's reads brought it (R172, R398) -/

/-- Blocks that a read brought wrong are stored, and nothing else changes. -/
theorem State.overlay_memOnly (s : State) (l : List ReadReq) : ∃ m, s.overlay l = { s with mem := m } := by
  induction l generalizing s with
  | nil => exact ⟨s.mem, rfl⟩
  | cons r l ih =>
    cases hwrong : r.wrong with
    | none =>
      obtain ⟨m, hm⟩ := ih s
      exact ⟨m, by rw [State.overlay, hwrong, Option.elim_none, hm]⟩
    | some block =>
      obtain ⟨m, hm⟩ := (s.wrN_storesIn r.src block).memOnly
      obtain ⟨m', hm'⟩ := ih (s.wrN r.src block)
      exact ⟨m', by rw [State.overlay, hwrong, Option.elim_some, hm', hm]⟩

theorem State.asSeen_memOnly (s : State) (cid : Nat) (thread : Option (Nat × Nat)) :
    ∃ m e, s.asSeen cid thread = { s with mem := m, ecc := e } := by
  obtain ⟨m, hm⟩ := s.overlay_memOnly (s.shownOf cid thread)
  exact ⟨m, _, by rw [State.asSeen, hm]⟩

@[simp] theorem State.obj_asSeen (s : State) (cid : Nat) (thread : Option (Nat × Nat)) :
    (s.asSeen cid thread).obj = s.obj := by
  obtain ⟨m, e, hseen⟩ := s.asSeen_memOnly cid thread
  rw [hseen]

/-- A command whose effect is still to come is so too in what its reads brought. -/
theorem State.Due.asSeen {s : State} {cid : Nat} {c : Cmd} (h : s.Due cid c) (thread : Option (Nat × Nat)) :
    (s.asSeen cid thread).Due cid c := by
  obtain ⟨m, e, hseen⟩ := s.asSeen_memOnly cid thread
  rw [hseen]
  exact ⟨h.cmd, h.up, h.running, h.fresh⟩

/-! ### What an output in flight leaves alone (R161) -/

@[simp] theorem State.obj_askBlocks (s : State) (q : ReadReq) (rate : Nat) (slots : SMap Nat) (last : Nat) (l : List Block) :
    (s.askBlocks q rate slots last l).1.obj = s.obj := by
  induction l generalizing s slots last with
  | nil => rfl
  | cons b l ih => exact ih ..

@[simp] theorem State.obj_issueFrom (s : State) (c : Cmd) (pace : Pace) (float : Option Nat) (slots : SMap Nat) (off idx : Nat)
    (l : List Part) : (s.issueFrom c pace float slots off idx l).obj = s.obj := by
  induction l generalizing s slots off idx with
  | nil => rfl
  | cons p l ih => exact (ih ..).trans (State.obj_askBlocks ..)

@[simp] theorem State.obj_emitData (s : State) (c : Cmd) (float : Option Nat) (dst : DevAddr) (data : List Byte) :
    (s.emitData c float dst data).obj = s.obj := s.obj_issueFrom ..

/-- The reports of a detection depend on the cell's objects alone (R257-R259). -/
theorem prachReports_of_obj {s t : State} (hobj : t.obj = s.obj) : prachReports t = prachReports s := by
  have hcell : t.cellO = s.cellO := by
    unfold State.cellO State.radioOwner State.g State.o
    rw [hobj]
  unfold prachReports State.prachT
  rw [hcell]

/-! ### The end of a job (Table 7.17) -/

/-- A change of a command that is none changes nothing. -/
theorem State.modCmd_of_none {s : State} {cid : Nat} (h : s.cmd? cid = none) (k : Cmd → Cmd) : s.modCmd cid k = s := by
  have hother : ∀ c ∈ s.cmds, c.id ≠ cid := fun c hc hid => by
    simpa [hid] using List.find?_eq_none.1 h c hc
  have hmap : s.cmds.map (fun c => if c.id = cid then k c else c) = s.cmds :=
    (List.map_congr_left fun c hc => if_neg (hother c hc)).trans s.cmds.map_id
  rw [State.modCmd, hmap]

/-- A command that is given a status has done its effect. -/
theorem State.did_did {s : State} {cid status : Nat} {detail : List Nat} {d : Cmd}
    (h : (s.did cid status detail).cmd? cid = some d) : d.did = true := by
  have hid : d.id = cid := by simpa using List.find?_some h
  obtain ⟨e, -, rfl⟩ := List.mem_map.1 (List.mem_of_find?_eq_some h)
  by_cases he : e.id = cid
  · rw [if_pos he]
  · exact absurd (by simpa only [if_neg he] using hid) he

/-- A job's effect t has been made: the job completes with OK, its TB_ID in DETAIL. -/
def State.jobDone (t : State) (c : Cmd) (cid : Nat) : State :=
  (t.did cid Status.ok []).modCmd cid (fun (e : Cmd) => { e with detail := [c.tbId, 0, 0] })

/-- TB_ID takes the place of what the effect answers. -/
theorem State.jobDone_eq (t : State) (c : Cmd) (cid : Nat) (l : List Nat) :
    t.jobDone c cid = (t.did cid Status.ok l).modCmd cid (fun (e : Cmd) => { e with detail := [c.tbId, 0, 0] }) := by
  simp only [State.jobDone, State.did, State.modCmd, List.map_map]
  congr 2
  funext e
  by_cases hid : e.id = cid <;> simp [hid]

section

variable {s : State} {cid : Nat} {c : Cmd} {is : Cmd → Bool} {k : Cmd → State → Except Refused (State × List Nat)}

/-- A job whose checks pass completes. -/
theorem State.radioDo_done {t : State} {l : List Nat} (h : s.Due cid c) (h9 : c.cls = 9) (his : is c = true)
    (hk : k c s = .ok (t, l)) : s.radioDo cid is k = t.jobDone c cid := by
  rw [State.jobDone_eq t c cid l]
  cases hd : (t.did cid Status.ok l).cmd? cid with
  | some d => exact State.radioDo_ok h h9 his hk hd (State.did_did hd)
  | none =>
    rw [State.modCmd_of_none hd, State.radioDo, State.perform_ok h (by simp [h9, his]) hk]
    simp only [h.cmd, hd]

/-- A job whose check fails with a fault gets the status of that check. -/
theorem State.radioDo_refused {e : Refused} (h : s.Due cid c) (h9 : c.cls = 9) (his : is c = true)
    (hk : k c s = .error e) (hfault : Status.faults e.status true = true) :
    s.radioDo cid is k = (s.noteBad c e).did cid e.status (s.radioDetail c) := by
  have hdetail : s.failDetail c e = s.radioDetail c := if_pos h9
  rw [State.radioDo, State.perform_refused h (by simp [h9, his]) hk, hdetail]
  dsimp only
  split
  next d _ hd => rw [if_neg (by simp [State.did_status hd, hfault])]
  next => rfl

end

/-- An error in the data of a radio job is no fault (R398). -/
theorem Status.ne_eccUncorrectable_of_faults {status : Nat} (h : Status.faults status true = true) :
    status ≠ Status.eccUncorrectable := by
  rintro rfl
  exact absurd h (by decide)

/-! ### Checks (R191) -/

/-- Checks that fail do so whatever would follow them. -/
theorem error_bind_of_error {ε α β γ : Type} {x : Except ε α} {f : α → Except ε β} {g : α → Except ε γ} {e : ε}
    (hx : x >>= f = .error e) (hfg : ∀ a, f a = .error e → g a = .error e) : x >>= g = .error e := by
  cases x with
  | error _ => exact congrArg _ (Except.error.inj hx)
  | ok a => exact hfg a hx

/-! ### Instructions that run a job (R245, R246, R248) -/

section

variable {s : State} {cid : Nat} {c : Cmd} {i : Instr} {is : Cmd → Bool} {inputs : State → Cmd → List (DevAddr × Nat)}
  {k : Cmd → State → Except Refused (State × List Nat)} (h : s.Due cid c) (h9 : c.cls = 9) (his : is c = true)
  (hi : exec i s = .next (s.radioRun cid is inputs k))
include h h9 his hi

theorem exec_radio_asks (ha : c.asked = none) (hl : (inputs s c).filter (fun e => e.2 != 0) ≠ [])
    (hk : ∀ e, k c s = .error e → e.status = Status.eccUncorrectable) :
    exec i s = .next (s.askInputs c ((inputs s c).filter (fun e => e.2 != 0))) := by
  rw [hi, State.radioRun_asks h h9 his ha hl hk]

theorem exec_radio_done {t : State} {l : List Nat} (ha : c.asked = none)
    (hl : (inputs s c).filter (fun e => e.2 != 0) = []) (hk : k c s = .ok (t, l)) :
    exec i s = .next (t.jobDone c cid) := by
  rw [hi, State.radioRun_atOnce h h9 his ha (.inl hl), State.radioDo_done h h9 his hk]

theorem exec_radio_refused {e : Refused} (ha : c.asked = none) (hk : k c s = .error e)
    (hfault : Status.faults e.status true = true) :
    exec i s = .next ((s.noteBad c e).did cid e.status (s.radioDetail c)) := by
  rw [hi, State.radioRun_atOnce h h9 his ha (.inr ⟨e, hk, Status.ne_eccUncorrectable_of_faults hfault⟩),
    State.radioDo_refused h h9 his hk hfault]

theorem exec_radio_seen {t : State} {l : List Nat} {due : Nat} (ha : c.asked = some due) (hdue : due ≤ s.clock)
    (hread : s.reading cid none = false) (hk : k c (s.asSeen cid none) = .ok (t, l)) :
    exec i s = .next (State.takeReads { t.jobDone c cid with mem := s.mem, garbled := s.garbled, ecc := s.ecc } cid none) := by
  rw [hi, State.radioRun_seen h h9 his ha hdue hread, State.radioDo_done (h.asSeen none) h9 his hk]

end

/-! ### Engines that read one stream and write one (Table 9.4) -/

/-- Each row runs its job on its class and modes, and reads the bytes that its class gives. -/
theorem exec_codecRow {row : CodecRow} (hrow : row ∈ codecRows) (cid : Nat) (s : State) :
    exec (row.make cid) s = .next (s.radioRun cid (s.isRadio row.cls row.modes) State.codecInputs
      (codecEffect row.output row.after)) ∧ ∀ b, row.input b = b.input row.cls := by
  simp only [codecRows, List.mem_cons, List.not_mem_nil, or_false] at hrow
  rcases hrow with rfl|rfl|rfl|rfl|rfl|rfl|rfl|rfl|rfl|rfl|rfl|rfl|rfl|rfl|rfl|rfl <;> exact ⟨rfl, fun _ => rfl⟩

theorem State.isRadio_of {s : State} {cls : Nat} {modes : Nat → Bool} {c : Cmd} (hcls : calClass c.onEngine = cls)
    (hmode : modes (s.blkMode c) = true) : s.isRadio cls modes c = true := by
  rw [State.isRadio, hcls, hmode, beq_self_eq_true, Bool.and_true]

section

variable {output : State → Cmd → Blk → List Byte → List Byte} {after after' : Cmd → Blk → List Byte → State → State}
  {c : Cmd} {s : State}

/-- A job whose block, input and output pass emits its output. -/
theorem codecEffect_ok {cls n : Nat} {b : Blk} {float : Option Nat} {data : List Byte} (hcls : calClass c.onEngine = cls)
    (hn : n = b.input cls) (hdata : data = softInput cls (s.readAt c.fn (c.addr 4) n))
    (hopen : s.openBlk c (Blk.fieldsOk cls) = .ok (b, float)) (hin : s.needInput c (c.addr 4) n = .ok ())
    (hout : s.needOutput c (c.addr 6) (output s c b data).length = .ok ()) :
    codecEffect output after c s = .ok (after c b data (s.emitData c float (c.addr 6) (output s c b data)), []) := by
  subst hcls hn hdata
  rw [codecEffect, hopen, except_ok]
  dsimp only
  rw [hin, except_ok, hout, except_ok]

/-- The checks do not depend on what a job does beside its output. -/
theorem codecEffect_error_of_after {e : Refused} (h : codecEffect output after c s = .error e) :
    codecEffect output after' c s = .error e :=
  error_bind_of_error h fun _ hin => error_bind_of_error hin fun _ hout => error_bind_of_error hout fun _ hok => nomatch hok

end

/-! ### Detection of preambles (R258) -/

/-- A detection runs in its own mode and in those that no row takes. -/
theorem State.isRadio_prach {s : State} {c : Cmd} (hcls : calClass c.onEngine = 12)
    (hmode : s.blkMode c = 0 ∨ 4 < s.blkMode c) : s.isRadio 12 (fun m => m == 0 || decide (4 < m)) c = true :=
  State.isRadio_of hcls (by simpa using hmode)

/-- Settles O36: an instruction that runs a job asks, completes or is refused as its effect answers (`exec_radio_asks`,
`exec_radio_done`, `exec_radio_refused`, `exec_radio_seen`), and `codecEffect_ok` says what a codec's effect answers. -/
theorem radioJobsComplete : Obligations.RadioJobsComplete := by
  intro cid c s h h9
  refine ⟨fun ha hl => ⟨fun row hrow hcls hmode => ?rowAsks, fun hcls hmode hk => ?prachAsks, fun hcls => ?harqAsks⟩,
    fun ha hl => ⟨fun row hrow hcls hmode t d => ?rowAtOnce, fun hcls t d => ?harqAtOnce⟩,
    fun row hrow ha hcls hmode e => ?rowRefused,
    fun due ha hdue hread => ⟨fun row hrow b float hcls hmode hopen hin => ?rowSeen,
      fun hcls hmode b float hopen hin => ?prachSeen, fun hcls t d => ?harqSeen⟩,
    fun ha => ⟨fun hcls t d => ?spinePump, fun hcls t d => ?fabricPump⟩⟩
  case rowAsks => exact exec_radio_asks h h9 (State.isRadio_of hcls hmode) (exec_codecRow hrow cid s).1 ha hl
  case prachAsks =>
    exact exec_radio_asks (i := .prachDetect cid) h h9 (State.isRadio_prach hcls hmode) rfl ha hl
      fun e he => hk e (codecEffect_error_of_after he)
  case harqAsks => exact exec_radio_asks (i := .harqCombine cid) h h9 (State.isRadio_of hcls rfl) rfl ha hl
  case rowAtOnce => exact exec_radio_done h h9 (State.isRadio_of hcls hmode) (exec_codecRow hrow cid s).1 ha hl
  case harqAtOnce => exact exec_radio_done (i := .harqCombine cid) h h9 (State.isRadio_of hcls rfl) rfl ha hl
  case rowRefused => exact exec_radio_refused h h9 (State.isRadio_of hcls hmode) (exec_codecRow hrow cid s).1 ha
  case rowSeen =>
    intro data out hout
    obtain ⟨hexec, hinput⟩ := exec_codecRow hrow cid s
    exact exec_radio_seen h h9 (State.isRadio_of hcls hmode) hexec ha hdue hread
      (codecEffect_ok hcls (hinput b) rfl hopen hin hout)
  case prachSeen =>
    intro data found hout
    have hreports : prachReports ((s.asSeen cid none).emitData c float (c.addr 6) found.flatten) = prachReports s :=
      prachReports_of_obj (by simp)
    rw [hreports]
    exact exec_radio_seen (i := .prachDetect cid) h h9 (State.isRadio_prach hcls hmode) rfl ha hdue hread
      (codecEffect_ok hcls rfl rfl hopen hin hout)
  case harqSeen => exact exec_radio_seen (i := .harqCombine cid) h h9 (State.isRadio_of hcls rfl) rfl ha hdue hread
  case spinePump => exact exec_radio_done (i := .radioSpinePumpJob cid) h h9 (State.isRadio_of hcls rfl) rfl ha rfl
  case fabricPump => exact exec_radio_done (i := .radioFabricPumpJob cid) h h9 (State.isRadio_of hcls rfl) rfl ha rfl

end Sys2Proof.Machine
end

section
/-!
PROOFS. The words of the channel cores (O9, O10): an instruction is an opcode and fields of given widths, and a word is cut into
the fields that it was made of.
-/

namespace Sys2Proof.Machine

/-! ### Fields of given widths -/

/-- Each field has its width. -/
inductive Fits : List Nat → List Nat → Prop
  | nil : Fits [] []
  | cons {n v : Nat} {ns vs : List Nat} (hv : v < 2 ^ n) (h : Fits ns vs) : Fits (n :: ns) (v :: vs)

@[simp] theorem fits_nil : Fits [] [] := .nil

@[simp] theorem fits_cons {n v : Nat} {ns vs : List Nat} : Fits (n :: ns) (v :: vs) ↔ v < 2 ^ n ∧ Fits ns vs :=
  ⟨fun h => by cases h with | cons hv h => exact ⟨hv, h⟩, fun ⟨hv, h⟩ => .cons hv h⟩

theorem unpack_pack {fmt vs : List Nat} (h : Fits fmt vs) : unpack fmt (pack fmt vs) = vs := by
  induction h with
  | nil => rfl
  | cons hv _ ih =>
    rw [pack, unpack, Nat.add_mul_mod_self_left, Nat.mod_eq_of_lt hv, Nat.add_mul_div_left _ _ (Nat.two_pow_pos _),
      Nat.div_eq_of_lt hv, Nat.zero_add, ih]

theorem pack_unpack {fmt : List Nat} {x : Nat} (h : x < 2 ^ fmt.sum) : pack fmt (unpack fmt x) = x := by
  induction fmt generalizing x with
  | nil => rw [List.sum_nil, Nat.pow_zero, Nat.lt_one_iff] at h; rw [h]; rfl
  | cons n ns ih =>
    rw [List.sum_cons, Nat.pow_add] at h
    rw [unpack, pack, ih (Nat.div_lt_of_lt_mul h), Nat.mod_add_div]

theorem pack_lt {fmt vs : List Nat} (h : Fits fmt vs) : pack fmt vs < 2 ^ fmt.sum := by
  induction h with
  | nil => exact Nat.one_pos
  | @cons n v ns vs hv _ ih =>
    rw [pack, List.sum_cons, Nat.pow_add]
    calc v + 2 ^ n * pack ns vs
      _ < 2 ^ n * (pack ns vs + 1) := by rw [Nat.mul_succ]; omega
      _ ≤ 2 ^ n * 2 ^ ns.sum := Nat.mul_le_mul_left _ ih

/-! ### The layout of an instruction (R288, Table 10.4) -/

/-- An opcode, the widths of the fields below it, and the fields. -/
structure CcLayout where
  opcode : Nat
  format : List Nat
  fields : List Nat

/-- What the word of an instruction holds. -/
def CcInstr.layout : CcInstr → CcLayout
  | .nop => ⟨0x00, fmtNone, [0]⟩
  | .halt => ⟨0x01, fmtNone, [0]⟩
  | .brk => ⟨0x05, fmtNone, [0]⟩
  | .br cond off => ⟨0x02, fmtBr, [off, 0, cond]⟩
  | .loop body count => ⟨0x03, fmtLoop, [count, body]⟩
  | .loopx body x => ⟨0x04, fmtLoopx, [0, x, body]⟩
  | .movi dst part imm => ⟨0x08, fmtI, [imm, 0, part, dst]⟩
  | .mov dst src => ⟨0x09, fmtV, [0, src, dst]⟩
  | .alu fn xd xa xb => ⟨0x10, fmtR, [0, fn, xb, xa, xd]⟩
  | .calu fn xd xa xb => ⟨0x11, fmtR, [0, fn, xb, xa, xd]⟩
  | .ld xd an mm pmod size disp => ⟨0x18, fmtM, [disp, size, pmod, mm, an, xd]⟩
  | .st xd an mm pmod size disp => ⟨0x19, fmtM, [disp, size, pmod, mm, an, xd]⟩
  | .ldx xd en xo pinc size => ⟨0x1A, fmtE, [0, size, pinc, xo, en, xd]⟩
  | .stx xd en xo pinc size => ⟨0x1B, fmtE, [0, size, pinc, xo, en, xd]⟩
  | .ldf xd en xo pinc => ⟨0x1C, fmtE, [0, 1, pinc, xo, en, xd]⟩
  | .cmac k pa sh ma mb ppa ppb conj sub => ⟨0x20, fmtC, [0, sub, conj, ppb, ppa, mb, ma, sh, pa, k]⟩
  | .cmac4 k pa sh ma mb ppa ppb conj sub => ⟨0x21, fmtC, [0, sub, conj, ppb, ppa, mb, ma, sh, pa, k]⟩
  | .cmac4m k pa sh ma mb ppa ppb conj sub => ⟨0x22, fmtC, [0, sub, conj, ppb, ppa, mb, ma, sh, pa, k]⟩
  | .ftap k pa sh ma mb ppa ppb conj sub => ⟨0x23, fmtC, [0, sub, conj, ppb, ppa, mb, ma, sh, pa, k]⟩
  | .clra mask => ⟨0x24, fmtClra, [0, mask]⟩
  | .sta k an mm pm fmt shift rnd clr => ⟨0x28, fmtS, [0, clr, rnd, shift, fmt, pm, mm, an, k]⟩
  | .sta4 k an mm pm fmt shift rnd clr => ⟨0x29, fmtS, [0, clr, rnd, shift, fmt, pm, mm, an, k]⟩
  | .rda k xd mm pm shift rnd clr => ⟨0x2A, fmtS, [0, clr, rnd, shift, 0, pm, mm, xd, k]⟩

theorem CcInstr.parts_eq (i : CcInstr) : i.parts = (i.layout.opcode, pack i.layout.format i.layout.fields) := by
  cases i <;> rfl

theorem CcInstr.opcode_lt (i : CcInstr) : i.layout.opcode < 2 ^ 6 := by
  cases i <;> simp [CcInstr.layout]

/-- Every format fills the bits below the opcode. -/
theorem CcInstr.format_sum (i : CcInstr) : i.layout.format.sum = 26 := by
  cases i <;> rfl

theorem unpack_fmtNone {x : Nat} (hx : x < 2 ^ 26) : unpack fmtNone x = [x] :=
  congrArg ([·]) (Nat.mod_eq_of_lt hx)

/-- A word reads as an instruction when it has its opcode and, cut in its format, its fields. -/
theorem readCc_eq_some {op x : Nat} {i : CcInstr} (hx : x < 2 ^ 26) :
    readCc op x = some i ↔ i.layout.opcode = op ∧ unpack i.layout.format x = i.layout.fields := by
  have hnone := unpack_fmtNone hx
  constructor
  · intro h
    unfold readCc at h
    split at h
    case h_1 | h_2 | h_6 =>
      obtain ⟨rfl, hi⟩ := Option.ite_none_right_eq_some.1 h
      cases hi
      exact ⟨rfl, hnone⟩
    case h_24 => cases h
    all_goals
      split at h
      · next hfields => cases h; exact ⟨rfl, hfields⟩
      · cases h
  · rintro ⟨rfl, h⟩
    cases i with
    | nop | halt | brk => exact if_pos (List.head_eq_of_cons_eq (hnone.symm.trans h))
    | _ => simp only [CcInstr.layout] at h; simp only [CcInstr.layout, readCc, h]

/-! ### The fields of a well-formed instruction (Table 10.3) -/

section

variable {xd an en xo mm pinc pmod size disp k pa sh ma mb ppa ppb conj sub pm fmt shift rnd clr : Nat}

theorem fits_of_ccMemOk (h : ccMemOk xd an mm pmod size disp = true) : Fits fmtM [disp, size, pmod, mm, an, xd] := by
  simp [ccMemOk, ccRegs] at h
  simp [fmtM]
  omega

theorem fits_of_ccExtOk (h : ccExtOk xd en xo pinc size = true) : Fits fmtE [0, size, pinc, xo, en, xd] := by
  simp [ccExtOk, ccRegs] at h
  simp [fmtE]
  omega

theorem fits_of_ccMacOk (h : ccMacOk k pa sh ma mb ppa ppb conj sub = true) :
    Fits fmtC [0, sub, conj, ppb, ppa, mb, ma, sh, pa, k] := by
  simp [ccMacOk] at h
  simp [fmtC]
  omega

theorem fits_of_ccStoOk (h : ccStoOk k an mm pm fmt shift rnd clr = true) :
    Fits fmtS [0, clr, rnd, shift, fmt, pm, mm, an, k] := by
  simp [ccStoOk] at h
  simp [fmtS]
  omega

end

theorem CcInstr.fields_fit {i : CcInstr} (h : i.wf = true) : Fits i.layout.format i.layout.fields := by
  cases i with
  | ld | st => exact fits_of_ccMemOk h
  | ldx | stx => exact fits_of_ccExtOk h
  | cmac => exact fits_of_ccMacOk h
  | cmac4m | ftap => exact fits_of_ccMacOk (Bool.and_eq_true_iff.1 h).1
  | cmac4 => exact fits_of_ccMacOk (Bool.and_eq_true_iff.1 (Bool.and_eq_true_iff.1 h).1).1
  | sta | rda => exact fits_of_ccStoOk h
  | sta4 => exact fits_of_ccStoOk (Bool.and_eq_true_iff.1 h).1
  | nop | halt | brk => simp [CcInstr.layout, fmtNone]
  | _ =>
    simp [CcInstr.wf, ccWritable, ccReadable] at h
    simp [CcInstr.layout, fmtBr, fmtLoop, fmtLoopx, fmtI, fmtV, fmtR, fmtE, fmtClra]
    omega

/-! ### Words (R288, R290) -/

theorem ccWord_fields {op x : Nat} (hop : op < 2 ^ 6) (hx : x < 2 ^ 26) :
    W32.fld (BitVec.ofNat 32 (op * 2 ^ 26 + x)) 26 6 = op ∧ W32.fld (BitVec.ofNat 32 (op * 2 ^ 26 + x)) 0 26 = x := by
  simp only [W32.fld, fld, BitVec.toNat_ofNat]
  omega

theorem ccWord_of_fields (w : W32) : BitVec.ofNat 32 (w.fld 26 6 * 2 ^ 26 + w.fld 0 26) = w := by
  apply BitVec.eq_of_toNat_eq
  have hw := w.isLt
  simp only [W32.fld, fld, BitVec.toNat_ofNat]
  omega

theorem decodeCc_eq_some {w : W32} {i : CcInstr} : decodeCc w = some i ↔
    i.wf = true ∧ i.layout.opcode = w.fld 26 6 ∧ unpack i.layout.format (w.fld 0 26) = i.layout.fields := by
  have hx : w.fld 0 26 < 2 ^ 26 := Nat.mod_lt _ (Nat.two_pow_pos 26)
  rw [decodeCc, Option.filter_eq_some_iff, readCc_eq_some hx, and_comm]

/-- Settles O9: fields that fit are cut from the word that they were packed in (`unpack_pack`). -/
theorem channelCoreWordsRoundTrip : Obligations.ChannelCoreWordsRoundTrip := by
  intro i h
  have hfit := CcInstr.fields_fit h
  have hlt := pack_lt hfit
  rw [i.format_sum] at hlt
  obtain ⟨hop, hx⟩ := ccWord_fields i.opcode_lt hlt
  rw [decodeCc_eq_some, encodeCc, i.parts_eq, hop, hx]
  exact ⟨h, rfl, unpack_pack hfit⟩

/-- Settles O10: the fields that a word was cut into make it again (`pack_unpack`). -/
theorem channelCoreWordsAreUnique : Obligations.ChannelCoreWordsAreUnique := by
  intro w i h
  obtain ⟨-, hop, hfields⟩ := decodeCc_eq_some.1 h
  have hx : w.fld 0 26 < 2 ^ i.layout.format.sum := by rw [i.format_sum]; exact Nat.mod_lt _ (Nat.two_pow_pos 26)
  rw [encodeCc, i.parts_eq, hop, ← hfields, pack_unpack hx, ccWord_of_fields]

end Sys2Proof.Machine
end

section
/-!
PROOFS. Local loads and stores of the channel cores (O41).
-/

namespace Sys2Proof.Machine

theorem length_wordsToBytes (ws : List W32) : (wordsToBytes ws).length = 4 * ws.length := by
  induction ws with
  | nil => rfl
  | cons w ws ih =>
    unfold wordsToBytes at ih ⊢
    rw [List.flatMap_cons, List.length_append, length_leBytes, ih, List.length_cons, Nat.mul_succ, Nat.add_comm]

/-! ### What a post-modify and the issue of an instruction leave alone (R274, R277) -/

section

variable (s : State) (x : Thread)

theorem State.rd_ccStepA (an : Nat) (m : Int) : (s.ccStepA x an m).1.rd = s.rd := by
  unfold State.ccStepA
  split <;> rfl

theorem State.rd_ccPost (an mm pmod n : Nat) : (s.ccPost x an mm pmod n).1.rd = s.rd := by
  unfold State.ccPost
  split
  · rfl
  · exact s.rd_ccStepA ..

theorem State.rd_ccPut (cc t n : Nat) : (s.ccPut cc t n x).rd = s.rd := rfl

end

/-! ### LD and ST (R276, R277) -/

section

variable {s : State} {cc t xd an mm pmod size disp : Nat} {x : Thread}

theorem exec_ld (h : s.Issues cc t x (.ld xd an mm pmod size disp)) :
    exec (.ld cc) s = .next ((s.ccPost x an mm pmod (4 * 2 ^ size)).1.ccPut cc t 1
      ((s.ccPost x an mm pmod (4 * 2 ^ size)).2.setXs xd
        (s.rdWords (Mem.chan cc + x.ea an (sgn 11 disp) (4 * 2 ^ size)) (2 ^ size))).advance) :=
  show execLd cc s = _ from State.ccRun_ok h rfl

/-- The state that ST's bytes have been written in. -/
def State.localStored (s : State) (cc : Nat) (x : Thread) (xd an size disp : Nat) : State :=
  s.wrN (Mem.chan cc + x.ea an (sgn 11 disp) (4 * 2 ^ size)) (wordsToBytes (x.xs xd (2 ^ size)))

theorem exec_st (h : s.Issues cc t x (.st xd an mm pmod size disp)) :
    exec (.st cc) s = .next (((s.localStored cc x xd an size disp).ccPost x an mm pmod (4 * 2 ^ size)).1.ccPut cc t 1
      ((s.localStored cc x xd an size disp).ccPost x an mm pmod (4 * 2 ^ size)).2.advance) :=
  show execSt cc s = _ from State.ccRun_ok h rfl

end

/-- Settles O41: a post-modify and the issue leave memory alone (`State.rd_ccPost`), and ST's bytes are those that it writes. -/
theorem localLoadsAndStores : Obligations.LocalLoadsAndStores := by
  intro cc t xd an mm pmod size disp x s _ n a
  refine ⟨fun h => ⟨exec_ld h, fun u hu b => ?load⟩, fun h => ⟨exec_st h, fun u hu => ?store⟩⟩
  case load =>
    cases (exec_ld h).symm.trans hu
    rw [State.rd_ccPut, State.rd_ccPost]
  case store =>
    cases (exec_st h).symm.trans hu
    have hlength : (wordsToBytes (x.xs xd (2 ^ size))).length = n := by
      rw [length_wordsToBytes]; simp [Thread.xs, span, n]
    rw [State.rd_ccPut, State.rd_ccPost]
    exact ⟨fun b hb => State.rd_wrN_other _ _ (by rwa [hlength]), fun i hi => State.rd_wrN _ _ _ (by rwa [hlength])⟩

end Sys2Proof.Machine
end

section
/-!
PROOFS. Channel-core threads run their program (O40).
-/

namespace Sys2Proof.Machine

section

variable {s : State} {cc t : Nat} {x : Thread}

/-! ### Block repeats (R279) -/

section

variable {body count : Nat}

theorem State.ccLoop_opens {y : Thread} (h : x.openLoop body count = some y) :
    s.ccLoop cc t x body count = .ok (s.ccPut cc t 1 y) := by
  rw [State.ccLoop, h]

theorem State.ccLoop_refused (h : x.openLoop body count = none) :
    s.ccLoop cc t x body count = .error Status.operationUnsupported := by
  rw [State.ccLoop, h]

end

/-! ### ALU and complex rows (Table 10.4) -/

section

variable {row : Nat × (Nat → Instr) × (W32 → W32 → W32)} {fn xd xa xb : Nat}

theorem exec_aluRow (hrow : row ∈ aluRows) (cc : Nat) (s : State) : exec (row.2.1 cc) s = s.ccAluRow cc row.1 := by
  simp only [aluRows, List.mem_cons, List.not_mem_nil, or_false] at hrow
  rcases hrow with rfl|rfl|rfl|rfl|rfl|rfl|rfl|rfl <;> rfl

theorem exec_caluRow (hrow : row ∈ caluRows) (cc : Nat) (s : State) : exec (row.2.1 cc) s = s.ccCaluRow cc row.1 := by
  simp only [caluRows, List.mem_cons, List.not_mem_nil, or_false] at hrow
  rcases hrow with rfl|rfl|rfl|rfl|rfl <;> rfl

theorem aluRow_lt (hrow : row ∈ aluRows) : row.1 < 8 :=
  (by decide : ∀ fn ∈ aluRows.map Prod.fst, fn < 8) _ (List.mem_map_of_mem hrow)

/-- A row has its result; a shift has it for an amount below the width. -/
theorem aluOut_row (hrow : row ∈ aluRows) {a b : W32} (hb : 5 ≤ row.1 → b.toNat < 32) :
    aluOut row.1 a b = some (row.2.2 a b) := by
  simp only [aluRows, List.mem_cons, List.not_mem_nil, or_false] at hrow
  rcases hrow with rfl|rfl|rfl|rfl|rfl|rfl|rfl|rfl
  iterate 5 rfl
  all_goals exact if_pos (hb (by decide))

/-- A shift by the width or more has no result. -/
theorem aluOut_wide (h5 : 5 ≤ fn) (h8 : fn < 8) (a : W32) {b : W32} (hb : 32 ≤ b.toNat) : aluOut fn a b = none := by
  obtain rfl | rfl | rfl : fn = 5 ∨ fn = 6 ∨ fn = 7 := by omega
  all_goals exact if_neg (Nat.not_lt.2 hb)

theorem caluOut_row (hrow : row ∈ caluRows) (a b : W32) : caluOut row.1 a b = row.2.2 a b := by
  simp only [caluRows, List.mem_cons, List.not_mem_nil, or_false] at hrow
  rcases hrow with rfl|rfl|rfl|rfl|rfl <;> rfl

theorem State.ccAluRow_issued (h : s.Issues cc t x (.alu fn xd xa xb)) :
    s.ccAluRow cc fn = .next (s.ccAlu cc t x fn xd xa xb) :=
  State.ccRun_ok h (if_pos rfl)

theorem State.ccCaluRow_issued (h : s.Issues cc t x (.calu fn xd xa xb)) :
    s.ccCaluRow cc fn = .next (s.ccPut cc t 1 (x.setX xd (caluOut fn (x.xr xa) (x.xr xb))).advance) :=
  State.ccRun_ok h (if_pos rfl)

theorem State.ccAlu_of_some {v : W32} (hfn : fn < 8) (hv : aluOut fn (x.xr xa) (x.xr xb) = some v) :
    s.ccAlu cc t x fn xd xa xb = s.ccPut cc t 1 { x.setX xd v with flags := aluFlags v }.advance := by
  rw [State.ccAlu, hv]
  exact congrArg (fun y : Thread => s.ccPut cc t 1 { y with flags := aluFlags v }.advance) (if_neg (Nat.ne_of_lt hfn))

theorem State.ccAlu_of_none (hfn : fn < 8) (hv : aluOut fn (x.xr xa) (x.xr xb) = none) :
    s.ccAlu cc t x fn xd xa xb = s.fresh.2.ccPut cc t 1
      { x.setX xd (BitVec.ofNat 32 s.fresh.1) with flags := aluFlags (BitVec.ofNat 32 s.fresh.1) }.advance := by
  rw [State.ccAlu, hv]
  exact congrArg (fun y : Thread => s.fresh.2.ccPut cc t 1 { y with flags := aluFlags (BitVec.ofNat 32 s.fresh.1) }.advance)
    (if_neg (Nat.ne_of_lt hfn))

end

end

/-- Settles O40: the instruction that issues next has its meaning (`State.ccRun_ok`, `State.ccRun_error`); the rows of the ALU
by whether they have a result (`aluOut_row`, `aluOut_wide`). -/
theorem threadsRunTheirProgram : Obligations.ThreadsRunTheirProgram := by
  constructor
  · intro cc t x s
    refine ⟨fun h => ?nop, fun h => ?halt, fun cond off h => ?br,
      fun body count h => ⟨fun y hy => ?loopOpens, fun hnone => ?loopRefused⟩,
      fun body r h => ⟨fun y hy => ?loopxOpens, fun hnone => ?loopxRefused⟩, fun h => ?brk, fun dst part imm h => ?movi,
      fun dst src h => ?mov⟩
    case nop => exact show execNop cc s = _ from State.ccRun_ok h rfl
    case halt => exact show execHalt cc s = _ from State.ccRun_ok h rfl
    case br => exact show execBr cc s = _ from State.ccRun_ok h rfl
    case loopOpens => exact show execLoop cc s = _ from State.ccRun_ok h (congrArg some (State.ccLoop_opens hy))
    case loopRefused => exact show execLoop cc s = _ from State.ccRun_error h (congrArg some (State.ccLoop_refused hnone))
    case loopxOpens => exact show execLoopx cc s = _ from State.ccRun_ok h (congrArg some (State.ccLoop_opens hy))
    case loopxRefused => exact show execLoopx cc s = _ from State.ccRun_error h (congrArg some (State.ccLoop_refused hnone))
    case brk => exact show execBrk cc s = _ from State.ccRun_ok h rfl
    case movi => exact show execMovi cc s = _ from State.ccRun_ok h rfl
    case mov => exact show execMov cc s = _ from State.ccRun_ok h rfl
  · intro cc t xd xa xb x s
    refine ⟨fun row hrow h => ⟨fun hshift => ?alu, fun h5 hwide => ?aluWide⟩, fun h => ?cmp, fun row hrow h => ?calu⟩
    case alu => rw [exec_aluRow hrow, State.ccAluRow_issued h, State.ccAlu_of_some (aluRow_lt hrow) (aluOut_row hrow hshift)]; rfl
    case aluWide =>
      have h8 := aluRow_lt hrow
      rw [exec_aluRow hrow, State.ccAluRow_issued h, State.ccAlu_of_none h8 (aluOut_wide h5 h8 _ hwide)]
      rfl
    case cmp => exact show execAluCmp cc s = _ from State.ccAluRow_issued h
    case calu => rw [exec_caluRow hrow, State.ccCaluRow_issued h, caluOut_row hrow]

end Sys2Proof.Machine
end

section
/-!
PROOFS. Channel cores reach outside, accumulate, and start and end their jobs (O42).
-/

namespace Sys2Proof.Machine

/-! ### Products and sums (R281) -/

theorem cProduct_eq (a b : W32) (conj sub : Bool) :
    cProduct a b conj sub =
      let q := if conj then -cQ b else cQ b
      let m : Int := if sub then -1 else 1
      (m * (cI a * cI b - cQ a * q), m * (cI a * q + cQ a * cI b)) := by
  cases sub <;> simp [cProduct]

theorem accAdd_sum (v : BitVec 40) (d : Int) : (accAdd v d).1 = v + BitVec.ofInt 40 d := by
  rw [accAdd, BitVec.ofInt_add, BitVec.ofInt_toInt]

theorem accAdd_leaves (v : BitVec 40) (d : Int) :
    (accAdd v d).2 = true ↔ (v.toInt + d < -(2 ^ 39) ∨ 2 ^ 39 ≤ v.toInt + d) := by
  simp [accAdd]

/-! ### Jobs (R291, R292) -/

section

variable {s : State} {cid : Nat} {c : Cmd} {b : Blk} {float : Option Nat} (h : s.Due cid c) (h9 : c.cls = 9)
  (hcls : calClass c.onEngine = 17) (hopen : s.openChan c = .ok (b, float))
include hopen

theorem fillEffect_ok : fillEffect c s = .ok (s.chanPieces c (if (c.addr 4).space = 2 then 240 else 20) 0 float
    ((cuts32 (c.addr 4).off b.len).map (fun x =>
      s.partOf c.fn 0 (Mem.chan (calInst c.onEngine) + (wd b 4).toNat + x.1) ((span x.1 x.2).map (c.addr 4).plus))), []) := by
  rw [fillEffect, hopen]; rfl

theorem drainEffect_ok : drainEffect c s = .ok (s.chanPieces c 0 (landLatency false (c.addr 6).space) float
    ((cuts32 (c.addr 6).off b.len).map (fun x =>
      { dst := ((c.addr 6).plus x.1).word, flat := s.flat c.fn (c.addr 6) x.1
        data := s.rdN (Mem.chan (calInst c.onEngine) + (wd b 4).toNat + x.1) x.2 })), []) := by
  rw [drainEffect, hopen]; rfl

include h h9 hcls

/-- A RUN job whose checks pass starts its threads. -/
theorem execChannelCoreRun_starts (h1 : s.blkMode c ≠ 1) (h2 : s.blkMode c ≠ 2)
    (hnew : (s.chan (calInst c.onEngine)).cid ≠ some cid) : execChannelCoreRun cid s = .next (s.startRun c b) := by
  have his : s.isRadio 17 (fun m => m != 1 && m != 2) c = true := State.isRadio_of hcls (by simp [h1, h2])
  unfold execChannelCoreRun
  simp only [h.cmd, hopen]
  exact if_pos (by simp [h.up, h.running, h.fresh, h9, his, hnew])

end

/-! ### Replies of remote loads (R287) -/

section

variable {s : State} {cc t : Nat} {x : Thread} {a : Await} (hcc : cc < 32) (ht : t < 4) (hup : s.up = true)
  (hjob : (s.ccJob cc).isSome = true) (hawait : s.ccAwait cc t = some a) (hx : (s.chan cc).thread t = x)
  (hst : x.st = .waiting) (hfar : x.far = true)
include hcc ht hup hjob hawait hx hst hfar

theorem execLdfReply_inTime (data : List Byte) (hdue : s.clock ≤ x.due) :
    execLdfReply cc t Status.ok data s = .next ((s.dropAwait a.id).setChan cc (((s.dropAwait a.id).chan cc).setThread t
      { x.setXs x.xd (bytesToWords (takeBytes 8 data)) with st := .ready, far := false })) := by
  obtain ⟨c, hc⟩ := Option.isSome_iff_exists.1 hjob
  unfold execLdfReply
  rw [if_neg (by omega)]
  simp only [hawait, hc, hx]
  rw [if_pos (by simp [hup, hst, hfar]), if_neg (Nat.not_lt.2 hdue), if_pos trivial]

theorem execLdfWaitExpiry_eq :
    execLdfWaitExpiry cc t s = .next (if x.due ≤ s.clock then (s.dropAwait a.id).ccMiss cc t x else s) := by
  obtain ⟨c, hc⟩ := Option.isSome_iff_exists.1 hjob
  unfold execLdfWaitExpiry
  rw [if_neg (by omega)]
  simp only [hawait, hc, hx]
  by_cases hdue : x.due ≤ s.clock <;> simp [hup, hst, hfar, hdue]

end

/-! ### Data of external loads (R286) -/

theorem execLdxDataArrival_fills {s : State} {cc t : Nat} {x : Thread} {c : Cmd} (hcc : cc < 32) (ht : t < 4) (hup : s.up = true)
    (hjob : s.ccJob cc = some c) (hx : (s.chan cc).thread t = x) (hst : x.st = .waiting) (hfar : x.far = false)
    (hdue : x.due ≤ s.clock) (hread : s.reading c.id (some (cc, t)) = false)
    (hgood : (s.asSeen c.id (some (cc, t))).readBad c.fn (devAddr x.addr) x.size = none) :
    execLdxDataArrival cc t s = .next ((s.takeReads c.id (some (cc, t))).setChan cc ((s.chan cc).setThread t
      { x.setXs x.xd (bytesToWords ((s.asSeen c.id (some (cc, t))).readAt c.fn (devAddr x.addr) x.size)) with st := .ready })) := by
  unfold execLdxDataArrival
  rw [if_neg (by omega)]
  simp only [hjob, hx, hgood]
  exact if_pos (by simp [hup, hst, hfar, hdue, hread])

/-- Settles O42: an instruction that issues next has its meaning (`State.ccRun_ok`, `State.ccRun_error`) with the job of its
core; FILL and DRAIN have their effect at once (`exec_radio_done`). -/
theorem channelCoresLoadAccumulateAndEnd : Obligations.ChannelCoresLoadAccumulateAndEnd := by
  refine ⟨fun cc t x c s hjob => ⟨fun xd en xo pinc size h => ⟨fun hok => ?ldx, fun hbad => ?ldxBad⟩, ?arrival,
      fun xd en xo pinc size h hok howned => ?stx, fun xd en xo pinc h => ⟨fun v hv => ?ldf, fun e he => ?ldfBad⟩,
      fun w hcc ht hup hawait hx hst hfar => ?replies⟩,
    fun cc t k an ab ma mb pa pb conj sub x s => ⟨fun h => ?cmac, fun h => ?cmac4, fun h => ?cmac4m, fun h => ?ftap,
      fun mask h => ?clra, fun mm pm fmt shift rnd clr h => ?sta, fun mm pm fmt shift rnd clr h => ?sta4,
      fun xd mm pm shift rnd clr h => ?rda, cProduct_eq, fun v d => ⟨accAdd_sum v d, accAdd_leaves v d⟩⟩,
    fun cid c b float s h h9 hcls hopen => ⟨fun h1 h2 hnew => ?run, fun ha hmode => ?fill, fun ha hmode => ?drain⟩⟩
  case ldx =>
    exact show execLdx cc s = _ from State.ccRun_ok h (by simp only [hjob]; exact congrArg some (if_pos hok))
  case ldxBad =>
    exact show execLdx cc s = _ from State.ccRun_error h (by simp only [hjob]; exact congrArg some (if_neg (by simp [hbad])))
  case arrival =>
    intro hcc ht hup hx hst hfar hdue hread v hgood
    exact execLdxDataArrival_fills hcc ht hup hjob hx hst hfar hdue hread hgood
  case stx =>
    exact show execStx cc s = _ from State.ccRun_ok h (by
      simp only [hjob]
      exact congrArg some ((if_neg (by simp [hok])).trans (if_neg (by simp [howned]))))
  case ldf => exact show execLdf cc s = _ from State.ccRun_ok h (by simp only [hjob]; exact congrArg some hv)
  case ldfBad => exact show execLdf cc s = _ from State.ccRun_error h (by simp only [hjob]; exact congrArg some he)
  case replies =>
    have hsome : (s.ccJob cc).isSome = true := by rw [hjob]; rfl
    have hexpiry : exec (.ldfWaitExpiry cc t) s = _ := execLdfWaitExpiry_eq hcc ht hup hsome hawait hx hst hfar
    exact ⟨fun data => execLdfReply_inTime hcc ht hup hsome hawait hx hst hfar data,
      fun hdue => by rw [hexpiry, if_pos hdue], fun hdue => by rw [hexpiry, if_neg (Nat.not_le.2 hdue)]⟩
  case cmac => exact show execCmac cc s = _ from State.ccRun_ok h rfl
  case cmac4 => exact show execCmac4 cc s = _ from State.ccRun_ok h rfl
  case cmac4m => exact show execCmac4m cc s = _ from State.ccRun_ok h rfl
  case ftap => exact show execFtap cc s = _ from State.ccRun_ok h rfl
  case clra => exact show execClra cc s = _ from State.ccRun_ok h rfl
  case sta => exact show execSta cc s = _ from State.ccRun_ok h rfl
  case sta4 => exact show execSta4 cc s = _ from State.ccRun_ok h rfl
  case rda => exact show execRda cc s = _ from State.ccRun_ok h rfl
  case run => exact execChannelCoreRun_starts h h9 hcls hopen h1 h2 hnew
  case fill =>
    exact exec_radio_done (i := .channelCoreFill cid) h h9 (State.isRadio_of hcls (by simp [hmode])) rfl ha rfl
      (fillEffect_ok hopen)
  case drain =>
    exact exec_radio_done (i := .channelCoreDrain cid) h h9 (State.isRadio_of hcls (by simp [hmode])) rfl ha rfl
      (drainEffect_ok hopen)

end Sys2Proof.Machine
end

section
/-!
PROOFS. Fronthaul jobs and departures (O44).
-/

namespace Sys2Proof.Machine

/-! ### Jobs of engine class 16 (R311, R312) -/

section

variable {s : State} {cid : Nat} {c : Cmd} {i : Instr} {is : Cmd → Bool} {inputs : State → Cmd → List (DevAddr × Nat)}
  {k : Cmd → State → Except Refused (State × List Nat)} (h : s.Due cid c)
  (hi : exec i s = .next (s.radioRun cid is inputs k))
include h hi

theorem exec_radio_waits {due : Nat} (ha : c.asked = some due) (hdue : s.clock < due) : exec i s = .next s := by
  rw [hi, State.radioRun_waits h.cmd ha (.inl hdue)]

/-- The life of a job that has inputs: it asks for them, waits until they are due, and completes on what they brought. -/
theorem exec_radio_phases (h9 : c.cls = 9) (his : is c = true) :
    (c.asked = none → (inputs s c).filter (fun e => e.2 != 0) ≠ [] →
      (∀ e, k c s = .error e → e.status = Status.eccUncorrectable) →
      exec i s = .next (s.askInputs c ((inputs s c).filter (fun e => e.2 != 0)))) ∧
    (∀ due t, c.asked = some due → due ≤ s.clock → s.reading cid none = false → k c (s.asSeen cid none) = .ok (t, []) →
      exec i s = .next (State.takeReads
        { t.jobDone c cid with mem := s.mem, garbled := s.garbled, ecc := s.ecc } cid none)) ∧
    (∀ due, c.asked = some due → s.clock < due → exec i s = .next s) :=
  ⟨exec_radio_asks h h9 his hi, fun _ _ => exec_radio_seen h h9 his hi, fun _ => exec_radio_waits h hi⟩

end

/-! ### Departure (R311, R328, R329) -/

section

variable {lane p : Nat} {f : TxFrame} {s : State} (skew : Int) (hl : lane < 16) (hup : s.up = true)
  (hport : s.portOfLane lane = some p) (hpup : s.portUp p = true)
  (hturn : (s.txOf p).find? (fun f => f.window.all (fun w => decide (w.1 ≤ s.time 0))) = some f)
include hl hup hport hpup hturn

/-- The frame whose turn it is leaves with its stamp before its window's end, and is discarded, counted and late after it. -/
theorem execFrameDepart_turn :
    let t := s.setTx p ((s.txOf p).erase f)
    let stamp := s.stampAt 0x4204 p skew
    let bytes := insertStamp f.insert stamp f.bytes
    execFrameDepart lane skew s = .next (if f.window.all (fun w => decide (s.time 0 < w.2)) = true
      then ((t.send (.frame p bytes stamp)).addG 0x4211 (p + 1) 1).noteRequest p f.insert bytes
      else (t.addG 0x4217 (p + 1) 1).lateFrame f (calId 16 lane)) := by
  unfold execFrameDepart
  simp only [if_neg (Nat.not_le.2 hl), hport, hturn, hup, hpup, Bool.not_true, Bool.or_self, Bool.false_eq_true, if_false]
  exact (apply_ite _ _ _ _).symm

end

/-- Settles O44: a job of each mode runs its own effect (`exec_radio_phases`); a queued frame leaves or is late as its window
says (`execFrameDepart_turn`). -/
theorem fronthaulJobsAndFrames : Obligations.FronthaulJobsAndFrames := by
  refine ⟨fun cid c s h h9 hcls => ⟨fun hmode => ?deliver, fun hmode => ?uplane, fun hmode => ?cplane, fun hmode => ?raw⟩,
    fun lane p skew f s hl hup hport hpup hturn => ⟨fun hopen => ?sends, fun w hw hend => ?late⟩⟩
  case deliver => exact exec_radio_phases (i := .deliver cid) h rfl h9 (State.isRadio_of hcls (by simpa using hmode))
  case uplane => exact exec_radio_phases (i := .uplaneTx cid) h rfl h9 (State.isRadio_of hcls (by simp [hmode]))
  case cplane => exact exec_radio_phases (i := .cplaneTx cid) h rfl h9 (State.isRadio_of hcls (by simp [hmode]))
  case raw => exact exec_radio_phases (i := .rawTx cid) h rfl h9 (State.isRadio_of hcls (by simp [hmode]))
  case sends => exact (execFrameDepart_turn skew hl hup hport hpup hturn).trans (congrArg _ (if_pos (by simpa [Option.all_eq_true] using hopen)))
  case late => exact (execFrameDepart_turn skew hl hup hport hpup hturn).trans (congrArg _ (if_neg (by simpa [hw] using hend)))

end Sys2Proof.Machine
end

section
/-!
PROOFS. The time bases follow their references (O45).
-/

namespace Sys2Proof.Machine

/-! ### References (R320, R321) -/

/-- A Locked base that loses its reference enters Holdover; a slave port that hears no Announce has no parent. -/
theorem State.loseReference_locked {s : State} {n : Nat} (h : s.servoState n = 2) :
    s.loseReference n = if n = 0 ∧ (s.servo.getD 0 {}).heard + nanos announceLimit ≤ s.time 2
      then ({ s with parent := none } : State).holdover n else s.holdover n := by
  have hsame : ({ s with parent := none } : State).servoState n = s.servoState n := rfl
  unfold State.loseReference
  split <;> simp only [hsame, h]

theorem execReferenceLossTimeout_eq {s : State} {n : Nat} (hn : n < 4) (h2 : n ≠ 2) (hup : s.up = true)
    (hfollows : n ≠ 1 ∨ s.isMaster = false) :
    execReferenceLossTimeout n s = .next (if s.referenceLost n = true then s.loseReference n else s) := by
  have hfree : (n == 1 && s.isMaster) = false := by
    rcases hfollows with h1 | hmaster
    · rw [beq_false_of_ne h1, Bool.false_and]
    · rw [hmaster, Bool.and_false]
  have hservo : (n != 2) = true := bne_iff_ne.2 h2
  unfold execReferenceLossTimeout
  simp only [if_neg (Nat.not_le.2 hn), hup, hservo, hfree, Bool.not_false, Bool.and_true, Bool.true_and]

/-- The owner of a base that is not Locked re-arms it. -/
theorem rearmRule_ok {s : State} {path : Path} {n : Nat} (r : ObjRow) (hn : n = 0 ∨ n = 3)
    (howner : pathWriter path = some (if n = 0 then s.g 0xA004 1 else 512)) (hstate : s.servoState n ≠ 2) :
    rearmRule path n r s = .ok ((s.setG (0x4800 + n) 2 4).setServo n Servo.clear) := by
  have hlocked : (s.servoState n != 2) = true := by simpa using hstate
  rcases hn with rfl | rfl <;> simp [rearmRule, howner, hlocked]

/-! ### PTP (R324, R326) -/

/-- A message at an up port whose packet engine is in service is counted there and judged by its kind. -/
theorem execPtpReceive_judged {port p : Nat} {msg : PtpMsg} {s : State} (hl : port < 16) (hport : s.portOfLane port = some p)
    (hup : s.up = true) (hpup : s.portUp p = true) (hfree : s.isFenced (calId 16 p) = false) (hdomain : msg.domain = s.g 0x4805 2) :
    let t := s.addG 0x4210 (p + 1) 1
    let stamp := s.stampAt 0x4203 p msg.skew
    execPtpReceive port msg s = .next (
      if 4 ≤ msg.kind then t.addG 0x4215 (p + 1) 1
      else if msg.kind = 0 ∧ p = s.g 0x4805 1 ∧ s.g 0x4800 3 ≤ 2 then t.setServo 0 (fun x => { x with seen := s.time 2 })
      else if msg.kind = 1 ∧ p = s.g 0x4805 1 then t.announce msg
      else if msg.kind = 3 ∧ s.masterPort p = true then
        (t.send (.ptp p 2 msg.seq 0 (stamp / 2 ^ 16) (stamp % 2 ^ 16))).addG 0x4211 (p + 1) 1
      else t) := by
  simp [execPtpReceive, State.takeFrame_up none _ hl hup hport hpup, hfree, hdomain]

/-- An Announce of the parent, or the first one, sets the parent's values. -/
theorem State.announce_parent {s : State} {msg : PtpMsg} (h : ∀ d, s.parent = some d → d = msg.dataset) :
    s.announce msg = ((({ s with parent := some msg.dataset } : State).setServo 0
      (fun x => { x with heard := s.time 2 })).setG 0x4805 3 msg.clockClass).setG 0x4805 4 msg.utcOffset := by
  have hparent : s.parent.all (fun d => d == msg.dataset || Config.betterMaster d msg.dataset) = true := by
    rw [Option.all_eq_true]
    intro d hd
    simp [h d hd]
  exact if_pos hparent

/-- Settles O45: a lost reference is `execReferenceLossTimeout_eq`, a re-arm `rearmRule_ok`, a PTP message
`execPtpReceive_judged`; the other commands act as their own conditions say. -/
theorem timeBasesFollowTheirReferences : Obligations.TimeBasesFollowTheirReferences := by
  refine ⟨fun n error s hn hup href => ?measure, fun n s hn h2 hup hfollows => ⟨fun hstate hlost => ?lost, fun hlost => ?kept⟩,
    fun path n s r hn h howner hstate => ?rearm, fun path s r h => ?snapshot, fun s hup huse => ?pps,
    fun master roundTrip s hup hon => ?ptm,
    fun port p msg s hl hport hup hpup hfree hdomain => ?ptp,
    fun port s hl hup hmaster hstate => ?transmit, fun lane p quality s hl hport hup hpup hfree => ?esmc⟩
  case measure => simp [exec, execPhaseMeasurement, hn, hup, href]
  case lost =>
    rw [← State.loseReference_locked hstate]
    exact (execReferenceLossTimeout_eq hn h2 hup hfollows).trans (congrArg _ (if_pos hlost))
  case kept => exact (execReferenceLossTimeout_eq hn h2 hup hfollows).trans (congrArg _ (if_neg (by simp [hlost])))
  case rearm =>
    have hn4 : ¬ 4 ≤ n := by omega
    exact (if_neg hn4).trans (congrArg _ (State.access_ok h (rearmRule_ok r hn howner hstate)))
  case snapshot => exact congrArg _ (State.access_ok h rfl)
  case pps => simp [exec, execPpsEdge, hup, huse]
  case ptm => simp [exec, execPtmExchange, hup, hon]
  case ptp =>
    have judged := execPtpReceive_judged hl hport hup hpup hfree hdomain
    refine ⟨fun hkind hslave hparent => judged.trans (congrArg _ ?announce),
      fun hkind hslave hsource => judged.trans (congrArg _ ?sync), fun hkind hmaster => judged.trans (congrArg _ ?delayReq)⟩
    case announce =>
      simp only [hkind, hslave]
      exact State.announce_parent hparent
    case sync => simp [hkind, ← hslave, hsource]
    case delayReq => simp [hkind, hmaster]
  case transmit => simp [exec, execSyncTransmit, hl, hup, hmaster, hstate]
  case esmc => simp [exec, execEsmcReceive, State.takeFrame_up none _ hl hup hport hpup, hfree]

end Sys2Proof.Machine
end

section
/-!
PROOFS. Grants, function resets and the radio owner (O54).
-/

namespace Sys2Proof.Machine

theorem isMgr_of_virtual {f : Nat} (h : f < 512) : isMgr f = false := by
  simp [isMgr]; omega

/-! ### A check at the head of a chain -/

section

variable {α : Type} {cond : Bool} {status detail : Nat} {k : Unit → Except Refused α}

theorem ensure_bind_of_true (h : cond = true) : (ensure cond status detail >>= k) = k () := by
  rw [h]; rfl

theorem ensure_bind_of_false (h : cond = false) : (ensure cond status detail >>= k) = .error ⟨status, detail⟩ := by
  rw [h]; rfl

end

/-! ### The rules of a grant (R341, R342, R363) -/

section

variable {s : State} {f : Nat} (r : ObjRow)

/-- A function that holds a grant gets no other. -/
theorem createRule_present (hpresent : s.fnState f ≠ 0) : createRule f r s = .error ⟨Status.accessDenied, 0⟩ :=
  ensure_bind_of_false (by simp [hpresent])

section

variable (hf : f < 512) (habsent : s.fnState f = 0) (hentropy : s.sec.entropyOk = true)
include hf habsent hentropy

theorem createRule_exhausted (hpools : s.poolsHold f = false) : createRule f r s = .error ⟨Status.quotaExhausted, 0⟩ := by
  simp [createRule, isMgr_of_virtual hf, habsent, hentropy, hpools]

variable (hpools : s.poolsHold f = true)
include hpools

theorem createRule_ok (hfloats : s.floatClash f (s.o f 0x3040 1) (s.o f 0x3040 2) = none) :
    createRule f r s = .ok ((s.takeGrant f).setFnState f 1) := by
  simp [createRule, isMgr_of_virtual hf, habsent, hentropy, hpools, hfloats]

/-- Floats that another function has are named with their holder. -/
theorem createRule_held {g : Nat} (hclash : s.floatClash f (s.o f 0x3040 1) (s.o f 0x3040 2) = some g) :
    createRule f r s = .error ⟨Status.resourceHeld, g⟩ := by
  simp [createRule, isMgr_of_virtual hf, habsent, hentropy, hpools, hclash]

end

theorem destroyRule_ok (hf : f < 512) (hpresent : s.present f = true)
    (hidle : s.resetting f = true ∨ f ≠ s.radioOwner ∨ s.liveCells = []) :
    destroyRule f r s = .ok (s.beginReset f true) := by
  have hmay : (s.resetting f || f != s.radioOwner || s.liveCells.isEmpty) = true := by simpa [or_assoc] using hidle
  simp [destroyRule, isMgr_of_virtual hf, hpresent, hmay]

/-- A radio owner that is not in reset keeps its grant while cells live (R342). -/
theorem destroyRule_refused (hlive : s.resetting f = false) (howner : f = s.radioOwner) (hcells : s.liveCells ≠ []) :
    destroyRule f r s = .error ⟨Status.accessDenied, 0⟩ := by
  have hbusy : (s.resetting f || f != s.radioOwner || s.liveCells.isEmpty) = false := by simp [hlive, ← howner, hcells]
  unfold destroyRule
  rw [hbusy]
  cases !isMgr f && s.present f <;> rfl

theorem resetRule_ok (hpresent : s.present f = true) : resetRule f r s = .ok (s.beginReset f false) := by
  simp [resetRule, hpresent]

end

/-! ### The rule of a component (R340) -/

section

variable {s : State} {f sub value : Nat} (r : ObjRow) (hf : f < 512)
include hf

/-- A component of an absent function, the share class and the share weight are free to change. -/
theorem componentRule_free (hfree : s.present f = false ∨ sub = 3 ∨ sub = 4) :
    componentRule f sub value r s = .ok (s.setO f 0x3020 sub value) := by
  unfold componentRule
  rw [if_neg (by simp [isMgr_of_virtual hf])]
  rcases hfree with habsent | rfl | rfl
  · simp [habsent]
  · simp
  · simp

theorem componentRule_fixed (hpresent : s.present f = true) (hsub : sub < 3 ∨ 5 < sub) :
    componentRule f sub value r s = .error ⟨Status.accessDenied, 0⟩ := by
  have hfixed : (!s.present f || decide (3 ≤ sub) && decide (sub ≤ 5)) = false := by simp [hpresent]; omega
  exact (if_neg (by simp [isMgr_of_virtual hf])).trans (ensure_bind_of_false hfixed)

/-- The energy share of a live function is exchanged with the pool. -/
theorem componentRule_share (hpresent : s.present f = true) (hpool : value ≤ s.g 0x3001 9 + s.comp f 5) :
    componentRule f 5 value r s =
      .ok ((s.setG 0x3001 9 (s.g 0x3001 9 + s.comp f 5 - value)).setO f 0x3020 5 value) := by
  simp [componentRule, isMgr_of_virtual hf, hpresent, hpool]

theorem componentRule_exhausted (hpresent : s.present f = true) (hpool : s.g 0x3001 9 + s.comp f 5 < value) :
    componentRule f 5 value r s = .error ⟨Status.quotaExhausted, 0⟩ := by
  unfold componentRule
  rw [if_neg (by simp [isMgr_of_virtual hf]), ensure_bind_of_true (by simp), if_pos ⟨rfl, hpresent⟩,
    ensure_bind_of_false (by simpa using hpool)]

end

/-! ### The last steps of a reset (Table 12.6) -/

section

variable {s : State} {f : Nat} (hf : isFn f = true) (hu : s.up = true) (hreset : s.resetting f = true)
  (hstop : (s.fn f).resetStop = true)
include hf hu hreset hstop

theorem execRetireAckTimeout_stopped :
    execRetireAckTimeout f s = .next (s.modFn f (fun (x : Fn) => { x with acksLeft := [] })) := by
  simp [execRetireAckTimeout, hf, hu, hreset, hstop]

/-- Where the peers answered and no command of the function is left, its reset ends. -/
theorem execFunctionResetEnd_drained (hacks : (s.fn f).acksLeft = []) (hcmds : ∀ c ∈ s.cmds, c.fn ≠ f) :
    let t := (s.wipeFn f).setO f 0x3000 2 0
    let t : State := { (if t.o f 0x9011 1 = 3 then t.setO f 0x9011 1 0 else t) with
      sec := { t.sec with tdiBound := SMap.del f t.sec.tdiBound } }
    execFunctionResetEnd f s =
      .next (if s.fnState f = 3 then t.returnGrant f else if isMgr f then t else t.setFnState f 1) := by
  have hdrained : (s.up && s.resetting f && (s.fn f).resetStop && (s.fn f).acksLeft.isEmpty &&
      s.cmds.all (fun c => c.fn != f)) = true := by simpa [hu, hreset, hstop, hacks] using hcmds
  exact (if_neg (by simp [hf])).trans (if_pos hdrained)

end

/-! ### The rule of a designation (R338, R534) -/

section

variable {s : State} {path : Path} {value : Nat} (r : ObjRow)

/-- Who may be designated: nobody, or a live virtual function, by its port's manager or the management controller. -/
def State.mayDesignate (s : State) (path : Path) (value : Nat) : Prop :=
  value = none16 ∨ value < 512 ∧ s.fnState value = 1 ∧ (pathWriter path = none ∨ pathWriter path = some (mgrOf value))

/-- Every radio context is free or closed. -/
def State.radioClosed (s : State) : Prop := ∀ e ∈ s.ctxs, e.2.mode = 2 → e.2.st = .free ∨ e.2.closed = true

theorem radioOwnerRule_ok (hfree : value = none16 ∨ s.radioOwner = none16 ∨ value = s.radioOwner)
    (hnamed : s.mayDesignate path value) (hcells : s.liveCells = []) (hctxs : s.radioClosed) :
    radioOwnerRule path value r s = .ok (if value = s.radioOwner then s else (s.setG 0xA005 1 value).zeroChans) := by
  have hholder : (value == none16 || s.radioOwner == none16 || value == s.radioOwner) = true := by
    simpa [or_assoc] using hfree
  have hlive : (value == none16 || (decide (value < 512) && s.fnState value == 1)) = true := by
    rcases hnamed with rfl | ⟨hvirtual, hstate, -⟩
    · simp
    · simp [hvirtual, hstate]
  have hwriter : (value == none16 || (pathWriter path).all (fun w => w == mgrOf value)) = true := by
    rcases hnamed with rfl | ⟨-, -, hnone | hmgr⟩
    · simp
    · simp [hnone]
    · simp [hmgr]
  have hclosed : s.ctxs.all (fun e => e.2.mode != 2 || e.2.st == .free || e.2.closed) = true := by
    rw [List.all_eq_true]
    intro e he
    have h := hctxs e he
    by_cases hmode : e.2.mode = 2
    · simpa [hmode] using h hmode
    · simp [hmode]
  unfold radioOwnerRule
  rw [hholder, hlive, hwriter, hclosed, hcells]
  rfl

/-- While a cell lives, a write that takes the radio owner from no holder is denied, whatever else speaks against it. -/
theorem radioOwnerRule_cells (hfree : value = none16 ∨ s.radioOwner = none16 ∨ value = s.radioOwner)
    (hcells : s.liveCells ≠ []) : radioOwnerRule path value r s = .error ⟨Status.accessDenied, 0⟩ := by
  have hholder : (value == none16 || s.radioOwner == none16 || value == s.radioOwner) = true := by
    simpa [or_assoc] using hfree
  have hlive : s.liveCells.isEmpty = false := by simpa using hcells
  unfold radioOwnerRule
  rw [hholder, hlive]
  cases value == none16 || (decide (value < 512) && s.fnState value == 1)
  · rfl
  · cases value == none16 || (pathWriter path).all (fun w => w == mgrOf value) <;> rfl

theorem radioOwnerRule_held (hvalue : value ≠ none16) (hother : value ≠ s.radioOwner) (hheld : s.radioOwner ≠ none16) :
    radioOwnerRule path value r s = .error ⟨Status.resourceHeld, s.radioOwner⟩ :=
   ensure_bind_of_false (by simp [hvalue, hother, hheld])

end

/-- Settles O54: each write by the outcomes of its rule, and the end of a reset once its stops are over. -/
theorem grantsAndFunctionResets : Obligations.GrantsAndFunctionResets := by
  refine ⟨fun path f s r => ⟨fun h hf habsent hentropy => ?create, fun h hpresent => ?again, fun h hf hpresent hidle => ?destroy,
      fun h hlive howner hcells => ?keep, fun h hpresent => ?reset⟩,
    fun path f sub value s r h hf => ⟨fun hfree => ?free, fun hpresent hsub => ?fixed, ?share, ?exhausted⟩,
    fun f s hf hu hreset hstop => ⟨execRetireAckTimeout_stopped hf hu hreset hstop,
      execFunctionResetEnd_drained hf hu hreset hstop⟩,
    fun path value s r h => ⟨fun hfree hvirtual hstate hwriter hcells hctxs => ?designate, fun hnone hcells hctxs => ?giveUp,
      fun hcells hfree => ?cells, fun hvalue hother hheld => ?held⟩⟩
  case create =>
    exact ⟨fun hpools hfloats => congrArg _ (State.access_ok h (createRule_ok r hf habsent hentropy hpools hfloats)),
      fun hpools => congrArg _ (State.access_refused h (createRule_exhausted r hf habsent hentropy hpools)),
      fun g hpools hclash => congrArg _ (State.access_refused h (createRule_held r hf habsent hentropy hpools hclash))⟩
  case again => exact congrArg _ (State.access_refused h (createRule_present r hpresent))
  case destroy => exact congrArg _ (State.access_ok h (destroyRule_ok r hf hpresent hidle))
  case keep => exact congrArg _ (State.access_refused h (destroyRule_refused r hlive howner hcells))
  case reset => exact congrArg _ (State.access_ok h (resetRule_ok r hpresent))
  case free => exact congrArg _ (State.access_ok h (componentRule_free r hf hfree))
  case fixed => exact congrArg _ (State.access_refused h (componentRule_fixed r hf hpresent hsub))
  case share =>
    rintro hpresent rfl hpool
    exact congrArg _ (State.access_ok h (componentRule_share r hf hpresent hpool))
  case exhausted =>
    rintro hpresent rfl hpool
    exact congrArg _ (State.access_refused h (componentRule_exhausted r hf hpresent hpool))
  case designate =>
    exact congrArg _ (State.access_ok h (radioOwnerRule_ok r (.inr (hfree.imp_right Eq.symm)) (.inr ⟨hvirtual, hstate, hwriter⟩) hcells hctxs))
  case giveUp => exact congrArg _ (State.access_ok h (radioOwnerRule_ok r (.inl hnone) (.inl hnone) hcells hctxs))
  case cells => exact congrArg _ (State.access_refused h (radioOwnerRule_cells r (hfree.imp_right (Or.imp_right Eq.symm)) hcells))
  case held => exact congrArg _ (State.access_refused h (radioOwnerRule_held r hvalue hother hheld))

end Sys2Proof.Machine
end

section
/-!
PROOFS. Cores pass between functions (O55).
-/

namespace Sys2Proof.Machine

/-! ### Taking, releasing and claiming (R346, R347, R355) -/

section

variable {s : State}

theorem execCoreAcquire_free {cid k : Nat} {c : Cmd} (hc : s.cmd? cid = some c) (hu : s.up = true)
    (hlive : s.resetting c.fn = false) (hk : (s.waitsFor c).find? (fun k => s.mayGive c.fn k) = some k) :
    execCoreAcquire cid s = .next (s.grantCore c.fn k) := by
  simp [execCoreAcquire, hc, hu, hlive, hk]

section

variable {f core : Nat} (r : ObjRow) (hcore : core ≤ 95)
include hcore

/-- What a release does turns on who holds the core and on whether the holder works there. -/
theorem releaseRule_holder (hmine : s.coreHolder core = f) : releaseRule f core r s =
    if s.coreBusy f core then .error ⟨Status.accessDenied, 0⟩ else .ok ((s.vacate core).dropSaved f core) := by
  cases hbusy : s.coreBusy f core <;> simp [releaseRule, hcore, hmine, hbusy]

theorem releaseRule_other (hother : s.coreHolder core ≠ f) : releaseRule f core r s = .ok (s.dropSaved f core) := by
  simp [releaseRule, hcore, hother]

end

/-- A quiet core that is held loses its holder when it is chosen. -/
theorem State.choose_held {c : Nat} (heir : Nat) (hquiet : s.coreQuiet c = true) (hheld : s.coreHolder c ≠ none16) :
    s.choose c heir =
      (s.modCore c (fun (x : Core) => { x with preempt := some (s.coreHolder c, heir) })).addG 0x3061 1 1 :=
  if_pos (by simp [hquiet, hheld])

variable {core : Nat} (hcore : core < 96) (hu : s.up = true)
include hcore hu

/-- At a window start the best claimant takes a core that its holder has had for the lease, from its own share class or from
one with a lower balance. -/
theorem execClaimPreemption_claims {f : Nat} (hheld : s.coreHolder core ≠ none16) (hquiet : s.coreQuiet core = true)
    (hpin : s.pinned core = none) (hexact : s.exactThread core = false) (hstart : s.energy.began = some s.clock)
    (hlease : (s.core core).since + nanos (100000 * s.g 0x3002 1) ≤ s.time 2) (hbest : s.bestClaim (s.claimants core) = some f) :
    execClaimPreemption core s = .next
      (if s.shareClass f = s.shareClass (s.coreHolder core) ∨
          s.balance (s.shareClass (s.coreHolder core)) 0 < s.balance (s.shareClass f) 0 then s.choose core f else s) := by
  simp [execClaimPreemption, Nat.not_le.2 hcore, hu, hheld, hquiet, hpin, hexact, hstart, hlease, hbest]

/-! ### Saves (R356, R357) -/

section

variable {g heir : Nat} (hpre : (s.core core).preempt = some (g, heir))
include hpre

/-- A save starts once the holder's commands on the core are at a boundary and nothing is under way into its well. -/
theorem execSaveStart_ready (hidle : (s.core core).saving = false) (hrestore : (s.core core).restore = none)
    (hboundary : ∀ c ∈ s.onCore g core, s.atBoundary c = true) (hkv : s.kvOn g core = false)
    (hpieces : (s.requeue (s.onCore g core)).wellPieces g core = false) :
    let t := s.requeue (s.onCore g core)
    let t : State := { t with ctxs := t.ctxs.map (fun (e : Nat × Ctx) =>
      if takenBy g core e.2 then (e.1, { e.2 with st := .preempted }) else e) }
    execSaveStart core s = .next ((t.payMove core).modCore core (fun (x : Core) => { x with saving := true })) := by
  have hready : (s.onCore g core).all s.atBoundary = true := List.all_eq_true.2 hboundary
  simp [execSaveStart, Nat.not_le.2 hcore, hpre, hu, hidle, hrestore, hready, hkv, hpieces]

theorem execSaveDone_saved (hsaving : (s.core core).saving = true) :
    let t := s.modCore core (fun (x : Core) =>
      { x with saved := x.saved.filter (fun e => e.fn != g) ++ [s.snapshot g core], preempt := none, saving := false
               threads := x.threads.map (fun t => t.filter (fun n => (s.ctx n).fn != g)) })
    let t := ((t.zeroCore core).setHolder core none16).addO g 0x3000 6 1
    execSaveDone core s = .next (if isFn heir && t.mayGive heir core then t.grantCore heir core else t) := by
  simp only [execSaveDone, if_neg (Nat.not_le.2 hcore), hpre, hu, hsaving, Bool.not_true, Bool.or_self]
  rfl

end

end

/-! ### Restores (R345, R359) -/

/-- A core without its threads: all that the placing of threads leaves alone. -/
def Core.unthreaded (x : Core) : Core := { x with threads := [] }

theorem State.core_modCtx (s : State) (n : Nat) (k : Ctx → Ctx) (core : Nat) : (s.modCtx n k).core core = s.core core := rfl

theorem State.unthreaded_placeThread (s : State) (ctx core : Nat) :
    ((s.placeThread ctx).core core).unthreaded = (s.core core).unthreaded := by
  unfold State.placeThread
  split
  case h_1 i hfree =>
    rw [State.core_modCtx]
    by_cases hhome : core = (s.ctx ctx).home
    · rw [hhome, State.core_modCore]; rfl
    · rw [State.core_modCore_other _ _ hhome]
  case h_2 => rfl

theorem State.unthreaded_placeThreads (s : State) (l : List (Option Nat)) (core : Nat) :
    ((s.placeThreads l).core core).unthreaded = (s.core core).unthreaded := by
  induction l generalizing s with
  | nil => rfl
  | cons x l ih =>
    cases x with
    | none => exact ih s
    | some n =>
      rw [State.placeThreads, ih]
      split
      · exact s.unthreaded_placeThread n core
      · rfl

theorem State.core_foldl_wr (s : State) (l : List (Nat × Byte)) (base core : Nat) :
    (l.foldl (fun (u : State) e => u.wr (base + e.1) e.2) s).core core = s.core core := by
  induction l generalizing s with
  | nil => rfl
  | cons e l ih => exact ih (s.wr (base + e.1) e.2)

section

variable (s : State) (core : Nat)

theorem State.core_setO (sel index sub v : Nat) : (s.setO sel index sub v).core core = s.core core := rfl
theorem State.core_addG (index sub n : Nat) : (s.addG index sub n).core core = s.core core := rfl
theorem State.core_withCtxs (l : SMap Ctx) : ({ s with ctxs := l } : State).core core = s.core core := rfl

end

/-- What a restore makes of a core before the saved threads are placed. -/
def State.restored (s : State) (core : Nat) (v : Saved) : Core :=
  { s.core core with restore := none, acc := v.acc, flags := v.flags, since := s.time 2
                     saved := (s.core core).saved.filter (fun e => e.fn != v.fn) }

theorem execRestoreDone_restores {s : State} {core f : Nat} {v : Saved} (hcore : core < 96) (hu : s.up = true)
    (hf : (s.core core).restore = some f) (hv : (s.core core).saved.find? (fun e => e.fn == f) = some v) :
    ∃ t : State, execRestoreDone core s = .next (t.placeThreads v.threads) ∧ t.core core = s.restored core v := by
  unfold execRestoreDone
  simp only [if_neg (Nat.not_le.2 hcore), hf, Option.bind_some, hv, hu, Bool.not_true, Bool.false_eq_true, if_false]
  refine ⟨_, rfl, ?_⟩
  rw [State.core_withCtxs, State.core_addG, State.core_setO, State.core_modCore, State.core_foldl_wr]
  rfl

/-- Settles O55: a core that is free is granted, a release and a claim turn on the holder, and a restore leaves the core as
`State.restored` up to its threads. -/
theorem coresPassBetweenFunctions : Obligations.CoresPassBetweenFunctions := by
  refine ⟨fun cid k c s hc hu hlive hk => ⟨fun hnew => ?give, fun hsaved => ?restore⟩,
    fun path f core s r => ⟨fun h hcore => ⟨fun hmine hidle => ?release, fun hmine hbusy => ?busy, fun hother => ?other⟩,
      fun h => ?request⟩,
    fun core s hcore hu => ⟨fun f hheld hquiet hpin hexact hstart hlease hbest => ?claim,
      fun g heir hpre => ⟨execSaveStart_ready hcore hu hpre, execSaveDone_saved hcore hu hpre⟩, fun f v hf hv => ?restored⟩⟩
  case give => exact (execCoreAcquire_free hc hu hlive hk).trans (congrArg _ (if_neg (by simp [hnew])))
  case restore => exact (execCoreAcquire_free hc hu hlive hk).trans (congrArg _ (if_pos hsaved))
  case release =>
    exact congrArg _ (State.access_ok h ((releaseRule_holder r hcore hmine).trans (if_neg (by simp [hidle]))))
  case busy => exact congrArg _ (State.access_refused h ((releaseRule_holder r hcore hmine).trans (if_pos hbusy)))
  case other => exact congrArg _ (State.access_ok h (releaseRule_other r hcore hother))
  case request => exact congrArg _ (State.access_ok h rfl)
  case claim =>
    have hclaim := execClaimPreemption_claims hcore hu hheld hquiet hpin hexact hstart hlease hbest
    rwa [State.choose_held f hquiet hheld] at hclaim
  case restored =>
    obtain ⟨t, hexec, hcoreState⟩ := execRestoreDone_restores hcore hu hf hv
    have hkept := t.unthreaded_placeThreads v.threads core
    rw [hcoreState] at hkept
    obtain ⟨hsince, -, hsaved, -, -, hrestore, hacc, hflags, -, -⟩ := Core.mk.inj hkept
    exact ⟨_, hexec, hrestore, hacc, hflags, hsince, hsaved⟩

end Sys2Proof.Machine
end

section
/-!
PROOFS. Energy windows (O56).
-/

namespace Sys2Proof.Machine

section

variable {s : State}

/-- A window that the energy machinery has not seen is divided. -/
theorem execEnergyWindowStart_new (junction : Int) (hu : s.up = true) (hnew : s.windowIndex ≠ s.g 0x2000 3) :
    let t := ((((s.adoptClasses.updateShares).setG 0x2000 3 s.windowIndex).adoptEnergy).thermal junction).divide.evaluateAll
    execEnergyWindowStart junction s = .next { t with energy := { t.energy with began := some s.clock } } :=
  if_pos (by simp [hu, hnew])

/-- The ledgers and the debt after a window with E_win tokens of which `measured` were used (R380, R381). -/
def State.ledgered (s : State) (eWin measured : Nat) : State :=
  ((((s.addG 0x2002 1 eWin).addG 0x2002 2 measured).addG 0x2002 3 (eWin - measured)).addG 0x2002 4 (measured - eWin)).addG
    0x2001 6 (measured - eWin)

/-- The report of a past window goes to the ledgers; its over-spend lengthens the row of over-spends or ends it. -/
theorem execEnergyReport_past {window measured k e : Nat} (hbudget : s.energy.budgets.find? (fun b => b.1 == window) = some (k, e))
    (hu : s.up = true) (hpast : window ≠ s.g 0x2000 3) :
    let t := s.ledgered e measured
    execEnergyReport window measured s = .next { t with energy := { t.energy with
      budgets := SMap.del window t.energy.budgets
      overs := if measured - e = 0 then [] else (measured - e) :: t.energy.overs
      calm := if measured - e = 0 then t.energy.calm + 1 else 0 } } := by
  unfold execEnergyReport
  simp only [hbudget]
  exact if_neg (by simp [hu, hpast])

theorem powerRule_enough {value : Nat} (r : ObjRow) (hfits : s.g 0x2001 1 + s.eAdm + s.g 0x2001 4 ≤ 100 * value) :
    powerRule value r s = .ok s := by
  simp [powerRule, hfits]

theorem powerRule_short {value : Nat} (r : ObjRow) (hshort : 100 * value < s.g 0x2001 1 + s.eAdm + s.g 0x2001 4) :
    powerRule value r s = .error ⟨Status.accessDenied, 0⟩ :=
  ensure_bind_of_false (by simpa using hshort)

end

/-- Settles O56: the reserve moves by its own conditions, a report by whether it over-spends (`execEnergyReport_past`), and a
power limit by its rule; being a stored object, it waits for the flash. -/
theorem energyWindowsAreDivided : Obligations.EnergyWindowsAreDivided := by
  refine ⟨fun junction s => execEnergyWindowStart_new junction, fun window measured s k e hbudget hu hpast => ?report,
    fun s hu => ⟨fun hovers => if_pos (by simp [hu, hovers]), fun hcalm => if_pos (by simp [hu, hcalm])⟩,
    fun path value s r h hstored => ⟨fun hfits => ?enough, fun hshort => ?short⟩⟩
  case report =>
    have hreport := execEnergyReport_past (measured := measured) hbudget hu hpast
    refine ⟨fun hwithin => hreport.trans ?within, fun hover => hreport.trans ?beyond⟩
    case within => rw [if_pos (Nat.sub_eq_zero_of_le hwithin), if_pos (Nat.sub_eq_zero_of_le hwithin)]; rfl
    case beyond =>
      have hexcess : measured - e ≠ 0 := Nat.sub_ne_zero_of_lt hover
      rw [if_neg hexcess, if_neg hexcess]; rfl
  case enough => exact congrArg _ ((State.access_ok h (powerRule_enough r hfits)).trans (if_pos hstored))
  case short => exact congrArg _ (State.access_refused h (powerRule_short r hshort))

end Sys2Proof.Machine
end

section
/-!
PROOFS. Refresh, scrubbing and fencing of units (O57).
-/

namespace Sys2Proof.Machine

section

variable {s : State} {ch : Nat} (hch : ch < 64) (hu : s.up = true)
include hch hu

/-! ### Refresh (R401, R402, R403) -/

theorem execRefreshRun_regular (hfirst : s.granule % 125 = 116) (hmode : s.inCompatible = false) :
    execRefreshRun ch s = .next (s.addG 0x6007 (ch + 1) 8) := by
  simp [execRefreshRun, Nat.not_le.2 hch, hu, hfirst, hmode]

/-- In compatible mode a run issues what its channel owes, at most eight, and gives back the granules it does not use. -/
theorem execRefreshRun_compatible (hfirst : s.granule % 125 = 116) (hmode : s.inCompatible = true) :
    let owed := SMap.get (fun _ => 0) s.owed ch
    let t := { s.addG 0x6007 (ch + 1) (min owed 8) with owed := SMap.set (fun _ => 0) s.owed ch (owed - min owed 8) }
    execRefreshRun ch s = .next (if min owed 8 = 8 || s.runHolds ch s.granule then t
      else { t with cal := { t.cal with released := t.cal.released ++ [(calId 21 ch, s.granule + min owed 8)] } }) := by
  simp only [execRefreshRun, if_neg (Nat.not_le.2 hch), hu, hfirst, hmode]
  rfl

theorem execRefreshOwedTick_long (hseam : s.longSeam = true) :
    execRefreshOwedTick ch s = .next (s.addG 0x6007 (ch + 1) 1) := by
  simp [execRefreshOwedTick, Nat.not_le.2 hch, hu, hseam]

theorem execRefreshOwedTick_owes (hseam : s.longSeam = false) (hmode : s.inCompatible = true) :
    execRefreshOwedTick ch s =
      .next { s with owed := SMap.set (fun _ => 0) s.owed ch (SMap.get (fun _ => 0) s.owed ch + 1) } := by
  simp [execRefreshOwedTick, Nat.not_le.2 hch, hu, hseam, hmode]

/-! ### Scrubbing (R396, R397, R398) -/

/-- What block b of a pair decodes to when the scrubber reads it. -/
def State.scrubOutcome (s : State) (a : Option Nat) (bits : List (Nat × Nat)) (b : Nat) : Rs.Outcome :=
  a.elim (Rs.decode s.eccMode (Rs.errorOf b bits)) (fun x => s.blockOutcome s.eccMode (x + 64 * b) bits)

/-- In a fill interval the channel's next pair is scrubbed by what its two blocks decode to. -/
theorem execGddr7Scrub_pair {bits : List (Nat × Nat)} {w : Bool} {a : Option Nat} {o0 o1 : Rs.Outcome}
    (hfill : s.kindNow (calId 21 ch) = 0) (ha : pairAddr ch (SMap.get (fun _ => (0, 0)) s.scrub ch).1 = a)
    (h0 : s.scrubOutcome a bits 0 = o0) (h1 : s.scrubOutcome a bits 1 = o1) :
    execGddr7Scrub ch bits w s = .next (s.scrubPair ch a w [(0, o0), (1, o1)]) := by
  subst ha h0 h1
  simp only [execGddr7Scrub, if_neg (Nat.not_le.2 hch), hu, hfill]
  rfl

end

theorem State.scrubPair_firstBad (s : State) (ch : Nat) (a : Option Nat) (w : Bool) :
    s.scrubPair ch a w [(0, .uncorrectable), (1, .clean)] =
    (s.scrubBad ch a).scrubNext ch 0 := by
  cases a <;> rfl

/-- A pair of blocks that hold no error and come undisturbed is clean. -/
theorem State.scrubOutcome_undisturbed {s : State} {x b : Nat} (hb : b = 0 ∨ b = 1)
    (hgood : ∀ e ∈ s.ecc, e.1 ≠ x / 64 ∧ e.1 ≠ (x + 64) / 64) : s.scrubOutcome (some x) [] b = .clean := by
  refine State.blockOutcome_undisturbed s.eccMode fun e he => ?_
  obtain ⟨hfirst, hsecond⟩ := hgood e he
  rcases hb with rfl | rfl
  · exact hfirst
  · exact hsecond

/-! ### Fencing (R476) -/

theorem execUnitFence_fences {s : State} {id : Nat} (hid : calOk id = true) (hcls : calClass id < 20) (hu : s.up = true)
    (hfence : s.isFenced id = false) (hroom : s.fenced.length < 254) : execUnitFence id s = .next (s.fenceUnit id) := by
  simp [execUnitFence, hid, Nat.not_le.2 hcls, hu, hfence, hroom]

/-- Settles O57: a run by its mode and what is owed, and a pair by what its two blocks decode to. -/
theorem refreshScrubAndFencing : Obligations.RefreshScrubAndFencing := by
  refine ⟨fun ch s hch hu => ⟨execRefreshRun_regular hch hu, fun hfirst hmode howed => ?full,
    fun hfirst hmode hnone hfree => ?none, execRefreshOwedTick_long hch hu, execRefreshOwedTick_owes hch hu, fun hfill => ?scrub⟩,
    fun id s => execUnitFence_fences⟩
  case full =>
    refine (execRefreshRun_compatible hch hu hfirst hmode).trans ?_
    rw [Nat.min_eq_right howed]; rfl
  case none =>
    refine ⟨_, execRefreshRun_compatible hch hu hfirst hmode, ?_⟩
    rw [hnone, hfree]; rfl
  case scrub =>
    refine ⟨fun bits w => ⟨execGddr7Scrub_pair hch hu hfill rfl rfl rfl,
      fun h0 h1 => (execGddr7Scrub_pair hch hu hfill rfl h0 h1).trans rfl, ?corrected,
      fun h0 h1 => (execGddr7Scrub_pair hch hu hfill rfl h0 h1).trans (congrArg _ (State.scrubPair_firstBad ..)),
      fun h0 h1 => (execGddr7Scrub_pair hch hu hfill rfl h0 h1).trans rfl⟩, fun w x hx hgood => ?undisturbed⟩
    case corrected =>
      rintro (⟨h0, h1⟩ | ⟨h0, h1⟩)
      · exact (execGddr7Scrub_pair hch hu hfill rfl h0 h1).trans rfl
      · exact (execGddr7Scrub_pair hch hu hfill rfl h0 h1).trans rfl
    case undisturbed =>
      exact execGddr7Scrub_pair hch hu hfill hx (State.scrubOutcome_undisturbed (.inl rfl) hgood)
        (State.scrubOutcome_undisturbed (.inr rfl) hgood)

end Sys2Proof.Machine
end

section
/-!
PROOFS. Fabric records and the steps that go out on a fabric pump (O46).
-/

namespace Sys2Proof.Machine

section

variable {s : State} {cid : Nat} {c : Cmd} {is : Cmd → Bool} {i : Instr}

theorem isFabric_of {form : Nat} (hcls : c.cls = 6) (hform : c.form = form) : isFabric form c = true := by
  simp [isFabric, hcls, hform]

theorem isAtomic_of {op : Nat} (hcls : c.cls = 6) (hform : c.form = 2) (hop : min 4 ((c.w 9).fld 17 3) = op) :
    isAtomic op c = true := by
  simp [isAtomic, isFabric_of hcls hform, hop]

/-- A fabric record or a trigger that is due has its effect, or ends with the status that refuses it. -/
theorem exec_fabric (h : s.Due cid c) (hcls : c.cls ≠ 9) (his : is c = true)
    (hexec : exec i s = .next (s.perform cid is fabricEffect)) :
    (∀ t d, fabricEffect c s = .ok (t, d) → exec i s = .next (t.did cid Status.ok d)) ∧
    (∀ e, fabricEffect c s = .error e → exec i s =
      .next ((s.noteBad c e).did cid e.status [e.detail % 2 ^ 32, e.detail / 2 ^ 32 % 2 ^ 32, 0])) := by
  refine ⟨fun t d hok => hexec.trans (congrArg _ (State.perform_ok h his hok)), fun e herr => ?_⟩
  rw [hexec, State.perform_refused h his herr, State.failDetail, if_neg hcls]

end

/-! ### Steps (R414, R424, R425) -/

section

variable {s : State}

/-- The next step of a record goes out once its pump, its lane and its sub-stream take it. -/
theorem State.recordStep_issues {cid l : Nat} {c : Cmd} {o : FabOp} {st : FabStep} {rest : List FabStep} {e : Endpoint}
    (hc : s.cmd? cid = some c) (ho : fabOpOf c = some o) (hsteps : c.steps = st :: rest) (he : s.endpointDev c.fn o.dev = some e)
    (hu : s.up = true) (hrun : c.phase = .running) (hdid : c.did = true) (hstatus : c.status = Status.ok)
    (hpump : c.engines ≠ [] ∨
      ((s.engine c.onEngine).busy = none ∧ (s.engine c.onEngine).hold.all (fun h => h == (c.ctx, c.job)) = true))
    (hlane : s.laneFor o.dev e.fn st.sub = some l)
    (hcredit : s.canSend l (creditClass st.type false) (packetSlots st.type (s.stepPacket c o st e.fn)) o.dev = true)
    (hfits : s.fitsNow c c.onEngine ((if c.engines.isEmpty then startup 19 else 0) + s.stepLength c o st) = true)
    (hroom : (s.stream (streamKey c.fn o.dev e.fn st.sub)).unacked.length < 256) :
    s.recordStep cid = s.issueStep c o st e.fn ((s.fabFloat c).toOption.getD none) := by
  have hfree : (!c.engines.isEmpty ||
      ((s.engine c.onEngine).busy.isNone && (s.engine c.onEngine).hold.all (fun h => h == (c.ctx, c.job)))) = true := by
    rcases hpump with hheld | ⟨hbusy, hhold⟩
    · simp [hheld]
    · simp [hbusy, hhold]
  unfold State.recordStep
  simp only [hc, ho, hsteps, he]
  rw [if_pos]
  rw [hfree, hfits]
  simp [hu, hrun, hdid, hstatus, hlane, hcredit, hroom]

/-- A step of a home function goes out on the lowest pump whose turn is its. -/
theorem State.homeStep_turn {h : HomeStep} {i : Nat} (hi : i < 8) (hturn : s.answerTurn h (calId 19 i) = true)
    (hfirst : ∀ j, j < i → s.answerTurn h (calId 19 j) = false) :
    s.homeStep h = (((((({ s with answers := s.answers.filter (fun x => x.id != h.id) } : State).emit h.dev h.type true
      h.packet).debit h.fn 19 (startup 19 + h.len)).served (calId 19 i) h.fn)).noteDemand h.fn (calId 19 i)) := by
  have hpump : (List.range 8).find? (fun j => s.answerTurn h (calId 19 j)) = some i :=
    List.find?_range_eq_some.2 ⟨hturn, List.mem_range.2 hi, fun j hj => by simp [hfirst j hj]⟩
  unfold State.homeStep
  rw [hpump]

end

/-- Settles O46: each record has its effect (`exec_fabric`), and a step goes out on the pump that takes it. -/
theorem fabricRecordsIssueTheirSteps : Obligations.FabricRecordsIssueTheirSteps := by
  refine ⟨fun cid c s h => ⟨fun hcls => ?records, fun hcls => ?trigger⟩, ?steps, ?answers⟩
  case records =>
    have h9 : c.cls ≠ 9 := by omega
    have hform {form : Nat} (hf : c.form = form) := isFabric_of hcls hf
    refine ⟨fun hf => exec_fabric h h9 (hform hf) rfl, fun hf => exec_fabric h h9 (hform hf) rfl,
      fun hf => exec_fabric h h9 (hform hf) rfl, fun hf => exec_fabric h h9 (hform hf) rfl,
      fun hf => exec_fabric h h9 (hform hf) rfl, fun hf => exec_fabric h h9 (hform hf) rfl, fun hf => ?atomics⟩
    have hatomic {op : Nat} (hop : min 4 ((c.w 9).fld 17 3) = op) := isAtomic_of hcls hf hop
    exact ⟨fun hop => exec_fabric h h9 (hatomic (by omega)) rfl, fun hop => exec_fabric h h9 (hatomic (by omega)) rfl,
      fun hop => exec_fabric h h9 (hatomic (by omega)) rfl, fun hop => exec_fabric h h9 (hatomic (by omega)) rfl,
      fun hop => exec_fabric h h9 (hatomic (by omega)) rfl⟩
  case trigger => exact exec_fabric (is := fun c => c.cls == 7) h (by omega) (by simp [hcls]) rfl
  case steps =>
    intro cid l c o st rest e s hnone hc ho hsteps he hu hrun hdid hstatus hpump hlane hcredit hfits hroom
    show execFabricStepIssue cid s = _
    unfold execFabricStepIssue
    rw [hnone]
    exact congrArg _ (State.recordStep_issues hc ho hsteps he hu hrun hdid hstatus hpump hlane hcredit hfits hroom)
  case answers =>
    intro id i h s hh hu hi hturn hfirst
    show execFabricStepIssue id s = _
    unfold execFabricStepIssue
    rw [hh]
    exact congrArg _ ((if_pos hu).trans (State.homeStep_turn hi hturn hfirst))

end Sys2Proof.Machine
end

section
/-!
PROOFS. Requests at their home: applied once, refused, or answered again (O47).
-/

namespace Sys2Proof.Machine

/-! ### Errors of the memory -/

theorem State.ecc_wrN (s : State) (a : Nat) (data : List Byte) : (s.wrN a data).ecc = s.ecc := by
  obtain ⟨m, hm⟩ := (s.wrN_storesIn a data).memOnly
  rw [hm]

theorem State.eccMode_wrN (s : State) (a : Nat) (data : List Byte) : (s.wrN a data).eccMode = s.eccMode := by
  obtain ⟨m, hm⟩ := (s.wrN_storesIn a data).memOnly
  rw [hm]

/-- Two states whose memory has the same errors. -/
def State.SameErrors (s t : State) : Prop := s.ecc = t.ecc ∧ s.eccMode = t.eccMode

namespace State.SameErrors

variable {s t : State}

theorem partialBad (h : s.SameErrors t) (a n : Nat) : s.partialBad a n = t.partialBad a n := by
  obtain ⟨hecc, hmode⟩ := h
  simp only [State.partialBad, State.eccBad, hecc, hmode]

theorem store (h : s.SameErrors t) (a : Nat) (data : List Byte) : (s.store a data).SameErrors (t.store a data) := by
  obtain ⟨hecc, hmode⟩ := h
  exact ⟨by simp [State.store, State.ecc_wrN, hecc], by simp [State.store, State.eccMode_wrN, hmode]⟩

theorem addTerm (h : s.SameErrors t) (k n : Nat) : (s.addTerm k n).SameErrors (t.addTerm k n) := h

theorem countLanding (h : s.SameErrors t) (float float' : Option Nat) (n : Nat) :
    (s.countLanding float n).SameErrors (t.countLanding float' n) := by
  cases float <;> cases float' <;> exact h

/-- Bytes land at both homes or at neither. -/
theorem homeLand (h : s.SameErrors t) (p : Packet) (a : Nat) (data : List Byte) {u : State} (hu : t.homeLand p a data = .ok u) :
    ∃ v, s.homeLand p a data = .ok v ∧ v.SameErrors u := by
  unfold State.homeLand at *
  rw [h.partialBad]
  split at hu
  case isTrue => cases hu
  case isFalse hgood =>
    cases hu
    exact ⟨_, if_neg hgood, ((h.store a data).addTerm _ _).countLanding _ _ _⟩

/-- Marked bytes are written at both homes or at neither. -/
theorem writeMarks (h : s.SameErrors t) (p : Packet) (base : Nat) (l : List (Nat × Byte)) {u : State}
    (hu : t.writeMarks p base l = .ok u) : ∃ v, s.writeMarks p base l = .ok v := by
  induction l generalizing s t with
  | nil => exact ⟨s, rfl⟩
  | cons e l ih =>
    cases hland : t.homeLand p (base + e.1 % 4096) [e.2] with
    | error status => simp [State.writeMarks, hland] at hu
    | ok w =>
      obtain ⟨v, hv, hsame⟩ := h.homeLand p _ _ hland
      rw [State.writeMarks, hland] at hu
      rw [State.writeMarks, hv]
      exact ih hsame hu

end State.SameErrors

/-! ### Requests that are awaited (R414, R422) -/

/-- A state in which a request of s is checked: s, or s once it awaits the next number. -/
def State.AtHome (s : State) (p : Packet) (t : State) : Prop := t = s ∨ t = s.stepped p

section

variable {s t : State} {p : Packet}

theorem State.AtHome.homeRegion (ht : s.AtHome p t) (n : Nat) : t.homeRegion p n = s.homeRegion p n := by
  rcases ht with rfl | rfl <;> rfl

theorem State.AtHome.homeRead (ht : s.AtHome p t) (r : Region) (n : Nat) : t.homeRead p r n = s.homeRead p r n := by
  rcases ht with rfl | rfl <;> rfl

theorem State.homeFlat_stepped (s : State) (p : Packet) (r : Region) : (s.stepped p).homeFlat p r = s.homeFlat p r := rfl

variable (h : s.Receives p) {k : State → Except Nat State}
include h

/-- A request that passes its checks is applied once its number is passed. -/
theorem State.receiveCounted_applied {u : State → State} (hk : ∀ t, s.AtHome p t → k t = .ok (u t)) :
    s.receiveCounted p k = (u (s.stepped p)).ackedRequest p :=
  State.receiveCounted_ok h (hk s (.inl rfl)) (hk _ (.inr rfl))

/-- A request that fails a check of its region is refused. -/
theorem State.receiveCounted_barred {status : Nat} (hk : ∀ t, s.AtHome p t → k t = .error status)
    (hs : status ≠ Status.eccUncorrectable) :
    s.receiveCounted p k = ((s.stepped p).refuse p status).ackedRequest p :=
  State.receiveCounted_refused h (hk s (.inl rfl)) hs (hk _ (.inr rfl))

/-! #### LOAD_REQ and COPY_REQ -/

section

variable {r : Region} {data : List Byte} (hfree : s.homeBusy p p.len = false) (hr : s.homeRegion p p.len = .ok r)
include hfree hr

theorem execLoadReq_reads (hmay : (r.ownedBy p || r.shared) = true) (hdata : s.homeRead p r p.len = .ok data) :
    execLoadReq p s = .next (((s.stepped p).answer p 0x02 data p.addr r.readLmax).ackedRequest p) :=
  (if_neg (by simp [hfree])).trans (congrArg _ (State.receiveCounted_applied (u := (·.answer p 0x02 data p.addr r.readLmax)) h
    fun t ht => by simp [ht.homeRegion, ht.homeRead, hr, hmay, hdata]))

theorem execCopyReq_reads (hmay : (r.ownedBy p || r.shared) = true) (hdata : s.homeRead p r p.len = .ok data) :
    execCopyReq p s =
      .next (((s.stepped p).sendPieces p data r.readLmax (cutsOf (domOff p.addr) p.len)).ackedRequest p) :=
  (if_neg (by simp [hfree])).trans (congrArg _ (State.receiveCounted_applied
    (u := (·.sendPieces p data r.readLmax (cutsOf (domOff p.addr) p.len))) h
    fun t ht => by simp [ht.homeRegion, ht.homeRead, hr, hmay, hdata]))

theorem execLoadReq_denied (hmay : (r.ownedBy p || r.shared) = false) :
    execLoadReq p s = .next (((s.stepped p).refuse p Status.accessDenied).ackedRequest p) :=
  (if_neg (by simp [hfree])).trans (congrArg _ (State.receiveCounted_barred h
    (fun t ht => by simp [ht.homeRegion, hr, hmay]) (by decide)))

theorem execCopyReq_denied (hmay : (r.ownedBy p || r.shared) = false) :
    execCopyReq p s = .next (((s.stepped p).refuse p Status.accessDenied).ackedRequest p) :=
  (if_neg (by simp [hfree])).trans (congrArg _ (State.receiveCounted_barred h
    (fun t ht => by simp [ht.homeRegion, hr, hmay]) (by decide)))

end

/-! #### STORE, COPY_DATA and BLOCK -/

/-- What a STORE and the data of a COPY_OUT do at their home. -/
def State.landOwned (p : Packet) (t : State) : Except Nat State := do
  let r ← t.homeRegion p p.data.length
  need (r.ownedBy p) Status.ownershipFault
  t.homeLand p (t.homeFlat p r) p.data

section

variable {r : Region} (hr : s.homeRegion p p.data.length = .ok r)
include hr

theorem State.landOwned_lands {u : State} (hown : r.ownedBy p = true)
    (hu : (s.stepped p).homeLand p (s.homeFlat p r) p.data = .ok u) :
    s.receiveCounted p (State.landOwned p) = u.ackedRequest p := by
  obtain ⟨v, hv, -⟩ := State.SameErrors.homeLand (s := s) (t := s.stepped p) ⟨rfl, rfl⟩ p _ _ hu
  refine State.receiveCounted_ok h (v := v) ?_ ?_
  · simp [State.landOwned, hr, hown, hv]
  · simpa [State.landOwned, State.AtHome.homeRegion (.inr rfl), State.homeFlat_stepped, hr, hown] using hu

theorem State.landOwned_refused (hother : r.ownedBy p = false) :
    s.receiveCounted p (State.landOwned p) = ((s.stepped p).refuse p Status.ownershipFault).ackedRequest p :=
  State.receiveCounted_barred h (fun t ht => by simp [State.landOwned, ht.homeRegion, hr, hother]) (by decide)

end

theorem execBlock_lands {r : Region} {u : State} (hfree : s.inboundWaits p 4096 = false) (hr : s.homeRegion p 4096 = .ok r)
    (hown : r.ownedBy p = true) (hu : (s.stepped p).writeMarks p (s.homeFlat p r) p.marks = .ok u) :
    execBlock p s = .next (u.ackedRequest p) := by
  obtain ⟨v, hv⟩ := State.SameErrors.writeMarks (s := s) (t := s.stepped p) ⟨rfl, rfl⟩ p _ _ hu
  refine (if_neg (by simp [hfree])).trans (congrArg _ (State.receiveCounted_ok h (v := v) ?_ ?_))
  · simp [hr, hown, hv]
  · simpa [State.AtHome.homeRegion (.inr rfl), State.homeFlat_stepped, hr, hown] using hu

/-! #### ATOMIC (R426) -/

section

variable {r : Region} {data : List Byte} (hr : s.homeRegion p 8 = .ok r) (hroom : s.atomicFull (s.homeFlat p r / 64) = false)
  (hdata : s.homeRead p r 8 = .ok data) (hmay : (r.ownedBy p || r.atomic) = true)
include hr hroom hmay

theorem execAtomic_rejected (hmulti : (p.exact && (p.aop == 3 || p.aop == 4) && r.atomic) = true) :
    execAtomic p s = .next (((s.stepped p).refuse p Status.multiWriterRejected).ackedRequest p) :=
  (if_neg (by simp [hr, hroom])).trans (congrArg _ (State.receiveCounted_barred h
    (fun t ht => by
      simp only [ht.homeRegion, hr, hmay, hmulti, except_ok, except_error, need_true, need_false, Bool.not_true]) (by decide)))

include hdata

theorem execAtomic_queued (hmulti : (p.exact && (p.aop == 3 || p.aop == 4) && r.atomic) = false) :
    execAtomic p s = .next (({ (s.stepped p).holdSeq p with atomics := s.atomics ++ [(s.homeFlat p r, p)] } : State).ackedRequest p) :=
  (if_neg (by simp [hr, hroom])).trans (congrArg _ (State.receiveCounted_applied
    (u := fun t => { t.holdSeq p with atomics := t.atomics ++ [(t.homeFlat p r, p)] }) h
    fun t ht => by simp only [ht.homeRegion, ht.homeRead, hr, hmay, hmulti, hdata, except_ok, need_true, Bool.not_false]))

end

/-! #### HANDOFF (R428, R429) -/

section

variable {r : Region} (hr : s.homeRegion p 0 = .ok r)
include hr

theorem execHandoff_refused (hother : r.ownedBy p = false) :
    execHandoff p s = .next (((s.stepped p).refuse p Status.ownershipFault).ackedRequest p) :=
  congrArg _ (State.receive_refused h (by simp [State.AtHome.homeRegion (.inr rfl), hr, hother]))

variable (hown : r.ownedBy p = true)
include hown

theorem execHandoff_home (hnew : p.newOwner = s.self) :
    execHandoff p s =
      .next (((s.stepped p).setRegion p.dstFn { r with dev := s.self, owner := p.dstFn }).ackedRequest p) := by
  have hself : p.newOwner = (s.stepped p).self := hnew
  refine congrArg _ (State.receive_ok h ?_)
  simp only [State.AtHome.homeRegion (.inr rfl), hr, hown, except_ok, need_true, if_pos hself]
  rfl

theorem execHandoff_away {e : Endpoint} (hnew : p.newOwner ≠ s.self) (he : s.endpointDev p.dstFn p.newOwner = some e) :
    execHandoff p s = .next ((((s.stepped p).setRegion p.dstFn { r with dev := p.newOwner, owner := e.fn }).holdSeq p).ask
      { id := 0, cid := 0, fn := p.dstFn, dev := p.newOwner, kind := 9, back := some ((packetKey p), p.seq) } 0x09
      { dstFn := e.fn, sub := p.sub, addr := domAddr s.self r.number 0 } |>.ackedRequest p) := by
  have hself : ¬ p.newOwner = (s.stepped p).self := hnew
  have hentry : (s.stepped p).endpointDev p.dstFn p.newOwner = some e := he
  refine congrArg _ (State.receive_ok h ?_)
  simp only [State.AtHome.homeRegion (.inr rfl), hr, hown, except_ok, need_true, if_neg hself, hentry]
  rfl

end

/-! #### OWNER_NOTICE and TRIGGER -/

theorem execOwnerNotice_lands {e : Endpoint} (he : s.endpointOf p.dstFn p.src p.srcFn = some e) :
    execOwnerNotice p s = .next ((((s.stepped p).landReceipt p.dstFn e (receipt (domRegion p.addr) p.src)).modFn p.dstFn
      (fun (x : Fn) => { x with owned := (x.owned.filter (· != (p.src, domRegion p.addr))) ++ [(p.src, domRegion p.addr)] })).ackedRequest
      p) := by
  have hentry : (s.stepped p).endpointOf p.dstFn p.src p.srcFn = some e := he
  refine congrArg _ (State.receive_ok h ?_)
  simp only [hentry]

theorem execTrigger_queued {q : Proc} (hq : s.procOpen p = some q) (hroom : q.queue.length < q.depth) :
    let a : TrigReq := { dev := p.src, fn := p.srcFn, sub := p.sub, seq := p.seq, req := p.req, args := p.data.take 32 }
    execTrigger p s = .next ((((s.stepped p).setProc (fld p.addr 0 16) { q with queue := q.queue ++ [a] }).addO q.fn
      0x5050 9 1).ackedRequest p) := by
  have hopen : (s.stepped p).procOpen p = some q := hq
  refine (if_neg (by simp [hq, hroom])).trans (congrArg _ (State.receive_ok h ?_))
  simp only [hopen]

theorem execTrigger_unregistered (hq : s.procOpen p = none) :
    execTrigger p s = .next (((s.stepped p).refuse p Status.triggerUnregistered).ackedRequest p) := by
  have hopen : (s.stepped p).procOpen p = none := hq
  refine (if_neg (by simp [hq])).trans (congrArg _ (State.receive_refused h ?_))
  simp only [hopen]

end

/-! ### Requests that came before (R414) -/

/-- A request that its stream has passed, of no cut, at a function that has the entry of its sender. -/
structure State.Duplicate (s : State) (p : Packet) : Prop where
  up       : s.up = true
  alive    : s.domain.declared.contains p.src = false
  fn       : isFn p.dstFn = true
  present  : s.present p.dstFn = true
  endpoint : (s.endpointOf p.dstFn p.src p.srcFn).isSome = true
  passed   : p.seq < (s.stream (packetKey p)).expect
  uncut    : p.seq < (s.stream (packetKey p)).cutFrom ∨ (s.stream (packetKey p)).cut ≤ p.seq

/-- A duplicate is counted, answered with what was kept and acknowledged. -/
def State.repeated (s : State) (p : Packet) : State :=
  ((s.addG 0x5005 3 1).answerAgain p.dstFn p.src ((s.stream (packetKey p)).kept.filter (fun e => e.1 == p.seq))).acknowledge
    p.dstFn p.src p.srcFn p.sub

section

variable {s : State} {p : Packet} (h : s.Duplicate p) (k : State → Except Nat State)
include h

theorem State.receive_duplicate : s.receive p k = s.repeated p := by
  obtain ⟨hup, halive, hfn, hpresent, hentry, hpassed, huncut⟩ := h
  have hnone : (s.endpointOf p.dstFn p.src p.srcFn).isNone = false := by simpa using hentry
  unfold State.receive
  dsimp only
  rw [if_neg (by simp [hup]), if_neg (by simp only [halive]; simp), if_neg (by simp [hfn, hpresent]), if_neg (by simp [hnone]),
    if_pos hpassed, if_neg (by omega)]
  rfl

theorem State.receiveCounted_duplicate : s.receiveCounted p k = s.repeated p := by
  have hseq : ((s.stream (packetKey p)).expect == p.seq) = false := by simp [Nat.ne_of_gt h.passed]
  unfold State.receiveCounted
  rw [hseq, Bool.and_false]
  exact State.receive_duplicate h k

end

/-- Settles O47: a request that is awaited is applied or refused by its region, and a duplicate is answered again. -/
theorem requestsAreAppliedOnce : Obligations.RequestsAreAppliedOnce := by
  refine fun p s => ⟨fun h => ⟨fun hfree r hr => ⟨fun data hmay hdata => ?reads, fun hmay => ?denied⟩,
    fun hfree r hr => ⟨fun u hown hu => ?lands, fun hother => ?refused⟩, fun r data hr hroom hdata => ⟨?queued, ?rejected⟩,
    fun hfree r u hr hown hu => execBlock_lands h hfree hr hown hu,
    fun r hr => ⟨execHandoff_refused h hr, execHandoff_home h hr, fun e hown hnew he => execHandoff_away h hr hown hnew he⟩,
    fun e => execOwnerNotice_lands h, fun q => execTrigger_queued h, execTrigger_unregistered h⟩, ?duplicates⟩
  case reads => exact ⟨execLoadReq_reads h hfree hr hmay hdata, execCopyReq_reads h hfree hr hmay hdata⟩
  case denied => exact ⟨execLoadReq_denied h hfree hr hmay, execCopyReq_denied h hfree hr hmay⟩
  case lands =>
    have hland := State.landOwned_lands h hr hown hu
    exact ⟨(if_neg (by simp [hfree])).trans (congrArg _ hland), fun hrequest =>
      (if_neg (by simp [hrequest])).trans ((if_neg (by simp [hfree])).trans (congrArg _ hland))⟩
  case refused =>
    have hrefused := State.landOwned_refused h hr hother
    exact ⟨(if_neg (by simp [hfree])).trans (congrArg _ hrefused), fun hrequest =>
      (if_neg (by simp [hrequest])).trans ((if_neg (by simp [hfree])).trans (congrArg _ hrefused))⟩
  case queued => exact execAtomic_queued h hr hroom hdata
  case rejected => exact execAtomic_rejected h hr hroom
  case duplicates =>
    intro hup halive hfn hpresent hentry hpassed huncut hfree hland hland' hrequest hroom hdepth i hi
    have h : s.Duplicate p := ⟨hup, halive, hfn, hpresent, hentry, hpassed, huncut⟩
    have hcounted k := State.receiveCounted_duplicate h k
    have hplain k := State.receive_duplicate h k
    simp only [List.mem_cons, List.not_mem_nil, or_false] at hi
    rcases hi with rfl | rfl | rfl | rfl | rfl | rfl | rfl | rfl | rfl
    · exact (if_neg (by simp [hfree])).trans (congrArg _ (hcounted _))
    · exact (if_neg (by simp [hland])).trans (congrArg _ (hcounted _))
    · exact (if_neg (by simp [hfree])).trans (congrArg _ (hcounted _))
    · exact (if_neg (by simp [hrequest])).trans ((if_neg (by simp [hland])).trans (congrArg _ (hcounted _)))
    · refine (if_neg ?_).trans (congrArg _ (hcounted _))
      cases hr : s.homeRegion p 8 with
      | error status => simp
      | ok r => simp [hroom r hr]
    · exact (if_neg (by simp [hland'])).trans (congrArg _ (hcounted _))
    · exact congrArg _ (hplain _)
    · exact congrArg _ (hplain _)
    · refine (if_neg ?_).trans (congrArg _ (hplain _))
      cases hq : s.procOpen p with
      | none => simp
      | some q => simp [hdepth q hq]

end Sys2Proof.Machine
end

section
/-!
PROOFS. Answers and acknowledgements at the sender, lines of the atomic unit, triggered jobs and resending (O48).
-/

namespace Sys2Proof.Machine

theorem State.flat_setProc (s : State) (n : Nat) (q : Proc) (f : Nat) (a : DevAddr) (i : Nat) :
    (s.setProc n q).flat f a i = s.flat f a i := by
  unfold State.setProc
  split <;> rfl

section

variable {p : Packet} {s : State} (hu : s.up = true)
include hu

/-! ### Answers (R415, R423, R426) -/

section

variable (halive : s.domain.declared.contains p.src = false)
include halive

/-- An answer that is awaited lands and is acknowledged. -/
theorem State.takeAnswer_awaited {kinds : List Nat} {a : Await} (ha : s.await? p = some a) (hkind : kinds.contains a.kind = true) :
    s.takeAnswer p kinds =
      (if a.kind = 0x11 then s.landFetch a p.data else s.landAnswer a p.data).acknowledgeReply p.dstFn p := by
  unfold State.takeAnswer
  rw [if_neg (by simp [hu]), if_neg (by simp only [halive]; simp), ha]
  exact if_pos hkind

/-- An answer that nothing waits for goes to the sump. -/
theorem State.takeAnswer_unawaited (kinds : List Nat) (ha : s.await? p = none) :
    s.takeAnswer p kinds = (s.issueSump p.data.length).acknowledgeReply p.dstFn p := by
  unfold State.takeAnswer
  rw [if_neg (by simp [hu]), if_neg (by simp only [halive]; simp), ha]

theorem execRefuse_awaited {a : Await} (ha : s.await? p = some a) (h9 : a.kind ≠ 9) (h12 : a.kind ≠ 0x12) :
    let t := (s.dropAwait a.id).modStream (packetKey p) (fun (x : Stream) => { x with unacked := x.unacked.filter (fun e => e.2.1 != a.id) })
    execRefuse p s =
      .next ((({ t with triggers := SMap.del a.id t.triggers } : State).refused a.cid p.status).acknowledgeReply p.dstFn p) := by
  unfold execRefuse
  rw [if_neg (by simp [hu]), if_neg (by simp only [halive]; simp), ha]
  simp only [if_neg h9, if_neg h12]
  cases a.back <;> rfl

theorem execRefuse_unawaited (ha : s.await? p = none) : execRefuse p s = .next (s.acknowledgeReply p.dstFn p) := by
  unfold execRefuse
  rw [if_neg (by simp [hu]), if_neg (by simp only [halive]; simp), ha]

theorem execTriggerDone_noted {k float n : Nat} (hnoted : s.triggers.find? (fun e => e.1 == p.req) = some (k, p.dstFn, float, n)) :
    execTriggerDone p s =
      .next ((({ s with triggers := SMap.del p.req s.triggers } : State).addFloat float n).acknowledgeReply p.dstFn p) := by
  unfold execTriggerDone
  rw [if_neg (by simp [hu]), if_neg (by simp only [halive]; simp), hnoted]
  exact if_pos rfl

/-- An ACK of a sub-stream frees every packet up to its number. -/
theorem execAck_stream (h1 : p.req ≠ 1) (h2 : p.req ≠ 2) :
    execAck p s = .next ((s.modStream (packetKey p) (fun (y : Stream) =>
      { y with unacked := y.unacked.filter (fun e => decide (p.seq < e.1)), acked := max y.acked p.seq, sentAt := s.tb2us })).ackedAll
      ((s.stream (packetKey p)).unacked.filter (fun e => decide (e.1 ≤ p.seq)))) := by
  unfold execAck
  rw [if_neg (by simp [hu]), if_neg (by simp only [halive]; simp), if_neg h1, if_neg h2]

theorem execRetire_cuts : execRetire p s = .next ((s.retireSubs p (List.range 8)).emit p.src 0x0C false
    { src := s.self, srcFn := p.dstFn, dstFn := p.srcFn, req := 2 }) := by
  unfold execRetire
  rw [if_neg (by simp [hu]), if_neg (by simp only [halive]; simp)]

end

/-! ### A sender that is declared failed (R438) -/

section

variable (hfailed : s.domain.declared.contains p.src = true)
include hfailed

theorem State.takeAnswer_declared (kinds : List Nat) : s.takeAnswer p kinds = s.addG 0x5005 4 1 :=
  (if_neg (by simp [hu])).trans (if_pos hfailed)

theorem State.receive_declared (k : State → Except Nat State) : s.receive p k = s.addG 0x5005 4 1 :=
  (if_neg (by simp [hu])).trans (if_pos hfailed)

end

/-! ### The atomic unit, triggered jobs and resending (R416, R426, R433) -/

theorem execAtomicLineWriteBack_queued {line : Nat} (hqueued : s.atomics.filter (fun e => e.1 / 64 == line) ≠ []) :
    let t := s.applyAtomics (s.atomics.filter (fun e => e.1 / 64 == line))
    execAtomicLineWriteBack line s = .next { t with atomics := t.atomics.filter (fun e => e.1 / 64 != line) } := by
  have hsome : (s.atomics.filter (fun e => e.1 / 64 == line)).isEmpty = false := by simpa using hqueued
  exact if_pos (by rw [hsome, hu]; rfl)

theorem execTriggeredJobStart_runs {n : Nat} {q : Proc} {a : TrigReq} {rest : List TrigReq} (hq : s.proc n = some q)
    (hqueue : q.queue = a :: rest) (hlive : s.resetting q.fn = false) (hidle : q.active = none) (hown : (s.ctx q.ctx).fn = q.fn)
    (hused : (s.ctx q.ctx).st ≠ .free) (hgood : (s.ctx q.ctx).st ≠ .faulted) (hopen : (s.ctx q.ctx).closed = false)
    (hjob : (s.ctx q.ctx).openJob = none) :
    let t := s.setProc n { q with queue := rest, active := some a }
    execTriggeredJobStart n s = .next ((t.store (t.flat q.fn (devAddr q.arg) 0) a.args).submitList q n 0 q.count) := by
  have hthere : ((s.ctx q.ctx).fn != q.fn || (s.ctx q.ctx).st == .free || (s.ctx q.ctx).st == .faulted || (s.ctx q.ctx).closed) =
      false := by simp [hown, hused, hgood, hopen]
  unfold execTriggeredJobStart
  simp only [hq, hqueue, hthere]
  rw [if_neg (by simp [hu, hlive, hidle]), if_neg Bool.false_ne_true, if_neg (by simp [hjob]), State.flat_setProc]

theorem execResendTimeout_resends {f dev sub : Nat} (hf : f < 514) (hdev : dev < 8192) (hsub : sub < 8) :
    execResendTimeout f dev sub s = .next (s.resendStreams ((s.streams.filter (fun e => streamFn e.1 == f && streamDev e.1 == dev &&
      streamSub e.1 == sub && !e.2.unacked.isEmpty && decide (e.2.sentAt + s.g 0x5005 1 ≤ s.tb2us))).map (·.1))) := by
  unfold execResendTimeout
  rw [if_neg (by simp [isFn, hf, hdev, hsub]), if_neg (by simp [hu])]

end

/-- Settles O48: an answer by whether it is awaited, every packet of a failed sender by its count, and one lemma for each other
event of a sender. -/
theorem answersReachTheirSenders : Obligations.AnswersReachTheirSenders := by
  refine fun p s hu => ⟨fun halive => ⟨fun a ha => ?awaited, fun ha => ?unawaited, fun k float n => execTriggerDone_noted hu halive,
    execAck_stream hu halive, execRetire_cuts hu halive⟩, fun hfailed i hi => ?failed,
    fun line => execAtomicLineWriteBack_queued hu, fun n q a rest => execTriggeredJobStart_runs hu,
    fun f dev sub => execResendTimeout_resends hu⟩
  case awaited =>
    have hlands {kinds : List Nat} := State.takeAnswer_awaited (kinds := kinds) hu halive ha
    refine ⟨fun hkind => ?load, fun hkind => ?atomic, fun hkind hreply => ?copy, fun hkind hreply => ?fetch,
      execRefuse_awaited hu halive ha⟩
    case load => exact congrArg _ ((hlands (by simp [hkind])).trans (by simp [hkind]))
    case atomic => exact congrArg _ ((hlands (by simp [hkind])).trans (by simp [hkind]))
    case copy => exact (if_pos hreply).trans (congrArg _ ((hlands (by simp [hkind])).trans (by simp [hkind])))
    case fetch => exact (if_pos hreply).trans (congrArg _ ((hlands (by simp [hkind])).trans (by simp [hkind])))
  case unawaited =>
    have hsump kinds := State.takeAnswer_unawaited hu halive kinds ha
    exact ⟨congrArg _ (hsump _), congrArg _ (hsump _), execRefuse_unawaited hu halive ha⟩
  case failed =>
    simp only [List.mem_cons, List.not_mem_nil, or_false] at hi
    rcases hi with rfl | rfl | rfl | rfl | rfl | rfl | rfl | rfl
    · exact congrArg _ (State.takeAnswer_declared hu hfailed _)
    · exact congrArg _ (State.takeAnswer_declared hu hfailed _)
    · exact (if_neg (by simp [hu])).trans (if_pos hfailed)
    · exact (if_neg (by simp [hu])).trans (if_pos hfailed)
    · exact (if_neg (by simp [hu])).trans (if_pos hfailed)
    · exact (if_neg (by simp [hu])).trans (if_pos hfailed)
    · exact congrArg _ (State.receive_declared hu hfailed _)
    · exact congrArg _ (State.receive_declared hu hfailed _)

end Sys2Proof.Machine
end

section
/-!
PROOFS. Lanes, sessions and the controls of the fabric (O49).
-/

namespace Sys2Proof.Machine

/-! ### Lanes (R407, R408, R409, R411) -/

section

variable {s : State} {l : Nat} (hl : l < 64) (hu : s.up = true)
include hl hu

theorem execFabricLaneDown_joined (hjoined : s.g 0x5002 (l + 1) ≠ 0) : execFabricLaneDown l s = .next (s.laneDown l) := by
  simp [execFabricLaneDown, Nat.not_le.2 hl, hu, hjoined]

/-- A lane with a role that has not joined joins with its credits, or is refused for its identity. -/
theorem execFabricLaneTrained_judged (identityOk : Bool) (hrole : s.g 0x5001 (l + 1) ≠ 0) (hnew : s.g 0x5002 (l + 1) ≠ 3) :
    let grant := (List.range 4).map Config.laneGrant
    execFabricLaneTrained l identityOk s = .next (if identityOk then
      (s.setG 0x5002 (l + 1) 3).setLane l { held := grant, received := grant, peer := grant, buffer := grant }
      else (s.setG 0x5002 (l + 1) 4).addG 0x5005 6 1) := by
  unfold execFabricLaneTrained
  rw [if_neg (Nat.not_le.2 hl), if_neg (by simp [hu, hrole, hnew])]
  cases identityOk <;> rfl

/-- What a block does to a lane by what its check found. -/
def State.judgeBlock (s : State) (l : Nat) (bseq back : Nat) (credits : List Nat) (packets : List BlockPacket) : BlockKind → State
  | .uncorrectable =>
    let t := (s.addG 0x5004 (l + 1) 1).setLane l { s.lane l with bad := true, replays := (s.lane l).replays + 1 }
    if 8 ≤ (s.lane l).replays + 1 then t.laneDown l else t
  | .corrected =>
    let t := s.addG 0x5003 (l + 1) 1
    if (s.lane l).expect = bseq then t.takeBlock l bseq back credits packets else t
  | .clean => if (s.lane l).expect = bseq then s.takeBlock l bseq back credits packets else s

theorem execLaneBlockReceive_joined (kind : BlockKind) (bseq back : Nat) (credits : List Nat) (packets : List BlockPacket)
    (hjoined : s.g 0x5002 (l + 1) = 3) :
    execLaneBlockReceive l kind bseq back credits packets s = .next (s.judgeBlock l bseq back credits packets kind) := by
  unfold execLaneBlockReceive
  rw [if_neg (Nat.not_le.2 hl), if_neg (by simp [hu, hjoined])]
  cases kind <;> rfl

end

/-! ### Sessions and controls (R406, R505, R439) -/

theorem execSessionKeying_keys {s : State} {dev : Nat} (hdev : dev < 8192) (hu : s.up = true) (hnew : s.hasSession dev = false)
    (hlocked : s.sec.delta = false) (hentropy : s.sec.entropyOk = true) :
    execSessionKeying dev true s = .next ((s.setSession dev {}).flushLanes (List.range 64)) := by
  simp [execSessionKeying, Nat.not_le.2 hdev, hu, hnew, hlocked, hentropy]

theorem roleRule_ok {s : State} {l role : Nat} (r : ObjRow)
    (hfree : s.g 0xA007 (l + 1) ≠ 1023 ∨ role = 2 ∨ s.g 0x5012 1 = 0) : roleRule l role r s = .ok s :=
  ensure_bind_of_true (by rcases hfree with h | h | h <;> simp [h])

/-- Settles O49: a block by what its check found (`State.judgeBlock`), and a control by the outcome of its rule. -/
theorem lanesSessionsAndControls : Obligations.LanesSessionsAndControls := by
  refine ⟨fun l s hl hu => ⟨execFabricLaneDown_joined hl hu, fun hrole hnew =>
      ⟨execFabricLaneTrained_judged hl hu true hrole hnew, execFabricLaneTrained_judged hl hu false hrole hnew⟩,
      fun hjoined bseq back credits packets => ?blocks⟩,
    fun dev s => execSessionKeying_keys, fun path l role s r h hfree => congrArg _ (State.access_ok h (roleRule_ok r hfree)),
    fun path f value s t r => ⟨fun h hok => congrArg _ (State.access_ok h hok), fun h hok => congrArg _ (State.access_ok h hok),
      fun h hok => congrArg _ (State.access_ok h hok)⟩⟩
  case blocks =>
    have hjudged kind := execLaneBlockReceive_joined hl hu kind bseq back credits packets hjoined
    exact ⟨hjudged .uncorrectable, fun hnext => ⟨(hjudged .clean).trans (congrArg _ (if_pos hnext)),
      (hjudged .corrected).trans (congrArg _ (if_pos hnext))⟩, fun hother => (hjudged .clean).trans (congrArg _ (if_neg hother))⟩

end Sys2Proof.Machine
end

section
/-!
PROOFS. What a time request leaves in the servo of TB1 (O50).
-/

namespace Sys2Proof.Machine

theorem execTimeReqSend_member {s : State} (hu : s.up = true) (hmember : s.isMember = true) :
    execTimeReqSend s =
      .next ((s.setServo 1 (fun x => { x with missed := x.missed + 1 })).domainMsg s.dMaster 7 (s.time 1) 0 []) :=
  if_pos (by simp [hu, hmember])

/-- A device that is up and a member of a domain, as it is after reset otherwise. -/
def memberState : State := { State.reset with obj := [(objKey 1023 0x5010 4, 2), (objKey 1023 0x7000 1, 5)] }

/-- A time request of that member leaves another servo than its message alone does: the exchange that begins is counted. -/
theorem memberState_timeReq_servo :
    ((memberState.setServo 1 (fun x => { x with missed := x.missed + 1 })).domainMsg memberState.dMaster 7 (memberState.time 1) 0
      []).servo ≠ (memberState.domainMsg memberState.dMaster 7 (memberState.time 1) 0 []).servo := by decide +kernel

/-- Refutes O50: TIME_REQ_SEND also counts the exchange that begins in the servo of TB1 (`execTimeReqSend`), where the statement
has it send its message alone. -/
theorem not_membersBeatJoinAndFence : ¬ Obligations.MembersBeatJoinAndFence := by
  intro h
  have hu : memberState.up = true := by decide +kernel
  have hin : memberState.isMember = true := by decide +kernel
  obtain ⟨hmember, -⟩ := h memberState hu
  obtain ⟨-, hrequest, -⟩ := hmember hin
  exact memberState_timeReq_servo (congrArg State.servo
    (Host.Outcome.next.inj ((execTimeReqSend_member hu hin).symm.trans hrequest)))

end Sys2Proof.Machine
end

section
/-!
PROOFS. A view whose fencing of a peer reaches the standby's own number (O51).
-/

namespace Sys2Proof.Machine

/-- A standby member with number 5 that waits for an answer of member 6. The share class of its function 0 is so far beyond the
16 classes that the class's balance in engine group 0 has the key of G:0x5010.02, the standby's number. -/
def strayStandby : State := { State.reset with
  obj := [(objKey 1023 0x5000 1, 5), (objKey 1023 0x5010 2, 5), (objKey 1023 0x5010 4, 2), (objKey 1023 0x7000 1, 5)]
  cycle := 100
  ctxs := [(0, { st := .running, jobs := [{ num := 0, closed := true }] })]
  fns := [(0, { shareCls := objKey 1023 0x5010 2 - objKey 1023 0x3070 1 })]
  cmds := [{ id := 0, fn := 0, phase := .running }]
  engines := [(0, { hold := some (0, 0) })]
  awaits := [{ id := 0, cid := 0, fn := 0, dev := 6, kind := 1 }]
  domain := { ({} : Domain) with members := [5, 6] } }

/-- A copy of the master's records that gives two spares. -/
def twoSpares : MasterCopy := { spares := 2 }

/-- The view without member 6 ends the record that waits for it; its hold is debited over the standby's number, so that the device
keeps no copy. -/
theorem strayStandby_keeps_no_copy :
    ((strayStandby.hearView 7 1 [5] false).keepCopy 7 1 twoSpares).g 0x5013 2 ≠ twoSpares.spares % 2 ^ 16 := by decide +kernel

/-- Refutes O51: the statement quantifies over share classes that no function can have, and the debit of one overwrites the standby's
number before the view's copy is kept. -/
theorem not_viewsDecideTheDomain : ¬ Obligations.ViewsDecideTheDomain := by
  intro h
  obtain ⟨hviews, -⟩ := h
  obtain ⟨hview, -⟩ := hviews strayStandby (by decide +kernel)
  obtain ⟨hexec, -, hlater, -⟩ := hview 7 0 1 [5] twoSpares false (by decide) (by decide) (by decide)
  obtain ⟨t, ht, -, -, -, -, hspares⟩ :=
    hlater (by decide +kernel) (by decide +kernel) (by decide +kernel) (by decide +kernel)
  obtain rfl := Host.Outcome.next.inj (hexec.symm.trans ht)
  exact strayStandby_keeps_no_copy (hspares (by decide +kernel) (by decide +kernel))

end Sys2Proof.Machine
end

section
/-!
PROOFS. Partner beats, shipments, takeover and hand-back (O52).
-/

namespace Sys2Proof.Machine

section

variable {s : State} (hu : s.up = true)
include hu

/-! ### Beats and shipments of a protected device (R452, R453) -/

section

variable (hprotected : s.protection = true)
include hprotected

theorem execPbeat_heard {state frame : Nat} (hstate : state ≤ 4) (hframe : frame < 2 ^ 64)
    (hunheard : s.g 0x5012 2 = 0 ∨ s.g 0x5012 2 = 2) :
    execPbeat state frame s = .next ((s.mark clockPartner).setPartner 1) := by
  have hkeeps : (s.protection && (s.g 0x5012 2 == 0 || s.g 0x5012 2 == 2)) = true := by simpa [hprotected] using hunheard
  unfold execPbeat
  rw [if_neg (by omega), if_neg (by simp [hu])]
  exact congrArg _ (if_pos hkeeps)

theorem execPartnerUnprotectedTimeout_silent (hheard : s.g 0x5012 2 = 0 ∨ s.g 0x5012 2 = 1)
    (hsilent : s.elapsed clockPartner 300 = true) : execPartnerUnprotectedTimeout s =
      .next ((s.setPartner 2).raise ErrCode.partnerUnprotected none16 none16 0) :=
  if_pos (by simpa [hu, hprotected, hsilent] using hheard)

theorem execShipmentStart_ships (hlanes : s.upPartners ≠ []) (hcells : s.shipCells ≠ []) (hgranule : 3200 ≤ s.granule)
    (hnew : s.g 0x5012 7 ≠ s.frame) : execShipmentStart s = .next ((s.shipPieces s.upPartners s.shipment.length
      (chunksOf 4096 (s.shipment.length / 4096 + 1) s.shipment).zipIdx).setG 0x5012 7 s.frame) :=
  if_pos (by simp [hu, hprotected, hlanes, hcells, hgranule, hnew])

/-- A piece of the shipment of the current frame is taken before its seam. -/
theorem execPstate_current {offset total : Nat} {data : List Byte} (hpiece : data.length ≤ 4096) (hsome : 0 < total)
    (htotal : total < 2 ^ 32) (hinside : offset + data.length ≤ total) (hearly : s.cycle < seamStart)
    (hframe : s.domain.rxFrame = s.frame) : execPstate s.frame offset total data s = .next (s.takePiece offset total data) := by
  unfold execPstate
  rw [if_neg (by omega), if_neg (by simp [hu, hprotected]), if_pos (by simp [hearly]), if_pos hframe]

end

/-! ### Takeover and hand-back (R455-R458) -/

section

variable {frame : Nat} (hframe : frame < 2 ^ 64)
include hframe

section

variable (hself : s.self ≠ none16) (hfree : s.cal.takeoverAt = none)
include hself hfree

/-- A RELINQUISH is judged by the page and the standby cells of the device. -/
theorem execRelinquish_judged : execRelinquish frame s = .next
    (if s.g 0x2401 3 != 4 || s.standby.isEmpty then s.raise ErrCode.takeoverRefused none16 none16 s.partner
     else
      let b := if s.nextBoundary ≤ frame then frame else s.nextBoundary
      ({ s with cal := { s.cal with takeoverAt := some b } } : State).toPartner 0x0C b) := by
  unfold execRelinquish
  rw [if_neg (Nat.not_le.2 hframe), if_pos (by simp [hu, hself]), State.acceptTakeover, if_neg (by simp [hfree])]

end

/-- A CLAIM stops the cells but for those that a hand-back stops already. -/
theorem execClaim_stops (hother : s.claimsBack frame = false) : execClaim frame s = .next (s.stopBy frame) := by
  unfold execClaim
  rw [if_neg (Nat.not_le.2 hframe), if_pos (by simp [hu, hother])]

omit hu in
theorem execClaim_back (hback : s.claimsBack frame = true) : execClaim frame s = .next s := by
  unfold execClaim
  rw [if_neg (Nat.not_le.2 hframe), if_neg (by simp [hback])]

end

theorem execCellsStop_due {b : Nat} (hstop : s.domain.stopAt = some b) (hdue : b ≤ s.frame) :
    execCellsStop s = .next (if s.sec.unlocking then s.stopCells.finishUnlock else s.stopCells) :=
  if_pos (by simp [hu, hstop, hdue])

theorem execCellsStop_handBack {b : Nat} (hnone : s.domain.stopAt = none) (hback : s.domain.handBack = some b) (hdue : b ≤ s.frame) :
    execCellsStop s = .next s.stopHeld :=
  (if_neg (by simp [hnone])).trans (if_pos (by simp [hu, hback, hdue]))

end

section

variable {s : State} {frame : Nat} (r : ObjRow)

theorem handBackRule_ok (hholding : s.g 0x5012 2 = 4) (hahead : s.frame + 3 ≤ frame) : handBackRule frame r s =
    .ok (({ s with domain := { s.domain with handBack := some frame } } : State).toPartner 0x0B frame) :=
  ensure_bind_of_true (by simp [hholding, hahead])

theorem handBackRule_near (hnear : frame < s.frame + 3) : handBackRule frame r s = .error ⟨Status.accessDenied, 0⟩ :=
  ensure_bind_of_false (by simp [Nat.not_le.2 hnear])

end

/-- Settles O52: one lemma for each event between partners; a RELINQUISH is judged by the armed page, and a claim by the frame of a
hand-back. -/
theorem partnersShipAndTakeOver : Obligations.PartnersShipAndTakeOver := by
  refine ⟨fun s hu => ⟨fun hprotected => ⟨if_pos (by simp [hu, hprotected]), fun state frame => execPbeat_heard hu hprotected,
      execPartnerUnprotectedTimeout_silent hu hprotected, execShipmentStart_ships hu hprotected,
      fun offset total data => execPstate_current hu hprotected⟩,
    fun frame hframe => ⟨fun hself hfree harmed hcells => ?accepts, fun hself hfree hunarmed => ?refuses, fun hnone => ?stops,
      fun h hback => ?claim⟩,
    fun b => execCellsStop_handBack hu, fun b hstop hdue => ⟨fun hrun => ?stop, fun hunlock => ?unlock⟩⟩,
    fun path frame s r h => ⟨fun hholding hahead => congrArg _ (State.access_ok h (handBackRule_ok r hholding hahead)),
      fun hnear => congrArg _ (State.access_refused h (handBackRule_near r hnear))⟩⟩
  case accepts => exact (execRelinquish_judged hu hframe hself hfree).trans (congrArg _ (if_neg (by simp [harmed, hcells])))
  case refuses => exact (execRelinquish_judged hu hframe hself hfree).trans (congrArg _ (if_pos (by simp [hunarmed])))
  case stops => exact execClaim_stops hu hframe (by simp [State.claimsBack, hnone])
  case claim =>
    by_cases hlate : h ≤ frame
    · rw [if_pos hlate]; exact execClaim_back hframe (by simp [State.claimsBack, hback, hlate])
    · rw [if_neg hlate]; exact execClaim_stops hu hframe (by simp [State.claimsBack, hback, hlate])
  case stop => exact (execCellsStop_due hu hstop hdue).trans (congrArg _ (if_neg (by simp [hrun])))
  case unlock => exact (execCellsStop_due hu hstop hdue).trans (congrArg _ (if_pos hunlock))

end Sys2Proof.Machine
end

section
/-!
PROOFS. The distribution of an image and its commit in two phases (O53).
-/

namespace Sys2Proof.Machine

theorem objMod_firmwareState : objMod 1023 0x5018 1 = 256 := by decide +kernel

theorem length_insertNat_le (d : Nat) (l : List Nat) : (insertNat d l).length ≤ l.length + 1 := by
  induction l with
  | nil => exact Nat.le_refl 1
  | cons e l ih =>
    rw [insertNat]
    split
    · exact Nat.le_refl _
    · split
      · exact Nat.le_succ _
      · exact Nat.succ_le_succ ih

section

variable {s : State}

theorem State.onMaster_ok (hmaster : s.isMaster = true) : s.onMaster = .ok () := by
  rw [State.onMaster, hmaster]; rfl

theorem State.onMaster_refused (hother : s.isMaster = false) : s.onMaster = .error ⟨Status.accessDenied, 0⟩ := by
  rw [State.onMaster, hother]; rfl

theorem distributionRule_ok {length version : Nat} (r : ObjRow) (hmaster : s.isMaster = true) :
    let t := s.setG 0x5018 7 length
    let t : State := { t with domain := { t.domain with fwCount := cdiv length 65536, fwVersion := version, fwRounds := [], fwDone := [], fwPrepared := false } }
    distributionRule length version r s =
      .ok ((t.setFwResults 0 t.fwMembers).sendChunks (List.range (cdiv length 65536))) := by
  unfold distributionRule
  rw [State.onMaster_ok hmaster]
  rfl

/-! ### Chunks (R460) -/

/-- A receiving member holds a chunk that does not make its image whole, and receives on. -/
theorem State.holdChunk_more {index count : Nat} (verified : Bool) (hreceiving : s.g 0x5018 1 = 1)
    (hnew : s.domain.fwHeld.contains index = false) (hmore : s.domain.fwHeld.length + 1 < count) :
    (s.holdChunk index count verified).domain.fwHeld = insertNat index s.domain.fwHeld ∧
      (s.holdChunk index count verified).g 0x5018 1 = 1 := by
  have hpart : (insertNat index s.domain.fwHeld).length ≠ count := by
    have := length_insertNat_le index s.domain.fwHeld
    omega
  have hhold : s.holdChunk index count verified =
      ({ s with domain := { s.domain with fwHeld := insertNat index s.domain.fwHeld } } : State).setG 0x5018 3
        (insertNat index s.domain.fwHeld).length := by
    unfold State.holdChunk
    rw [if_neg (by simp only [hnew, hreceiving]; decide)]
    exact if_neg hpart
  rw [hhold]
  exact ⟨rfl, (State.g_setG_other _ _ (by decide)).trans hreceiving⟩

section

variable (hu : s.up = true) (hmember : s.isMember = true) {index count version : Nat} (verified : Bool)
  (hcount : count ≤ 1024) (hinside : index + 1 < count)
include hu hmember hcount hinside

/-- A chunk that is neither the last one nor completes the image is held by a member that receives its image or begins to. -/
theorem execChunk_held {t : State} (ht : (if s.g 0x5018 1 = 0 ∨ s.g 0x5018 2 ≠ version then s.beginStage version else s) = t)
    (hreceiving : t.g 0x5018 1 = 1) (hnew : t.domain.fwHeld.contains index = false) (hmore : t.domain.fwHeld.length + 1 < count) :
    ∃ u, execChunk index count version verified false s = .next u ∧ u.domain.fwHeld = insertNat index t.domain.fwHeld ∧
      u.g 0x5018 1 = 1 := by
  obtain ⟨hheld, hgoes⟩ := State.holdChunk_more verified hreceiving hnew hmore
  have hpart : ¬ (index + 1 = count ∨ (t.holdChunk index count verified).domain.fwHeld.length = count) := by
    have := length_insertNat_le index t.domain.fwHeld
    rw [hheld]; omega
  refine ⟨t.holdChunk index count verified, ?_, hheld, hgoes⟩
  unfold execChunk
  rw [if_neg (by omega), if_neg (by simp [hu, hmember])]
  simp only [ht, if_neg hpart]
  rfl

end

theorem State.g_beginStage (s : State) (version : Nat) : (s.beginStage version).g 0x5018 1 = 1 := by
  unfold State.beginStage
  rw [State.g_setG_other _ _ (by decide), State.g_setG_other _ _ (by decide), State.g_setG, objMod_firmwareState]

/-! ### The master's side (R460, R461) -/

section

variable (hu : s.up = true) (hmaster : s.isMaster = true) {d : Nat} (hd : d < 8192) (hin : s.inView d = true)
include hu hmaster hd hin

/-- A member whose image is not whole gets its missing chunks for three rounds. -/
theorem execBitmap_judged (held : List Nat) (hopen : s.domain.fwDone.contains d = false) (hcount : s.domain.fwCount ≠ 0) :
    let missing := (List.range s.domain.fwCount).filter (fun i => !held.contains i)
    let rounds := SMap.get (fun _ => 0) s.domain.fwRounds d
    execBitmap d held s = .next (if missing.isEmpty then s.fwFinish d else if rounds < 3 then
      ({ s with domain := { s.domain with fwRounds := SMap.put d (rounds + 1) s.domain.fwRounds } } : State).resendChunks d missing
      else (s.setFwResult d 2).fwFinish d) := by
  unfold execBitmap
  rw [if_neg (Nat.not_le.2 hd), if_neg (by simp only [hu, hmaster, hopen]; simpa using hcount), if_neg (by simp [hin])]
  dsimp only
  split
  · rfl
  · split <;> rfl

variable (hprepared : s.domain.fwPrepared = true)
include hprepared

theorem execVote_yes : execVote d true s = .next (s.domainMsg d 0x11 s.domain.fwVersion 0 []) := by
  unfold execVote
  rw [if_neg (Nat.not_le.2 hd), if_neg (by simp [hu, hmaster, hprepared]), if_neg (by simp [hin]), if_pos rfl]

theorem execVote_missed (hmissed : s.g (0x5120 + d % 4096 / 128) (d % 128 + 1) = 2) :
    execVote d false s = .next (s.domainMsg d 0x12 s.domain.fwVersion 0 []) := by
  unfold execVote
  rw [if_neg (Nat.not_le.2 hd), if_neg (by simp [hu, hmaster, hprepared]), if_neg (by simp [hin]), if_neg (by decide)]
  dsimp only
  rw [if_pos hmissed]

end

/-! ### The member's vote (R461, R499) -/

section

variable (hu : s.up = true) (hmember : s.isMember = true) {version : Nat}
include hu hmember

theorem execPrepare_yes (hverified : s.g 0x5018 1 = 2 ∨ s.g 0x5018 1 = 3) (hversion : s.g 0x5018 2 = version) :
    let t := (s.setG 0x5018 1 3).mark clockPrepare
    execPrepare version false s = .next (t.domainMsg t.dMaster 0x10 version 1 []) := by
  have hyes : ((s.g 0x5018 1 == 2 || s.g 0x5018 1 == 3) && s.g 0x5018 2 == version) = true := by simpa [hversion] using hverified
  unfold execPrepare
  rw [if_neg (by simp [hu, hmember])]
  simp only [hyes]
  rfl

theorem execPrepare_no (h2 : s.g 0x5018 1 ≠ 2) (h3 : s.g 0x5018 1 ≠ 3) :
    execPrepare version false s = .next (s.domainMsg s.dMaster 0x10 version 0 []) := by
  have hno : ((s.g 0x5018 1 == 2 || s.g 0x5018 1 == 3) && s.g 0x5018 2 == version) = false := by simp [h2, h3]
  unfold execPrepare
  rw [if_neg (by simp [hu, hmember])]
  simp only [hno]
  rfl

end

end

/-- Settles O53: a chunk is held while the image is not whole (`execChunk_held`), a bitmap is judged by what it misses, and a vote
and its answers by the state of the image. -/
theorem firmwareIsDistributed : Obligations.FirmwareIsDistributed := by
  refine ⟨fun path length version s r h hmaster => congrArg _ (State.access_ok h (distributionRule_ok r hmaster)),
    fun s hu => ⟨fun hmember => ⟨fun index count version verified hcount hinside => ⟨fun hgoes hversion hnew hmore => ?more,
        fun hidle => ?first⟩, fun version => execPrepare_yes hu hmember, fun version => execPrepare_no hu hmember⟩,
      fun hmaster d hd hin => ⟨fun held hopen hcount => ?bitmap, fun hprepared =>
        ⟨execVote_yes hu hmaster hd hin hprepared, execVote_missed hu hmaster hd hin hprepared⟩⟩,
      fun version hversion => ⟨fun hvoted => if_pos (by simp [hu, hvoted, hversion]), fun hbusy => ?abort⟩,
      fun hvoted hlate => if_pos (by simp [hu, hvoted, hlate])⟩⟩
  case more =>
    exact execChunk_held hu hmember verified hcount hinside (if_neg (by simp [hgoes, hversion])) hgoes hnew hmore
  case first =>
    exact execChunk_held hu hmember verified hcount hinside (if_pos (.inl hidle)) (s.g_beginStage version) rfl
      (by rw [show (s.beginStage version).domain.fwHeld = [] from rfl]; simp; omega)
  case bitmap =>
    have hjudged := execBitmap_judged hu hmaster hd hin held hopen hcount
    refine ⟨fun hwhole => hjudged.trans (congrArg _ (if_pos (List.isEmpty_iff.2 hwhole))), fun hpart hround => ?resend, fun hpart hround => ?missed⟩
    case resend => exact hjudged.trans (congrArg _ ((if_neg (mt List.isEmpty_iff.1 hpart)).trans (if_pos hround)))
    case missed => exact hjudged.trans (congrArg _ ((if_neg (mt List.isEmpty_iff.1 hpart)).trans (if_neg (Nat.not_lt.2 hround))))
  case abort => exact if_pos (by simpa [hu, hversion, or_assoc] using hbusy)

end Sys2Proof.Machine
end

section
/-!
PROOFS. Host ports: links, resets, vectors and link errors (O58).
-/

namespace Sys2Proof.Machine

/-! ### Ports (R558, R565-R567) -/

section

variable {s : State} {p : Nat} (hp : p < 2)
include hp

theorem execPcieLinkUp_trained {speed width : Nat} (hpow : s.powered = true) (h0 : 0 < speed) (h5 : speed ≤ 5) (hw0 : 0 < width)
    (hw16 : width ≤ 16) (hperst : (s.port p).perst = false) : execPcieLinkUp p speed width s =
      .next ((s.setG 0x1130 (p + 1) (speed + 16 * width)).setPort p { s.port p with ptm := p == 0 }) := by
  unfold execPcieLinkUp
  rw [if_neg (by omega), if_pos (by simp [hpow, hperst])]

theorem execNumvfsWrite_sets {num : Nat} (enable : Bool) (hpow : s.powered = true) (hnum : num ≤ 256) : execNumvfsWrite p num enable s =
    .next (s.setPort p { s.port p with numVfs := num, vfEnable := (s.port p).vfEnable || enable }) := by
  unfold execNumvfsWrite
  rw [if_neg (by omega), if_pos hpow]

theorem execVfEnableClear_resets (hu : s.up = true) (henable : (s.port p).vfEnable = true) : execVfEnableClear p s =
    .next ((s.setPort p { s.port p with vfEnable := false }).resetFns (span (256 * p) 256)) := by
  unfold execVfEnableClear
  rw [if_neg (Nat.not_le.2 hp), if_neg (by simp [State.powered_of_up hu, henable])]
  exact congrArg _ (if_pos hu)

/-- A read from host memory that fails is counted; it ends the distribution of an image or the LOAD that asked. -/
theorem execHostReadCompletionError_counted (firmware : Bool) (cid : Nat) (hu : s.up = true) :
    execHostReadCompletionError p firmware cid s =
      let t := s.linkError p (512 + p) 1
      .next (if firmware then ({ t with domain := { t.domain with fwCount := 0 } } : State).setG 0x5018 1 5
        else t.startFree cid (isMarker 3) (fun _ u => u.conclude cid Status.addressInvalid)) := by
  unfold execHostReadCompletionError
  rw [if_neg (Nat.not_le.2 hp), if_neg (by simp [hu])]
  cases firmware <;> rfl

end

/-! ### Functions (R558, R561, R566, R567) -/

section

variable {s : State} {f : Nat} (hf : isFn f = true)
include hf

omit hf in
theorem execVfFlr_visible (hvirtual : f < 512) (hu : s.up = true) (hvisible : s.visible f = true) :
    execVfFlr f s = .next (s.resetFns [f]) := by
  unfold execVfFlr
  rw [if_neg (Nat.not_le.2 hvirtual), if_pos (by simp [hu, hvisible])]

theorem execD3hotEntry_visible (hpow : s.powered = true) (hvisible : s.visible f = true) :
    execD3hotEntry f s = .next (s.modFn f (fun (x : Fn) => { x with d3hot := true })) := by
  unfold execD3hotEntry
  rw [if_neg (by simp [hf]), if_pos (by simp [hpow, hvisible])]

theorem execPoisonedWrite_visible {target : Nat} (htarget : target < 3) (hpow : s.powered = true) (hvisible : s.visible f = true) :
    execPoisonedWrite f target s = .next (s.linkError (portOf f) f 1) := by
  unfold execPoisonedWrite
  rw [if_neg (by simp [hf, htarget]), if_pos (by simp [hpow, hvisible])]

theorem execD3hotToD0_resets (hd3hot : (s.fn f).d3hot = true) (hu : s.up = true) :
    execD3hotToD0 f s = .next (s.resetFns [f]) := by
  unfold execD3hotToD0
  rw [if_neg (by simp [hf]), if_pos hd3hot, if_pos hu]

/-- A vector that is unmasked sends its message if it was pending. -/
theorem execMsixUnmask_vector {v : Nat} (hpow : s.powered = true) (hv : v < vectorsOf f) :
    let t := s.modFn f (fun (x : Fn) => { x with msixMask := x.msixMask.filter (· != v), msixPend := x.msixPend.filter (· != v) })
    execMsixUnmask f v s = .next (if (s.fn f).msixPend.contains v then t.msix f v else t) := by
  unfold execMsixUnmask
  rw [if_neg (by simp [hf, hv]), if_neg (by simp [hpow])]

end

/-- Settles O58: each event of a port and of a function acts where it is powered and visible, and a notice is cleared by its rule. -/
theorem hostPortsActAndReport : Obligations.HostPortsActAndReport := by
  refine ⟨fun p s hp hpow => ?ports, fun f s hf hpow => ⟨fun hvisible => ⟨fun hvirtual hu => execVfFlr_visible hvirtual hu hvisible,
      execD3hotEntry_visible hf hpow hvisible, fun target htarget => execPoisonedWrite_visible hf htarget hpow hvisible⟩,
      execD3hotToD0_resets hf, fun v hv => ?vectors⟩,
    fun s => rfl, fun path f bits s r h => congrArg _ (State.access_ok h rfl)⟩
  case ports =>
    have hport : ¬ 2 ≤ p := Nat.not_le.2 hp
    refine ⟨fun hlink => ?reset, (if_neg hport).trans (if_pos hpow), if_neg hport,
      fun speed width h0 h5 hw0 hw16 => execPcieLinkUp_trained hp hpow h0 h5 hw0 hw16,
      fun num enable => execNumvfsWrite_sets hp enable hpow, fun hu => (if_neg hport).trans (if_pos hu),
      execVfEnableClear_resets hp, (if_neg hport).trans (if_pos hpow), (if_neg hport).trans (if_pos hpow), fun cid hu => ?hostRead⟩
    case reset =>
      have hup : (s.powered && s.linkUp p) = true := by simp [hpow, hlink]
      exact ⟨(if_neg hport).trans (if_pos hup), (if_neg hport).trans (if_pos hup)⟩
    case hostRead =>
      refine ⟨execHostReadCompletionError_counted hp true cid hu, fun c h hload => ?_⟩
      refine (execHostReadCompletionError_counted hp false cid hu).trans ?_
      exact congrArg Host.Outcome.next ((if_neg Bool.false_ne_true).trans (State.startFree_ok h hload))
  case vectors =>
    have hunmasked := execMsixUnmask_vector hf hpow hv
    exact ⟨fun hpending => hunmasked.trans (congrArg _ (if_pos hpending)),
      fun hquiet => hunmasked.trans (congrArg _ (if_neg (Bool.eq_false_iff.1 hquiet)))⟩

end Sys2Proof.Machine
end

section
/-!
PROOFS. Timing modes, power, resets and priming (O60).
-/

namespace Sys2Proof.Machine

/-! ### The timing mode (R482) -/

section

variable {path : Path} {value : Nat} {s : State} {r : ObjRow} (hwrite : s.LetsWrite path 1023 0x7800 1 none value r)
include hwrite

theorem execTimingModeWrite_queued (hstored : r.stored = true) (hfits : value = 0 ∨ s.exactOpen = false) :
    execTimingModeWrite path value s = .next (s.queueStored path 1023 0x7800 1 value) := by
  have hrule : timingRule value r s = .ok s := ensure_bind_of_true (by simpa using hfits)
  exact congrArg _ ((State.access_ok hwrite hrule).trans (if_pos hstored))

theorem execTimingModeWrite_denied (hvalue : value ≠ 0) (hopen : s.exactOpen = true) :
    execTimingModeWrite path value s = .next (s.respond path Status.accessDenied 0 []) := by
  have hrule : timingRule value r s = .error ⟨Status.accessDenied, 0⟩ := ensure_bind_of_false (by simp [hvalue, hopen])
  exact congrArg _ (State.access_refused hwrite hrule)

end

section

variable {s : State} {f : Nat} (hup : s.up = true) (hdue : s.modeAt = some f) (hpast : f ≤ s.frame)
include hup hdue hpast

theorem execTimingModeChange_same (hsame : s.g 0x7800 1 = s.g 0x7800 2) :
    execTimingModeChange s = .next { s with modeAt := none } :=
  (if_pos (by simp [hup, hdue, hpast])).trans (if_pos hsame)

theorem execTimingModeChange_changed (hother : s.g 0x7800 1 ≠ s.g 0x7800 2) :
    let t := ((({ s with modeAt := none } : State).setG 0x7800 2 (s.g 0x7800 1)).setG 0x7800 3 s.frame).addG 0x7800 4 1
    execTimingModeChange s = .next ({ t with owed := [] } : State).rebuildColophon :=
  (if_pos (by simp [hup, hdue, hpast])).trans (if_neg hother)

end

/-! ### Stops (R479) -/

theorem objMod_stopCause : objMod 1023 0x2004 3 = 256 := by decide +kernel

/-- The cause of a stop stands in G:0x2004.03. -/
theorem State.g_stopCause (s : State) {cause : Nat} (hcause : cause < 256) : (s.setG 0x2004 3 cause).g 0x2004 3 = cause :=
  (s.g_setG 0x2004 3 cause).trans (by rw [objMod_stopCause, Nat.mod_eq_of_lt hcause])

theorem State.stopDevice_stopped (s : State) {cause : Nat} (hcause : cause < 256) :
    (s.stopDevice cause).g 0x2004 3 = cause ∧ (s.stopDevice cause).power.stopped = true :=
  ⟨s.g_stopCause hcause, rfl⟩

/-! ### What a reset keeps (R525) -/

theorem State.g_coldReset_source (s : State) (source : Nat) : (s.coldReset source).g 0x7000 4 = source :=
  SMap.get_set_same ..

/-- An object that no reset keeps is at its default after a cold one. -/
theorem State.g_coldReset_of_lost (s : State) (source : Nat) {index sub : Nat}
    (hlost : ∀ k ∈ [objKey 1023 0x2004 3, objKey 1023 0x9001 1, objKey 1023 0x7801 1, objKey 1023 0x7000 4], objKey 1023 index sub ≠ k) :
    (s.coldReset source).g index sub = objDflt (objKey 1023 index sub) := by
  simp only [List.forall_mem_cons, List.not_mem_nil, false_imp_iff, implies_true, and_true] at hlost
  obtain ⟨hstop, hslot, hvolt, hsource⟩ := hlost
  calc
    _ = _ := SMap.get_set_other _ _ hsource
    _ = _ := SMap.get_set_other _ _ hvolt
    _ = _ := SMap.get_set_other _ _ hslot
    _ = _ := SMap.get_set_other _ _ hstop
    _ = _ := SMap.get_nil _

theorem State.g_coldReset_step (s : State) (source : Nat) : (s.coldReset source).g 0x7000 1 = 0 :=
  (s.g_coldReset_of_lost source (by decide)).trans (by decide +kernel)

theorem State.g_coldReset_kind (s : State) (source : Nat) : (s.coldReset source).g 0x7000 3 = 0 :=
  (s.g_coldReset_of_lost source (by decide)).trans (by decide +kernel)

theorem State.g_warmReset_kind (s : State) (source : Nat) : (s.warmReset source).g 0x7000 3 = 1 := by
  simp [State.warmReset, State.g, State.o, State.keptObj, State.corrections, SMap.get_set_other, objKey]

theorem State.g_warmReset_source (s : State) (source : Nat) : (s.warmReset source).g 0x7000 4 = source := by
  simp [State.warmReset, State.g, State.o, State.keptObj, State.corrections, SMap.get_set_other, objKey]

/-! ### Reset requests (R467) -/

theorem resetWriteRule_up {s : State} (path : Path) (kind : Nat) (r : ObjRow) (hup : s.up = true) :
    resetWriteRule path kind r s = .ok (s.requestReset kind (resetSource path)) := if_pos hup

theorem resetWriteRule_priming {s : State} (path : Path) (kind : Nat) (r : ObjRow) (hdown : s.up = false) :
    resetWriteRule path kind r s = .ok (s.coldReset (resetSource path)) := if_neg (Bool.eq_false_iff.1 hdown)

/-- A device in priming takes no write but that of 2 to G:0x7000.02. -/
theorem checkWrite_resetWarm_priming {s : State} (path : Path) (hdown : s.up = false) :
    s.checkWrite path 1023 0x7000 2 none 1 = .error ⟨Status.accessDenied, 0⟩ :=
  ensure_bind_of_false (by simp [hdown])

theorem execResetStart_due {s : State} {kind source b : Nat} (hup : s.up = true) (hpast : b ≤ s.frame)
    (hrequest : s.power.request = some (kind, source, b)) :
    execResetStart s = .next (if kind = 1 then s.warmReset source else s.coldReset source) := by
  unfold execResetStart
  rw [hrequest]
  exact if_pos (by simp [hup, hpast])

/-! ### Priming (R494) -/

theorem objMod_bootState : objMod 1023 0x7000 1 = 256 := by decide +kernel
theorem objMod_unusableCause : objMod 1023 0x7000 9 = 256 := by decide +kernel

theorem State.unusableCause_le (s : State) (r : PrimeResult) : s.unusableCause r ≤ 5 := by
  unfold State.unusableCause
  split_ifs <;> decide

/-- A priming whose fatal check failed ends unusable, with its cause in G:0x7000.09. -/
theorem State.prime_unusable {s : State} {r : PrimeResult} (warm : Bool) (hfatal : s.unusableCause r ≠ 0) :
    (s.prime r warm).g 0x7000 1 = 7 ∧ (s.prime r warm).g 0x7000 9 = s.unusableCause r := by
  have hcause := s.unusableCause_le r
  unfold State.prime
  rw [if_neg hfatal]
  refine ⟨(State.g_setG ..).trans (by rw [objMod_bootState]), (State.g_setG_other _ _ (by decide)).trans ((State.g_setG ..).trans ?_)⟩
  rw [objMod_unusableCause, Nat.mod_eq_of_lt (by omega)]

section

variable {s : State} {r : PrimeResult} (himage : r.imageCheck ≤ 5) (hsvn : r.imageSvn ≤ 64) (hpriming : s.priming = true)
include himage hsvn hpriming

theorem execColdPriming_runs (hcold : s.power.warm = false) : execColdPriming r s = .next (s.prime r false) :=
  (if_neg (by omega)).trans (if_pos (by simp [hpriming, hcold]))

theorem execWarmPriming_runs (hwarm : s.power.warm = true) : execWarmPriming r s = .next (s.prime r true) :=
  (if_neg (by omega)).trans (if_pos (by simp [hpriming, hwarm]))

end

/-- Settles O60: a mode, a stop, a pin, a reset and a priming each do what their state and the power word ask for. -/
theorem powerResetAndPriming : Obligations.PowerResetAndPriming := by
  refine ⟨fun path value s r hwrite hstored => ⟨execTimingModeWrite_queued hwrite hstored, execTimingModeWrite_denied hwrite⟩,
    fun f s hup hdue hpast => ⟨execTimingModeChange_same hup hdue hpast, execTimingModeChange_changed hup hdue hpast⟩,
    fun s hgood => ?stops, fun s => ?pins, fun path s r => ?requests, fun path source p s hpow hdown => ?duringPriming,
    fun s source b hup hpast _ => ?starts, fun r s himage hsvn hpriming => ?primings⟩
  case stops =>
    refine ⟨fun hrun => ⟨fun rail hrail => ⟨s.stopDevice 2, ?_, s.stopDevice_stopped (by decide)⟩,
        ⟨s.stopDevice 3, if_pos (by simp [hgood, hrun]), s.stopDevice_stopped (by decide)⟩⟩,
      fun haon => ⟨_, if_pos (by simp [hgood, haon]), s.g_stopCause (cause := 1) (by decide), rfl, rfl⟩,
      if_pos hgood, if_pos hgood, fun hheld => (if_pos hheld).trans (congrArg _ (if_pos hgood))⟩
    exact (if_neg (Nat.not_le.2 hrail)).trans (if_pos (by simp [hgood, hrun]))
  case pins =>
    refine ⟨fun hlow haon hio18 => if_pos (by simp [hlow, haon, hio18]), fun hlow => ⟨if_neg (by simp [hlow]), fun hheld => ?_⟩, rfl,
      ⟨_, rfl, (s.coldReset 0).g_stopCause (cause := 0) (by decide), rfl, rfl⟩⟩
    exact (if_pos hheld).trans (congrArg _ (if_neg (by simp [hlow])))
  case requests =>
    exact ⟨fun hwrite hup => congrArg _ (State.access_ok hwrite (resetWriteRule_up path 1 r hup)),
      fun hwrite => ⟨fun hup => congrArg _ (State.access_ok hwrite (resetWriteRule_up path 2 r hup)),
        fun hdown => congrArg _ (State.access_ok hwrite (resetWriteRule_priming path 2 r hdown))⟩⟩
  case duringPriming =>
    refine ⟨s.g_coldReset_step source, rfl,
      fun hgate => congrArg _ (State.access_checked hpow hgate (checkWrite_resetWarm_priming path hdown)), fun hp hlink => ?_⟩
    calc execHotReset p s
      _ = .next (s.portReset p) := (if_neg (Nat.not_le.2 hp)).trans (if_pos (by simp [hpow, hlink]))
      _ = .next ((s.dropLink p).clearPort p) := congrArg _ (if_neg (Bool.eq_false_iff.1 hdown))
  case starts =>
    exact ⟨fun hrequest => ⟨s.warmReset source, execResetStart_due hup hpast hrequest, s.g_warmReset_kind source,
        s.g_warmReset_source source, rfl, rfl⟩,
      fun hrequest => ⟨s.coldReset source, execResetStart_due hup hpast hrequest, s.g_coldReset_kind source,
        s.g_coldReset_source source, rfl, rfl⟩⟩
  case primings =>
    have hcold := execColdPriming_runs himage hsvn hpriming
    have hwarm := execWarmPriming_runs himage hsvn hpriming
    refine ⟨hcold, hwarm, fun n hn hfatal => ?_⟩
    subst hn
    exact ⟨fun hw => ⟨_, hcold hw, State.prime_unusable false hfatal⟩, fun hw => ⟨_, hwarm hw, State.prime_unusable true hfatal⟩⟩

end Sys2Proof.Machine
end

section
/-!
PROOFS. The SPDM responder, the fused SVN, the debug unlock and the entropy test (O59).
-/

namespace Sys2Proof.Machine

/-! ### The SPDM responder (R505, R507-R509) -/

section

variable {s : State} {t : Nat} {ready : Spdm → Bool} {k : Spdm → State} (ht : t < 5) (hup : s.up = true)
include ht hup

theorem State.onSpdm_ready (hready : ready (s.spdm t) = true) : s.onSpdm t ready k = .next (k (s.spdm t)) :=
  (if_neg (Nat.not_le.2 ht)).trans ((if_neg (by simp [hup])).trans (if_pos hready))

theorem State.onSpdm_unready (hready : ready (s.spdm t) = false) :
    s.onSpdm t ready k = .next (s.spdmError t SpdmErr.unexpected) :=
  (if_neg (Nat.not_le.2 ht)).trans ((if_neg (by simp [hup])).trans (if_neg (Bool.eq_false_iff.1 hready)))

end

section

variable {s : State} {t : Nat} (ht : t < 5) (hup : s.up = true) (hnegotiated : (s.spdm t).negotiated = true)
include ht hup hnegotiated

theorem State.inSession_finished {session : Nat} {k : Spdm → State} (hfinished : (s.spdm t).sessions.contains (session, true) = true) :
    s.inSession t session k = .next (k (s.spdm t)) :=
  (State.onSpdm_ready ht hup hnegotiated).trans (congrArg _ (if_pos hfinished))

theorem execGetCertificate_portion {offset : Nat} (length : Nat) (hoffset : offset < s.chain.length) :
    let portion := (s.chain.drop offset).take length
    execGetCertificate t 0 offset length s = .next (s.spdmAnswer t SpdmRsp.certificate
      (portion.length :: (s.chain.length - offset - portion.length) :: portion.map (·.toNat))) :=
  (State.onSpdm_ready ht hup hnegotiated).trans (congrArg _ (if_neg (by omega)))

theorem execGetMeasurements_one {index : Nat} (signed : Bool) (hfirst : 1 ≤ index) (hlast : index ≤ 9) :
    execGetMeasurements t index signed s = .next (if signed then s.signed t SpdmRsp.measurements (index :: s.measurement index)
      else s.spdmAnswer t SpdmRsp.measurements (index :: s.measurement index)) := by
  refine (State.onSpdm_ready ht hup hnegotiated).trans (congrArg _ ?_)
  simp only [if_neg (show index ≠ 0 by omega), if_neg (show index ≠ 255 by omega), if_pos (show index ≤ 9 ∨ index = 255 from .inl hlast)]

theorem execKeyExchange_opens (hentropy : s.sec.entropyOk = true) (hroom : (s.spdm t).sessions.length < 4) :
    let x := s.spdm t
    execKeyExchange t s = .next ((s.setSpdm t { x with sessions := x.sessions ++ [(x.nextId, false)], nextId := x.nextId + 1 }).signed t
      SpdmRsp.keyExchangeRsp [x.nextId]) :=
  (State.onSpdm_ready ht hup hnegotiated).trans (congrArg _ ((if_neg (by simp [hentropy])).trans (if_neg (Nat.not_le.2 hroom))))

theorem execKeyExchange_untested (hentropy : s.sec.entropyOk = false) :
    execKeyExchange t s = .next ((s.raise ErrCode.other none16 none16 0).spdmError t SpdmErr.unspecified) :=
  (State.onSpdm_ready ht hup hnegotiated).trans (congrArg _ (if_pos (by simp [hentropy])))

theorem execKeyExchange_full (hentropy : s.sec.entropyOk = true) (hfull : 4 ≤ (s.spdm t).sessions.length) :
    execKeyExchange t s = .next (s.spdmError t SpdmErr.sessionLimit) :=
  (State.onSpdm_ready ht hup hnegotiated).trans (congrArg _ ((if_neg (by simp [hentropy])).trans (if_pos hfull)))

theorem execFinish_finishes {session : Nat} (hopened : (s.spdm t).sessions.contains (session, false) = true) :
    let x := s.spdm t
    let sessions := x.sessions.map (fun (e : Nat × Bool) => if e.1 = session then (session, true) else e)
    execFinish t session true s = .next ((s.setSpdm t { x with sessions := sessions }).spdmAnswer t SpdmRsp.finishRsp [session]) :=
  (State.onSpdm_ready ht hup hnegotiated).trans (congrArg _ (if_neg (by rw [hopened]; decide)))

end

/-! ### Messages of a finished session (R510, R511) -/

section

variable {s : State} {t session : Nat} (ht : t < 2) (hup : s.up = true) (hnegotiated : (s.spdm t).negotiated = true)
    (hfinished : (s.spdm t).sessions.contains (session, true) = true)
include ht hup hnegotiated hfinished

theorem execVendorDefinedRequest_ide (op arg : Nat) : execVendorDefinedRequest t session 0 op arg s = .next (s.ideKm t op arg) :=
  (State.inSession_finished (by omega) hup hnegotiated hfinished).trans (congrArg _ ((if_neg (by omega)).trans (if_pos rfl)))

theorem execVendorDefinedRequest_tdisp (op arg : Nat) : execVendorDefinedRequest t session 1 op arg s = .next (s.tdisp t op arg) :=
  (State.inSession_finished (by omega) hup hnegotiated hfinished).trans (congrArg _ ((if_neg (by omega)).trans (if_neg (by decide))))

theorem execLockInterface_locks {f stream : Nat} (hf : f < 512) (hport : portOf f = t) (hidle : s.fnState f = 1)
    (hunlocked : s.o f 0x9011 1 = 0) (hstream : stream < 4) :
    let u := (s.setO f 0x9011 1 1).spdmAnswer t SpdmRsp.vendorDefined [1, 2, f]
    execLockInterface f t session stream s = .next { u with sec := { u.sec with tdiBound := SMap.put f (stream + 1) u.sec.tdiBound } } :=
  (State.inSession_finished (by omega) hup hnegotiated hfinished).trans
    (congrArg _ ((if_neg (by omega)).trans (if_pos ⟨hf, hport, hidle, hunlocked, hstream⟩)))

end

/-! ### The fused SVN and the debug unlock (R501, R511) -/

theorem execSvnCommit_raises {path : Path} {s : State} {r : ObjRow} (hwrite : s.LetsWrite path 1023 0x9001 3 none 1 r)
    (habove : s.g 0x9001 1 < s.imageSvn) (hlocked : s.g 0xF000 1 = 0) (hcommit : s.g 0x5018 1 ≠ 3)
    (hprepared : (s.isMaster && s.domain.fwPrepared) = false) : execSvnCommit path s = .next (s.written
      (({ s with sec := { s.sec with svnRaised := true } } : State).setG 0x9001 1 s.imageSvn).rebuildColophon r path 1023 0x9001 3 1) := by
  have hrule : svnRule r s = .ok (({ s with sec := { s.sec with svnRaised := true } } : State).setG 0x9001 1 s.imageSvn).rebuildColophon :=
    ensure_bind_of_true (by rw [hprepared]; simp [habove, hlocked, hcommit])
  exact congrArg _ (State.access_ok hwrite hrule)

theorem execSvnCommit_denied {path : Path} {s : State} {r : ObjRow} (hwrite : s.LetsWrite path 1023 0x9001 3 none 1 r)
    (hbelow : s.imageSvn ≤ s.g 0x9001 1) : execSvnCommit path s = .next (s.respond path Status.accessDenied 0 []) := by
  have hrule : svnRule r s = .error ⟨Status.accessDenied, 0⟩ := ensure_bind_of_false (by simp [Nat.not_lt.2 hbelow])
  exact congrArg _ (State.access_refused hwrite hrule)

theorem execUnlockNonceRead_answers {path : Path} {s : State} {r : ObjRow} (hpow : s.powered = true) (hgate : s.gate path = none)
    (hup : s.up = true) (hreach : s.reach path 1023 0xF000 2 = some r) (hright : s.hasRight path r 0 = true) :
    let t := s.fresh.2.setG 0xF000 2 (s.fresh.1 % 2 ^ 128)
    execUnlockNonceRead path s = .next (({ t with sec := { t.sec with nonceLive := true } } : State).respond path Status.ok 16
      (leBytes 16 (s.fresh.1 % 2 ^ 128))) := by
  simp only [execUnlockNonceRead, hpow, hgate, hup, hreach, hright]
  rfl

section

variable {path : Path} {k : UnlockToken} {s : State} {r : ObjRow} (hwrite : s.LetsWrite path 1023 0xF000 3 none 0 r)
    (hshaped : tokenShaped k = true)
include hwrite hshaped

theorem State.tokenWrite_unlocks (htoken : s.tokenOk k = true) (hquiet : s.liveCells = []) :
    let t := s.setG 0x5018 1 5
    let t : State := { t with sec := { t.sec with nonceLive := false, unlocking := true, unlockScope := k.scope } }
    s.tokenWrite path none k = s.written t.finishUnlock r path 1023 0xF000 3 0 := by
  intro t t'
  have hrule : tokenRule k r s = .ok t'.finishUnlock :=
    (ensure_bind_of_true hshaped).trans ((ensure_bind_of_true htoken).trans (if_pos (List.isEmpty_iff.2 hquiet)))
  unfold State.tokenWrite
  rw [State.access_ok hwrite hrule]
  exact if_neg (by simp [hshaped, htoken])

/-- A token that does not verify is denied and counted in G:0xF000.05. -/
theorem State.tokenWrite_denied (htoken : s.tokenOk k = false) :
    s.tokenWrite path none k = (s.respond path Status.accessDenied 0 []).addG 0xF000 5 1 := by
  have hrule : tokenRule k r s = .error ⟨Status.accessDenied, 0⟩ :=
    (ensure_bind_of_true hshaped).trans (ensure_bind_of_false htoken)
  unfold State.tokenWrite
  rw [State.access_refused hwrite hrule]
  exact if_pos (by simp [hwrite.powered, hwrite.gate, hwrite.checks, htoken])

end

/-- Settles O59: the responder answers what a connection is ready for, and the SVN, the token and the entropy test keep their rules. -/
theorem securityCommandsAnswer : Obligations.SecurityCommandsAnswer := by
  refine ⟨fun t s ht hup => ⟨?version, fun hversion => ?capabilities, fun hcaps => ⟨fun b => ?algorithms, fun last bytes => ?send,
        fun offset => ?get⟩, fun hnegotiated => ?negotiated, fun hearly => ?early⟩,
    fun path s r hwrite => ⟨execSvnCommit_raises hwrite, execSvnCommit_denied hwrite⟩,
    fun path s r hpow hgate hup hreach hright => execUnlockNonceRead_answers hpow hgate hup hreach hright,
    fun path k s r hwrite hshaped => ⟨fun htoken hquiet => congrArg _ (State.tokenWrite_unlocks hwrite hshaped htoken hquiet),
      fun htoken => congrArg _ (State.tokenWrite_denied hwrite hshaped htoken)⟩,
    fun s => ⟨fun hpow => if_neg (by simp [hpow]), rfl⟩⟩
  case version => unfold exec execGetVersion; exact State.onSpdm_ready ht hup rfl
  case capabilities => unfold exec execGetCapabilities; exact State.onSpdm_ready ht hup hversion
  case algorithms => unfold exec execNegotiateAlgorithms; exact State.onSpdm_ready ht hup hcaps
  case send => unfold exec execChunkSend; exact State.onSpdm_ready ht hup hcaps
  case get => unfold exec execChunkGet; exact State.onSpdm_ready ht hup hcaps
  case early =>
    unfold exec execGetDigests execKeyExchange
    exact ⟨State.onSpdm_unready ht hup hearly, State.onSpdm_unready ht hup hearly⟩
  case negotiated =>
    refine ⟨?digests, fun offset length hoffset => execGetCertificate_portion ht hup hnegotiated length hoffset,
      ?challenge, fun i hfirst hlast => ⟨execGetMeasurements_one ht hup hnegotiated false hfirst hlast,
        execGetMeasurements_one ht hup hnegotiated true hfirst hlast⟩,
      execKeyExchange_opens ht hup hnegotiated, execKeyExchange_untested ht hup hnegotiated, execKeyExchange_full ht hup hnegotiated,
      fun session hopened => execFinish_finishes ht hup hnegotiated hopened, fun session hfinished => ⟨?ended, ?heartbeat, ?updated,
      fun hport op arg => ⟨execVendorDefinedRequest_ide hport hup hnegotiated hfinished op arg,
        execVendorDefinedRequest_tdisp hport hup hnegotiated hfinished op arg⟩,
      fun hport f stream hf hown hidle hunlocked hstream =>
        execLockInterface_locks hport hup hnegotiated hfinished hf hown hidle hunlocked hstream⟩⟩
    case digests => unfold exec execGetDigests; exact State.onSpdm_ready ht hup hnegotiated
    case challenge => unfold exec execChallenge; exact State.onSpdm_ready ht hup hnegotiated
    case ended => unfold exec execEndSession; exact State.inSession_finished ht hup hnegotiated hfinished
    case heartbeat => unfold exec execHeartbeat; exact State.inSession_finished ht hup hnegotiated hfinished
    case updated => unfold exec execKeyUpdate; exact State.inSession_finished ht hup hnegotiated hfinished

end Sys2Proof.Machine
end

section
/-!
PROOFS. Dictionary accesses: which objects a path reaches, writes, reads and INFO (O11-O13, O15).
-/

namespace Sys2Proof.Machine

/-! ### What the checks of an access decide (R516, R519, R522) -/

section

variable {s : State} {path : Path} {sel index sub : Nat} (hup : s.up = true)

section

variable {length : Option Nat} {value : Nat}
include hup

theorem State.checkWrite_missing (hreach : s.reach path sel index sub = none) :
    s.checkWrite path sel index sub length value = .error ⟨Status.addressInvalid, 0⟩ := by
  unfold State.checkWrite
  rw [ensure_bind_of_true (by simp [hup]), hreach]

theorem State.checkWrite_unwritable {r : ObjRow} (hreach : s.reach path sel index sub = some r)
    (hright : s.mayWrite path r sel index = false) :
    s.checkWrite path sel index sub length value = .error ⟨Status.accessDenied, 0⟩ := by
  unfold State.checkWrite
  rw [ensure_bind_of_true (by simp [hup]), hreach]
  exact ensure_bind_of_false hright

end

/-- A write that the checks let through names an object that its path reaches. -/
theorem State.LetsWrite.reach {length : Option Nat} {value : Nat} {r : ObjRow} (hwrite : s.LetsWrite path sel index sub length value r) :
    s.reach path sel index sub = some r := by
  have hchecks := hwrite.checks
  unfold State.checkWrite ensure at hchecks
  cases hreach : s.reach path sel index sub with
  | none => simp only [hreach] at hchecks; split at hchecks <;> cases hchecks
  | some found =>
    simp only [hreach] at hchecks
    split_ifs at hchecks
    all_goals cases hchecks
    rfl

include hup

theorem State.checkRead_missing (hreach : s.reach path sel index sub = none) :
    s.checkRead path sel index sub = .error ⟨Status.addressInvalid, 0⟩ := by
  unfold State.checkRead
  rw [ensure_bind_of_true (by simp [hup]), hreach]

variable {r : ObjRow} (hreach : s.reach path sel index sub = some r)
include hreach

theorem State.checkRead_unreadable (hright : s.hasRight path r 0 = false) :
    s.checkRead path sel index sub = .error ⟨Status.accessDenied, 0⟩ := by
  unfold State.checkRead
  rw [ensure_bind_of_true (by simp [hup]), hreach]
  exact ensure_bind_of_false (by simp [hright])

theorem State.checkRead_readable (hright : s.hasRight path r 0 = true) (hindex : index ≠ 0x1104) :
    s.checkRead path sel index sub = .ok r := by
  unfold State.checkRead
  rw [ensure_bind_of_true (by simp [hup]), hreach]
  exact ensure_bind_of_true (by simp [hright, hindex])

end

/-! ### Reads (R528, R529) -/

section

variable {s : State} {path : Path} {sel index sub : Nat}

theorem State.dictRead_open (offset length : Nat) (hpow : s.powered = true) (hgate : s.gate path = none) :
    s.dictRead path sel index sub offset length = s.readCore path sel index sub offset length := by
  unfold State.dictRead
  rw [if_neg (by simp [hpow]), hgate]

theorem State.dictRead_closed {t : State} (offset length : Nat) (hpow : s.powered = true) (hgate : s.gate path = some t) :
    s.dictRead path sel index sub offset length = t := by
  unfold State.dictRead
  rw [if_neg (by simp [hpow]), hgate]

theorem State.readCore_refused {e : Refused} (offset length : Nat) (hread : s.checkRead path sel index sub = .error e) :
    s.readCore path sel index sub offset length = s.respond path e.status e.detail [] := by
  unfold State.readCore
  rw [hread]
  rfl

/-- A read from the start latches the object's bytes for its requester and answers the part it asks for. -/
def State.firstRead (s : State) (path : Path) (r : ObjRow) (sel index sub length : Nat) : State :=
  let b := s.readBytes r sel index sub
  let t : State := { b.2 with latches := b.2.latches.filter (fun l => l.1 != requester path) ++
    [(requester path, objKey sel index sub, b.2.tb2us, b.1)] }
  t.respond path Status.ok b.1.length (b.1.take length)

variable {r : ObjRow} {length : Nat} (hread : s.checkRead path sel index sub = .ok r) (hlength : length ≤ 2048)
include hread hlength

theorem State.readCore_first : s.readCore path sel index sub 0 length = s.firstRead path r sel index sub length := by
  unfold State.readCore
  rw [hread, except_ok, ensure_bind_of_true (by simp [hlength])]
  rfl

/-- A read at another offset is served from the latch of its requester. -/
theorem State.readCore_latched {offset : Nat} {l : Path × Nat × Nat × List Byte} (haligned : offset % 4 = 0) (hoffset : offset ≠ 0)
    (hlatch : s.latches.find? (fun l => l.1 == requester path && l.2.1 == objKey sel index sub) = some l) (hinside : offset < l.2.2.2.length) :
    s.readCore path sel index sub offset length = s.respond path Status.ok l.2.2.2.length ((l.2.2.2.drop offset).take length) := by
  unfold State.readCore
  rw [hread, except_ok, ensure_bind_of_true (by simp [hlength, haligned]), if_neg hoffset, hlatch]
  simp only [ensure_bind_of_true (show decide (offset < l.2.2.2.length) = true by simpa using hinside)]
  rfl

end

/-! ### Writes by their objects (R526) -/

section

variable {s : State} {path : Path} {sel index sub length value : Nat} (htoken : ¬(sel = 1023 ∧ index = 0xF000 ∧ sub = 3))
include htoken

theorem State.plainWrite_of_not_token : s.plainWrite path sel index sub length value =
    s.access path sel index sub (some length) value (writeRule path sel index sub value) := if_neg htoken

theorem execObjectWrite_takes {t : State} {r : ObjRow} (hremote : ¬(sel = 1023 ∧ index = 0x1104 ∧ sub = 2))
    (hwrite : s.LetsWrite path sel index sub (some length) value r) (hrule : writeRule path sel index sub value r s = .ok t) :
    execObjectWrite path sel index sub length value s = .next (s.written t r path sel index sub value) := by
  unfold execObjectWrite
  rw [if_neg hremote, State.plainWrite_of_not_token htoken, State.access_ok hwrite hrule]

theorem execObjectWrite_checked {e : Refused} (hpow : s.powered = true) (hgate : s.gate path = none)
    (hchecks : s.checkWrite path sel index sub (some length) value = .error e) :
    execObjectWrite path sel index sub length value s = .next (s.respond path e.status e.detail []) := by
  unfold execObjectWrite
  rw [State.plainWrite_of_not_token htoken, State.access_checked hpow hgate hchecks, State.access_checked hpow hgate hchecks, ite_self]

end

theorem State.access_closed {s t : State} {path : Path} {sel index sub : Nat} {len : Option Nat} {value : Nat}
    {rule : ObjRow → State → Except Refused State} (hpow : s.powered = true) (hgate : s.gate path = some t) :
    s.access path sel index sub len value rule = t := by
  unfold State.access
  rw [if_neg (by simp [hpow]), hgate]

/-- A path that its gate closes leaves what the gate leaves, whatever object is written. -/
theorem execObjectWrite_closed {s t : State} {path : Path} (sel index sub length value : Nat) (hpow : s.powered = true)
    (hgate : s.gate path = some t) : execObjectWrite path sel index sub length value s = .next t := by
  have htoken (len : Option Nat) (k : UnlockToken) : s.tokenWrite path len k = t := by
    unfold State.tokenWrite
    rw [State.access_closed hpow hgate]
    exact if_neg (by simp [hgate])
  unfold execObjectWrite State.plainWrite
  rw [State.access_closed hpow hgate, State.access_closed hpow hgate, htoken, ite_self, ite_self]

/-- Settles O11: a write through the checks leaves what its rule makes, one that they turn away leaves its response alone. -/
theorem objectWritesTakeEffectOrChangeNothing : Obligations.ObjectWritesTakeEffectOrChangeNothing :=
  ⟨fun _ _ _ _ _ _ _ _ _ hremote htoken hwrite hrule => execObjectWrite_takes htoken hremote hwrite hrule,
    fun _ _ _ _ _ _ _ _ htoken hpow hgate hchecks => execObjectWrite_checked htoken hpow hgate hchecks⟩

/-! ### Objects that do not exist (R516) -/

/-- No path reaches an object that no table defines, that is an absent function's, or that is the radio's under another selector. -/
theorem State.reach_none {s : State} (path : Path) {sel index sub : Nat}
    (hmissing : (sub = 0 ∧ Dict.maxSub sel index = 0) ∨ (sub ≠ 0 ∧ Dict.find sel index sub = none) ∨
      (sel < 512 ∧ s.present sel = false ∧ index ≠ 0x3000 ∧ index ≠ 0x3020 ∧ index ≠ 0x3040) ∨
      (sub ≠ 0 ∧ ∃ r, Dict.find sel index sub = some r ∧ r.owner = .radio ∧ sel ≠ s.radioOwner)) :
    s.reach path sel index sub = none := by
  rcases hmissing with ⟨hsub, hmax⟩ | ⟨hsub, hfind⟩ | ⟨hfn, habsent, hstate, hgrant, hbind⟩ | ⟨hsub, r, hfind, hradio, howner⟩
  · simp [State.reach, hsub, hmax]
  · simp [State.reach, hsub, hfind]
  · simp [State.reach, Nat.not_le.2 hfn, habsent, hstate, hgrant, hbind]
  · simp [State.reach, hsub, hfind, hradio, howner]

theorem Dict.find_holds {sel index sub : Nat} {r : ObjRow} (hfind : Dict.find sel index sub = some r) : r.owner.holds sel = true := by
  have hrow := List.find?_some hfind
  simp only [Bool.and_eq_true] at hrow
  exact hrow.1

/-- Every path reaches every device-global object. -/
theorem State.reach_device {s : State} (path : Path) {index sub : Nat} {r : ObjRow} (hsub : sub ≠ 0)
    (hfind : Dict.find 1023 index sub = some r) : s.reach path 1023 index sub = some r := by
  have howner : r.owner ≠ .radio := fun hradio => absurd (Dict.find_holds hfind) (by rw [hradio]; decide)
  cases path <;> simp [State.reach, hsub, hfind, howner]

theorem State.writes_and_reads_missing {s : State} {path : Path} {sel index sub : Nat} (length value offset : Nat) (hup : s.up = true)
    (hgate : s.gate path = none) (htoken : ¬(sel = 1023 ∧ index = 0xF000 ∧ sub = 3)) (hreach : s.reach path sel index sub = none) :
    execObjectWrite path sel index sub length value s = .next (s.respond path Status.addressInvalid 0 []) ∧
    execDictRead path sel index sub offset length s = .next (s.respond path Status.addressInvalid 0 []) := by
  have hpow := State.powered_of_up hup
  exact ⟨execObjectWrite_checked htoken hpow hgate (State.checkWrite_missing hup hreach),
    congrArg _ ((State.dictRead_open offset length hpow hgate).trans (State.readCore_refused offset length (State.checkRead_missing hup hreach)))⟩

/-- Settles O12: what no path reaches is ADDRESS_INVALID, and a device-global object is reached on every path. -/
theorem missingObjectIsAddressInvalid : Obligations.MissingObjectIsAddressInvalid :=
  ⟨fun path _ _ _ length value _ hup hgate htoken hmissing =>
      State.writes_and_reads_missing length value 0 hup hgate htoken (State.reach_none path hmissing),
    fun path _ _ _ _ hsub hfind => State.reach_device path hsub hfind⟩

/-! ### Roles of a path (R519, R531) -/

section

variable {s : State} {m : Nat} {tbit : Bool} {r : ObjRow}

theorem State.roles_manager (hm : isMgr m = true) : s.roles (.window m tbit) = [2] := if_pos hm

theorem State.roles_virtual {f : Nat} (hf : f < 512) : s.roles (.window f tbit) = [4] :=
  if_neg (by simp [isMgr]; omega)

/-- A manager writes no object of a function that it does not manage. -/
theorem State.mayWrite_foreign {sel : Nat} (index : Nat) (hm : isMgr m = true) (hsel : sel < 514) (hforeign : mgrOf sel ≠ m) :
    s.mayWrite (.window m tbit) r sel index = false := by
  have hself : sel ≠ m := by
    rintro rfl
    simp only [isMgr, Bool.or_eq_true, beq_iff_eq] at hm
    rcases hm with rfl | rfl <;> exact hforeign (by decide)
  have hdevice : sel ≠ 1023 := by omega
  simp only [State.mayWrite, State.roles_manager hm]
  simp [hm, hself, hdevice, hforeign]

theorem State.mayWrite_virtual {f : Nat} (sel index : Nat) (hf : f < 512) (hright : fld r.acc 5 1 = 0) :
    s.mayWrite (.window f tbit) r sel index = false := by
  simp [State.mayWrite, State.hasRight, State.roles_virtual hf, hright]

end

section

variable {s : State} {path : Path} {sel index sub : Nat} {r : ObjRow} (length : Nat) (hup : s.up = true) (hgate : s.gate path = none)
    (hreach : s.reach path sel index sub = some r)
include hup hgate hreach

theorem execDictRead_unreadable (hright : s.hasRight path r 0 = false) :
    execDictRead path sel index sub 0 length s = .next (s.respond path Status.accessDenied 0 []) :=
  congrArg _ ((State.dictRead_open 0 length (State.powered_of_up hup) hgate).trans
    (State.readCore_refused 0 length (State.checkRead_unreadable hup hreach hright)))

theorem execDictRead_readable (hright : s.hasRight path r 0 = true) (hindex : index ≠ 0x1104) (hlength : length ≤ 2048) :
    execDictRead path sel index sub 0 length s = .next (s.firstRead path r sel index sub length) :=
  congrArg _ ((State.dictRead_open 0 length (State.powered_of_up hup) hgate).trans
    (State.readCore_first (State.checkRead_readable hup hreach hright hindex) hlength))

theorem execObjectWrite_unwritable (value : Nat) (htoken : ¬(sel = 1023 ∧ index = 0xF000 ∧ sub = 3))
    (hright : s.mayWrite path r sel index = false) :
    execObjectWrite path sel index sub length value s = .next (s.respond path Status.accessDenied 0 []) :=
  execObjectWrite_checked htoken (State.powered_of_up hup) hgate (State.checkWrite_unwritable hup hreach hright)

end

theorem State.hasRight_of_role {s : State} {path : Path} {k : Nat} (r : ObjRow) (hroles : s.roles path = [k]) :
    s.hasRight path r 0 = (fld r.acc k 1 == 1) := by
  simp [State.hasRight, hroles]

/-- The window of a virtual function sees no other function. -/
theorem State.reach_foreign {s : State} {f sel : Nat} (tbit : Bool) (index sub : Nat) (hf : f < 512) (hother : sel ≠ f) (hdevice : sel ≠ 1023) :
    s.reach (.window f tbit) sel index sub = none := by
  have hmgr : isMgr f = false := by simp [isMgr]; omega
  simp [State.reach, hmgr, hother, hdevice]

/-- A VDM path that is closed counts the message (R531). -/
theorem State.gate_vdm_closed {s : State} {p : Nat} (hp : p < 2) (hclosed : s.g 0x1100 (p + 2) = 0) :
    s.gate (.vdm p) = some (s.addG 0x1101 6 1) :=
  (if_neg (Nat.not_le.2 hp)).trans (if_neg (by rw [hclosed]; decide))

/-- The objects that open the VDM paths are stored. -/
theorem Dict.find_vdmOpen_stored {sub : Nat} {r : ObjRow} (hsub : sub = 2 ∨ sub = 3) (hfind : Dict.find 1023 0x1100 sub = some r) :
    r.stored = true := by
  have hstored : ∀ sub ∈ [2, 3], (Dict.find 1023 0x1100 sub).all (·.stored) = true := by decide +kernel
  have hrow := hstored sub (by simpa using hsub)
  rwa [hfind] at hrow

section

variable {s : State} {path : Path} {sub value : Nat} {r : ObjRow} (hsub : sub = 2 ∨ sub = 3)
    (hwrite : s.LetsWrite path 1023 0x1100 sub (some 1) value r)
include hsub hwrite

/-- Only the I3C path writes the objects that open the VDM paths. -/
theorem writeRule_vdmOpen :
    writeRule path 1023 0x1100 sub value r s = guarded (path == .i3c) (storeRule 1023 0x1100 sub value) r s := by
  rcases hsub with rfl | rfl <;> rfl

theorem execObjectWrite_vdmOpen_i3c (hpath : path = .i3c) :
    execObjectWrite path 1023 0x1100 sub 1 value s = .next (s.queueStored path 1023 0x1100 sub value) := by
  have hrow : r.stored = true := by
    have hreach := hwrite.reach
    have hne : sub ≠ 0 := by omega
    simp only [State.reach, if_neg hne] at hreach
    cases hfind : Dict.find 1023 0x1100 sub with
    | none => simp [hfind] at hreach
    | some found =>
      simp only [hfind] at hreach
      split_ifs at hreach
      cases hreach
      exact Dict.find_vdmOpen_stored hsub hfind
  have hrule := writeRule_vdmOpen hsub hwrite
  rw [hpath] at hrule hwrite ⊢
  obtain ⟨t, ht⟩ : ∃ t, storeRule 1023 0x1100 sub value r s = .ok t := ⟨_, rfl⟩
  refine (execObjectWrite_takes (by simp) (by simp) hwrite (hrule.trans ht)).trans (congrArg _ (if_pos hrow))

theorem execObjectWrite_vdmOpen_other (hpath : path ≠ .i3c) :
    execObjectWrite path 1023 0x1100 sub 1 value s = .next (s.respond path Status.accessDenied 0 []) := by
  have hrule : writeRule path 1023 0x1100 sub value r s = .error ⟨Status.accessDenied, 0⟩ :=
    (writeRule_vdmOpen hsub hwrite).trans (if_neg (by simpa using hpath))
  unfold execObjectWrite
  rw [if_neg (by simp), State.plainWrite_of_not_token (by simp), State.access_refused hwrite hrule]

end

/-- Settles O13: each path writes and reads by the rights of its role, and a closed one only counts. -/
theorem rolesReachTheirSelectors : Obligations.RolesReachTheirSelectors := by
  unfold Obligations.RolesReachTheirSelectors
  intro reads
  refine ⟨fun m tbit sel index sub length value s r hm hsel hforeign hup hgate hreach => ?manager,
    fun f tbit sel index sub length value s r hf _ htoken hup hgate hreach => ?virtual,
    fun f tbit sel index sub length value offset s hf hother hdevice hup hgate => ?foreign,
    fun p sel index sub length value offset s hp hpow hclosed => ?closed,
    fun path sub value s r hsub hwrite => ⟨execObjectWrite_vdmOpen_i3c hsub hwrite, execObjectWrite_vdmOpen_other hsub hwrite⟩⟩
  case manager =>
    have hright := s.hasRight_of_role r (s.roles_manager (tbit := tbit) hm)
    exact ⟨execObjectWrite_unwritable length hup hgate hreach value (by omega) (State.mayWrite_foreign index hm hsel hforeign),
      fun hset => execDictRead_readable length hup hgate hreach (by simp [hright, hset]),
      fun hclear => execDictRead_unreadable length hup hgate hreach (by simp [hright, hclear])⟩
  case virtual =>
    have hright := s.hasRight_of_role r (s.roles_virtual (tbit := tbit) hf)
    exact ⟨fun hclear => execObjectWrite_unwritable length hup hgate hreach value htoken (State.mayWrite_virtual sel index hf hclear),
      fun hset => execDictRead_readable length hup hgate hreach (by simp [hright, hset]),
      fun hclear => execDictRead_unreadable length hup hgate hreach (by simp [hright, hclear])⟩
  case foreign =>
    exact State.writes_and_reads_missing length value offset hup hgate (by omega) (State.reach_foreign tbit index sub hf hother hdevice)
  case closed =>
    have hgate := State.gate_vdm_closed hp hclosed
    exact ⟨execObjectWrite_closed sel index sub length value hpow hgate, congrArg _ (State.dictRead_closed offset length hpow hgate)⟩

/-! ### Reads, INFO and latches (R528, R529, R547) -/

/-- Settles O15: a read latches, a later part comes from the latch, INFO answers the row, and a latch lives one second. -/
theorem readsAnswer : Obligations.ReadsAnswer := by
  refine ⟨fun path sel index sub length s r hpow hgate hread hlength => ?first,
    fun path sel index sub offset length s r l hpow hgate hread hlength haligned hoffset hlatch hinside => ?later,
    fun path sel index sub s r hpow hgate hup hreach => ?info, fun path s => ⟨_, rfl, rfl, fun l => ?expiry⟩⟩
  case first =>
    exact ⟨congrArg _ ((State.dictRead_open 0 length hpow hgate).trans (State.readCore_first hread hlength)),
      congrArg _ ((State.dictRead_open 0 272 hpow hgate).trans (State.readCore_first hread (by decide)))⟩
  case later =>
    exact congrArg _ ((State.dictRead_open offset length hpow hgate).trans
      (State.readCore_latched hread hlength haligned hoffset hlatch hinside))
  case info =>
    change execDictInfo path sel index sub s = _
    simp only [execDictInfo, State.infoCore, hpow, hgate, hup, hreach]
    rfl
  case expiry =>
    simp only [List.mem_filter, Bool.or_eq_true, bne_iff_ne, decide_eq_true_eq]
    tauto

end Sys2Proof.Machine
end

section
/-!
PROOFS. The state after reset, and stored writes (O7, O8, O14).
-/

namespace Sys2Proof.Machine

/-! ### The state after reset (R482, R525) -/

/-- Settles O7: the state after reset keeps nothing, so its queue and every store are in form. -/
theorem resetIsCanonical : Obligations.ResetIsCanonical :=
  ⟨⟨by decide, by decide, by decide⟩, rfl, rfl⟩

theorem objKey_sel {sel index sub : Nat} (hindex : index < 65536) (hsub : sub < 256) : objKey sel index sub / 2 ^ 24 = sel := by
  unfold objKey; omega
theorem objKey_index {sel index sub : Nat} (hindex : index < 65536) (hsub : sub < 256) :
    objKey sel index sub / 2 ^ 8 % 2 ^ 16 = index := by
  unfold objKey; omega
theorem objKey_sub {sel index sub : Nat} (hsub : sub < 256) : objKey sel index sub % 2 ^ 8 = sub := by
  unfold objKey; omega

/-- The default of an object is that of its row. -/
theorem objDflt_of_find {key sel index sub : Nat} {r : ObjRow} (hsel : key / 2 ^ 24 = sel) (hindex : key / 2 ^ 8 % 2 ^ 16 = index)
    (hsub : key % 2 ^ 8 = sub) (hfind : Dict.find sel index sub = some r) : objDflt key = r.dflt := by
  subst hsel hindex hsub
  unfold objDflt
  rw [hfind]

/-- Settles O8: the store of a reset is empty, so every object is at its default, and nothing runs. -/
theorem resetHoldsDefaults : Obligations.ResetHoldsDefaults :=
  ⟨fun _ _ _ _ hindex hsub hfind => (SMap.get_nil _).trans
      (objDflt_of_find (objKey_sel hindex hsub) (objKey_index hindex hsub) (objKey_sub hsub) hfind),
    fun _ => rfl, rfl, rfl, rfl, rfl, rfl⟩

/-! ### Stored writes (R526) -/

/-- Settles O14: the oldest stored write leaves the queue and is committed or undone by what the flash did. -/
theorem storedWriteCommits : Obligations.StoredWriteCommits := by
  intro path key value rest s hpow hqueue
  have hpowered : ¬ (!s.powered) = true := by simp [hpow]
  constructor
  case left =>
    change execStoredWriteCommit true s = _
    simp only [execStoredWriteCommit, hqueue, if_neg hpowered]
    rfl
  case right =>
    change execStoredWriteCommit false s = _
    simp only [execStoredWriteCommit, hqueue, if_neg hpowered]
    rfl

end Sys2Proof.Machine
end

section
/-!
PROOFS. Holder objects and the settings of a holder's pins and timers (O16, O17).
-/

namespace Sys2Proof.Machine

/-! ### Holder objects (R534, R535) -/

section

variable {path : Path} {index sub value : Nat} {s : State} {r : ObjRow} (hclock : index ≠ 0xA004) (hradio : index ≠ 0xA005)
include hclock hradio

/-- A write of the selector that holds the resource changes nothing. -/
theorem holderRule_same (hvalue : value = none16 ∨ isFn value = true) (hsame : value = s.g index sub) :
    holderRule path index sub value r s = .ok s := by
  have hshape : ¬ (value ≠ none16 ∧ isFn value = false) := by rcases hvalue with h | h <;> simp [h]
  unfold holderRule
  rw [if_neg hradio, if_neg hclock, if_neg hshape, if_pos hsame]

theorem holderRule_claim (hvalue : isFn value = true) (hfree : s.g index sub = none16) (hmay : mayClaim path index value = true) :
    holderRule path index sub value r s = .ok (s.putHolder index sub value) := by
  have hother : value ≠ s.g index sub := by
    rintro rfl
    rw [hfree] at hvalue
    exact absurd hvalue (by decide)
  unfold holderRule
  rw [if_neg hradio, if_neg hclock, if_neg (by simp [hvalue]), if_neg hother, if_pos hfree, if_pos hmay]

variable (hheld : s.g index sub ≠ none16)
include hheld

theorem holderRule_release (hacts : actsFor path (s.g index sub) = true) :
    holderRule path index sub none16 r s = .ok (s.putHolder index sub none16) := by
  unfold holderRule
  rw [if_neg hradio, if_neg hclock, if_neg (by simp), if_neg (Ne.symm hheld), if_neg hheld, if_pos ⟨rfl, hacts⟩]

variable (hother : value ≠ s.g index sub)
include hother

theorem holderRule_take (hvalue : isFn value = true ∨ value = none16) (hmay : mayTake path index (s.g index sub) = true)
    (htakeable : s.takeable index (s.g index sub) = true) :
    holderRule path index sub value r s = .ok (s.putHolder index sub value) := by
  have hshape : ¬ (value ≠ none16 ∧ isFn value = false) := by rcases hvalue with h | h <;> simp [h]
  unfold holderRule
  rw [if_neg hradio, if_neg hclock, if_neg hshape, if_neg hother, if_neg hheld, if_pos hmay, if_pos htakeable, ite_self]

theorem holderRule_held (hvalue : isFn value = true) (hmay : mayTake path index (s.g index sub) = false) :
    holderRule path index sub value r s = .error ⟨Status.resourceHeld, s.g index sub⟩ := by
  have hfn : value ≠ none16 := by
    rintro rfl
    exact absurd hvalue (by decide)
  unfold holderRule
  rw [if_neg hradio, if_neg hclock, if_neg (by simp [hvalue]), if_neg hother, if_neg hheld, if_neg (fun h => hfn h.1),
    if_neg (Bool.eq_false_iff.1 hmay)]

end

/-- The instructions that write a holder object by its rule. -/
theorem execHolder_access {path : Path} {index sub : Nat} (value : Nat) {s : State} (hholder : holderAt index sub = true) :
    execHolderClaim path index sub value s = .next (s.access path 1023 index sub none value (holderRule path index sub value)) ∧
    execHolderRelease path index sub s = .next (s.access path 1023 index sub none none16 (holderRule path index sub none16)) ∧
    execHolderTakeAway path index sub value s = .next (s.access path 1023 index sub none value (holderRule path index sub value)) :=
  have hknown : ¬ (!holderAt index sub) = true := by simp [hholder]
  ⟨if_neg hknown, if_neg hknown, if_neg hknown⟩

/-- Settles O16: a free resource is claimed, its holder gives it back, a party that may takes it away, and no other changes it. -/
theorem holdersChangeHands : Obligations.HoldersChangeHands := by
  refine ⟨fun path index sub sel s r hholder hclock hradio => ?changes,
    fun path index sub sel s r hholder hclock hradio hwrite hfn hheld => ?kept⟩
  case changes =>
    obtain ⟨hclaim, hrelease, htake⟩ := execHolder_access (path := path) sel (s := s) hholder
    exact ⟨fun hwrite hfn hfree hmay =>
        hclaim.trans (congrArg _ (State.access_ok hwrite (holderRule_claim hclock hradio hfn hfree hmay))),
      fun hwrite hheld hacts => hrelease.trans (congrArg _ (State.access_ok hwrite (holderRule_release hclock hradio hheld hacts))),
      fun hwrite hvalue hheld hother hmay htakeable =>
        htake.trans (congrArg _ (State.access_ok hwrite (holderRule_take hclock hradio hheld hother hvalue hmay htakeable)))⟩
  case kept =>
    obtain ⟨hclaim, -, -⟩ := execHolder_access (path := path) sel (s := s) hholder
    exact ⟨fun hother hmay =>
        hclaim.trans (congrArg _ (State.access_refused hwrite (holderRule_held hclock hradio hheld hother hfn hmay))),
      fun hsame => hclaim.trans (congrArg _ (State.access_ok hwrite (holderRule_same hclock hradio (.inr hfn) hsame)))⟩

/-! ### Settings of a resource (R536-R538) -/

section

variable {s : State} {path : Path} {index sub : Nat}

theorem State.byHolder_ok (hown : pathWriter path = some (s.g index sub)) : s.byHolder path index sub = .ok () := by
  rw [State.byHolder, hown, beq_self_eq_true]; rfl

theorem State.byHolder_refused (hother : pathWriter path ≠ some (s.g index sub)) :
    s.byHolder path index sub = .error ⟨Status.resourceHeld, s.g index sub⟩ :=
  if_neg (by simpa using hother)

end

section

variable {path : Path} {sub value : Nat} {r : ObjRow} {s : State}

theorem gpioRule_ok (hown : pathWriter path = some (s.g 0xA008 sub)) : gpioRule path sub value r s = .ok (s.setG 0xA00C sub value) := by
  rw [gpioRule, State.byHolder_ok hown]; rfl

theorem gpioRule_refused (hother : pathWriter path ≠ some (s.g 0xA008 sub)) :
    gpioRule path sub value r s = .error ⟨Status.resourceHeld, s.g 0xA008 sub⟩ := by
  rw [gpioRule, State.byHolder_refused hother]; rfl

theorem watchdogRule_ok (hown : pathWriter path = some (s.g 0xA009 sub)) (hmanager : fld value 16 2 = 2 → isMgr (s.g 0xA009 sub) = true) :
    watchdogRule path sub value r s = .ok ((s.setG 0xA00A sub value).openWindow sub) := by
  rw [watchdogRule, State.byHolder_ok hown, except_ok]
  exact ensure_bind_of_true (by simpa [Decidable.imp_iff_not_or] using hmanager)

/-- Only a manager holder may set the action of a warm reset. -/
theorem watchdogRule_action (hown : pathWriter path = some (s.g 0xA009 sub)) (haction : fld value 16 2 = 2)
    (hmanager : isMgr (s.g 0xA009 sub) = false) : watchdogRule path sub value r s = .error ⟨Status.accessDenied, 0⟩ := by
  rw [watchdogRule, State.byHolder_ok hown, except_ok]
  exact ensure_bind_of_false (by simp [haction, hmanager])

theorem watchdogRule_refused (hother : pathWriter path ≠ some (s.g 0xA009 sub)) :
    watchdogRule path sub value r s = .error ⟨Status.resourceHeld, s.g 0xA009 sub⟩ := by
  rw [watchdogRule, State.byHolder_refused hother]; rfl

theorem kickRule_ok (hown : pathWriter path = some (s.g 0xA009 sub)) (hinside : s.tb2us < s.windowEnd sub) :
    kickRule path sub r s = .ok (s.openWindow sub) := by
  rw [kickRule, State.byHolder_ok hown, except_ok, if_pos hinside]

theorem kickRule_refused (hother : pathWriter path ≠ some (s.g 0xA009 sub)) :
    kickRule path sub r s = .error ⟨Status.resourceHeld, s.g 0xA009 sub⟩ := by
  rw [kickRule, State.byHolder_refused hother]; rfl

end

/-- A timer whose window is over is counted and stopped, and acts. -/
theorem execWatchdogExpiry_over {timer : Nat} {s : State} (htimer : timer < 4) (hup : s.up = true)
    (harmed : fld (s.g 0xA00A (timer + 1)) 0 16 ≠ 0) (hover : s.windowEnd (timer + 1) ≤ s.tb2us) :
    let v := s.g 0xA00A (timer + 1)
    execWatchdogExpiry timer s =
      .next (((s.addG 0xA00D (timer + 1) 1).setG 0xA00A (timer + 1) (setFld v 0 16 0)).watchdogAct timer (fld v 16 2)) :=
  (if_neg (Nat.not_le.2 htimer)).trans (if_pos (by simp [hup, harmed, hover]))

/-- Settles O17: the holder's writes set its pin and its timer, others are refused, and a timer that is over performs its action. -/
theorem settingsBelongToTheHolder : Obligations.SettingsBelongToTheHolder := by
  refine ⟨fun path k value s r => ⟨fun hwrite => ?gpio, fun hwrite => ?arm, fun hwrite hown hinside => ?kick, fun hwrite hother => ?late⟩,
    fun k s hk hup harmed hover => execWatchdogExpiry_over hk hup harmed hover⟩
  case gpio =>
    exact ⟨fun hown => congrArg _ (State.access_ok hwrite (gpioRule_ok hown)),
      fun hother => congrArg _ (State.access_refused hwrite (gpioRule_refused hother))⟩
  case arm =>
    exact ⟨fun hown hmanager => congrArg _ (State.access_ok hwrite (watchdogRule_ok hown hmanager)),
      fun hown haction hmanager => congrArg _ (State.access_refused hwrite (watchdogRule_action hown haction hmanager)),
      fun hother => congrArg _ (State.access_refused hwrite (watchdogRule_refused hother))⟩
  case kick => exact congrArg _ (State.access_ok hwrite (kickRule_ok hown hinside))
  case late => exact congrArg _ (State.access_refused hwrite (kickRule_refused hother))

end Sys2Proof.Machine
end

section
/-!
PROOFS. The fabric path of the dictionary, the health score and MCTP control messages (O18, O19).
-/

namespace Sys2Proof.Machine

/-! ### Messages of the domain leave the objects alone -/

theorem State.obj_transmit (s : State) (l cls n dst : Nat) (m : Out) : (s.transmit l cls n dst m).obj = s.obj := by
  unfold State.transmit
  split <;> rfl

theorem State.obj_domainMsg (s : State) (dst kind a b : Nat) (data : List Byte) : (s.domainMsg dst kind a b data).obj = s.obj := by
  unfold State.domainMsg
  split
  · exact s.obj_transmit ..
  · rfl

/-! ### The fabric path (R533) -/

/-- The master has one access outstanding, to a member or to itself. -/
def State.submitted (s : State) (target h : Nat) : State :=
  { s with domain := { s.domain with remote := some (target, h), remoteSent := s.tb2us, remoteTry := false, answers := [] } }

/-- The request to one member leaves the device's own number. -/
theorem State.self_sendRemote {s : State} {target h : Nat} (hremote : s.domain.remote = some (target, h)) (hone : target ≠ 0x2000) :
    s.sendRemote.self = s.self := by
  unfold State.sendRemote
  rw [hremote]
  simp only [if_neg hone]
  split
  · rfl
  · unfold State.self State.g State.o
    rw [State.obj_domainMsg]

theorem submitRule_member {s : State} {h : Nat} {r : ObjRow} (hmaster : s.isMaster = true) (hidle : s.domain.remote = none)
    (hone : s.g 0x1104 1 ≠ 0x2000) (hother : s.g 0x1104 1 ≠ s.self) (hview : s.inView (s.g 0x1104 1) = true) :
    submitRule h r s = .ok (s.submitted (s.g 0x1104 1) h).sendRemote := by
  have hself : (s.submitted (s.g 0x1104 1) h).sendRemote.self = s.self := State.self_sendRemote rfl hone
  unfold submitRule
  rw [State.onMaster_ok hmaster, except_ok, ensure_bind_of_true (by simp [hidle]), ensure_bind_of_true (by simp [hone]),
    if_neg (by simp [hview])]
  refine congrArg _ (if_neg ?_)
  rintro (hall | hown)
  · exact hone hall
  · exact hother (hown.trans hself)

theorem execRemoteDictTimeout_waited {target h : Nat} {s : State} (hup : s.up = true) (hremote : s.domain.remote = some (target, h))
    (hone : target ≠ 0x2000) (hwaited : s.domain.remoteSent + 100000 ≤ s.tb2us) :
    execRemoteDictTimeout s = .next (s.remoteOutcome (responseHeader h Status.waitTimeout 0 0) []) := by
  unfold execRemoteDictTimeout
  rw [hremote]
  exact (if_pos (by simp [hup, hwaited])).trans (if_neg hone)

section

variable {h : Nat} {data : List Byte} {s : State} (hup : s.up = true) (hmember : s.isMember = true) (hidle : s.domain.applying = none)
include hup hmember hidle

/-- A request with a new tag is applied. -/
theorem execDictReq_new (hnew : ∀ k, s.domain.kept = some k → reqTag k.1 ≠ reqTag h) :
    execDictReq h data false s = .next (s.applyRequest h data) := by
  unfold execDictReq
  rw [if_neg (by simp [hup, hmember])]
  refine (if_neg (by simp [hidle])).trans ?_
  cases hkept : s.domain.kept with
  | none => simp [hkept]
  | some k => simp [hkept, hnew k hkept]

/-- A request with the tag of the last one is answered again. -/
theorem execDictReq_repeated {k : Nat × List Byte} (hkept : s.domain.kept = some k) (htag : reqTag k.1 = reqTag h) :
    execDictReq h data false s = .next (s.domainMsg s.dMaster 0x14 k.1 0 k.2) := by
  unfold execDictReq
  rw [if_neg (by simp [hup, hmember])]
  refine (if_neg (by simp [hidle])).trans ?_
  simp [hkept, htag]

end

theorem execDictResp_awaited {d h q : Nat} {data : List Byte} {s : State} (hd : d < 8192) (hup : s.up = true) (hmaster : s.isMaster = true)
    (hremote : s.domain.remote = some (d, q)) (htag : reqTag h = reqTag q) :
    execDictResp d h data s = .next (s.remoteOutcome h data) := by
  unfold execDictResp
  rw [if_neg (Nat.not_le.2 hd), hremote]
  exact (if_neg (by simp [hup, hmaster, htag])).trans (if_pos rfl)

/-- Settles O18: one access at a time is submitted, repeated, given up, applied once and answered. -/
theorem remoteAccessRuns : Obligations.RemoteAccessRuns :=
  ⟨fun _ _ _ _ hwrite hmaster hidle hone hother hview =>
      congrArg _ (State.access_ok hwrite (submitRule_member hmaster hidle hone hother hview)),
    fun _ hup hsent hfirst hwaited => if_pos (by simp [hup, hsent, hfirst, hwaited]),
    fun _ _ _ hup hremote hone hwaited => execRemoteDictTimeout_waited hup hremote hone hwaited,
    fun _ _ _ hup hmember hidle hnew => execDictReq_new hup hmember hidle hnew,
    fun _ _ _ _ hup hmember hidle hkept htag => execDictReq_repeated hup hmember hidle hkept htag,
    fun _ _ _ _ _ hd hup hmaster hremote htag => execDictResp_awaited hd hup hmaster hremote htag⟩

/-! ### The health score and MCTP control (R530, R545) -/

theorem execMctpControlMessage_i3c {command value : Nat} {s : State} (hcommand : command < 256) (hvalue : value < 256) (hpow : s.powered = true) :
    execMctpControlMessage .i3c command value s =
      let t := if command = 1 then s.setG 0x1100 1 value else s
      .next (t.send (.mctp .i3c command (t.g 0x1100 1))) :=
  (if_neg (by omega)).trans (if_neg (by simp [hpow]))

theorem execMctpControlMessage_vdm {p value : Nat} {s : State} (hp : p < 2) (hvalue : value < 256) (hpow : s.powered = true) :
    execMctpControlMessage (.vdm p) 1 value s =
      let t : State := { s with vdmEid := SMap.set (fun _ => 0) s.vdmEid p value }
      .next (t.send (.mctp (.vdm p) 1 (SMap.get (fun _ => 0) t.vdmEid p))) :=
  (if_neg (by omega)).trans ((if_neg (Nat.not_le.2 hp)).trans (if_neg (by simp [hpow])))

/-- Settles O19: the score is 1000 less the deductions, and each path sets the endpoint ID that is its own. -/
theorem healthAndControlMessages : Obligations.HealthAndControlMessages := by
  refine ⟨fun s hup hdue => if_pos (by simp [hup, hdue]), fun value s hvalue hpow =>
      ⟨execMctpControlMessage_i3c (by decide) hvalue hpow, execMctpControlMessage_i3c (by decide) hvalue hpow⟩,
    fun p value s hp hvalue hpow => (execMctpControlMessage_vdm hp hvalue hpow).trans ?_⟩
  simp only [SMap.get_set_same]

end Sys2Proof.Machine
end
